-- ==== Sys2Proof/Word.lean ====
section
/-! DEFINITION. The word types of the package and their plainest arithmetic. -/

namespace Sys2Proof

/-- A byte of memory. -/
abbrev Byte := BitVec 8

/-- A 16-bit word. -/
abbrev W16 := BitVec 16

/-- A 32-bit word: one lane of a vector register, one 32-bit register. -/
abbrev W32 := BitVec 32

/-- A 64-bit word: one scalar register, one 64-bit register. -/
abbrev W64 := BitVec 64

/-- A line of 128 bytes, the unit of the quadrant caches and of the homes. -/
abbrev Line := BitVec 1024

end Sys2Proof
end

