-- ==== Sys2Proof/Syntax.lean ====
section
/-! DEFINITION. The commands of the package: one constructor for each row of the table of operations and events, and
the operands they carry. -/

namespace Sys2Proof

/-- A requester of registers (00_scope, "Reach"; R8). -/
inductive Requester where
  | pf
  | vf (n : Fin 256)
  | steward (die : Fin 84)
  | taproot
  deriving DecidableEq, Repr

/-- The commit groups of the chapters (R26): R53, R341, R234, R286, R276, R291, R403, R414, R434. -/
inductive Group where
  | tbSrc | cnpLayout | qdcAlloc | homRsv | homMap | homHw | cnpQp | cnpBar4 | grgWin
  deriving DecidableEq, Repr

/-- A source of Ring samples: a Griga port, PTM, or a pulse input (R36, R37). -/
inductive RingSrc where
  | port (p : Fin 32)
  | ptm | pps0 | pps2
  deriving DecidableEq, Repr

/-- Which part of `TB_NOW` a read takes (R52). -/
inductive TbPart where
  | full | low | high
  deriving DecidableEq, Repr

/-- A fault record, field by field (R385). -/
structure FaultRec where
  cls : Nat := 0
  code : Nat := 0
  u : Bool := false
  fetch : Bool := false
  deferred : Bool := false
  ticket : Bool := false
  seq : Nat := 0
  time : Nat := 0
  context : Nat := 0
  partition : Nat := 0
  core : Nat := 0
  slot : Nat := 0
  die : Nat := 0
  instr : Nat := 0
  active : Nat := 0
  lanes : Nat := 0
  addr : Nat := 0
  info0 : Nat := 0
  info1 : Nat := 0
  deriving DecidableEq, Repr

/-- What a configuration request addresses: the standard registers the device's behaviour depends on (R309, R382, R393
to R397, R400); the spec gives no configuration offsets, so they are named. -/
inductive CfgReg where
  | ids | classRev | header | subsystem | serialLow | serialHigh | pmControl | deviceCap | aerUncorrectable
  | sriovControl | sriovVfs | sriovNumVfs | sriovOffset | sriovDevice | sriovPages | ptmCap | ptmControl
  | rebarCap | rebarControl | vfRebarCap | vfRebarControl
  | msixControl | atsControl | pasidControl | priControl | priCapacity
  deriving DecidableEq, Repr

/-- A doorbell page: of the PF's BAR2 or of a VF's BAR2 (R400). -/
inductive DoorPage where
  | pf (q : Fin 4096)
  | vf (v : Fin 256) (i : Fin 64)
  deriving DecidableEq, Repr

/-- A BAR4 access: a read of some bytes, or a write of bytes with or without the poisoned bit (R394, R401). -/
inductive BarAcc where
  | read (len : Nat)
  | write (data : List Byte) (ep : Bool)
  deriving DecidableEq, Repr

/-- How a device read of host memory completes (R394). -/
inductive HostStatus where
  | ok | poisoned | unsupported | aborted
  deriving DecidableEq, Repr

/-- A Griga message: its header and its payload (R422). -/
structure GMsg where
  dst : Nat := 0
  src : Nat := 0
  cls : Nat := 0
  op : Nat := 0
  tag : Nat := 0
  x : Nat := 0
  addr : Nat := 0
  len : Nat := 1
  route : Nat := 0
  hops : Nat := 0
  ptr : Nat := 0
  payload : List Byte := []
  deriving DecidableEq, Repr

/-- The sender's fields of a PRESENT or HOLD ordered set (R417). -/
structure Present where
  switch : Bool
  idValid : Bool
  id : Fin 16384
  port : Fin 64
  deriving DecidableEq, Repr

/-- Why conversion stops (R436). -/
inductive StopCause where
  | over300A | over400A | over62V | under46V
  deriving DecidableEq, Repr

/-- Where a temperature trips (R532). -/
inductive TripUnit where
  | die (d : Fin 84)
  | stack (n : Fin 32)
  deriving DecidableEq, Repr

/-- One sensor sample with its value (R456). -/
inductive Sample where
  | dieTemp (die : Fin 84) (sensor : Fin 8) (value : BitVec 16)
  | input (mV : BitVec 16) (tenMilliamp : BitVec 16)
  | rail7 (mV : BitVec 16)
  | regulator (die : Fin 84) (mV : BitVec 16)
  deriving DecidableEq, Repr

/-- One fuse field that Taproot burns in service (R471, R496). -/
inductive FuseField where
  | repairSlot (core : Fin 8192) (bank : Fin 32) (slot : Fin 4)
  | retireCore (core : Fin 8192)
  | retireCluster (cluster : Fin 1024)
  | retireDie (die : Fin 84)
  | svnMinimum
  deriving DecidableEq, Repr

/-- The transport of an SPDM request (R476). -/
inductive SpdmPath where
  | doe | mctp
  deriving DecidableEq, Repr

/-- The group that issues an instruction: its core and its group slot (R17, R54); and, where the sender gives it, the first
word that stands at the group's program counter, whose CLASS and OP the core looks at (R92, R98). -/
structure Who where
  core : Fin 8192
  slot : Fin 32
  word : Option W64 := none
  deriving DecidableEq, Repr

/-- The fields of a format R instruction beside its CLASS and OP, and its second word (R91, R92). -/
structure FmtR where
  w : Bool := false
  pg : Fin 16 := 0
  pneg : Bool := false
  type : Fin 16 := 0
  mod : Fin 8 := 0
  d : Fin 256 := 0
  a : Fin 256 := 0
  b : Fin 256 := 0
  bmode : Fin 4 := 0
  c : Fin 256 := 0
  aux : Fin 32 := 0
  imm : W64 := 0
  deriving DecidableEq, Repr

/-- The fields of a format M instruction beside its CLASS and OP; `low` is bits [22:0] (R92, R107, R112, R113). -/
structure FmtM where
  w : Bool := false
  pg : Fin 16 := 0
  pneg : Bool := false
  size : Fin 16 := 0
  scope : Fin 8 := 0
  d : Fin 256 := 0
  a : Fin 256 := 0
  low : BitVec 23 := 0
  deriving DecidableEq, Repr

/-- The fields of a format C instruction beside its CLASS and OP; `low` is bits [45:0], and `imm` the second word
(R92, R105). -/
structure FmtC where
  w : Bool := false
  pg : Fin 16 := 0
  pneg : Bool := false
  low : BitVec 46 := 0
  imm : W64 := 0
  deriving DecidableEq, Repr

/-- Why the standby Taproot takes over (R453). -/
inductive TakeoverCause where
  | heartbeatLoss | fatalFault | planned
  deriving DecidableEq, Repr

/-- A barrier of a block: `bar.block` of an id, or `bar.cluster` of its block cluster (R117, R118). -/
inductive Barrier where
  | block (id : Fin 4)
  | cluster
  deriving DecidableEq, Repr

/-- An array error that a memory instruction of a core meets (R187, R188, R196, R199, R233, R308, R483): a parity error
in the near cache it looks up, or in a TLB; an error in the granule of local memory or the quadrant-cache line of its
first lane; an error of a quadrant-cache tag; an uncorrectable error in a register it reads. -/
inductive ArrayErr where
  | none | nearParity | tlbParity | correctable | uncorrectable | tag | registers
  deriving DecidableEq, Repr

/-- An error that a home meets while it starts a request (R233, R272, R483): of the memory it reads, of the directory
entry, or of the request table. -/
inductive HomeErr where
  | none | memCorrectable | memUncorrectable | dirCorrectable | dirUncorrectable | table
  deriving DecidableEq, Repr

/-- How an ATS Translation Request completes (R310): granted with rights, a size of 4 KiB × 2^`log`, up to 1 GiB (R306), and the
translated address, whose bits below the size stand for the size; denied; or ended in Unsupported Request or Completer Abort. -/
inductive AtsResult where
  | granted (r w : Bool) (log : Fin 19) (addr : W64)
  | denied
  | error
  deriving DecidableEq, Repr

/-- The codes of a PRG Response (R311). -/
inductive PrgResult where
  | success | invalid | failure
  deriving DecidableEq, Repr

/-- The commands of the block. -/
inductive Instr where
  -- registers and commit groups (01)
  | registerWrite (who : Requester) (addr : Nat) (size : Fin 4) (value : W64)
  | commit (who : Requester) (g : Group) (i : Nat) (word : W32)
  | commitApply (g : Group) (i : Nat)
  | discard (who : Requester) (g : Group) (i : Nat) (word : W32)
  -- Ring time (02)
  | beat (port : Fin 32) (t : W64) (corr : W32) (master : Fin 16384) (hop : Fin 256) (steps : W16)
  | ptmRequest
  | ptmDialogue (master : W64)
  | ppsPulse (second : Bool)
  | sourceLost (src : RingSrc)
  | portPreferenceSwitch
  | sourceSwitch
  | holdoverExpiry
  | slotBoundary
  | tbNowRead (who : Requester) (part : TbPart)
  -- scalar instructions (04)
  | scalarAdd (w : Who) (i : FmtR)
  | scalarSub (w : Who) (i : FmtR)
  | scalarMulLo (w : Who) (i : FmtR)
  | scalarMulHi (w : Who) (i : FmtR)
  | scalarMin (w : Who) (i : FmtR)
  | scalarMax (w : Who) (i : FmtR)
  | scalarAnd (w : Who) (i : FmtR)
  | scalarOr (w : Who) (i : FmtR)
  | scalarXor (w : Who) (i : FmtR)
  | scalarNot (w : Who) (i : FmtR)
  | scalarShl (w : Who) (i : FmtR)
  | scalarShr (w : Who) (i : FmtR)
  | scalarSra (w : Who) (i : FmtR)
  | scalarSel (w : Who) (i : FmtR)
  | scalarMov (w : Who) (i : FmtR)
  | scalarCmp (w : Who) (i : FmtR)
  | srRd (w : Who) (i : FmtR)
  | srWr (w : Who) (i : FmtR)
  -- vector and predicate instructions (04)
  | vectorAdd (w : Who) (i : FmtR)
  | vectorSub (w : Who) (i : FmtR)
  | vectorMulLo (w : Who) (i : FmtR)
  | vectorMulHi (w : Who) (i : FmtR)
  | vectorMin (w : Who) (i : FmtR)
  | vectorMax (w : Who) (i : FmtR)
  | vectorAnd (w : Who) (i : FmtR)
  | vectorOr (w : Who) (i : FmtR)
  | vectorXor (w : Who) (i : FmtR)
  | vectorNot (w : Who) (i : FmtR)
  | vectorShl (w : Who) (i : FmtR)
  | vectorShr (w : Who) (i : FmtR)
  | vectorSra (w : Who) (i : FmtR)
  | vectorSel (w : Who) (i : FmtR)
  | vectorMov (w : Who) (i : FmtR)
  | vectorMadLo (w : Who) (i : FmtR)
  | vectorCmp (w : Who) (i : FmtR)
  | pand (w : Who) (i : FmtR)
  | por (w : Who) (i : FmtR)
  | pxor (w : Who) (i : FmtR)
  | pnot (w : Who) (i : FmtR)
  -- floating-point and special-function instructions (04)
  | floatAdd (w : Who) (i : FmtR)
  | floatSub (w : Who) (i : FmtR)
  | floatMul (w : Who) (i : FmtR)
  | floatFma (w : Who) (i : FmtR)
  | floatMin (w : Who) (i : FmtR)
  | floatMax (w : Who) (i : FmtR)
  | floatAbs (w : Who) (i : FmtR)
  | floatNeg (w : Who) (i : FmtR)
  | rcp (w : Who) (i : FmtR)
  | rsqrt (w : Who) (i : FmtR)
  | exp2 (w : Who) (i : FmtR)
  | log2 (w : Who) (i : FmtR)
  | sin (w : Who) (i : FmtR)
  | cos (w : Who) (i : FmtR)
  -- lane instructions (04)
  | shfl (w : Who) (i : FmtR)
  | voteAny (w : Who) (i : FmtR)
  | voteAll (w : Who) (i : FmtR)
  | voteBallot (w : Who) (i : FmtR)
  | movSv (w : Who) (i : FmtR)
  | movVs (w : Who) (i : FmtR)
  -- conversion (06)
  | cvt (w : Who) (dst : Fin 16) (i : FmtR)
  | pack (w : Who) (i : FmtR)
  | unpack (w : Who) (i : FmtR)
  | grainEnc (w : Who) (i : FmtR)
  | grainDec (w : Who) (i : FmtR)
  | mxscale (w : Who) (i : FmtR)
  -- control flow (03, 04)
  | bra (w : Who) (i : FmtC)
  | braDiv (w : Who) (i : FmtC)
  | join (w : Who) (i : FmtC)
  | loopEnter (w : Who) (i : FmtC)
  | brk (w : Who) (i : FmtC)
  | exit (w : Who) (i : FmtC)
  | braInd (w : Who) (i : FmtC)
  | call (w : Who) (i : FmtC)
  | ret (w : Who) (i : FmtC)
  -- memory (04, 07)
  | ldL (w : Who) (i : FmtM) (e : ArrayErr)
  | stL (w : Who) (i : FmtM) (e : ArrayErr)
  | ldG (w : Who) (i : FmtM) (e : ArrayErr)
  | stG (w : Who) (i : FmtM) (e : ArrayErr)
  | ldAcq (w : Who) (i : FmtM)
  | stRel (w : Who) (i : FmtM)
  | ldS (w : Who) (i : FmtM) (e : ArrayErr)
  | stS (w : Who) (i : FmtM) (e : ArrayErr)
  | ldRsv (w : Who) (i : FmtM)
  | stCond (w : Who) (i : FmtM)
  | ldP (w : Who) (i : FmtM)
  | stP (w : Who) (i : FmtM)
  -- atomics (04, 07)
  | atomAdd (w : Who) (scalar : Bool) (i : FmtM)
  | atomMin (w : Who) (scalar : Bool) (i : FmtM)
  | atomMax (w : Who) (scalar : Bool) (i : FmtM)
  | atomAnd (w : Who) (scalar : Bool) (i : FmtM)
  | atomOr (w : Who) (scalar : Bool) (i : FmtM)
  | atomXor (w : Who) (scalar : Bool) (i : FmtM)
  | atomSwap (w : Who) (scalar : Bool) (i : FmtM)
  | atomCas (w : Who) (scalar : Bool) (i : FmtM)
  | atomLAdd (w : Who) (scalar : Bool) (i : FmtM)
  | atomLMin (w : Who) (scalar : Bool) (i : FmtM)
  | atomLMax (w : Who) (scalar : Bool) (i : FmtM)
  | atomLAnd (w : Who) (scalar : Bool) (i : FmtM)
  | atomLOr (w : Who) (scalar : Bool) (i : FmtM)
  | atomLXor (w : Who) (scalar : Bool) (i : FmtM)
  | atomLSwap (w : Who) (scalar : Bool) (i : FmtM)
  | atomLCas (w : Who) (scalar : Bool) (i : FmtM)
  -- fences and barriers (04, 09)
  | fenceLd (w : Who) (i : FmtR)
  | fenceSt (w : Who) (i : FmtR)
  | fenceFull (w : Who) (i : FmtR)
  | barBlock (w : Who) (i : FmtR)
  | barCluster (w : Who) (i : FmtR)
  | barrierOpen (core : Fin 8192) (block : Fin 16) (bar : Barrier)
  -- cache control, idle, traps (04, 07)
  | cinvL1 (w : Who) (i : FmtR)
  | cinvSc (w : Who) (i : FmtR)
  | cwbSc (w : Who) (i : FmtR)
  | cinvI (w : Who) (i : FmtR)
  | nop (w : Who) (i : FmtR)
  | tileMark (w : Who) (i : FmtR)
  | brkpt (w : Who) (i : FmtR)
  | trap (w : Who) (i : FmtR)
  -- matrix engines (05)
  | mxCfg (w : Who) (i : FmtR)
  | mxZero (w : Who) (i : FmtR)
  | mxMma (w : Who) (i : FmtR)
  | mxAccRd (w : Who) (i : FmtR)
  | mxAccWr (w : Who) (i : FmtR)
  | mxWait (w : Who) (i : FmtR)
  | mxStat (w : Who) (i : FmtR)
  | mxCfgTakeEffect (core : Fin 8192) (engine : Fin 16)
  | mxQueueEntry (core : Fin 8192) (engine : Fin 16)
  | mxTileStart (core : Fin 8192) (engine : Fin 16)
  | mxChunkClose (core : Fin 8192) (engine : Fin 16)
  | mxTileEnd (core : Fin 8192) (engine : Fin 16) (held : Nat)
  -- stream engines (12)
  | steSub (w : Who) (i : FmtR)
  | steWait (w : Who) (i : FmtR)
  | steTest (w : Who) (i : FmtR)
  | steWaitAll (w : Who) (i : FmtR)
  | steChunkIssue (cluster : Fin 1024) (engine : Fin 2)
  | steChunkComplete (chunk : Nat)
  | prefetchCreditPoll (core : Fin 8192) (block : Fin 16) (engine : Fin 2)
  -- placement and completion (03)
  | blockClusterPlace (ctx : BitVec 16) (cluster : Fin 1024)
  | blockComplete (core : Fin 8192) (block : Fin 16)
  | kernelComplete (ctx : BitVec 16)
  | kernelDeadline (ctx : BitVec 16)
  | coreGate (core : Fin 8192)
  -- local-memory service (07)
  | lmCeWriteback (core : Fin 8192) (granule : Fin 65536)
  | lmTestStart (who : Requester) (core : Fin 8192) (word : W64)
  | lmTestDone (core : Fin 8192) (failing : List (Fin 32 × Fin 137))
  | lmZeroRequest (who : Requester) (core : Fin 8192) (word : W32)
  | lmZeroDone (core : Fin 8192) (unit : Fin 32)
  | lmPowerWrite (who : Requester) (core : Fin 8192) (word : W64)
  | lmUnitWakeDone (core : Fin 8192) (unit : Fin 32)
  | lmRepairWrite (who : Requester) (core : Fin 8192) (bank : Fin 32) (word : W64)
  -- coherence (08)
  | gets (k : Nat) (e : HomeErr)
  | getm (k : Nat) (e : HomeErr)
  | readonce (k : Nat) (e : HomeErr)
  | writeinvfull (k : Nat)
  | writeinvpart (k : Nat) (e : HomeErr)
  | atomicHome (k : Nat) (e : HomeErr)
  | snpshared (k : Nat)
  | snpinvfwd (k : Nat)
  | snponce (k : Nat)
  | snpinv (k : Nat)
  | snprecall (k : Nat)
  | comp (k : Nat)
  | compack (k : Nat)
  | retryMsg (k : Nat)
  | wback (k : Nat)
  | snpack (k : Nat)
  | snpmiss (k : Nat)
  | snpmisswbp (k : Nat)
  | snprspfwd (k : Nat)
  | snppoison (k : Nat)
  | datas (k : Nat)
  | datae (k : Nat)
  | datam (k : Nat)
  | dataonce (k : Nat)
  | snprspdata (k : Nat)
  | wbdata (k : Nat)
  | atomicResult (k : Nat)
  | retryFifoGrant (home : Fin 16) (set : Fin 262144)
  | qdcFlush (who : Requester) (quad : Fin 256) (word : W32)
  | qdcFlushDone (quad : Fin 256)
  | directorySetRecallDone (home : Fin 16) (set : Fin 262144)
  -- memory and Heartwood (10)
  | patrolScrub (home : Fin 16) (corrected : Nat) (failing : List Nat)
  | stackTemperatureRead (stack : Fin 32) (temp : W16)
  | pcMapout (who : Requester) (home : Fin 16) (word : W32)
  | pcMapoutDone (home : Fin 16)
  | channelStopsAnswering (home : Fin 16) (target : Option (Fin 64))
  | hwSeal (who : Requester) (region : Fin 64) (word : W64)
  | hwSealDone (region : Fin 64)
  | hwRelease (who : Requester) (region : Fin 64) (word : W64)
  | hwReleaseDone (region : Fin 64)
  | hwReload (who : Requester) (region : Fin 64) (word : W64)
  -- translation (11)
  | walkComplete (k : Nat)
  | atsCompletion (k : Nat) (res : AtsResult)
  | prgResponse (k : Nat) (res : PrgResult)
  | atsInvalidateRequest (func : Fin 256) (tag : Fin 32) (pasid : Option (BitVec 20)) (va : W64) (bytes : Nat)
  | invalidateCompletion (func : Fin 256) (tag : Fin 32)
  | resumeRetranslate (who : Requester) (word : W64)
  | resumeUnresolvable (who : Requester) (word : W64)
  | xltResumeLowHalf (who : Requester) (word : W32)
  | iqTailWrite (who : Requester) (word : W32)
  | iqEnable (who : Requester) (word : W64)
  | invRange
  | invContext
  | invAll
  | invSync
  | invDescriptorComplete
  -- Canopy (13)
  | registerCtx (who : Requester) (ctx : BitVec 16)
  | unregisterCtx (who : Requester) (ctx : BitVec 16)
  | suspendCtx (who : Requester) (ctx : BitVec 16)
  | resumeCtx (who : Requester) (ctx : BitVec 16)
  | killCtx (who : Requester) (ctx : BitVec 16)
  | pruneCtx (who : Requester) (ctx : BitVec 16)
  | launchKernel (q : Fin 4096)
  | tileMarkSave (clus : Nat)
  | graceExpiry (cluster : Fin 1024)
  | saveComplete (cluster : Fin 1024)
  | clusterCleanComplete (cluster : Fin 1024)
  | restoreStart (ctx : BitVec 16) (slot : Fin 1024) (cluster : Fin 1024)
  | restoreComplete (cluster : Fin 1024)
  | exportComplete (ctx : BitVec 16)
  | pruneDeadline (ctx : BitVec 16)
  | energyCalibration (shares : List (BitVec 16 × Nat))
  | acctFinalRecord (ctx : BitVec 16)
  -- events and fault rings (14)
  | evcPendWrite (who : Requester) (die : Fin 84) (word : Fin 32) (value : W32)
  | deviceFaultRecord (die : Fin 84) (record : FaultRec)
  | controlClockRestart (die : Fin 84)
  | faultRingRecord (k : Nat)
  | faultRingPoll (ctx : BitVec 16)
  | frKick (who : Requester) (ctx : BitVec 16)
  | faultRingIrqInterval (ctx : BitVec 16)
  -- host attachment (15)
  | configRequest (func : Fin 256) (reg : CfgReg) (write : Option W32)
  | doorbellSqTail (page : DoorPage) (value : W32)
  | doorbellCqHead (page : DoorPage) (value : W32)
  | pfBar4Access (offset : Nat) (acc : BarAcc)
  | vfBar4Access (vf : Fin 256) (offset : Nat) (acc : BarAcc)
  | hostReadCompletion (tag : Nat) (status : HostStatus) (data : List Byte)
  | completionTimeout (tag : Nat)
  | functionLevelReset (func : Fin 256)
  | flrComplete (func : Fin 256)
  | vfEnableChange (enable : Bool) (num : Fin 256)
  | powerStateChange (func : Fin 256) (d3 : Bool)
  | linkStateChange (up : Bool) (rate : Fin 8) (width : Fin 4)
  | queueNop (q : Fin 4096)
  | queueSignal (q : Fin 4096)
  | signalWrite (q : Fin 4096)
  | queueWait (q : Fin 4096)
  | waitPoll (q : Fin 4096)
  | waitTimeout (q : Fin 4096)
  | completionEntryWrite (q : Fin 4096)
  | qpIrqInterval (q : Fin 4096)
  | queuePairStop (q : Fin 4096)
  | mbxDataWrite (who : Requester) (word : W32)
  | mbxDataRead (who : Requester)
  | mbxAbort (who : Requester) (word : W64)
  | getInfo
  | readLog
  | readFlashLog
  | getCert
  | imageWrite
  | imageCommit
  -- Griga (16)
  | presentSet (port : Fin 32) (partner : Present)
  | holdSet (port : Fin 32) (partner : Present)
  | holdRetry (port : Fin 32)
  | trainingGrant (port : Fin 32)
  | portUp (port : Fin 32) (lanes : BitVec 4)
  | trainingTimeout (port : Fin 32)
  | dataFlit (port : Fin 32) (seq : Fin 4096) (ack : Fin 4096) (good : Bool)
  | idleFlit (port : Fin 32) (seq : Fin 4096) (ack : Fin 4096) (good : Bool)
  | nakFlit (port : Fin 32) (expected : Fin 4096)
  | delayFlit (port : Fin 32) (t1 : W64) (t2 : W64) (t3 : W64) (t4 : W64)
  | replayTimeout (port : Fin 32)
  | fecAlignmentLoss (port : Fin 32)
  | berMeasurement (port : Fin 32) (bad : BitVec 4)
  | retrain (who : Requester) (port : Fin 32) (word : W32)
  | retrainComplete (port : Fin 32) (failed : BitVec 4)
  | rdReq (port : Fin 32) (msg : GMsg)
  | wrReq (port : Fin 32) (msg : GMsg)
  | atReq (port : Fin 32) (msg : GMsg)
  | putReq (port : Fin 32) (msg : GMsg)
  | putRedReq (port : Fin 32) (msg : GMsg)
  | getReq (port : Fin 32) (msg : GMsg)
  | dataRsp (port : Fin 32) (msg : GMsg)
  | ackRsp (port : Fin 32) (msg : GMsg)
  | nackRsp (port : Fin 32) (msg : GMsg)
  | reportReq (port : Fin 32) (src : Fin 16384) (number : W32) (nonce : BitVec 256)
  | reportMsg (port : Fin 32) (src : Fin 16384) (number : W32) (report : List Byte)
  | dutyMsg (port : Fin 32) (src : Fin 16384) (ceiling : Fin 32) (slot : W64)
  | healthMsg (port : Fin 32) (src : Fin 16384) (ready : W64) (reason : W64)
  | rtSync (who : Requester) (word : W32)
  | rtSyncDone
  | remoteTimeout (edge : Fin 4) (index : Fin 8192)
  -- power and resets (17)
  | powerOn
  | softStartComplete
  | inputStop (cause : StopCause)
  | inputBelow40v
  | perstAssert
  | perstDeassert
  | fuseLoadComplete (intact : Bool)
  | imageVerifyComplete
  | stewardSelfTestComplete (die : Fin 84) (passed : Bool)
  | memoryTrainingComplete (failedPcs : List (Fin 1024)) (ports : List (Fin 16 × Fin 3))
  | warmReset (who : Requester) (word : W32)
  | coldReset (who : Requester) (word : W32)
  | standby (who : Requester) (word : W32)
  | standbyResume (who : Requester) (word : W32)
  | hotReset
  | warmResetComplete
  -- Taproot (18)
  | heartbeat
  | journalEntry
  | takeover (cause : TakeoverCause)
  | primaryFatalFault
  | formerPrimaryRestart (passed : Bool)
  | edgeDie0Loss
  | sensorSample (sample : Sample)
  | stewardUpdate
  | fuseBurn (field : FuseField) (verified : Bool)
  | recoverySessionTimeout
  | stewardHeartbeatMiss (die : Fin 84)
  | entdaa (addr : Fin 128)
  | setEndpointId (eid : Fin 256)
  | getEndpointId
  | getMctpVersionSupport (msgType : Fin 256)
  | getMessageTypeSupport
  | getTid
  | setTid (tid : Fin 256)
  | getPldmVersion (pldmType : Fin 64)
  | getPldmTypes
  | getPldmCommands (pldmType : Fin 64)
  | getPdr (handle : W32)
  | getSensorReading (id : W16)
  | getStateSensorReadings (id : W16)
  | setStateEffecterStates (id : W16) (state : Fin 256)
  | pollForPlatformEventMessage
  | pldmFirmwareUpdate (image : List Byte)
  | getVersion (path : SpdmPath)
  | getCapabilities (path : SpdmPath) (request : List Byte)
  | negotiateAlgorithms (path : SpdmPath) (request : List Byte)
  | getDigests (path : SpdmPath)
  | getCertificate (path : SpdmPath) (slot : Fin 8) (offset : W16) (length : W16)
  | challenge (path : SpdmPath) (slot : Fin 8) (nonce : BitVec 256)
  | getMeasurements (path : SpdmPath) (index : Fin 256) (nonce : BitVec 256)
  | vendorDefinedRequest (path : SpdmPath) (standard : W16) (vendor : W16) (payload : List Byte)
  -- errors and repair (19)
  | repairStart (region : Fin 64)
  | repairEnd (region : Fin 64)
  | coreTest (core : Fin 8192) (passed : Bool)
  | coreHangDetect (core : Fin 8192)
  | coreReplacement (core : Fin 8192) (pool : Nat)
  | clusterRetire (core : Fin 8192) (passing : BitVec 8)
  | postPackageRepair (pc : Fin 1024) (lines : List Nat) (lost : List Nat)
  | homeDieLoss (home : Fin 16)
  | d2dLinkRetrain (die : Fin 84) (side : Fin 4) (restored : Bool)
  -- debug (20)
  | debugAttach (who : Requester) (word : W64)
  | debugDetach (who : Requester) (word : W64)
  | debugHalt (who : Requester) (word : W64)
  | debugResume (who : Requester) (word : W64)
  | debugStep (who : Requester) (word : W64)
  | debugDump (who : Requester) (word : W64)
  | debugLoad (who : Requester) (word : W64)
  | haltReport (att : Fin 16)
  -- power and cooling, boundary scan (21)
  | powerControllerTick
  | currentClamp
  | clampRelease
  | thermalControllerTick (die : Fin 84)
  | thermalTrip (unit : TripUnit)
  | jtagBypass
  | jtagIdcode
  | jtagSamplePreload (pins : List Bool) (preload : List Bool)
  | jtagExtest
  | jtagExtestPulse
  | jtagExtestTrain
  | jtagClamp
  | jtagHighz
  | testPortReset
  -- others
  | outOfReachRead (who : Requester) (addr : Nat) (size : Fin 4)
  | stewardTimer (die : Fin 84)
  | computeDieLoss (die : Fin 64) (cause : Fin 3)
  | edgeDieLoss (edge : Fin 4)
  | managedPowerDownComplete
  | standbyExitComplete
  deriving DecidableEq, Repr

end Sys2Proof
end

