-- ==== Sys2Proof/Decode.lean ====
section
/-! DEFINITION. The reading of a command from the bits of a word, and the encoding of Watrix instructions: the layouts of the
first word (R91, R92), the CLASS and OP of every instruction (R98, R535, R105, R113, R139, R171, R208, R325), the reading of an
instruction from its words, and its words. -/

namespace Sys2Proof

/-- The command that a word spells by the table's bits: none, since no row of the table of operations and events gives bits.
The words of a core's instructions are read by `decodeWatrix`. -/
def decodeTableWord (_nbits _w : Nat) : Option Instr := none

/-! ### The layouts of the first word (R91, R92) -/

/-- The CLASS and OP of an instruction. -/
structure Opcode where
  cls : Nat
  op : Nat
  deriving DecidableEq, Repr

/-- The field of `n` bits from bit `lo` on. -/
def wordField (w : W64) (lo n : Nat) : Nat := w.toNat / 2 ^ lo % 2 ^ n

/-- CLASS [62:57] and OP [56:51] of a first word. -/
def opcodeOf (w : W64) : Opcode := ⟨wordField w 57 6, wordField w 51 6⟩

/-- Whether bit `n` of a word is set. -/
def wordBit (w : W64) (n : Nat) : Bool := wordField w n 1 == 1

/-- What the layouts have in common: W, CLASS, OP, PG and PNEG. -/
def headWord (o : Opcode) (w : Bool) (pg : Fin 16) (pneg : Bool) : Nat :=
  w.toNat * 2 ^ 63 + o.cls * 2 ^ 57 + o.op * 2 ^ 51 + pg.val * 2 ^ 47 + pneg.toNat * 2 ^ 46

/-- The first word of an instruction of format R. -/
def FmtR.word (i : FmtR) (o : Opcode) : W64 :=
  BitVec.ofNat 64 (headWord o i.w i.pg i.pneg + i.type.val * 2 ^ 42 + i.mod.val * 2 ^ 39 + i.d.val * 2 ^ 31 +
    i.a.val * 2 ^ 23 + i.b.val * 2 ^ 15 + i.bmode.val * 2 ^ 13 + i.c.val * 2 ^ 5 + i.aux.val)

/-- The first word of an instruction of format M. -/
def FmtM.word (i : FmtM) (o : Opcode) : W64 :=
  BitVec.ofNat 64 (headWord o i.w i.pg i.pneg + i.size.val * 2 ^ 42 + i.scope.val * 2 ^ 39 + i.d.val * 2 ^ 31 +
    i.a.val * 2 ^ 23 + i.low.toNat)

/-- The first word of an instruction of format C. -/
def FmtC.word (i : FmtC) (o : Opcode) : W64 := BitVec.ofNat 64 (headWord o i.w i.pg i.pneg + i.low.toNat)

/-- The fields of format R in a first word; the second word counts where W is 1. -/
def FmtR.ofWord (x second : W64) : FmtR :=
  { w := wordBit x 63
    pg := Fin.ofNat 16 (wordField x 47 4)
    pneg := wordBit x 46
    type := Fin.ofNat 16 (wordField x 42 4)
    mod := Fin.ofNat 8 (wordField x 39 3)
    d := Fin.ofNat 256 (wordField x 31 8)
    a := Fin.ofNat 256 (wordField x 23 8)
    b := Fin.ofNat 256 (wordField x 15 8)
    bmode := Fin.ofNat 4 (wordField x 13 2)
    c := Fin.ofNat 256 (wordField x 5 8)
    aux := Fin.ofNat 32 (wordField x 0 5)
    imm := if wordBit x 63 then second else 0 }

/-- The fields of format M in a first word. -/
def FmtM.ofWord (x : W64) : FmtM :=
  { w := wordBit x 63
    pg := Fin.ofNat 16 (wordField x 47 4)
    pneg := wordBit x 46
    size := Fin.ofNat 16 (wordField x 42 4)
    scope := Fin.ofNat 8 (wordField x 39 3)
    d := Fin.ofNat 256 (wordField x 31 8)
    a := Fin.ofNat 256 (wordField x 23 8)
    low := BitVec.ofNat 23 (wordField x 0 23) }

/-- The fields of format C in a first word; the second word counts where W is 1. -/
def FmtC.ofWord (x second : W64) : FmtC :=
  { w := wordBit x 63
    pg := Fin.ofNat 16 (wordField x 47 4)
    pneg := wordBit x 46
    low := BitVec.ofNat 46 (wordField x 0 46)
    imm := if wordBit x 63 then second else 0 }

/-! ### CLASS and OP (R98, R535) -/
/-- The instructions of format R by CLASS and OP. -/
def tableR : List (Opcode × (Who → FmtR → Instr)) :=
  [(⟨0x00, 0x00⟩, .scalarAdd), (⟨0x00, 0x01⟩, .scalarSub), (⟨0x00, 0x02⟩, .scalarMulLo),
   (⟨0x00, 0x03⟩, .scalarMulHi), (⟨0x00, 0x04⟩, .scalarMin), (⟨0x00, 0x05⟩, .scalarMax),
   (⟨0x00, 0x06⟩, .scalarAnd), (⟨0x00, 0x07⟩, .scalarOr), (⟨0x00, 0x08⟩, .scalarXor),
   (⟨0x00, 0x09⟩, .scalarNot), (⟨0x00, 0x0A⟩, .scalarShl), (⟨0x00, 0x0B⟩, .scalarShr),
   (⟨0x00, 0x0C⟩, .scalarSra), (⟨0x00, 0x0D⟩, .scalarSel), (⟨0x00, 0x0E⟩, .scalarMov)] ++
  [(⟨0x01, 0x00⟩, .scalarCmp), (⟨0x01, 0x01⟩, .srRd), (⟨0x01, 0x02⟩, .srWr)] ++
  [(⟨0x04, 0x00⟩, .vectorAdd), (⟨0x04, 0x01⟩, .vectorSub), (⟨0x04, 0x02⟩, .vectorMulLo),
   (⟨0x04, 0x03⟩, .vectorMulHi), (⟨0x04, 0x04⟩, .vectorMin), (⟨0x04, 0x05⟩, .vectorMax),
   (⟨0x04, 0x06⟩, .vectorAnd), (⟨0x04, 0x07⟩, .vectorOr), (⟨0x04, 0x08⟩, .vectorXor),
   (⟨0x04, 0x09⟩, .vectorNot), (⟨0x04, 0x0A⟩, .vectorShl), (⟨0x04, 0x0B⟩, .vectorShr),
   (⟨0x04, 0x0C⟩, .vectorSra), (⟨0x04, 0x0D⟩, .vectorSel), (⟨0x04, 0x0E⟩, .vectorMov),
   (⟨0x04, 0x0F⟩, .vectorMadLo)] ++
  [(⟨0x05, 0x00⟩, .floatAdd), (⟨0x05, 0x01⟩, .floatSub), (⟨0x05, 0x02⟩, .floatMul), (⟨0x05, 0x03⟩, .floatFma),
   (⟨0x05, 0x04⟩, .floatMin), (⟨0x05, 0x05⟩, .floatMax), (⟨0x05, 0x06⟩, .floatAbs), (⟨0x05, 0x07⟩, .floatNeg)] ++
  [(⟨0x06, 0x00⟩, .vectorCmp), (⟨0x06, 0x01⟩, .pand), (⟨0x06, 0x02⟩, .por), (⟨0x06, 0x03⟩, .pxor),
   (⟨0x06, 0x04⟩, .pnot)] ++
  [(⟨0x07, 0x00⟩, .rcp), (⟨0x07, 0x01⟩, .rsqrt), (⟨0x07, 0x02⟩, .exp2), (⟨0x07, 0x03⟩, .log2),
   (⟨0x07, 0x04⟩, .sin), (⟨0x07, 0x05⟩, .cos)] ++
  [(⟨0x08, 0x00⟩, .shfl), (⟨0x08, 0x01⟩, .voteAny), (⟨0x08, 0x02⟩, .voteAll), (⟨0x08, 0x03⟩, .voteBallot),
   (⟨0x08, 0x04⟩, .movSv), (⟨0x08, 0x05⟩, .movVs)] ++
  [(⟨0x09, 0x10⟩, .pack), (⟨0x09, 0x11⟩, .unpack), (⟨0x09, 0x12⟩, .grainEnc), (⟨0x09, 0x13⟩, .grainDec),
   (⟨0x09, 0x14⟩, .mxscale)] ++
  [(⟨0x18, 0x00⟩, .fenceLd), (⟨0x18, 0x01⟩, .fenceSt), (⟨0x18, 0x02⟩, .fenceFull)] ++
  [(⟨0x19, 0x00⟩, .barBlock), (⟨0x19, 0x01⟩, .barCluster)] ++
  [(⟨0x1A, 0x00⟩, .cinvL1), (⟨0x1A, 0x01⟩, .cinvSc), (⟨0x1A, 0x02⟩, .cwbSc), (⟨0x1A, 0x03⟩, .cinvI)] ++
  [(⟨0x20, 0x00⟩, .mxCfg), (⟨0x20, 0x01⟩, .mxZero), (⟨0x20, 0x02⟩, .mxMma), (⟨0x20, 0x03⟩, .mxAccRd),
   (⟨0x20, 0x04⟩, .mxAccWr), (⟨0x20, 0x05⟩, .mxWait), (⟨0x20, 0x06⟩, .mxStat)] ++
  [(⟨0x24, 0x00⟩, .steSub), (⟨0x24, 0x01⟩, .steWait), (⟨0x24, 0x02⟩, .steTest), (⟨0x24, 0x03⟩, .steWaitAll)] ++
  [(⟨0x30, 0x00⟩, .nop), (⟨0x30, 0x01⟩, .tileMark), (⟨0x30, 0x02⟩, .brkpt), (⟨0x30, 0x03⟩, .trap)] ++
  (List.finRange 16).map (fun d => (⟨0x09, d.val⟩, fun w i => .cvt w d i))

/-- The instructions of format C by CLASS and OP (R105). -/
def tableC : List (Opcode × (Who → FmtC → Instr)) :=
  [(⟨0x10, 0x00⟩, .bra), (⟨0x10, 0x01⟩, .braDiv), (⟨0x10, 0x02⟩, .join), (⟨0x10, 0x03⟩, .loopEnter),
   (⟨0x10, 0x04⟩, .brk), (⟨0x10, 0x05⟩, .exit), (⟨0x10, 0x06⟩, .braInd), (⟨0x10, 0x07⟩, .call),
   (⟨0x10, 0x08⟩, .ret)]

/-- The loads and stores of format M by CLASS and OP. -/
def tableM : List (Opcode × (Who → FmtM → Instr)) :=
  [(⟨0x14, 0x00⟩, fun w i => .ldL w i .none), (⟨0x14, 0x01⟩, fun w i => .stL w i .none)] ++
  [(⟨0x15, 0x00⟩, fun w i => .ldG w i .none), (⟨0x15, 0x01⟩, fun w i => .stG w i .none),
   (⟨0x15, 0x02⟩, .ldAcq), (⟨0x15, 0x03⟩, .stRel)] ++
  [(⟨0x16, 0x00⟩, fun w i => .ldS w i .none), (⟨0x16, 0x01⟩, fun w i => .stS w i .none),
   (⟨0x16, 0x02⟩, .ldRsv), (⟨0x16, 0x03⟩, .stCond)] ++
  [(⟨0x1B, 0x00⟩, .ldP), (⟨0x1B, 0x01⟩, .stP)]

/-- The atomics by the OP of their vector forms; OP bit 5 marks the scalar forms (R113). -/
def tableAtom : List (Opcode × (Who → Bool → FmtM → Instr)) :=
  [(⟨0x17, 0x00⟩, .atomAdd), (⟨0x17, 0x01⟩, .atomMin), (⟨0x17, 0x02⟩, .atomMax), (⟨0x17, 0x03⟩, .atomAnd),
   (⟨0x17, 0x04⟩, .atomOr), (⟨0x17, 0x05⟩, .atomXor), (⟨0x17, 0x06⟩, .atomSwap), (⟨0x17, 0x07⟩, .atomCas),
   (⟨0x17, 0x08⟩, .atomLAdd), (⟨0x17, 0x09⟩, .atomLMin), (⟨0x17, 0x0A⟩, .atomLMax), (⟨0x17, 0x0B⟩, .atomLAnd),
   (⟨0x17, 0x0C⟩, .atomLOr), (⟨0x17, 0x0D⟩, .atomLXor), (⟨0x17, 0x0E⟩, .atomLSwap), (⟨0x17, 0x0F⟩, .atomLCas)]

/-- The entry of a table for an opcode. -/
def rowOf {α : Type} (t : List (Opcode × α)) (o : Opcode) : Option α := (t.find? (fun e => e.1 == o)).map (·.2)

/-- The opcode of the vector form of an atomic: bit 5 of OP marks its scalar form (R113). -/
def atomVectorOp (o : Opcode) : Opcode := if 0x20 ≤ o.op then ⟨o.cls, o.op - 0x20⟩ else o

/-- Whether a CLASS and OP pair is assigned to an instruction; any other raises illegal-instruction (R93, R98). -/
def Opcode.listed (o : Opcode) : Bool :=
  (rowOf tableR o).isSome || (rowOf tableC o).isSome || (rowOf tableM o).isSome || (rowOf tableAtom (atomVectorOp o)).isSome

/-- The instruction that a first word and the word behind it spell, issued by a group; `none` where the CLASS and OP pair is not
assigned. -/
def decodeWatrix (who : Who) (x second : W64) : Option Instr :=
  let o := opcodeOf x
  match rowOf tableR o with
  | some f => some (f who (.ofWord x second))
  | none =>
    match rowOf tableC o with
    | some f => some (f who (.ofWord x second))
    | none =>
      match rowOf tableM o with
      | some f => some (f who (.ofWord x))
      | none => (rowOf tableAtom (atomVectorOp o)).map (fun f => f who (decide (0x20 ≤ o.op)) (.ofWord x))

/-! ### The words of an instruction -/

/-- The fields of an instruction in its format. -/
inductive Fields where
  | r (i : FmtR)
  | m (i : FmtM)
  | c (i : FmtC)
  deriving DecidableEq, Repr

/-- A core's instruction apart: who issues it, its CLASS and OP, and its fields; `none` for a command that is none. -/
def Instr.parts (c : Instr) : Option (Who × Opcode × Fields) :=
  match c with
  | .scalarAdd w i => some (w, ⟨0x00, 0x00⟩, .r i)
  | .scalarSub w i => some (w, ⟨0x00, 0x01⟩, .r i)
  | .scalarMulLo w i => some (w, ⟨0x00, 0x02⟩, .r i)
  | .scalarMulHi w i => some (w, ⟨0x00, 0x03⟩, .r i)
  | .scalarMin w i => some (w, ⟨0x00, 0x04⟩, .r i)
  | .scalarMax w i => some (w, ⟨0x00, 0x05⟩, .r i)
  | .scalarAnd w i => some (w, ⟨0x00, 0x06⟩, .r i)
  | .scalarOr w i => some (w, ⟨0x00, 0x07⟩, .r i)
  | .scalarXor w i => some (w, ⟨0x00, 0x08⟩, .r i)
  | .scalarNot w i => some (w, ⟨0x00, 0x09⟩, .r i)
  | .scalarShl w i => some (w, ⟨0x00, 0x0A⟩, .r i)
  | .scalarShr w i => some (w, ⟨0x00, 0x0B⟩, .r i)
  | .scalarSra w i => some (w, ⟨0x00, 0x0C⟩, .r i)
  | .scalarSel w i => some (w, ⟨0x00, 0x0D⟩, .r i)
  | .scalarMov w i => some (w, ⟨0x00, 0x0E⟩, .r i)
  | .scalarCmp w i => some (w, ⟨0x01, 0x00⟩, .r i)
  | .srRd w i => some (w, ⟨0x01, 0x01⟩, .r i)
  | .srWr w i => some (w, ⟨0x01, 0x02⟩, .r i)
  | .vectorAdd w i => some (w, ⟨0x04, 0x00⟩, .r i)
  | .vectorSub w i => some (w, ⟨0x04, 0x01⟩, .r i)
  | .vectorMulLo w i => some (w, ⟨0x04, 0x02⟩, .r i)
  | .vectorMulHi w i => some (w, ⟨0x04, 0x03⟩, .r i)
  | .vectorMin w i => some (w, ⟨0x04, 0x04⟩, .r i)
  | .vectorMax w i => some (w, ⟨0x04, 0x05⟩, .r i)
  | .vectorAnd w i => some (w, ⟨0x04, 0x06⟩, .r i)
  | .vectorOr w i => some (w, ⟨0x04, 0x07⟩, .r i)
  | .vectorXor w i => some (w, ⟨0x04, 0x08⟩, .r i)
  | .vectorNot w i => some (w, ⟨0x04, 0x09⟩, .r i)
  | .vectorShl w i => some (w, ⟨0x04, 0x0A⟩, .r i)
  | .vectorShr w i => some (w, ⟨0x04, 0x0B⟩, .r i)
  | .vectorSra w i => some (w, ⟨0x04, 0x0C⟩, .r i)
  | .vectorSel w i => some (w, ⟨0x04, 0x0D⟩, .r i)
  | .vectorMov w i => some (w, ⟨0x04, 0x0E⟩, .r i)
  | .vectorMadLo w i => some (w, ⟨0x04, 0x0F⟩, .r i)
  | .vectorCmp w i => some (w, ⟨0x06, 0x00⟩, .r i)
  | .pand w i => some (w, ⟨0x06, 0x01⟩, .r i)
  | .por w i => some (w, ⟨0x06, 0x02⟩, .r i)
  | .pxor w i => some (w, ⟨0x06, 0x03⟩, .r i)
  | .pnot w i => some (w, ⟨0x06, 0x04⟩, .r i)
  | .floatAdd w i => some (w, ⟨0x05, 0x00⟩, .r i)
  | .floatSub w i => some (w, ⟨0x05, 0x01⟩, .r i)
  | .floatMul w i => some (w, ⟨0x05, 0x02⟩, .r i)
  | .floatFma w i => some (w, ⟨0x05, 0x03⟩, .r i)
  | .floatMin w i => some (w, ⟨0x05, 0x04⟩, .r i)
  | .floatMax w i => some (w, ⟨0x05, 0x05⟩, .r i)
  | .floatAbs w i => some (w, ⟨0x05, 0x06⟩, .r i)
  | .floatNeg w i => some (w, ⟨0x05, 0x07⟩, .r i)
  | .rcp w i => some (w, ⟨0x07, 0x00⟩, .r i)
  | .rsqrt w i => some (w, ⟨0x07, 0x01⟩, .r i)
  | .exp2 w i => some (w, ⟨0x07, 0x02⟩, .r i)
  | .log2 w i => some (w, ⟨0x07, 0x03⟩, .r i)
  | .sin w i => some (w, ⟨0x07, 0x04⟩, .r i)
  | .cos w i => some (w, ⟨0x07, 0x05⟩, .r i)
  | .shfl w i => some (w, ⟨0x08, 0x00⟩, .r i)
  | .voteAny w i => some (w, ⟨0x08, 0x01⟩, .r i)
  | .voteAll w i => some (w, ⟨0x08, 0x02⟩, .r i)
  | .voteBallot w i => some (w, ⟨0x08, 0x03⟩, .r i)
  | .movSv w i => some (w, ⟨0x08, 0x04⟩, .r i)
  | .movVs w i => some (w, ⟨0x08, 0x05⟩, .r i)
  | .cvt w d i => some (w, ⟨0x09, d.val⟩, .r i)
  | .pack w i => some (w, ⟨0x09, 0x10⟩, .r i)
  | .unpack w i => some (w, ⟨0x09, 0x11⟩, .r i)
  | .grainEnc w i => some (w, ⟨0x09, 0x12⟩, .r i)
  | .grainDec w i => some (w, ⟨0x09, 0x13⟩, .r i)
  | .mxscale w i => some (w, ⟨0x09, 0x14⟩, .r i)
  | .bra w i => some (w, ⟨0x10, 0x00⟩, .c i)
  | .braDiv w i => some (w, ⟨0x10, 0x01⟩, .c i)
  | .join w i => some (w, ⟨0x10, 0x02⟩, .c i)
  | .loopEnter w i => some (w, ⟨0x10, 0x03⟩, .c i)
  | .brk w i => some (w, ⟨0x10, 0x04⟩, .c i)
  | .exit w i => some (w, ⟨0x10, 0x05⟩, .c i)
  | .braInd w i => some (w, ⟨0x10, 0x06⟩, .c i)
  | .call w i => some (w, ⟨0x10, 0x07⟩, .c i)
  | .ret w i => some (w, ⟨0x10, 0x08⟩, .c i)
  | .ldL w i _ => some (w, ⟨0x14, 0x00⟩, .m i)
  | .stL w i _ => some (w, ⟨0x14, 0x01⟩, .m i)
  | .ldG w i _ => some (w, ⟨0x15, 0x00⟩, .m i)
  | .stG w i _ => some (w, ⟨0x15, 0x01⟩, .m i)
  | .ldAcq w i => some (w, ⟨0x15, 0x02⟩, .m i)
  | .stRel w i => some (w, ⟨0x15, 0x03⟩, .m i)
  | .ldS w i _ => some (w, ⟨0x16, 0x00⟩, .m i)
  | .stS w i _ => some (w, ⟨0x16, 0x01⟩, .m i)
  | .ldRsv w i => some (w, ⟨0x16, 0x02⟩, .m i)
  | .stCond w i => some (w, ⟨0x16, 0x03⟩, .m i)
  | .ldP w i => some (w, ⟨0x1B, 0x00⟩, .m i)
  | .stP w i => some (w, ⟨0x1B, 0x01⟩, .m i)
  | .atomAdd w v i => some (w, ⟨0x17, 0x00 + v.toNat * 0x20⟩, .m i)
  | .atomMin w v i => some (w, ⟨0x17, 0x01 + v.toNat * 0x20⟩, .m i)
  | .atomMax w v i => some (w, ⟨0x17, 0x02 + v.toNat * 0x20⟩, .m i)
  | .atomAnd w v i => some (w, ⟨0x17, 0x03 + v.toNat * 0x20⟩, .m i)
  | .atomOr w v i => some (w, ⟨0x17, 0x04 + v.toNat * 0x20⟩, .m i)
  | .atomXor w v i => some (w, ⟨0x17, 0x05 + v.toNat * 0x20⟩, .m i)
  | .atomSwap w v i => some (w, ⟨0x17, 0x06 + v.toNat * 0x20⟩, .m i)
  | .atomCas w v i => some (w, ⟨0x17, 0x07 + v.toNat * 0x20⟩, .m i)
  | .atomLAdd w v i => some (w, ⟨0x17, 0x08 + v.toNat * 0x20⟩, .m i)
  | .atomLMin w v i => some (w, ⟨0x17, 0x09 + v.toNat * 0x20⟩, .m i)
  | .atomLMax w v i => some (w, ⟨0x17, 0x0A + v.toNat * 0x20⟩, .m i)
  | .atomLAnd w v i => some (w, ⟨0x17, 0x0B + v.toNat * 0x20⟩, .m i)
  | .atomLOr w v i => some (w, ⟨0x17, 0x0C + v.toNat * 0x20⟩, .m i)
  | .atomLXor w v i => some (w, ⟨0x17, 0x0D + v.toNat * 0x20⟩, .m i)
  | .atomLSwap w v i => some (w, ⟨0x17, 0x0E + v.toNat * 0x20⟩, .m i)
  | .atomLCas w v i => some (w, ⟨0x17, 0x0F + v.toNat * 0x20⟩, .m i)
  | .fenceLd w i => some (w, ⟨0x18, 0x00⟩, .r i)
  | .fenceSt w i => some (w, ⟨0x18, 0x01⟩, .r i)
  | .fenceFull w i => some (w, ⟨0x18, 0x02⟩, .r i)
  | .barBlock w i => some (w, ⟨0x19, 0x00⟩, .r i)
  | .barCluster w i => some (w, ⟨0x19, 0x01⟩, .r i)
  | .cinvL1 w i => some (w, ⟨0x1A, 0x00⟩, .r i)
  | .cinvSc w i => some (w, ⟨0x1A, 0x01⟩, .r i)
  | .cwbSc w i => some (w, ⟨0x1A, 0x02⟩, .r i)
  | .cinvI w i => some (w, ⟨0x1A, 0x03⟩, .r i)
  | .nop w i => some (w, ⟨0x30, 0x00⟩, .r i)
  | .tileMark w i => some (w, ⟨0x30, 0x01⟩, .r i)
  | .brkpt w i => some (w, ⟨0x30, 0x02⟩, .r i)
  | .trap w i => some (w, ⟨0x30, 0x03⟩, .r i)
  | .mxCfg w i => some (w, ⟨0x20, 0x00⟩, .r i)
  | .mxZero w i => some (w, ⟨0x20, 0x01⟩, .r i)
  | .mxMma w i => some (w, ⟨0x20, 0x02⟩, .r i)
  | .mxAccRd w i => some (w, ⟨0x20, 0x03⟩, .r i)
  | .mxAccWr w i => some (w, ⟨0x20, 0x04⟩, .r i)
  | .mxWait w i => some (w, ⟨0x20, 0x05⟩, .r i)
  | .mxStat w i => some (w, ⟨0x20, 0x06⟩, .r i)
  | .steSub w i => some (w, ⟨0x24, 0x00⟩, .r i)
  | .steWait w i => some (w, ⟨0x24, 0x01⟩, .r i)
  | .steTest w i => some (w, ⟨0x24, 0x02⟩, .r i)
  | .steWaitAll w i => some (w, ⟨0x24, 0x03⟩, .r i)
  | .registerWrite _ _ _ _ | .commit _ _ _ _ | .commitApply _ _ | .discard _ _ _ _ | .beat _ _ _ _ _ _
  | .ptmRequest | .ptmDialogue _ | .ppsPulse _ | .sourceLost _ | .portPreferenceSwitch | .sourceSwitch
  | .holdoverExpiry | .slotBoundary | .tbNowRead _ _ | .barrierOpen _ _ _ | .mxCfgTakeEffect _ _
  | .mxQueueEntry _ _ | .mxTileStart _ _ | .mxChunkClose _ _ | .mxTileEnd _ _ _ | .steChunkIssue _ _
  | .steChunkComplete _ | .prefetchCreditPoll _ _ _ | .blockClusterPlace _ _ | .blockComplete _ _
  | .kernelComplete _ | .kernelDeadline _ | .coreGate _ | .lmCeWriteback _ _ | .lmTestStart _ _ _ | .lmTestDone _ _
  | .lmZeroRequest _ _ _ | .lmZeroDone _ _ | .lmPowerWrite _ _ _ | .lmUnitWakeDone _ _ | .lmRepairWrite _ _ _ _
  | .gets _ _ | .getm _ _ | .readonce _ _ | .writeinvfull _ | .writeinvpart _ _ | .atomicHome _ _ | .snpshared _
  | .snpinvfwd _ | .snponce _ | .snpinv _ | .snprecall _ | .comp _ | .compack _ | .retryMsg _ | .wback _
  | .snpack _ | .snpmiss _ | .snpmisswbp _ | .snprspfwd _ | .snppoison _ | .datas _ | .datae _ | .datam _
  | .dataonce _ | .snprspdata _ | .wbdata _ | .atomicResult _ | .retryFifoGrant _ _ | .qdcFlush _ _ _
  | .qdcFlushDone _ | .directorySetRecallDone _ _ | .patrolScrub _ _ _ | .stackTemperatureRead _ _
  | .pcMapout _ _ _ | .pcMapoutDone _ | .channelStopsAnswering _ _ | .hwSeal _ _ _ | .hwSealDone _
  | .hwRelease _ _ _ | .hwReleaseDone _ | .hwReload _ _ _ | .walkComplete _ | .atsCompletion _ _ | .prgResponse _ _
  | .atsInvalidateRequest _ _ _ _ _ | .invalidateCompletion _ _ | .resumeRetranslate _ _ | .resumeUnresolvable _ _
  | .xltResumeLowHalf _ _ | .iqTailWrite _ _ | .iqEnable _ _ | .invRange | .invContext | .invAll | .invSync
  | .invDescriptorComplete | .registerCtx _ _ | .unregisterCtx _ _ | .suspendCtx _ _ | .resumeCtx _ _
  | .killCtx _ _ | .pruneCtx _ _ | .launchKernel _ | .tileMarkSave _ | .graceExpiry _ | .saveComplete _
  | .clusterCleanComplete _ | .restoreStart _ _ _ | .restoreComplete _ | .exportComplete _ | .pruneDeadline _
  | .energyCalibration _ | .acctFinalRecord _ | .evcPendWrite _ _ _ _ | .deviceFaultRecord _ _
  | .controlClockRestart _ | .faultRingRecord _ | .faultRingPoll _ | .frKick _ _ | .faultRingIrqInterval _
  | .configRequest _ _ _ | .doorbellSqTail _ _ | .doorbellCqHead _ _ | .pfBar4Access _ _ | .vfBar4Access _ _ _
  | .hostReadCompletion _ _ _ | .completionTimeout _ | .functionLevelReset _ | .flrComplete _ | .vfEnableChange _ _
  | .powerStateChange _ _ | .linkStateChange _ _ _ | .queueNop _ | .queueSignal _ | .signalWrite _ | .queueWait _
  | .waitPoll _ | .waitTimeout _ | .completionEntryWrite _ | .qpIrqInterval _ | .queuePairStop _
  | .mbxDataWrite _ _ | .mbxDataRead _ | .mbxAbort _ _ | .getInfo | .readLog | .readFlashLog | .getCert
  | .imageWrite | .imageCommit | .presentSet _ _ | .holdSet _ _ | .holdRetry _ | .trainingGrant _ | .portUp _ _
  | .trainingTimeout _ | .dataFlit _ _ _ _ | .idleFlit _ _ _ _ | .nakFlit _ _ | .delayFlit _ _ _ _ _
  | .replayTimeout _ | .fecAlignmentLoss _ | .berMeasurement _ _ | .retrain _ _ _ | .retrainComplete _ _
  | .rdReq _ _ | .wrReq _ _ | .atReq _ _ | .putReq _ _ | .putRedReq _ _ | .getReq _ _ | .dataRsp _ _ | .ackRsp _ _
  | .nackRsp _ _ | .reportReq _ _ _ _ | .reportMsg _ _ _ _ | .dutyMsg _ _ _ _ | .healthMsg _ _ _ _ | .rtSync _ _
  | .rtSyncDone | .remoteTimeout _ _ | .powerOn | .softStartComplete | .inputStop _ | .inputBelow40v | .perstAssert
  | .perstDeassert | .fuseLoadComplete _ | .imageVerifyComplete | .stewardSelfTestComplete _ _
  | .memoryTrainingComplete _ _ | .warmReset _ _ | .coldReset _ _ | .standby _ _ | .standbyResume _ _ | .hotReset
  | .warmResetComplete | .heartbeat | .journalEntry | .takeover _ | .primaryFatalFault | .formerPrimaryRestart _
  | .edgeDie0Loss | .sensorSample _ | .stewardUpdate | .fuseBurn _ _ | .recoverySessionTimeout
  | .stewardHeartbeatMiss _ | .entdaa _ | .setEndpointId _ | .getEndpointId | .getMctpVersionSupport _
  | .getMessageTypeSupport | .getTid | .setTid _ | .getPldmVersion _ | .getPldmTypes | .getPldmCommands _
  | .getPdr _ | .getSensorReading _ | .getStateSensorReadings _ | .setStateEffecterStates _ _
  | .pollForPlatformEventMessage | .pldmFirmwareUpdate _ | .getVersion _ | .getCapabilities _ _
  | .negotiateAlgorithms _ _ | .getDigests _ | .getCertificate _ _ _ _ | .challenge _ _ _ | .getMeasurements _ _ _
  | .vendorDefinedRequest _ _ _ _ | .repairStart _ | .repairEnd _ | .coreTest _ _ | .coreHangDetect _
  | .coreReplacement _ _ | .clusterRetire _ _ | .postPackageRepair _ _ _ | .homeDieLoss _ | .d2dLinkRetrain _ _ _
  | .debugAttach _ _ | .debugDetach _ _ | .debugHalt _ _ | .debugResume _ _ | .debugStep _ _ | .debugDump _ _
  | .debugLoad _ _ | .haltReport _ | .powerControllerTick | .currentClamp | .clampRelease
  | .thermalControllerTick _ | .thermalTrip _ | .jtagBypass | .jtagIdcode | .jtagSamplePreload _ _ | .jtagExtest
  | .jtagExtestPulse | .jtagExtestTrain | .jtagClamp | .jtagHighz | .testPortReset | .outOfReachRead _ _ _
  | .stewardTimer _ | .computeDieLoss _ _ | .edgeDieLoss _ | .managedPowerDownComplete | .standbyExitComplete => none

/-- The first word of a core's instruction. -/
def Instr.word (c : Instr) : Option W64 :=
  c.parts.map (fun p =>
    match p.2.2 with
    | .r i => i.word p.2.1
    | .m i => i.word p.2.1
    | .c i => i.word p.2.1)

/-- The second word of an instruction with W = 1; 0 where there is none. -/
def Instr.second (c : Instr) : W64 :=
  match c.parts with
  | some (_, _, .r i) => if i.w then i.imm else 0
  | some (_, _, .c i) => if i.w then i.imm else 0
  | _ => 0

/-- Whether the word that the sender gives as standing at the group's program counter is one that the command stands for: its own
word, or one whose CLASS and OP pair is not assigned, which the core refuses instead (R93, R98). -/
def Instr.wordFits (c : Instr) : Bool :=
  match c.parts with
  | none => true
  | some (w, _, _) =>
    match w.word with
    | none => true
    | some x => !(opcodeOf x).listed || c.word == some x

end Sys2Proof
end

