-- ==== Sys2Proof/Config.lean ====
section
/-! DEFINITION. What an implementation of the package fixes and the spec does not, and the values the spec leaves
open. Every constant here is opaque: nothing can evaluate it, so a claim holds for every value of it. -/

namespace Sys2Proof.Config

/-- The `n`-th free value of the run, `w` bits wide: a value the spec calls undefined, unspecified or indeterminate
after a command that goes on, or does not state (log 1). -/
opaque freeBits (w n : Nat) : BitVec w

/-- A choice the spec leaves to the hardware, the `n`-th of the run: a victim way under pseudo-LRU (R195, R211), an
evicted entry of a directory set (R227), and the like (log 1). -/
opaque choice (n : Nat) : Nat

/-- An array error that comes about, the `n`-th free value of the run: the number of its array, its place there, and whether
code cannot correct it (R187, R188, R196, R199, R203, R233, R270, R272, R308) (log 85). -/
opaque upset (n : Nat) : Option (Nat × Nat × Bool)

/-- The 12-bit source agent number of an agent, by the model's number for it: the spec numbers none (R222, R323, R386) (log 86). -/
opaque agentNumber (agent : Nat) : BitVec 12

/-- The row of a device in which an address of a pseudo-channel or port lies: the spec gives no row size (R497) (log 87). -/
opaque memRow (addr : Nat) : Nat

/-- Word `index` of storage whose contents the spec calls unspecified, for the fill number `seed` it was left with:
registers and local memory of a placed block that were not zero-filled (R74) (log 4). -/
opaque residue (seed index : Nat) : BitVec 32

/-- What the hardware answers for a special function of an f32 operand before its bound is applied (R102); the
function number is that of the instruction's operation code. The model uses it where it lies within the bound of
R102, and the nearest value to the exact result otherwise (log 2). -/
opaque special (fn : Nat) (x : BitVec 32) : BitVec 32

/-- ADDR of the record of an exception that has no data address, by its code and the instruction's address (R124, R385)
(log 79). -/
opaque recordAddr (code instr : Nat) : W64

/-- The overflow, underflow and inexact flags a special function sets, which R102 does not state (log 2). -/
opaque specialFlags (fn : Nat) (x : BitVec 32) : BitVec 3

/-- Whether tininess is detected after rounding, which IEEE 754-2019 leaves to the implementation (R101) (log 2). -/
opaque tinyAfter : Bool

/-- Whether `fma` of 0, an infinity and a NaN raises the invalid flag, which IEEE 754-2019 leaves to the implementation (R101)
(log 2). -/
opaque fmaNanInvalid : Bool

/-- The SEVERITY Taproot gives a log record of a kind for which the spec states none (R458, R459) (log 13). -/
opaque severity (kind : Nat) : Nat

/-- The KIND of a log record for which the spec states none, above those of the fault classes (R458) (log 13). -/
opaque logKind (event : Nat) : Nat

/-- Word `index` of the DATA of a log record whose contents the spec does not state (R458) (log 13). -/
opaque logData (seq index : Nat) : BitVec 32

/-- SHA-384 of a byte string (R458, R463, R472 to R477). -/
opaque sha384 (m : List Byte) : BitVec 384

/-- Whether an Ed25519 signature over a measurement verifies against Vornar's image-signing key (R464). -/
opaque ed25519Ok (meas : BitVec 384) (sig : List Byte) : Bool

/-- Whether an ML-DSA-65 signature over a measurement verifies against Vornar's image-signing key (R464). -/
opaque mlDsaOk (meas : BitVec 384) (sig : List Byte) : Bool

/-- The 256-bit unique device secret in the fuses of the package (R472) (log 9). -/
opaque deviceSecret : BitVec 256

/-- The Ed25519 public key of a 32-byte seed (R472, RFC 8032). -/
opaque ed25519Public (seed : List Byte) : List Byte

/-- The ML-DSA-65 public key of a 32-byte seed (R472, FIPS 204). -/
opaque mlDsaPublic (seed : List Byte) : List Byte

/-- The 64-byte Ed25519 signature of a message with the key of a seed (R473, R477). -/
opaque ed25519Sign (seed m : List Byte) : BitVec 512

/-- The 3,309-byte ML-DSA-65 signature of a message with the key of a seed (R473, R477). -/
opaque mlDsaSign (seed m : List Byte) : BitVec 26472

/-- The info text with which an alias seed is derived, for algorithm 0 (Ed25519) or 1 (ML-DSA-65): the spec says what it carries
and not how it reads (R473) (log 9). -/
opaque aliasInfo (alg : Nat) (meas : BitVec 384) (svn : Nat) : List Byte

/-- The part to be signed of the alias certificate for algorithm 0 or 1, in DER form, by its subject's and its issuer's public
keys (R473) (log 9). -/
opaque aliasBody (alg : Nat) (subject issuer : List Byte) (meas : BitVec 384) (svn : Nat) : List Byte

/-- A certificate in DER form from its signed part and its signature (R473) (log 9). -/
opaque certificate (alg : Nat) (body signature : List Byte) : List Byte

/-- The certificates of algorithm 0 or 1 from the root to the device identity, in DER form, in the bytes of the identity area
(R473) (log 9). -/
opaque identityCerts (alg : Nat) (area : List Byte) : List Byte

/-- The measurement of the boot ROM of silicon revision A (R475) (log 9). -/
opaque bootRomMeasurement : BitVec 384

/-- The measurement of the fuse configuration other than repair slots and retirements, given the SVN minimum (R475)
(log 9). -/
opaque fuseMeasurement (svnMin : Nat) : BitVec 384

/-- One Platform Descriptor Record of the PLDM repository by its handle (R461, DSP0248): the spec gives the sensors
and effecters but no record bytes (log 12). -/
opaque pdr (handle : Nat) : List Byte

/-- The bytes of an SPDM response body that the SPDM and PLDM standards fix and the spec does not repeat (R476)
(log 12). -/
opaque standardBody (protocol code : Nat) (request : List Byte) : List Byte

end Sys2Proof.Config
end

