-- ==== Sys2Proof/Machine/Map.lean ====
section
/-! DEFINITION. Sparse tables with plain data: a list of numbered entries in one canonical form. -/

namespace Sys2Proof.Machine

/-- A sparse table: numbered entries, kept with strictly rising numbers. -/
abbrev SMap (α : Type) := List (Nat × α)

variable {α : Type}

/-- The entry of number `k`. -/
def SMap.find (m : SMap α) (k : Nat) : Option α :=
  (List.lookup k m)

/-- The entry of number `k`, or the default `d` where none is listed. -/
def SMap.get (m : SMap α) (d : α) (k : Nat) : α :=
  (SMap.find m k).getD d

/-- Whether the table lists number `k`. -/
def SMap.has (m : SMap α) (k : Nat) : Bool :=
  (SMap.find m k).isSome

/-- Lists `v` under number `k`, in place of what stood there. -/
def SMap.put (m : SMap α) (k : Nat) (v : α) : SMap α :=
  match m with
  | [] => [(k, v)]
  | (j, w) :: r =>
    if k < j then (k, v) :: (j, w) :: r
    else if k = j then (k, v) :: r
    else (j, w) :: SMap.put r k v

/-- Removes the entry of number `k`. -/
def SMap.del (m : SMap α) (k : Nat) : SMap α :=
  m.filter (fun e => e.1 != k)

/-- Writes `v` under number `k` of a table whose unlisted numbers hold `d`: the default itself is not listed. -/
def SMap.set [DecidableEq α] (m : SMap α) (d : α) (k : Nat) (v : α) : SMap α :=
  if v = d then SMap.del m k else SMap.put m k v

/-- Replaces the entry of number `k` by `f` of it, if there is one. -/
def SMap.upd (m : SMap α) (k : Nat) (f : α → α) : SMap α :=
  m.map (fun e => if e.1 = k then (e.1, f e.2) else e)

/-- Applies `f` to every entry. -/
def SMap.mapVals (m : SMap α) (f : Nat → α → α) : SMap α :=
  m.map (fun e => (e.1, f e.1 e.2))

/-- The entries whose number and value satisfy `p`. -/
def SMap.keep (m : SMap α) (p : Nat → α → Bool) : SMap α :=
  m.filter (fun e => p e.1 e.2)

/-- The numbers listed. -/
def SMap.keys (m : SMap α) : List Nat := m.map (·.1)

/-- The values listed. -/
def SMap.vals (m : SMap α) : List α := m.map (·.2)

/-- How many entries satisfy `p`. -/
def SMap.count (m : SMap α) (p : Nat → α → Bool) : Nat := (SMap.keep m p).length

/-- The smallest number that the table does not list. -/
def SMap.fresh (m : SMap α) : Nat :=
  m.foldl (fun n e => if n ≤ e.1 then e.1 + 1 else n) 0

/-- The canonical form: numbers strictly rising. -/
def SMap.sorted (m : SMap α) : Bool :=
  match m with
  | [] => true
  | (k, _) :: r => r.all (fun e => k < e.1) && SMap.sorted r

/-- The canonical form of a table with the default `d`: numbers strictly rising, no entry equal to `d`. -/
def SMap.wf [DecidableEq α] (m : SMap α) (d : α) : Bool :=
  SMap.sorted m && m.all (fun e => e.2 != d)

end Sys2Proof.Machine
end

