-- ==== Sys2Proof/Machine/Regs.lean ====
section
/-! DEFINITION. The register map of the package: every register's name, width, reset word, reach, access codes and
place in BAR0, as the register descriptions of the chapters give them (R23, R24, and the register rule named beside
each register). -/

namespace Sys2Proof.Machine

/-- The registers of the package, by the mnemonic of the spec. -/
inductive Reg where
  | TB_STATUS | TB_NOW | TB_SLOT | TB_OFFSET
  | TB_SRC_CFG | TB_GRIGA_PORTS | TB_PTM_OFFSET | TB_SRC_COMMIT
  | TB_PPS_NEXT_SEC | CORE_STATUS | CORE_GROUP_STATE | MXE_CTL
  | MXE_ENG_STATUS | MXE_CNT_BUSY | MXE_CNT_SKIP | MXE_CNT_STALL
  | MXE_CNT_OVF | CORE_LM_POWER | CORE_LM_STATUS | CORE_LM_ZERO
  | CORE_LM_ERRLOG | CORE_LM_TEST | CORE_NC_PARITY | CORE_LM_CE
  | CORE_LM_TEST_RESULT | CORE_LM_REPAIR | QDC_STATUS | QDC_ALLOC
  | QDC_ALLOC_COMMIT | QDC_FLUSH | QDC_CE | QDC_ERRLOG
  | QDC_CNT | HOM_DIR_STATUS | HOM_DIR_CE | HOM_DIR_ERRLOG
  | HOM_DIR_CNT | HOM_CAP | HOM_PC_STATE | HOM_PC_MAPOUT
  | HOM_OT_STATUS | HOM_TEMP | HOM_MEM_CE | HOM_MEM_ERRLOG
  | HOM_RSV | HOM_RSV_COMMIT | HOM_MAP | HOM_MAP_COMMIT
  | HOM_HW_PRI | HOM_HW_REP | HOM_HW_LEN | HOM_HW_COMMIT
  | HOM_HW_CTL | HOM_HW_CNT | XLT_CTT_BASE | XLT_IQ_BASE
  | XLT_IQ_TAIL | XLT_IQ_HEAD | XLT_IQ_DONE | XLT_IQ_STATUS
  | XLT_IQ_DONE_ADDR | XLT_RESUME | XLT_PRI_STATUS | XLT_QTLB_STATUS
  | XLT_QTLB_CNT | XLT_UTLB_CNT | STE_STATUS | STE_CNT
  | CNP_CTL | CNP_STATUS | CNP_CTX_BASE | CNP_CMD
  | CNP_CMD_ARG0 | CNP_CMD_ARG1 | CNP_CMD_STATUS | CNP_ACCT_BASE
  | CNP_ACCT_HEAD | CNP_ACCT_TAIL | CNP_LAYOUT_COMMIT | CNP_PART
  | CNP_CLUSTER | CNP_CTX_STATE | EVC_PEND | EVC_MASK
  | EVC_SETCNT | EVC_DFQ_HEAD | EVC_DFQ_TAIL | EVC_DFQ_OVF
  | EVC_RAW | EVC_ROUTE | EVC_FR_KICK | EVC_TAP_DIES
  | CNP_QP_SQ | CNP_QP_CQ | CNP_QP_CFG | CNP_QP_COMMIT
  | CNP_QP_STATUS | CNP_BAR4_WIN | CNP_BAR4_CTX | CNP_BAR4_COMMIT
  | CNP_QP_ERRMAP | TAP_MBX_CMD | TAP_MBX_DATA | GRG_PORT_CTL
  | GRG_PORT_STATUS | GRG_PORT_DELAY | GRG_PORT_CNT | GRG_PKG_ID
  | GRG_PKG_STATUS | GRG_RT_BASE | GRG_RT_SYNC | GRG_INGRESS
  | GRG_WIN_COMMIT | GRG_PKG_CNT | GRG_WIN_BASE | GRG_WIN_LIMIT
  | TAP_READY | TAP_RESET_CTL | TAP_ID_REV | TAP_SERIAL
  | TAP_STATUS | TAP_FW_STATUS | TAP_POWER | TAP_ENERGY
  | TAP_LOG_STATUS | TAP_TEMP | TAP_QUAD_HEALTH | TAP_DIE_HEALTH
  | DBG_CTL | DBG_CMD | DBG_CMD_ARG0 | DBG_CMD_ARG1
  | DBG_CMD_STATUS | DBG_ATT | DBG_EVENT | DBG_EVENT_BLOCK
  | DBG_EVENT_PC | DBG_BP | DBG_WP_ADDR | DBG_WP_CTL
  | DBG_DIE_STATUS | TAP_PWR_LIMIT | TAP_DUTY_STATUS | TAP_PWR_STATUS
  | EVC_DFQ_WINDOW
  deriving DecidableEq, Repr

/-- Access codes of the table of access codes (00_scope, R4, R5). -/
inductive Acc where
  | ro | rw | wo | w1c | w1s | sc | cm
  deriving DecidableEq, Repr

/-- Who may reach a register (00_scope, "Reach"). No register of the map has VF reach. -/
inductive Reach where
  | all | pfTaproot | stewardTaproot | taproot
  deriving DecidableEq, Repr

/-- The windows of the BAR0 map and their kinds of die (R23, R24). The shared ones are one register seen through
every window of the kind (R296, R321, R434). -/
inductive Zone where
  | pkg | compute | home | edge | every | computeShared | homeShared | edgeShared
  deriving DecidableEq, Repr

/-- One field of a register: its lowest bit, its width, its access code, and the values that are not reserved. -/
structure FieldSpec where
  lo : Nat
  width : Nat
  acc : Acc
  legal : Option (Nat × Nat)
  deriving DecidableEq, Repr

/-- One register description: width, reset word, reach for reads and writes, fields, zone and place. -/
structure RegSpec where
  width : Nat
  reset : Nat
  rd : Reach
  wr : Reach
  zone : Zone
  base : Nat
  s1 : Nat
  c1 : Nat
  s2 : Nat
  c2 : Nat
  fields : List FieldSpec
  deriving DecidableEq, Repr

/-- A named field of a register. -/
structure Fld where
  reg : Reg
  lo : Nat
  width : Nat
  deriving DecidableEq, Repr

/-- A number of each register, for the key of its instances in the register file. -/
def Reg.code (r : Reg) : Nat :=
  match r with
  | .TB_STATUS => 0
  | .TB_NOW => 1
  | .TB_SLOT => 2
  | .TB_OFFSET => 3
  | .TB_SRC_CFG => 4
  | .TB_GRIGA_PORTS => 5
  | .TB_PTM_OFFSET => 6
  | .TB_SRC_COMMIT => 7
  | .TB_PPS_NEXT_SEC => 8
  | .CORE_STATUS => 9
  | .CORE_GROUP_STATE => 10
  | .MXE_CTL => 11
  | .MXE_ENG_STATUS => 12
  | .MXE_CNT_BUSY => 13
  | .MXE_CNT_SKIP => 14
  | .MXE_CNT_STALL => 15
  | .MXE_CNT_OVF => 16
  | .CORE_LM_POWER => 17
  | .CORE_LM_STATUS => 18
  | .CORE_LM_ZERO => 19
  | .CORE_LM_ERRLOG => 20
  | .CORE_LM_TEST => 21
  | .CORE_NC_PARITY => 22
  | .CORE_LM_CE => 23
  | .CORE_LM_TEST_RESULT => 24
  | .CORE_LM_REPAIR => 25
  | .QDC_STATUS => 26
  | .QDC_ALLOC => 27
  | .QDC_ALLOC_COMMIT => 28
  | .QDC_FLUSH => 29
  | .QDC_CE => 30
  | .QDC_ERRLOG => 31
  | .QDC_CNT => 32
  | .HOM_DIR_STATUS => 33
  | .HOM_DIR_CE => 34
  | .HOM_DIR_ERRLOG => 35
  | .HOM_DIR_CNT => 36
  | .HOM_CAP => 37
  | .HOM_PC_STATE => 38
  | .HOM_PC_MAPOUT => 39
  | .HOM_OT_STATUS => 40
  | .HOM_TEMP => 41
  | .HOM_MEM_CE => 42
  | .HOM_MEM_ERRLOG => 43
  | .HOM_RSV => 44
  | .HOM_RSV_COMMIT => 45
  | .HOM_MAP => 46
  | .HOM_MAP_COMMIT => 47
  | .HOM_HW_PRI => 48
  | .HOM_HW_REP => 49
  | .HOM_HW_LEN => 50
  | .HOM_HW_COMMIT => 51
  | .HOM_HW_CTL => 52
  | .HOM_HW_CNT => 53
  | .XLT_CTT_BASE => 54
  | .XLT_IQ_BASE => 55
  | .XLT_IQ_TAIL => 56
  | .XLT_IQ_HEAD => 57
  | .XLT_IQ_DONE => 58
  | .XLT_IQ_STATUS => 59
  | .XLT_IQ_DONE_ADDR => 60
  | .XLT_RESUME => 61
  | .XLT_PRI_STATUS => 62
  | .XLT_QTLB_STATUS => 63
  | .XLT_QTLB_CNT => 64
  | .XLT_UTLB_CNT => 65
  | .STE_STATUS => 66
  | .STE_CNT => 67
  | .CNP_CTL => 68
  | .CNP_STATUS => 69
  | .CNP_CTX_BASE => 70
  | .CNP_CMD => 71
  | .CNP_CMD_ARG0 => 72
  | .CNP_CMD_ARG1 => 73
  | .CNP_CMD_STATUS => 74
  | .CNP_ACCT_BASE => 75
  | .CNP_ACCT_HEAD => 76
  | .CNP_ACCT_TAIL => 77
  | .CNP_LAYOUT_COMMIT => 78
  | .CNP_PART => 79
  | .CNP_CLUSTER => 80
  | .CNP_CTX_STATE => 81
  | .EVC_PEND => 82
  | .EVC_MASK => 83
  | .EVC_SETCNT => 84
  | .EVC_DFQ_HEAD => 85
  | .EVC_DFQ_TAIL => 86
  | .EVC_DFQ_OVF => 87
  | .EVC_RAW => 88
  | .EVC_ROUTE => 89
  | .EVC_FR_KICK => 90
  | .EVC_TAP_DIES => 91
  | .CNP_QP_SQ => 92
  | .CNP_QP_CQ => 93
  | .CNP_QP_CFG => 94
  | .CNP_QP_COMMIT => 95
  | .CNP_QP_STATUS => 96
  | .CNP_BAR4_WIN => 97
  | .CNP_BAR4_CTX => 98
  | .CNP_BAR4_COMMIT => 99
  | .CNP_QP_ERRMAP => 100
  | .TAP_MBX_CMD => 101
  | .TAP_MBX_DATA => 102
  | .GRG_PORT_CTL => 103
  | .GRG_PORT_STATUS => 104
  | .GRG_PORT_DELAY => 105
  | .GRG_PORT_CNT => 106
  | .GRG_PKG_ID => 107
  | .GRG_PKG_STATUS => 108
  | .GRG_RT_BASE => 109
  | .GRG_RT_SYNC => 110
  | .GRG_INGRESS => 111
  | .GRG_WIN_COMMIT => 112
  | .GRG_PKG_CNT => 113
  | .GRG_WIN_BASE => 114
  | .GRG_WIN_LIMIT => 115
  | .TAP_READY => 116
  | .TAP_RESET_CTL => 117
  | .TAP_ID_REV => 118
  | .TAP_SERIAL => 119
  | .TAP_STATUS => 120
  | .TAP_FW_STATUS => 121
  | .TAP_POWER => 122
  | .TAP_ENERGY => 123
  | .TAP_LOG_STATUS => 124
  | .TAP_TEMP => 125
  | .TAP_QUAD_HEALTH => 126
  | .TAP_DIE_HEALTH => 127
  | .DBG_CTL => 128
  | .DBG_CMD => 129
  | .DBG_CMD_ARG0 => 130
  | .DBG_CMD_ARG1 => 131
  | .DBG_CMD_STATUS => 132
  | .DBG_ATT => 133
  | .DBG_EVENT => 134
  | .DBG_EVENT_BLOCK => 135
  | .DBG_EVENT_PC => 136
  | .DBG_BP => 137
  | .DBG_WP_ADDR => 138
  | .DBG_WP_CTL => 139
  | .DBG_DIE_STATUS => 140
  | .TAP_PWR_LIMIT => 141
  | .TAP_DUTY_STATUS => 142
  | .TAP_PWR_STATUS => 143
  | .EVC_DFQ_WINDOW => 144

/-- The register descriptions, register by register. -/
def Reg.spec (r : Reg) : RegSpec :=
  match r with
  -- R53, 02_ring_time.md
  | .TB_STATUS => ⟨32, 0x0, .all, .all, .pkg, 0x400000, 0x0, 1, 0x0, 1,
      [⟨0, 2, .ro, none⟩, ⟨2, 3, .ro, none⟩, ⟨5, 4, .ro, none⟩, ⟨16, 16, .ro, none⟩]⟩
  -- R53, 02_ring_time.md
  | .TB_NOW => ⟨64, 0x0, .all, .all, .pkg, 0x400008, 0x0, 1, 0x0, 1,
      [⟨0, 64, .ro, none⟩]⟩
  -- R53, 02_ring_time.md
  | .TB_SLOT => ⟨64, 0x0, .all, .all, .pkg, 0x400010, 0x0, 1, 0x0, 1,
      [⟨0, 64, .ro, none⟩]⟩
  -- R53, 02_ring_time.md
  | .TB_OFFSET => ⟨32, 0x0, .all, .all, .pkg, 0x400018, 0x0, 1, 0x0, 1,
      [⟨0, 32, .ro, none⟩]⟩
  -- R53, 02_ring_time.md
  | .TB_SRC_CFG => ⟨32, 0x3E80002, .pfTaproot, .pfTaproot, .pkg, 0x400020, 0x0, 1, 0x0, 1,
      [⟨0, 1, .cm, none⟩, ⟨1, 1, .cm, none⟩, ⟨2, 1, .cm, none⟩, ⟨3, 1, .cm, none⟩, ⟨4, 1, .cm, none⟩,
       ⟨16, 16, .cm, none⟩]⟩
  -- R53, 02_ring_time.md
  | .TB_GRIGA_PORTS => ⟨32, 0x0, .pfTaproot, .pfTaproot, .pkg, 0x400024, 0x0, 1, 0x0, 1,
      [⟨0, 32, .cm, none⟩]⟩
  -- R53, 02_ring_time.md
  | .TB_PTM_OFFSET => ⟨64, 0x0, .pfTaproot, .pfTaproot, .pkg, 0x400028, 0x0, 1, 0x0, 1,
      [⟨0, 64, .cm, none⟩]⟩
  -- R53, 02_ring_time.md
  | .TB_SRC_COMMIT => ⟨32, 0x0, .pfTaproot, .pfTaproot, .pkg, 0x400030, 0x0, 1, 0x0, 1,
      [⟨0, 1, .sc, none⟩, ⟨1, 1, .ro, none⟩, ⟨2, 1, .sc, none⟩, ⟨3, 1, .rw, none⟩, ⟨4, 1, .w1c, none⟩,
       ⟨5, 1, .w1c, none⟩, ⟨16, 16, .ro, none⟩]⟩
  -- R53, 02_ring_time.md
  | .TB_PPS_NEXT_SEC => ⟨64, 0x0, .all, .all, .pkg, 0x400038, 0x0, 1, 0x0, 1,
      [⟨0, 35, .rw, none⟩]⟩
  -- R90, 03_cores_and_thread_groups.md
  | .CORE_STATUS => ⟨64, 0x4000000000000, .all, .all, .compute, 0x80000, 0x1000, 128, 0x0, 1,
      [⟨0, 9, .ro, none⟩, ⟨9, 6, .ro, none⟩, ⟨15, 6, .ro, none⟩, ⟨21, 5, .ro, none⟩, ⟨26, 5, .ro, none⟩,
       ⟨32, 16, .ro, none⟩, ⟨48, 1, .ro, none⟩, ⟨49, 2, .ro, none⟩]⟩
  -- R90, 03_cores_and_thread_groups.md
  | .CORE_GROUP_STATE => ⟨64, 0x0, .all, .all, .compute, 0x80100, 0x1000, 128, 0x8, 32,
      [⟨0, 1, .ro, none⟩, ⟨1, 5, .ro, none⟩, ⟨6, 4, .ro, none⟩, ⟨14, 6, .ro, none⟩, ⟨32, 32, .ro, none⟩]⟩
  -- R154, 05_matrix_engines.md
  | .MXE_CTL => ⟨32, 0x1, .all, .all, .compute, 0x100000, 0x1000, 128, 0x0, 1,
      [⟨0, 1, .rw, none⟩, ⟨1, 1, .rw, none⟩]⟩
  -- R154, 05_matrix_engines.md
  | .MXE_ENG_STATUS => ⟨64, 0x0, .all, .all, .compute, 0x100100, 0x1000, 128, 0x8, 16,
      [⟨0, 1, .ro, none⟩, ⟨4, 4, .ro, none⟩, ⟨8, 4, .ro, none⟩, ⟨12, 1, .ro, none⟩, ⟨13, 3, .ro, none⟩,
       ⟨16, 2, .ro, none⟩, ⟨18, 3, .ro, none⟩, ⟨21, 4, .ro, none⟩, ⟨25, 1, .ro, none⟩, ⟨26, 1, .ro, none⟩,
       ⟨27, 1, .ro, none⟩, ⟨28, 3, .ro, none⟩, ⟨31, 5, .ro, none⟩, ⟨36, 4, .ro, none⟩]⟩
  -- R154, 05_matrix_engines.md
  | .MXE_CNT_BUSY => ⟨64, 0x0, .all, .all, .compute, 0x100200, 0x1000, 128, 0x8, 16,
      [⟨0, 48, .rw, none⟩]⟩
  -- R154, 05_matrix_engines.md
  | .MXE_CNT_SKIP => ⟨64, 0x0, .all, .all, .compute, 0x100280, 0x1000, 128, 0x8, 16,
      [⟨0, 48, .rw, none⟩]⟩
  -- R154, 05_matrix_engines.md
  | .MXE_CNT_STALL => ⟨64, 0x0, .all, .all, .compute, 0x100300, 0x1000, 128, 0x8, 16,
      [⟨0, 48, .rw, none⟩]⟩
  -- R154, 05_matrix_engines.md
  | .MXE_CNT_OVF => ⟨64, 0x0, .all, .all, .compute, 0x100380, 0x1000, 128, 0x0, 1,
      [⟨0, 16, .w1c, none⟩, ⟨16, 16, .w1c, none⟩, ⟨32, 16, .w1c, none⟩]⟩
  -- R210, 07_local_memory_and_near_caches.md
  | .CORE_LM_POWER => ⟨64, 0xAAAAAAAAAAAAAAAA, .stewardTaproot, .stewardTaproot, .compute, 0x80200, 0x1000, 128, 0x0, 1,
      [⟨0, 2, .rw, some (0, 2)⟩, ⟨2, 2, .rw, some (0, 2)⟩, ⟨4, 2, .rw, some (0, 2)⟩, ⟨6, 2, .rw, some (0, 2)⟩,
       ⟨8, 2, .rw, some (0, 2)⟩, ⟨10, 2, .rw, some (0, 2)⟩, ⟨12, 2, .rw, some (0, 2)⟩, ⟨14, 2, .rw, some (0, 2)⟩,
       ⟨16, 2, .rw, some (0, 2)⟩, ⟨18, 2, .rw, some (0, 2)⟩, ⟨20, 2, .rw, some (0, 2)⟩,
       ⟨22, 2, .rw, some (0, 2)⟩, ⟨24, 2, .rw, some (0, 2)⟩, ⟨26, 2, .rw, some (0, 2)⟩,
       ⟨28, 2, .rw, some (0, 2)⟩, ⟨30, 2, .rw, some (0, 2)⟩, ⟨32, 2, .rw, some (0, 2)⟩,
       ⟨34, 2, .rw, some (0, 2)⟩, ⟨36, 2, .rw, some (0, 2)⟩, ⟨38, 2, .rw, some (0, 2)⟩,
       ⟨40, 2, .rw, some (0, 2)⟩, ⟨42, 2, .rw, some (0, 2)⟩, ⟨44, 2, .rw, some (0, 2)⟩,
       ⟨46, 2, .rw, some (0, 2)⟩, ⟨48, 2, .rw, some (0, 2)⟩, ⟨50, 2, .rw, some (0, 2)⟩,
       ⟨52, 2, .rw, some (0, 2)⟩, ⟨54, 2, .rw, some (0, 2)⟩, ⟨56, 2, .rw, some (0, 2)⟩,
       ⟨58, 2, .rw, some (0, 2)⟩, ⟨60, 2, .rw, some (0, 2)⟩, ⟨62, 2, .rw, some (0, 2)⟩]⟩
  -- R210, 07_local_memory_and_near_caches.md
  | .CORE_LM_STATUS => ⟨64, 0x0, .all, .all, .compute, 0x80208, 0x1000, 128, 0x0, 1,
      [⟨0, 32, .ro, none⟩, ⟨32, 1, .w1c, none⟩, ⟨33, 1, .ro, none⟩, ⟨34, 1, .ro, none⟩, ⟨35, 1, .ro, none⟩]⟩
  -- R210, 07_local_memory_and_near_caches.md
  | .CORE_LM_ZERO => ⟨32, 0x0, .stewardTaproot, .stewardTaproot, .compute, 0x80210, 0x1000, 128, 0x0, 1,
      [⟨0, 32, .sc, none⟩]⟩
  -- R210, 07_local_memory_and_near_caches.md
  | .CORE_LM_ERRLOG => ⟨64, 0x0, .all, .all, .compute, 0x80218, 0x1000, 128, 0x0, 1,
      [⟨0, 1, .w1c, none⟩, ⟨1, 1, .ro, none⟩, ⟨2, 5, .ro, none⟩, ⟨7, 11, .ro, none⟩, ⟨18, 4, .ro, none⟩]⟩
  -- R210, 07_local_memory_and_near_caches.md
  | .CORE_LM_TEST => ⟨64, 0x0, .stewardTaproot, .stewardTaproot, .compute, 0x80220, 0x1000, 128, 0x0, 1,
      [⟨0, 32, .rw, none⟩, ⟨32, 1, .sc, none⟩, ⟨33, 1, .ro, none⟩]⟩
  -- R210, 07_local_memory_and_near_caches.md
  | .CORE_NC_PARITY => ⟨64, 0x0, .all, .all, .compute, 0x80228, 0x1000, 128, 0x0, 1,
      [⟨0, 16, .ro, none⟩, ⟨16, 16, .ro, none⟩, ⟨32, 16, .ro, none⟩, ⟨48, 1, .w1c, none⟩, ⟨49, 1, .w1c, none⟩,
       ⟨50, 1, .w1c, none⟩]⟩
  -- R210, 07_local_memory_and_near_caches.md
  | .CORE_LM_CE => ⟨32, 0x0, .all, .all, .compute, 0x80300, 0x1000, 128, 0x4, 32,
      [⟨0, 16, .ro, none⟩, ⟨16, 1, .w1c, none⟩]⟩
  -- R210, 07_local_memory_and_near_caches.md
  | .CORE_LM_TEST_RESULT => ⟨64, 0xFFFFFFFF00, .all, .all, .compute, 0x80380, 0x1000, 128, 0x8, 32,
      [⟨0, 8, .ro, none⟩, ⟨8, 8, .ro, none⟩, ⟨16, 8, .ro, none⟩, ⟨24, 8, .ro, none⟩, ⟨32, 8, .ro, none⟩]⟩
  -- R210, 07_local_memory_and_near_caches.md
  | .CORE_LM_REPAIR => ⟨64, 0x0, .all, .taproot, .compute, 0x80480, 0x1000, 128, 0x8, 32,
      [⟨0, 8, .rw, some (0, 136)⟩, ⟨8, 1, .rw, none⟩, ⟨9, 1, .ro, none⟩, ⟨16, 8, .rw, some (0, 136)⟩,
       ⟨24, 1, .rw, none⟩, ⟨25, 1, .ro, none⟩, ⟨32, 8, .rw, some (0, 136)⟩, ⟨40, 1, .rw, none⟩,
       ⟨41, 1, .ro, none⟩, ⟨48, 8, .rw, some (0, 136)⟩, ⟨56, 1, .rw, none⟩, ⟨57, 1, .ro, none⟩]⟩
  -- R234, 08_quadrant_caches_and_coherence.md
  | .QDC_STATUS => ⟨64, 0x0, .all, .all, .compute, 0x40000, 0x10000, 4, 0x0, 1,
      [⟨0, 18, .ro, none⟩, ⟨18, 11, .ro, none⟩, ⟨29, 5, .ro, none⟩, ⟨34, 1, .ro, none⟩]⟩
  -- R234, 08_quadrant_caches_and_coherence.md
  | .QDC_ALLOC => ⟨64, 0xFFFFFFFFFFFFFFFF, .all, .all, .compute, 0x40008, 0x10000, 4, 0x0, 1,
      [⟨0, 16, .cm, none⟩, ⟨16, 16, .cm, none⟩, ⟨32, 16, .cm, none⟩, ⟨48, 16, .cm, none⟩]⟩
  -- R234, 08_quadrant_caches_and_coherence.md
  | .QDC_ALLOC_COMMIT => ⟨32, 0x0, .all, .all, .compute, 0x40010, 0x10000, 4, 0x0, 1,
      [⟨0, 1, .sc, none⟩, ⟨1, 1, .ro, none⟩, ⟨2, 1, .sc, none⟩, ⟨3, 1, .rw, none⟩, ⟨4, 1, .w1c, none⟩,
       ⟨5, 1, .w1c, none⟩, ⟨16, 16, .ro, none⟩]⟩
  -- R234, 08_quadrant_caches_and_coherence.md
  | .QDC_FLUSH => ⟨32, 0x0, .all, .all, .compute, 0x40018, 0x10000, 4, 0x0, 1,
      [⟨0, 10, .rw, none⟩, ⟨12, 2, .rw, some (0, 2)⟩, ⟨14, 1, .ro, none⟩, ⟨15, 1, .sc, none⟩]⟩
  -- R234, 08_quadrant_caches_and_coherence.md
  | .QDC_CE => ⟨32, 0x0, .all, .all, .compute, 0x40020, 0x10000, 4, 0x0, 1,
      [⟨0, 16, .ro, none⟩, ⟨16, 1, .w1c, none⟩]⟩
  -- R234, 08_quadrant_caches_and_coherence.md
  | .QDC_ERRLOG => ⟨64, 0x0, .all, .all, .compute, 0x40028, 0x10000, 4, 0x0, 1,
      [⟨0, 1, .w1c, none⟩, ⟨1, 1, .ro, none⟩, ⟨2, 2, .ro, none⟩, ⟨4, 4, .ro, none⟩, ⟨8, 13, .ro, none⟩]⟩
  -- R234, 08_quadrant_caches_and_coherence.md
  | .QDC_CNT => ⟨64, 0x0, .all, .all, .compute, 0x40100, 0x10000, 4, 0x8, 4,
      [⟨0, 48, .rw, none⟩, ⟨48, 1, .w1c, none⟩]⟩
  -- R235, 08_quadrant_caches_and_coherence.md
  | .HOM_DIR_STATUS => ⟨64, 0x0, .all, .all, .home, 0x1E0000, 0x0, 1, 0x0, 1,
      [⟨0, 23, .ro, none⟩, ⟨23, 15, .ro, none⟩, ⟨38, 15, .ro, none⟩]⟩
  -- R235, 08_quadrant_caches_and_coherence.md
  | .HOM_DIR_CE => ⟨32, 0x0, .all, .all, .home, 0x1E0008, 0x0, 1, 0x0, 1,
      [⟨0, 16, .ro, none⟩, ⟨16, 1, .w1c, none⟩]⟩
  -- R235, 08_quadrant_caches_and_coherence.md
  | .HOM_DIR_ERRLOG => ⟨64, 0x0, .all, .all, .home, 0x1E0010, 0x0, 1, 0x0, 1,
      [⟨0, 1, .w1c, none⟩, ⟨1, 1, .ro, none⟩, ⟨2, 4, .ro, none⟩, ⟨6, 18, .ro, none⟩, ⟨24, 1, .ro, none⟩]⟩
  -- R235, 08_quadrant_caches_and_coherence.md
  | .HOM_DIR_CNT => ⟨64, 0x0, .all, .all, .home, 0x1E0100, 0x8, 4, 0x0, 1,
      [⟨0, 48, .rw, none⟩, ⟨48, 1, .w1c, none⟩]⟩
  -- R296, 10_high_bandwidth_and_outer_tier_memory.md
  | .HOM_CAP => ⟨64, 0x0, .all, .all, .home, 0x100000, 0x0, 1, 0x0, 1,
      [⟨0, 24, .ro, none⟩, ⟨24, 24, .ro, none⟩]⟩
  -- R296, 10_high_bandwidth_and_outer_tier_memory.md
  | .HOM_PC_STATE => ⟨64, 0x0, .all, .all, .home, 0x100008, 0x8, 2, 0x0, 1,
      [⟨0, 2, .ro, none⟩, ⟨2, 2, .ro, none⟩, ⟨4, 2, .ro, none⟩, ⟨6, 2, .ro, none⟩, ⟨8, 2, .ro, none⟩,
       ⟨10, 2, .ro, none⟩, ⟨12, 2, .ro, none⟩, ⟨14, 2, .ro, none⟩, ⟨16, 2, .ro, none⟩, ⟨18, 2, .ro, none⟩,
       ⟨20, 2, .ro, none⟩, ⟨22, 2, .ro, none⟩, ⟨24, 2, .ro, none⟩, ⟨26, 2, .ro, none⟩, ⟨28, 2, .ro, none⟩,
       ⟨30, 2, .ro, none⟩, ⟨32, 2, .ro, none⟩, ⟨34, 2, .ro, none⟩, ⟨36, 2, .ro, none⟩, ⟨38, 2, .ro, none⟩,
       ⟨40, 2, .ro, none⟩, ⟨42, 2, .ro, none⟩, ⟨44, 2, .ro, none⟩, ⟨46, 2, .ro, none⟩, ⟨48, 2, .ro, none⟩,
       ⟨50, 2, .ro, none⟩, ⟨52, 2, .ro, none⟩, ⟨54, 2, .ro, none⟩, ⟨56, 2, .ro, none⟩, ⟨58, 2, .ro, none⟩,
       ⟨60, 2, .ro, none⟩, ⟨62, 2, .ro, none⟩]⟩
  -- R296, 10_high_bandwidth_and_outer_tier_memory.md
  | .HOM_PC_MAPOUT => ⟨32, 0x0, .pfTaproot, .pfTaproot, .home, 0x100018, 0x0, 1, 0x0, 1,
      [⟨0, 6, .rw, none⟩, ⟨30, 1, .rw, none⟩, ⟨31, 1, .sc, none⟩]⟩
  -- R296, 10_high_bandwidth_and_outer_tier_memory.md
  | .HOM_OT_STATUS => ⟨32, 0x0, .all, .all, .home, 0x100020, 0x0, 1, 0x0, 1,
      [⟨0, 1, .ro, none⟩, ⟨1, 1, .ro, none⟩, ⟨2, 2, .ro, none⟩, ⟨4, 2, .ro, none⟩]⟩
  -- R296, 10_high_bandwidth_and_outer_tier_memory.md
  | .HOM_TEMP => ⟨64, 0x0, .all, .all, .home, 0x100028, 0x0, 1, 0x0, 1,
      [⟨0, 16, .ro, none⟩, ⟨16, 16, .ro, none⟩, ⟨32, 2, .ro, none⟩, ⟨34, 2, .ro, none⟩]⟩
  -- R296, 10_high_bandwidth_and_outer_tier_memory.md
  | .HOM_MEM_CE => ⟨32, 0x0, .all, .all, .home, 0x100030, 0x0, 1, 0x0, 1,
      [⟨0, 16, .ro, none⟩, ⟨16, 1, .w1c, none⟩]⟩
  -- R296, 10_high_bandwidth_and_outer_tier_memory.md
  | .HOM_MEM_ERRLOG => ⟨64, 0x0, .all, .all, .home, 0x100038, 0x0, 1, 0x0, 1,
      [⟨0, 1, .w1c, none⟩, ⟨1, 1, .ro, none⟩, ⟨4, 3, .ro, none⟩, ⟨7, 42, .ro, none⟩]⟩
  -- R296, 10_high_bandwidth_and_outer_tier_memory.md
  | .HOM_RSV => ⟨32, 0x0, .pfTaproot, .pfTaproot, .home, 0x110000, 0x4, 1024, 0x0, 1,
      [⟨0, 13, .cm, none⟩, ⟨16, 10, .cm, none⟩]⟩
  -- R296, 10_high_bandwidth_and_outer_tier_memory.md
  | .HOM_RSV_COMMIT => ⟨32, 0x0, .pfTaproot, .pfTaproot, .home, 0x111000, 0x0, 1, 0x0, 1,
      [⟨0, 1, .sc, none⟩, ⟨1, 1, .ro, none⟩, ⟨2, 1, .sc, none⟩, ⟨3, 1, .rw, none⟩, ⟨4, 1, .w1c, none⟩,
       ⟨5, 1, .w1c, none⟩, ⟨16, 16, .ro, none⟩]⟩
  -- R296, 10_high_bandwidth_and_outer_tier_memory.md
  | .HOM_MAP => ⟨64, 0x0, .pfTaproot, .pfTaproot, .homeShared, 0x120000, 0x8, 6, 0x0, 1,
      [⟨0, 64, .cm, none⟩]⟩
  -- R296, 10_high_bandwidth_and_outer_tier_memory.md
  | .HOM_MAP_COMMIT => ⟨32, 0x0, .pfTaproot, .pfTaproot, .homeShared, 0x120030, 0x0, 1, 0x0, 1,
      [⟨0, 1, .sc, none⟩, ⟨1, 1, .ro, none⟩, ⟨2, 1, .sc, none⟩, ⟨3, 1, .rw, none⟩, ⟨4, 1, .w1c, none⟩,
       ⟨5, 1, .w1c, none⟩, ⟨16, 16, .ro, none⟩]⟩
  -- R296, 10_high_bandwidth_and_outer_tier_memory.md
  | .HOM_HW_PRI => ⟨64, 0x0, .pfTaproot, .pfTaproot, .homeShared, 0x130000, 0x40, 64, 0x0, 1,
      [⟨16, 30, .cm, none⟩]⟩
  -- R296, 10_high_bandwidth_and_outer_tier_memory.md
  | .HOM_HW_REP => ⟨64, 0x0, .pfTaproot, .pfTaproot, .homeShared, 0x130008, 0x40, 64, 0x0, 1,
      [⟨16, 30, .cm, none⟩]⟩
  -- R296, 10_high_bandwidth_and_outer_tier_memory.md
  | .HOM_HW_LEN => ⟨32, 0x0, .pfTaproot, .pfTaproot, .homeShared, 0x130010, 0x40, 64, 0x0, 1,
      [⟨0, 21, .cm, none⟩]⟩
  -- R296, 10_high_bandwidth_and_outer_tier_memory.md
  | .HOM_HW_COMMIT => ⟨32, 0x0, .pfTaproot, .pfTaproot, .homeShared, 0x130018, 0x40, 64, 0x0, 1,
      [⟨0, 1, .sc, none⟩, ⟨1, 1, .ro, none⟩, ⟨2, 1, .sc, none⟩, ⟨3, 1, .rw, none⟩, ⟨4, 1, .w1c, none⟩,
       ⟨5, 1, .w1c, none⟩, ⟨16, 16, .ro, none⟩]⟩
  -- R296, 10_high_bandwidth_and_outer_tier_memory.md
  | .HOM_HW_CTL => ⟨64, 0x0, .pfTaproot, .pfTaproot, .homeShared, 0x130020, 0x40, 64, 0x0, 1,
      [⟨0, 3, .ro, none⟩, ⟨4, 3, .sc, none⟩, ⟨8, 1, .w1c, none⟩, ⟨9, 1, .ro, none⟩, ⟨32, 25, .ro, none⟩]⟩
  -- R296, 10_high_bandwidth_and_outer_tier_memory.md
  | .HOM_HW_CNT => ⟨64, 0x0, .pfTaproot, .pfTaproot, .homeShared, 0x130028, 0x40, 64, 0x0, 1,
      [⟨0, 32, .ro, none⟩, ⟨32, 32, .ro, none⟩]⟩
  -- R321, 11_address_translation.md
  | .XLT_CTT_BASE => ⟨64, 0x0, .pfTaproot, .pfTaproot, .computeShared, 0x20000, 0x0, 1, 0x0, 1,
      [⟨0, 1, .rw, none⟩, ⟨20, 26, .rw, none⟩]⟩
  -- R321, 11_address_translation.md
  | .XLT_IQ_BASE => ⟨64, 0x0, .pfTaproot, .pfTaproot, .computeShared, 0x20008, 0x0, 1, 0x0, 1,
      [⟨0, 5, .rw, some (6, 16)⟩, ⟨12, 34, .rw, none⟩, ⟨63, 1, .rw, none⟩]⟩
  -- R321, 11_address_translation.md
  | .XLT_IQ_TAIL => ⟨32, 0x0, .pfTaproot, .pfTaproot, .computeShared, 0x20010, 0x0, 1, 0x0, 1,
      [⟨0, 16, .rw, none⟩]⟩
  -- R321, 11_address_translation.md
  | .XLT_IQ_HEAD => ⟨32, 0x0, .all, .all, .computeShared, 0x20014, 0x0, 1, 0x0, 1,
      [⟨0, 16, .ro, none⟩]⟩
  -- R321, 11_address_translation.md
  | .XLT_IQ_DONE => ⟨32, 0x0, .all, .all, .computeShared, 0x20018, 0x0, 1, 0x0, 1,
      [⟨0, 32, .ro, none⟩]⟩
  -- R321, 11_address_translation.md
  | .XLT_IQ_STATUS => ⟨32, 0x0, .all, .all, .computeShared, 0x2001C, 0x0, 1, 0x0, 1,
      [⟨0, 1, .ro, none⟩, ⟨1, 1, .w1c, none⟩]⟩
  -- R321, 11_address_translation.md
  | .XLT_IQ_DONE_ADDR => ⟨64, 0x0, .pfTaproot, .pfTaproot, .computeShared, 0x20020, 0x0, 1, 0x0, 1,
      [⟨0, 1, .rw, none⟩, ⟨2, 44, .rw, none⟩]⟩
  -- R321, 11_address_translation.md
  | .XLT_RESUME => ⟨64, 0x0, .pfTaproot, .pfTaproot, .computeShared, 0x20028, 0x0, 1, 0x0, 1,
      [⟨0, 16, .wo, none⟩, ⟨16, 1, .wo, none⟩, ⟨32, 32, .wo, none⟩]⟩
  -- R321, 11_address_translation.md
  | .XLT_PRI_STATUS => ⟨32, 0x0, .all, .all, .computeShared, 0x20030, 0x0, 1, 0x0, 1,
      [⟨0, 18, .ro, none⟩, ⟨23, 1, .w1c, none⟩, ⟨24, 8, .ro, none⟩]⟩
  -- R321, 11_address_translation.md
  | .XLT_QTLB_STATUS => ⟨64, 0x0, .all, .all, .compute, 0x24000, 0x1000, 4, 0x0, 1,
      [⟨0, 14, .ro, none⟩, ⟨14, 11, .ro, none⟩, ⟨25, 5, .ro, none⟩, ⟨30, 1, .ro, none⟩]⟩
  -- R321, 11_address_translation.md
  | .XLT_QTLB_CNT => ⟨64, 0x0, .all, .all, .compute, 0x24100, 0x1000, 4, 0x8, 4,
      [⟨0, 48, .rw, none⟩, ⟨48, 1, .w1c, none⟩]⟩
  -- R321, 11_address_translation.md
  | .XLT_UTLB_CNT => ⟨64, 0x0, .all, .all, .compute, 0x30100, 0x1000, 16, 0x8, 2,
      [⟨0, 48, .rw, none⟩, ⟨48, 1, .w1c, none⟩]⟩
  -- R339, 12_stream_engines_and_long_sequences.md
  | .STE_STATUS => ⟨64, 0x0, .all, .all, .compute, 0x180000, 0x1000, 32, 0x0, 1,
      [⟨0, 1, .ro, none⟩, ⟨10, 8, .ro, none⟩, ⟨18, 10, .ro, none⟩, ⟨28, 8, .ro, none⟩, ⟨48, 16, .ro, none⟩]⟩
  -- R339, 12_stream_engines_and_long_sequences.md
  | .STE_CNT => ⟨64, 0x0, .all, .all, .compute, 0x180100, 0x1000, 32, 0x8, 4,
      [⟨0, 48, .rw, none⟩, ⟨48, 1, .w1c, none⟩]⟩
  -- R374, 13_canopy_partitions_and_preemption.md
  | .CNP_CTL => ⟨32, 0x3C0C8, .pfTaproot, .pfTaproot, .pkg, 0x0, 0x0, 1, 0x0, 1,
      [⟨0, 1, .rw, none⟩, ⟨1, 1, .rw, none⟩, ⟨2, 10, .rw, some (10, 1000)⟩, ⟨12, 16, .rw, some (1, 65535)⟩]⟩
  -- R374, 13_canopy_partitions_and_preemption.md
  | .CNP_STATUS => ⟨64, 0x4000000000000, .all, .all, .pkg, 0x8, 0x0, 1, 0x0, 1,
      [⟨0, 17, .ro, none⟩, ⟨17, 11, .ro, none⟩, ⟨28, 11, .ro, none⟩, ⟨39, 11, .ro, none⟩, ⟨50, 1, .ro, none⟩,
       ⟨51, 1, .ro, none⟩]⟩
  -- R374, 13_canopy_partitions_and_preemption.md
  | .CNP_CTX_BASE => ⟨64, 0x0, .pfTaproot, .pfTaproot, .pkg, 0x10, 0x0, 1, 0x0, 1,
      [⟨22, 24, .rw, none⟩]⟩
  -- R374, 13_canopy_partitions_and_preemption.md
  | .CNP_CMD => ⟨64, 0x0, .pfTaproot, .pfTaproot, .pkg, 0x20, 0x0, 1, 0x0, 1,
      [⟨0, 4, .rw, some (1, 6)⟩, ⟨4, 16, .rw, none⟩, ⟨63, 1, .sc, none⟩]⟩
  -- R374, 13_canopy_partitions_and_preemption.md
  | .CNP_CMD_ARG0 => ⟨64, 0x0, .pfTaproot, .pfTaproot, .pkg, 0x28, 0x0, 1, 0x0, 1,
      [⟨0, 64, .rw, none⟩]⟩
  -- R374, 13_canopy_partitions_and_preemption.md
  | .CNP_CMD_ARG1 => ⟨64, 0x0, .pfTaproot, .pfTaproot, .pkg, 0x30, 0x0, 1, 0x0, 1,
      [⟨5, 41, .rw, none⟩, ⟨48, 16, .rw, none⟩]⟩
  -- R374, 13_canopy_partitions_and_preemption.md
  | .CNP_CMD_STATUS => ⟨32, 0x0, .pfTaproot, .pfTaproot, .pkg, 0x38, 0x0, 1, 0x0, 1,
      [⟨0, 8, .ro, none⟩, ⟨30, 1, .w1c, none⟩, ⟨31, 1, .ro, none⟩]⟩
  -- R374, 13_canopy_partitions_and_preemption.md
  | .CNP_ACCT_BASE => ⟨64, 0x6, .pfTaproot, .pfTaproot, .pkg, 0x40, 0x0, 1, 0x0, 1,
      [⟨0, 5, .rw, some (6, 20)⟩, ⟨12, 34, .rw, none⟩, ⟨48, 16, .rw, none⟩]⟩
  -- R374, 13_canopy_partitions_and_preemption.md
  | .CNP_ACCT_HEAD => ⟨32, 0x0, .pfTaproot, .pfTaproot, .pkg, 0x48, 0x0, 1, 0x0, 1,
      [⟨0, 20, .rw, none⟩]⟩
  -- R374, 13_canopy_partitions_and_preemption.md
  | .CNP_ACCT_TAIL => ⟨32, 0x0, .all, .all, .pkg, 0x4C, 0x0, 1, 0x0, 1,
      [⟨0, 20, .ro, none⟩]⟩
  -- R374, 13_canopy_partitions_and_preemption.md
  | .CNP_LAYOUT_COMMIT => ⟨32, 0x0, .pfTaproot, .pfTaproot, .pkg, 0x50, 0x0, 1, 0x0, 1,
      [⟨0, 1, .sc, none⟩, ⟨1, 1, .ro, none⟩, ⟨2, 1, .sc, none⟩, ⟨3, 1, .rw, none⟩, ⟨4, 1, .w1c, none⟩,
       ⟨5, 1, .w1c, none⟩, ⟨16, 16, .ro, none⟩]⟩
  -- R374, 13_canopy_partitions_and_preemption.md
  | .CNP_PART => ⟨64, 0xC8, .pfTaproot, .pfTaproot, .pkg, 0x10000, 0x8, 1024, 0x0, 1,
      [⟨0, 1, .cm, none⟩, ⟨1, 1, .cm, none⟩, ⟨2, 10, .cm, none⟩, ⟨12, 1, .cm, none⟩]⟩
  -- R374, 13_canopy_partitions_and_preemption.md
  | .CNP_CLUSTER => ⟨64, 0x0, .all, .pfTaproot, .pkg, 0x20000, 0x8, 1024, 0x0, 1,
      [⟨0, 1, .cm, none⟩, ⟨1, 10, .cm, none⟩, ⟨12, 1, .ro, none⟩, ⟨13, 10, .ro, none⟩, ⟨24, 16, .ro, none⟩,
       ⟨40, 3, .ro, none⟩]⟩
  -- R374, 13_canopy_partitions_and_preemption.md
  | .CNP_CTX_STATE => ⟨64, 0x0, .all, .all, .pkg, 0x100000, 0x8, 65536, 0x0, 1,
      [⟨0, 4, .ro, none⟩, ⟨4, 1, .ro, none⟩, ⟨5, 1, .w1c, none⟩, ⟨6, 11, .ro, none⟩, ⟨17, 11, .ro, none⟩]⟩
  -- R392, 14_events_interrupts_and_fault_queues.md
  | .EVC_PEND => ⟨32, 0x0, .all, .all, .every, 0x0, 0x4, 32, 0x0, 1,
      [⟨0, 32, .rw, none⟩]⟩
  -- R392, 14_events_interrupts_and_fault_queues.md
  | .EVC_MASK => ⟨32, 0xFFFFFFFF, .all, .all, .every, 0x80, 0x4, 32, 0x0, 1,
      [⟨0, 32, .rw, none⟩]⟩
  -- R392, 14_events_interrupts_and_fault_queues.md
  | .EVC_SETCNT => ⟨32, 0x0, .all, .all, .every, 0x100, 0x4, 32, 0x0, 1,
      [⟨0, 32, .ro, none⟩]⟩
  -- R392, 14_events_interrupts_and_fault_queues.md
  | .EVC_DFQ_HEAD => ⟨32, 0x0, .all, .all, .every, 0x180, 0x0, 1, 0x0, 1,
      [⟨0, 16, .rw, none⟩]⟩
  -- R392, 14_events_interrupts_and_fault_queues.md
  | .EVC_DFQ_TAIL => ⟨32, 0x0, .all, .all, .every, 0x184, 0x0, 1, 0x0, 1,
      [⟨0, 16, .ro, none⟩, ⟨16, 1, .ro, none⟩]⟩
  -- R392, 14_events_interrupts_and_fault_queues.md
  | .EVC_DFQ_OVF => ⟨32, 0x0, .all, .all, .every, 0x1A0, 0x4, 8, 0x0, 1,
      [⟨0, 32, .rw, none⟩]⟩
  -- R392, 14_events_interrupts_and_fault_queues.md
  | .EVC_RAW => ⟨32, 0x0, .all, .all, .every, 0x1000, 0x4, 1024, 0x0, 1,
      [⟨0, 16, .ro, none⟩, ⟨30, 1, .ro, none⟩, ⟨31, 1, .ro, none⟩]⟩
  -- R392, 14_events_interrupts_and_fault_queues.md
  | .EVC_ROUTE => ⟨32, 0x0, .all, .all, .every, 0x2000, 0x4, 1024, 0x0, 1,
      [⟨0, 11, .rw, none⟩, ⟨11, 8, .rw, none⟩, ⟨19, 2, .rw, some (0, 2)⟩, ⟨29, 1, .ro, none⟩, ⟨30, 1, .ro, none⟩,
       ⟨31, 1, .w1c, none⟩]⟩
  -- R392, 14_events_interrupts_and_fault_queues.md
  | .EVC_FR_KICK => ⟨32, 0x0, .pfTaproot, .pfTaproot, .pkg, 0x420000, 0x0, 1, 0x0, 1,
      [⟨0, 16, .wo, none⟩]⟩
  -- R392, 14_events_interrupts_and_fault_queues.md
  | .EVC_TAP_DIES => ⟨64, 0x0, .pfTaproot, .pfTaproot, .pkg, 0x420008, 0x8, 2, 0x0, 1,
      [⟨0, 64, .ro, none⟩]⟩
  -- R414, 15_host_attachment.md
  | .CNP_QP_SQ => ⟨64, 0x0, .pfTaproot, .pfTaproot, .pkg, 0x200000, 0x40, 4096, 0x0, 1,
      [⟨0, 1, .cm, none⟩, ⟨12, 52, .cm, none⟩]⟩
  -- R414, 15_host_attachment.md
  | .CNP_QP_CQ => ⟨64, 0x0, .pfTaproot, .pfTaproot, .pkg, 0x200008, 0x40, 4096, 0x0, 1,
      [⟨0, 1, .cm, none⟩, ⟨12, 52, .cm, none⟩]⟩
  -- R414, 15_host_attachment.md
  | .CNP_QP_CFG => ⟨64, 0x0, .pfTaproot, .pfTaproot, .pkg, 0x200010, 0x40, 4096, 0x0, 1,
      [⟨0, 1, .cm, none⟩, ⟨4, 5, .cm, none⟩, ⟨9, 5, .cm, none⟩, ⟨14, 8, .cm, none⟩, ⟨22, 1, .cm, none⟩,
       ⟨23, 11, .cm, none⟩, ⟨34, 6, .cm, none⟩, ⟨40, 8, .cm, none⟩, ⟨48, 16, .cm, none⟩]⟩
  -- R414, 15_host_attachment.md
  | .CNP_QP_COMMIT => ⟨32, 0x0, .pfTaproot, .pfTaproot, .pkg, 0x200018, 0x40, 4096, 0x0, 1,
      [⟨0, 1, .sc, none⟩, ⟨1, 1, .ro, none⟩, ⟨2, 1, .sc, none⟩, ⟨3, 1, .rw, none⟩, ⟨4, 1, .w1c, none⟩,
       ⟨5, 1, .w1c, none⟩, ⟨16, 16, .ro, none⟩]⟩
  -- R414, 15_host_attachment.md
  | .CNP_QP_STATUS => ⟨64, 0x0, .all, .all, .pkg, 0x200020, 0x40, 4096, 0x0, 1,
      [⟨0, 16, .ro, none⟩, ⟨16, 16, .ro, none⟩, ⟨32, 7, .ro, none⟩, ⟨40, 2, .ro, none⟩, ⟨42, 3, .ro, none⟩]⟩
  -- R414, 15_host_attachment.md
  | .CNP_BAR4_WIN => ⟨64, 0x0, .pfTaproot, .pfTaproot, .pkg, 0x240000, 0x20, 256, 0x0, 1,
      [⟨0, 1, .cm, none⟩, ⟨16, 48, .cm, none⟩]⟩
  -- R414, 15_host_attachment.md
  | .CNP_BAR4_CTX => ⟨64, 0x0, .pfTaproot, .pfTaproot, .pkg, 0x240008, 0x20, 256, 0x0, 1,
      [⟨0, 16, .cm, none⟩]⟩
  -- R414, 15_host_attachment.md
  | .CNP_BAR4_COMMIT => ⟨32, 0x0, .pfTaproot, .pfTaproot, .pkg, 0x240010, 0x20, 256, 0x0, 1,
      [⟨0, 1, .sc, none⟩, ⟨1, 1, .ro, none⟩, ⟨2, 1, .sc, none⟩, ⟨3, 1, .rw, none⟩, ⟨4, 1, .w1c, none⟩,
       ⟨5, 1, .w1c, none⟩, ⟨16, 16, .ro, none⟩]⟩
  -- R414, 15_host_attachment.md
  | .CNP_QP_ERRMAP => ⟨64, 0x0, .all, .all, .pkg, 0x242000, 0x8, 64, 0x0, 1,
      [⟨0, 64, .ro, none⟩]⟩
  -- R414, 15_host_attachment.md
  | .TAP_MBX_CMD => ⟨64, 0x0, .pfTaproot, .pfTaproot, .pkg, 0x410000, 0x0, 1, 0x0, 1,
      [⟨0, 8, .wo, none⟩, ⟨8, 19, .wo, none⟩, ⟨32, 21, .ro, none⟩, ⟨53, 8, .ro, none⟩, ⟨61, 2, .ro, none⟩,
       ⟨63, 1, .w1c, none⟩]⟩
  -- R414, 15_host_attachment.md
  | .TAP_MBX_DATA => ⟨32, 0x0, .pfTaproot, .pfTaproot, .pkg, 0x410008, 0x0, 1, 0x0, 1,
      [⟨0, 32, .rw, none⟩]⟩
  -- R434, 16_griga_links.md
  | .GRG_PORT_CTL => ⟨32, 0x810, .all, .all, .edge, 0x100000, 0x10000, 8, 0x0, 1,
      [⟨0, 1, .rw, none⟩, ⟨1, 1, .sc, none⟩, ⟨2, 2, .rw, some (0, 2)⟩, ⟨4, 1, .rw, none⟩,
       ⟨8, 8, .rw, some (1, 255)⟩]⟩
  -- R434, 16_griga_links.md
  | .GRG_PORT_STATUS => ⟨64, 0x0, .all, .all, .edge, 0x100008, 0x10000, 8, 0x0, 1,
      [⟨0, 3, .ro, none⟩, ⟨3, 2, .ro, none⟩, ⟨5, 4, .ro, none⟩, ⟨9, 2, .ro, none⟩, ⟨11, 1, .ro, none⟩,
       ⟨12, 1, .ro, none⟩, ⟨13, 14, .ro, none⟩, ⟨27, 6, .ro, none⟩]⟩
  -- R434, 16_griga_links.md
  | .GRG_PORT_DELAY => ⟨32, 0x0, .all, .all, .edge, 0x100010, 0x10000, 8, 0x0, 1,
      [⟨0, 20, .ro, none⟩, ⟨31, 1, .ro, none⟩]⟩
  -- R434, 16_griga_links.md
  | .GRG_PORT_CNT => ⟨64, 0x0, .all, .all, .edge, 0x100100, 0x10000, 8, 0x8, 4,
      [⟨0, 48, .rw, none⟩, ⟨48, 1, .w1c, none⟩]⟩
  -- R434, 16_griga_links.md
  | .GRG_PKG_ID => ⟨32, 0x0, .pfTaproot, .pfTaproot, .edgeShared, 0x180000, 0x0, 1, 0x0, 1,
      [⟨0, 14, .rw, none⟩, ⟨14, 1, .rw, none⟩, ⟨31, 1, .w1c, none⟩]⟩
  -- R434, 16_griga_links.md
  | .GRG_PKG_STATUS => ⟨64, 0x0, .all, .all, .edgeShared, 0x180008, 0x0, 1, 0x0, 1,
      [⟨0, 6, .ro, none⟩, ⟨6, 4, .ro, none⟩, ⟨10, 16, .ro, none⟩, ⟨26, 1, .ro, none⟩]⟩
  -- R434, 16_griga_links.md
  | .GRG_RT_BASE => ⟨64, 0x0, .pfTaproot, .pfTaproot, .edgeShared, 0x180010, 0x0, 1, 0x0, 1,
      [⟨0, 1, .rw, none⟩, ⟨17, 29, .rw, none⟩]⟩
  -- R434, 16_griga_links.md
  | .GRG_RT_SYNC => ⟨32, 0x0, .pfTaproot, .pfTaproot, .edgeShared, 0x180018, 0x0, 1, 0x0, 1,
      [⟨0, 1, .sc, none⟩]⟩
  -- R434, 16_griga_links.md
  | .GRG_INGRESS => ⟨32, 0x0, .pfTaproot, .pfTaproot, .edgeShared, 0x180020, 0x0, 1, 0x0, 1,
      [⟨0, 10, .cm, none⟩, ⟨10, 1, .cm, none⟩, ⟨11, 10, .cm, none⟩, ⟨21, 1, .cm, none⟩]⟩
  -- R434, 16_griga_links.md
  | .GRG_WIN_COMMIT => ⟨32, 0x0, .pfTaproot, .pfTaproot, .edgeShared, 0x180028, 0x0, 1, 0x0, 1,
      [⟨0, 1, .sc, none⟩, ⟨1, 1, .ro, none⟩, ⟨2, 1, .sc, none⟩, ⟨3, 1, .rw, none⟩, ⟨4, 1, .w1c, none⟩,
       ⟨5, 1, .w1c, none⟩, ⟨16, 16, .ro, none⟩]⟩
  -- R434, 16_griga_links.md
  | .GRG_PKG_CNT => ⟨64, 0x0, .all, .all, .edgeShared, 0x180100, 0x8, 4, 0x0, 1,
      [⟨0, 48, .rw, none⟩, ⟨48, 1, .w1c, none⟩]⟩
  -- R434, 16_griga_links.md
  | .GRG_WIN_BASE => ⟨64, 0x0, .pfTaproot, .pfTaproot, .edgeShared, 0x181000, 0x10, 64, 0x0, 1,
      [⟨16, 30, .cm, none⟩, ⟨46, 1, .cm, none⟩, ⟨47, 1, .cm, none⟩, ⟨48, 1, .cm, none⟩, ⟨63, 1, .cm, none⟩]⟩
  -- R434, 16_griga_links.md
  | .GRG_WIN_LIMIT => ⟨64, 0x0, .pfTaproot, .pfTaproot, .edgeShared, 0x181008, 0x10, 64, 0x0, 1,
      [⟨16, 30, .cm, none⟩]⟩
  -- R451, 17_from_power_to_service.md
  | .TAP_READY => ⟨64, 0x0, .all, .all, .pkg, 0x410100, 0x0, 1, 0x0, 1,
      [⟨0, 3, .ro, none⟩, ⟨3, 1, .ro, none⟩, ⟨4, 1, .ro, none⟩, ⟨5, 1, .ro, none⟩, ⟨6, 1, .ro, none⟩,
       ⟨7, 1, .ro, none⟩, ⟨8, 1, .ro, none⟩, ⟨12, 4, .ro, none⟩, ⟨16, 3, .ro, none⟩, ⟨32, 32, .ro, none⟩]⟩
  -- R451, 17_from_power_to_service.md
  | .TAP_RESET_CTL => ⟨32, 0x0, .pfTaproot, .pfTaproot, .pkg, 0x410108, 0x0, 1, 0x0, 1,
      [⟨0, 3, .wo, none⟩, ⟨8, 8, .wo, none⟩, ⟨16, 1, .ro, none⟩, ⟨17, 1, .w1c, none⟩]⟩
  -- R481, 18_taproot_identity_and_firmware.md
  | .TAP_ID_REV => ⟨32, 0x64000041, .all, .all, .pkg, 0x410200, 0x0, 1, 0x0, 1,
      [⟨0, 8, .ro, none⟩, ⟨16, 16, .ro, none⟩]⟩
  -- R481, 18_taproot_identity_and_firmware.md
  | .TAP_SERIAL => ⟨64, 0x0, .all, .all, .pkg, 0x410208, 0x0, 1, 0x0, 1,
      [⟨0, 64, .ro, none⟩]⟩
  -- R481, 18_taproot_identity_and_firmware.md
  | .TAP_STATUS => ⟨64, 0x0, .all, .all, .pkg, 0x410210, 0x0, 1, 0x0, 1,
      [⟨0, 16, .ro, none⟩, ⟨16, 1, .ro, none⟩, ⟨17, 1, .ro, none⟩, ⟨18, 1, .ro, none⟩]⟩
  -- R481, 18_taproot_identity_and_firmware.md
  | .TAP_FW_STATUS => ⟨64, 0x0, .all, .all, .pkg, 0x410218, 0x0, 1, 0x0, 1,
      [⟨0, 6, .ro, none⟩, ⟨6, 6, .ro, none⟩, ⟨12, 1, .ro, none⟩, ⟨13, 3, .ro, none⟩, ⟨16, 7, .ro, none⟩,
       ⟨23, 9, .ro, none⟩, ⟨32, 32, .ro, none⟩]⟩
  -- R481, 18_taproot_identity_and_firmware.md
  | .TAP_POWER => ⟨64, 0x0, .all, .all, .pkg, 0x410220, 0x0, 1, 0x0, 1,
      [⟨0, 16, .ro, none⟩, ⟨16, 16, .ro, none⟩, ⟨32, 16, .ro, none⟩]⟩
  -- R481, 18_taproot_identity_and_firmware.md
  | .TAP_ENERGY => ⟨64, 0x0, .all, .all, .pkg, 0x410228, 0x0, 1, 0x0, 1,
      [⟨0, 64, .ro, none⟩]⟩
  -- R481, 18_taproot_identity_and_firmware.md
  | .TAP_LOG_STATUS => ⟨64, 0x0, .all, .all, .pkg, 0x410230, 0x0, 1, 0x0, 1,
      [⟨0, 18, .ro, none⟩, ⟨32, 32, .ro, none⟩]⟩
  -- R481, 18_taproot_identity_and_firmware.md
  | .TAP_TEMP => ⟨32, 0x0, .all, .all, .pkg, 0x411000, 0x4, 672, 0x0, 1,
      [⟨0, 16, .ro, none⟩, ⟨31, 1, .ro, none⟩]⟩
  -- R504, 19_errors_repair_and_the_long_run.md
  | .TAP_QUAD_HEALTH => ⟨32, 0x0, .all, .all, .pkg, 0x412000, 0x4, 256, 0x0, 1,
      [⟨0, 1, .ro, none⟩, ⟨1, 5, .ro, none⟩, ⟨8, 4, .ro, none⟩, ⟨16, 6, .ro, none⟩]⟩
  -- R504, 19_errors_repair_and_the_long_run.md
  | .TAP_DIE_HEALTH => ⟨32, 0x0, .all, .all, .pkg, 0x412400, 0x4, 84, 0x0, 1,
      [⟨0, 2, .ro, none⟩, ⟨4, 4, .ro, none⟩, ⟨8, 4, .ro, none⟩, ⟨16, 4, .ro, none⟩, ⟨24, 8, .ro, none⟩]⟩
  -- R517, 20_debug_access.md
  | .DBG_CTL => ⟨32, 0x0, .pfTaproot, .pfTaproot, .pkg, 0x440000, 0x0, 1, 0x0, 1,
      [⟨0, 1, .rw, none⟩, ⟨1, 1, .rw, none⟩]⟩
  -- R517, 20_debug_access.md
  | .DBG_CMD => ⟨64, 0x0, .pfTaproot, .pfTaproot, .pkg, 0x440008, 0x0, 1, 0x0, 1,
      [⟨0, 4, .rw, some (1, 7)⟩, ⟨4, 4, .rw, none⟩, ⟨32, 5, .rw, none⟩, ⟨37, 1, .rw, none⟩, ⟨38, 1, .rw, none⟩,
       ⟨39, 1, .rw, none⟩, ⟨63, 1, .sc, none⟩]⟩
  -- R517, 20_debug_access.md
  | .DBG_CMD_ARG0 => ⟨64, 0x0, .pfTaproot, .pfTaproot, .pkg, 0x440010, 0x0, 1, 0x0, 1,
      [⟨0, 64, .rw, none⟩]⟩
  -- R517, 20_debug_access.md
  | .DBG_CMD_ARG1 => ⟨64, 0x0, .pfTaproot, .pfTaproot, .pkg, 0x440018, 0x0, 1, 0x0, 1,
      [⟨12, 34, .rw, none⟩]⟩
  -- R517, 20_debug_access.md
  | .DBG_CMD_STATUS => ⟨32, 0x0, .pfTaproot, .pfTaproot, .pkg, 0x440020, 0x0, 1, 0x0, 1,
      [⟨0, 8, .ro, none⟩, ⟨31, 1, .ro, none⟩]⟩
  -- R517, 20_debug_access.md
  | .DBG_ATT => ⟨64, 0x0, .pfTaproot, .pfTaproot, .pkg, 0x441000, 0x100, 16, 0x0, 1,
      [⟨0, 16, .ro, none⟩, ⟨16, 1, .rw, none⟩, ⟨17, 1, .rw, none⟩, ⟨18, 1, .rw, none⟩, ⟨63, 1, .ro, none⟩]⟩
  -- R517, 20_debug_access.md
  | .DBG_EVENT => ⟨64, 0x0, .pfTaproot, .pfTaproot, .pkg, 0x441008, 0x100, 16, 0x0, 1,
      [⟨0, 1, .w1c, none⟩, ⟨32, 5, .ro, none⟩, ⟨40, 8, .ro, none⟩, ⟨48, 16, .ro, none⟩]⟩
  -- R517, 20_debug_access.md
  | .DBG_EVENT_BLOCK => ⟨64, 0x0, .pfTaproot, .pfTaproot, .pkg, 0x441010, 0x100, 16, 0x0, 1,
      [⟨0, 64, .ro, none⟩]⟩
  -- R517, 20_debug_access.md
  | .DBG_EVENT_PC => ⟨64, 0x0, .pfTaproot, .pfTaproot, .pkg, 0x441018, 0x100, 16, 0x0, 1,
      [⟨0, 64, .ro, none⟩]⟩
  -- R517, 20_debug_access.md
  | .DBG_BP => ⟨64, 0x0, .pfTaproot, .pfTaproot, .pkg, 0x441020, 0x100, 16, 0x8, 4,
      [⟨0, 1, .rw, none⟩, ⟨3, 54, .rw, none⟩]⟩
  -- R517, 20_debug_access.md
  | .DBG_WP_ADDR => ⟨64, 0x0, .pfTaproot, .pfTaproot, .pkg, 0x441040, 0x100, 16, 0x10, 4,
      [⟨0, 57, .rw, none⟩]⟩
  -- R517, 20_debug_access.md
  | .DBG_WP_CTL => ⟨64, 0x0, .pfTaproot, .pfTaproot, .pkg, 0x441048, 0x100, 16, 0x10, 4,
      [⟨0, 1, .rw, none⟩, ⟨1, 1, .rw, none⟩, ⟨2, 1, .rw, none⟩, ⟨3, 1, .rw, none⟩, ⟨8, 5, .rw, some (3, 30)⟩]⟩
  -- R517, 20_debug_access.md
  | .DBG_DIE_STATUS => ⟨32, 0x0, .all, .all, .every, 0x10000, 0x0, 1, 0x0, 1,
      [⟨0, 13, .ro, none⟩, ⟨13, 13, .ro, none⟩]⟩
  -- R534, 21_package_power_and_cooling.md
  | .TAP_PWR_LIMIT => ⟨32, 0x1032C8, .pfTaproot, .pfTaproot, .pkg, 0x413000, 0x0, 1, 0x0, 1,
      [⟨0, 14, .rw, some (1000, 13000)⟩, ⟨16, 5, .rw, some (1, 16)⟩]⟩
  -- R534, 21_package_power_and_cooling.md
  | .TAP_DUTY_STATUS => ⟨64, 0x8420000000, .all, .all, .pkg, 0x413008, 0x0, 1, 0x0, 1,
      [⟨0, 1, .ro, none⟩, ⟨1, 1, .ro, none⟩, ⟨2, 1, .ro, none⟩, ⟨3, 1, .ro, none⟩, ⟨4, 1, .ro, none⟩,
       ⟨5, 1, .ro, none⟩, ⟨25, 5, .ro, none⟩, ⟨30, 5, .ro, none⟩, ⟨35, 5, .ro, none⟩, ⟨48, 16, .ro, none⟩]⟩
  -- R534, 21_package_power_and_cooling.md
  | .TAP_PWR_STATUS => ⟨32, 0x0, .all, .all, .pkg, 0x413010, 0x0, 1, 0x0, 1,
      [⟨0, 3, .ro, none⟩, ⟨8, 8, .ro, none⟩]⟩
  -- R392, 14_events_interrupts_and_fault_queues.md
  | .EVC_DFQ_WINDOW => ⟨64, 0x0, .all, .all, .every, 0x4000, 0x8, 2048, 0x0, 1,
      [⟨0, 64, .ro, none⟩]⟩

/-- Every register, for the decoding of offsets. -/
def Reg.list : List Reg :=
  [.TB_STATUS, .TB_NOW, .TB_SLOT, .TB_OFFSET,
   .TB_SRC_CFG, .TB_GRIGA_PORTS, .TB_PTM_OFFSET, .TB_SRC_COMMIT,
   .TB_PPS_NEXT_SEC, .CORE_STATUS, .CORE_GROUP_STATE, .MXE_CTL,
   .MXE_ENG_STATUS, .MXE_CNT_BUSY, .MXE_CNT_SKIP, .MXE_CNT_STALL,
   .MXE_CNT_OVF, .CORE_LM_POWER, .CORE_LM_STATUS, .CORE_LM_ZERO,
   .CORE_LM_ERRLOG, .CORE_LM_TEST, .CORE_NC_PARITY, .CORE_LM_CE,
   .CORE_LM_TEST_RESULT, .CORE_LM_REPAIR, .QDC_STATUS, .QDC_ALLOC,
   .QDC_ALLOC_COMMIT, .QDC_FLUSH, .QDC_CE, .QDC_ERRLOG,
   .QDC_CNT, .HOM_DIR_STATUS, .HOM_DIR_CE, .HOM_DIR_ERRLOG] ++
  [.HOM_DIR_CNT, .HOM_CAP, .HOM_PC_STATE, .HOM_PC_MAPOUT,
   .HOM_OT_STATUS, .HOM_TEMP, .HOM_MEM_CE, .HOM_MEM_ERRLOG,
   .HOM_RSV, .HOM_RSV_COMMIT, .HOM_MAP, .HOM_MAP_COMMIT,
   .HOM_HW_PRI, .HOM_HW_REP, .HOM_HW_LEN, .HOM_HW_COMMIT,
   .HOM_HW_CTL, .HOM_HW_CNT, .XLT_CTT_BASE, .XLT_IQ_BASE,
   .XLT_IQ_TAIL, .XLT_IQ_HEAD, .XLT_IQ_DONE, .XLT_IQ_STATUS,
   .XLT_IQ_DONE_ADDR, .XLT_RESUME, .XLT_PRI_STATUS, .XLT_QTLB_STATUS,
   .XLT_QTLB_CNT, .XLT_UTLB_CNT, .STE_STATUS, .STE_CNT,
   .CNP_CTL, .CNP_STATUS, .CNP_CTX_BASE, .CNP_CMD] ++
  [.CNP_CMD_ARG0, .CNP_CMD_ARG1, .CNP_CMD_STATUS, .CNP_ACCT_BASE,
   .CNP_ACCT_HEAD, .CNP_ACCT_TAIL, .CNP_LAYOUT_COMMIT, .CNP_PART,
   .CNP_CLUSTER, .CNP_CTX_STATE, .EVC_PEND, .EVC_MASK,
   .EVC_SETCNT, .EVC_DFQ_HEAD, .EVC_DFQ_TAIL, .EVC_DFQ_OVF,
   .EVC_RAW, .EVC_ROUTE, .EVC_FR_KICK, .EVC_TAP_DIES,
   .CNP_QP_SQ, .CNP_QP_CQ, .CNP_QP_CFG, .CNP_QP_COMMIT,
   .CNP_QP_STATUS, .CNP_BAR4_WIN, .CNP_BAR4_CTX, .CNP_BAR4_COMMIT,
   .CNP_QP_ERRMAP, .TAP_MBX_CMD, .TAP_MBX_DATA, .GRG_PORT_CTL,
   .GRG_PORT_STATUS, .GRG_PORT_DELAY, .GRG_PORT_CNT, .GRG_PKG_ID] ++
  [.GRG_PKG_STATUS, .GRG_RT_BASE, .GRG_RT_SYNC, .GRG_INGRESS,
   .GRG_WIN_COMMIT, .GRG_PKG_CNT, .GRG_WIN_BASE, .GRG_WIN_LIMIT,
   .TAP_READY, .TAP_RESET_CTL, .TAP_ID_REV, .TAP_SERIAL,
   .TAP_STATUS, .TAP_FW_STATUS, .TAP_POWER, .TAP_ENERGY,
   .TAP_LOG_STATUS, .TAP_TEMP, .TAP_QUAD_HEALTH, .TAP_DIE_HEALTH,
   .DBG_CTL, .DBG_CMD, .DBG_CMD_ARG0, .DBG_CMD_ARG1,
   .DBG_CMD_STATUS, .DBG_ATT, .DBG_EVENT, .DBG_EVENT_BLOCK,
   .DBG_EVENT_PC, .DBG_BP, .DBG_WP_ADDR, .DBG_WP_CTL,
   .DBG_DIE_STATUS, .TAP_PWR_LIMIT, .TAP_DUTY_STATUS, .TAP_PWR_STATUS] ++
  [.EVC_DFQ_WINDOW]

namespace F

@[reducible] def TB_STATUS_STATE : Fld := ⟨.TB_STATUS, 0, 2⟩
@[reducible] def TB_STATUS_SRC : Fld := ⟨.TB_STATUS, 2, 3⟩
@[reducible] def TB_STATUS_QUALIFIED : Fld := ⟨.TB_STATUS, 5, 4⟩
@[reducible] def TB_STATUS_STEP_COUNT : Fld := ⟨.TB_STATUS, 16, 16⟩
@[reducible] def TB_NOW_NOW : Fld := ⟨.TB_NOW, 0, 64⟩
@[reducible] def TB_SLOT_SLOT : Fld := ⟨.TB_SLOT, 0, 64⟩
@[reducible] def TB_OFFSET_OFFSET : Fld := ⟨.TB_OFFSET, 0, 32⟩
@[reducible] def TB_SRC_CFG_EN_GRIGA : Fld := ⟨.TB_SRC_CFG, 0, 1⟩
@[reducible] def TB_SRC_CFG_EN_PTM : Fld := ⟨.TB_SRC_CFG, 1, 1⟩
@[reducible] def TB_SRC_CFG_EN_PPS0 : Fld := ⟨.TB_SRC_CFG, 2, 1⟩
@[reducible] def TB_SRC_CFG_EN_PPS2 : Fld := ⟨.TB_SRC_CFG, 3, 1⟩
@[reducible] def TB_SRC_CFG_MASTER : Fld := ⟨.TB_SRC_CFG, 4, 1⟩
@[reducible] def TB_SRC_CFG_HOLD_MS : Fld := ⟨.TB_SRC_CFG, 16, 16⟩
@[reducible] def TB_GRIGA_PORTS_PORTS : Fld := ⟨.TB_GRIGA_PORTS, 0, 32⟩
@[reducible] def TB_PTM_OFFSET_OFFSET : Fld := ⟨.TB_PTM_OFFSET, 0, 64⟩
@[reducible] def TB_SRC_COMMIT_COMMIT : Fld := ⟨.TB_SRC_COMMIT, 0, 1⟩
@[reducible] def TB_SRC_COMMIT_PENDING : Fld := ⟨.TB_SRC_COMMIT, 1, 1⟩
@[reducible] def TB_SRC_COMMIT_DISCARD : Fld := ⟨.TB_SRC_COMMIT, 2, 1⟩
@[reducible] def TB_SRC_COMMIT_SHADOW_RD : Fld := ⟨.TB_SRC_COMMIT, 3, 1⟩
@[reducible] def TB_SRC_COMMIT_REJECT : Fld := ⟨.TB_SRC_COMMIT, 4, 1⟩
@[reducible] def TB_SRC_COMMIT_OVERRUN : Fld := ⟨.TB_SRC_COMMIT, 5, 1⟩
@[reducible] def TB_SRC_COMMIT_COMMIT_COUNT : Fld := ⟨.TB_SRC_COMMIT, 16, 16⟩
@[reducible] def TB_PPS_NEXT_SEC_SEC : Fld := ⟨.TB_PPS_NEXT_SEC, 0, 35⟩
@[reducible] def CORE_STATUS_VREG_UNITS : Fld := ⟨.CORE_STATUS, 0, 9⟩
@[reducible] def CORE_STATUS_LM_UNITS : Fld := ⟨.CORE_STATUS, 9, 6⟩
@[reducible] def CORE_STATUS_GROUPS : Fld := ⟨.CORE_STATUS, 15, 6⟩
@[reducible] def CORE_STATUS_BLOCKS : Fld := ⟨.CORE_STATUS, 21, 5⟩
@[reducible] def CORE_STATUS_ENGINES : Fld := ⟨.CORE_STATUS, 26, 5⟩
@[reducible] def CORE_STATUS_CONTEXT : Fld := ⟨.CORE_STATUS, 32, 16⟩
@[reducible] def CORE_STATUS_CTX_VALID : Fld := ⟨.CORE_STATUS, 48, 1⟩
@[reducible] def CORE_STATUS_POWER : Fld := ⟨.CORE_STATUS, 49, 2⟩
@[reducible] def CORE_GROUP_STATE_VALID : Fld := ⟨.CORE_GROUP_STATE, 0, 1⟩
@[reducible] def CORE_GROUP_STATE_STATE : Fld := ⟨.CORE_GROUP_STATE, 1, 5⟩
@[reducible] def CORE_GROUP_STATE_BLOCK : Fld := ⟨.CORE_GROUP_STATE, 6, 4⟩
@[reducible] def CORE_GROUP_STATE_DEPTH : Fld := ⟨.CORE_GROUP_STATE, 14, 6⟩
@[reducible] def CORE_GROUP_STATE_ACTIVE : Fld := ⟨.CORE_GROUP_STATE, 32, 32⟩
@[reducible] def MXE_CTL_SKIP_ALLOW : Fld := ⟨.MXE_CTL, 0, 1⟩
@[reducible] def MXE_CTL_BCAST_ONLY : Fld := ⟨.MXE_CTL, 1, 1⟩
@[reducible] def MXE_ENG_STATUS_GRANTED : Fld := ⟨.MXE_ENG_STATUS, 0, 1⟩
@[reducible] def MXE_ENG_STATUS_BLOCK : Fld := ⟨.MXE_ENG_STATUS, 4, 4⟩
@[reducible] def MXE_ENG_STATUS_HANDLE : Fld := ⟨.MXE_ENG_STATUS, 8, 4⟩
@[reducible] def MXE_ENG_STATUS_BUSY : Fld := ⟨.MXE_ENG_STATUS, 12, 1⟩
@[reducible] def MXE_ENG_STATUS_QDEPTH : Fld := ⟨.MXE_ENG_STATUS, 13, 3⟩
@[reducible] def MXE_ENG_STATUS_MODE : Fld := ⟨.MXE_ENG_STATUS, 16, 2⟩
@[reducible] def MXE_ENG_STATUS_GANG : Fld := ⟨.MXE_ENG_STATUS, 18, 3⟩
@[reducible] def MXE_ENG_STATUS_LEADER : Fld := ⟨.MXE_ENG_STATUS, 21, 4⟩
@[reducible] def MXE_ENG_STATUS_SKIP : Fld := ⟨.MXE_ENG_STATUS, 25, 1⟩
@[reducible] def MXE_ENG_STATUS_GRAIN_OVR : Fld := ⟨.MXE_ENG_STATUS, 26, 1⟩
@[reducible] def MXE_ENG_STATUS_DEPTH_OVR : Fld := ⟨.MXE_ENG_STATUS, 27, 1⟩
@[reducible] def MXE_ENG_STATUS_DMAX : Fld := ⟨.MXE_ENG_STATUS, 28, 3⟩
@[reducible] def MXE_ENG_STATUS_WFMT : Fld := ⟨.MXE_ENG_STATUS, 31, 5⟩
@[reducible] def MXE_ENG_STATUS_AFMT : Fld := ⟨.MXE_ENG_STATUS, 36, 4⟩
@[reducible] def MXE_CNT_BUSY_COUNT : Fld := ⟨.MXE_CNT_BUSY, 0, 48⟩
@[reducible] def MXE_CNT_SKIP_COUNT : Fld := ⟨.MXE_CNT_SKIP, 0, 48⟩
@[reducible] def MXE_CNT_STALL_COUNT : Fld := ⟨.MXE_CNT_STALL, 0, 48⟩
@[reducible] def MXE_CNT_OVF_BUSY_OVF : Fld := ⟨.MXE_CNT_OVF, 0, 16⟩
@[reducible] def MXE_CNT_OVF_SKIP_OVF : Fld := ⟨.MXE_CNT_OVF, 16, 16⟩
@[reducible] def MXE_CNT_OVF_STALL_OVF : Fld := ⟨.MXE_CNT_OVF, 32, 16⟩
@[reducible] def CORE_LM_POWER_UNIT0 : Fld := ⟨.CORE_LM_POWER, 0, 2⟩
@[reducible] def CORE_LM_POWER_UNIT1 : Fld := ⟨.CORE_LM_POWER, 2, 2⟩
@[reducible] def CORE_LM_POWER_UNIT2 : Fld := ⟨.CORE_LM_POWER, 4, 2⟩
@[reducible] def CORE_LM_POWER_UNIT3 : Fld := ⟨.CORE_LM_POWER, 6, 2⟩
@[reducible] def CORE_LM_POWER_UNIT4 : Fld := ⟨.CORE_LM_POWER, 8, 2⟩
@[reducible] def CORE_LM_POWER_UNIT5 : Fld := ⟨.CORE_LM_POWER, 10, 2⟩
@[reducible] def CORE_LM_POWER_UNIT6 : Fld := ⟨.CORE_LM_POWER, 12, 2⟩
@[reducible] def CORE_LM_POWER_UNIT7 : Fld := ⟨.CORE_LM_POWER, 14, 2⟩
@[reducible] def CORE_LM_POWER_UNIT8 : Fld := ⟨.CORE_LM_POWER, 16, 2⟩
@[reducible] def CORE_LM_POWER_UNIT9 : Fld := ⟨.CORE_LM_POWER, 18, 2⟩
@[reducible] def CORE_LM_POWER_UNIT10 : Fld := ⟨.CORE_LM_POWER, 20, 2⟩
@[reducible] def CORE_LM_POWER_UNIT11 : Fld := ⟨.CORE_LM_POWER, 22, 2⟩
@[reducible] def CORE_LM_POWER_UNIT12 : Fld := ⟨.CORE_LM_POWER, 24, 2⟩
@[reducible] def CORE_LM_POWER_UNIT13 : Fld := ⟨.CORE_LM_POWER, 26, 2⟩
@[reducible] def CORE_LM_POWER_UNIT14 : Fld := ⟨.CORE_LM_POWER, 28, 2⟩
@[reducible] def CORE_LM_POWER_UNIT15 : Fld := ⟨.CORE_LM_POWER, 30, 2⟩
@[reducible] def CORE_LM_POWER_UNIT16 : Fld := ⟨.CORE_LM_POWER, 32, 2⟩
@[reducible] def CORE_LM_POWER_UNIT17 : Fld := ⟨.CORE_LM_POWER, 34, 2⟩
@[reducible] def CORE_LM_POWER_UNIT18 : Fld := ⟨.CORE_LM_POWER, 36, 2⟩
@[reducible] def CORE_LM_POWER_UNIT19 : Fld := ⟨.CORE_LM_POWER, 38, 2⟩
@[reducible] def CORE_LM_POWER_UNIT20 : Fld := ⟨.CORE_LM_POWER, 40, 2⟩
@[reducible] def CORE_LM_POWER_UNIT21 : Fld := ⟨.CORE_LM_POWER, 42, 2⟩
@[reducible] def CORE_LM_POWER_UNIT22 : Fld := ⟨.CORE_LM_POWER, 44, 2⟩
@[reducible] def CORE_LM_POWER_UNIT23 : Fld := ⟨.CORE_LM_POWER, 46, 2⟩
@[reducible] def CORE_LM_POWER_UNIT24 : Fld := ⟨.CORE_LM_POWER, 48, 2⟩
@[reducible] def CORE_LM_POWER_UNIT25 : Fld := ⟨.CORE_LM_POWER, 50, 2⟩
@[reducible] def CORE_LM_POWER_UNIT26 : Fld := ⟨.CORE_LM_POWER, 52, 2⟩
@[reducible] def CORE_LM_POWER_UNIT27 : Fld := ⟨.CORE_LM_POWER, 54, 2⟩
@[reducible] def CORE_LM_POWER_UNIT28 : Fld := ⟨.CORE_LM_POWER, 56, 2⟩
@[reducible] def CORE_LM_POWER_UNIT29 : Fld := ⟨.CORE_LM_POWER, 58, 2⟩
@[reducible] def CORE_LM_POWER_UNIT30 : Fld := ⟨.CORE_LM_POWER, 60, 2⟩
@[reducible] def CORE_LM_POWER_UNIT31 : Fld := ⟨.CORE_LM_POWER, 62, 2⟩
@[reducible] def CORE_LM_STATUS_ALLOC : Fld := ⟨.CORE_LM_STATUS, 0, 32⟩
@[reducible] def CORE_LM_STATUS_REFUSED : Fld := ⟨.CORE_LM_STATUS, 32, 1⟩
@[reducible] def CORE_LM_STATUS_ZF_BUSY : Fld := ⟨.CORE_LM_STATUS, 33, 1⟩
@[reducible] def CORE_LM_STATUS_TEST_BUSY : Fld := ⟨.CORE_LM_STATUS, 34, 1⟩
@[reducible] def CORE_LM_STATUS_WAKING : Fld := ⟨.CORE_LM_STATUS, 35, 1⟩
@[reducible] def CORE_LM_ZERO_UNITS : Fld := ⟨.CORE_LM_ZERO, 0, 32⟩
@[reducible] def CORE_LM_ERRLOG_VALID : Fld := ⟨.CORE_LM_ERRLOG, 0, 1⟩
@[reducible] def CORE_LM_ERRLOG_MULTI : Fld := ⟨.CORE_LM_ERRLOG, 1, 1⟩
@[reducible] def CORE_LM_ERRLOG_BANK : Fld := ⟨.CORE_LM_ERRLOG, 2, 5⟩
@[reducible] def CORE_LM_ERRLOG_ROW : Fld := ⟨.CORE_LM_ERRLOG, 7, 11⟩
@[reducible] def CORE_LM_ERRLOG_REQ : Fld := ⟨.CORE_LM_ERRLOG, 18, 4⟩
@[reducible] def CORE_LM_TEST_BANKS : Fld := ⟨.CORE_LM_TEST, 0, 32⟩
@[reducible] def CORE_LM_TEST_START : Fld := ⟨.CORE_LM_TEST, 32, 1⟩
@[reducible] def CORE_LM_TEST_DONE : Fld := ⟨.CORE_LM_TEST, 33, 1⟩
@[reducible] def CORE_NC_PARITY_L1 : Fld := ⟨.CORE_NC_PARITY, 0, 16⟩
@[reducible] def CORE_NC_PARITY_SC : Fld := ⟨.CORE_NC_PARITY, 16, 16⟩
@[reducible] def CORE_NC_PARITY_IC : Fld := ⟨.CORE_NC_PARITY, 32, 16⟩
@[reducible] def CORE_NC_PARITY_L1_SAT : Fld := ⟨.CORE_NC_PARITY, 48, 1⟩
@[reducible] def CORE_NC_PARITY_SC_SAT : Fld := ⟨.CORE_NC_PARITY, 49, 1⟩
@[reducible] def CORE_NC_PARITY_IC_SAT : Fld := ⟨.CORE_NC_PARITY, 50, 1⟩
@[reducible] def CORE_LM_CE_COUNT : Fld := ⟨.CORE_LM_CE, 0, 16⟩
@[reducible] def CORE_LM_CE_SAT : Fld := ⟨.CORE_LM_CE, 16, 1⟩
@[reducible] def CORE_LM_TEST_RESULT_FAILS : Fld := ⟨.CORE_LM_TEST_RESULT, 0, 8⟩
@[reducible] def CORE_LM_TEST_RESULT_COL0 : Fld := ⟨.CORE_LM_TEST_RESULT, 8, 8⟩
@[reducible] def CORE_LM_TEST_RESULT_COL1 : Fld := ⟨.CORE_LM_TEST_RESULT, 16, 8⟩
@[reducible] def CORE_LM_TEST_RESULT_COL2 : Fld := ⟨.CORE_LM_TEST_RESULT, 24, 8⟩
@[reducible] def CORE_LM_TEST_RESULT_COL3 : Fld := ⟨.CORE_LM_TEST_RESULT, 32, 8⟩
@[reducible] def CORE_LM_REPAIR_COL0 : Fld := ⟨.CORE_LM_REPAIR, 0, 8⟩
@[reducible] def CORE_LM_REPAIR_EN0 : Fld := ⟨.CORE_LM_REPAIR, 8, 1⟩
@[reducible] def CORE_LM_REPAIR_FUSED0 : Fld := ⟨.CORE_LM_REPAIR, 9, 1⟩
@[reducible] def CORE_LM_REPAIR_COL1 : Fld := ⟨.CORE_LM_REPAIR, 16, 8⟩
@[reducible] def CORE_LM_REPAIR_EN1 : Fld := ⟨.CORE_LM_REPAIR, 24, 1⟩
@[reducible] def CORE_LM_REPAIR_FUSED1 : Fld := ⟨.CORE_LM_REPAIR, 25, 1⟩
@[reducible] def CORE_LM_REPAIR_COL2 : Fld := ⟨.CORE_LM_REPAIR, 32, 8⟩
@[reducible] def CORE_LM_REPAIR_EN2 : Fld := ⟨.CORE_LM_REPAIR, 40, 1⟩
@[reducible] def CORE_LM_REPAIR_FUSED2 : Fld := ⟨.CORE_LM_REPAIR, 41, 1⟩
@[reducible] def CORE_LM_REPAIR_COL3 : Fld := ⟨.CORE_LM_REPAIR, 48, 8⟩
@[reducible] def CORE_LM_REPAIR_EN3 : Fld := ⟨.CORE_LM_REPAIR, 56, 1⟩
@[reducible] def CORE_LM_REPAIR_FUSED3 : Fld := ⟨.CORE_LM_REPAIR, 57, 1⟩
@[reducible] def QDC_STATUS_LINES : Fld := ⟨.QDC_STATUS, 0, 18⟩
@[reducible] def QDC_STATUS_OUTSTANDING : Fld := ⟨.QDC_STATUS, 18, 11⟩
@[reducible] def QDC_STATUS_EVB : Fld := ⟨.QDC_STATUS, 29, 5⟩
@[reducible] def QDC_STATUS_FLUSH_BUSY : Fld := ⟨.QDC_STATUS, 34, 1⟩
@[reducible] def QDC_ALLOC_MASK0 : Fld := ⟨.QDC_ALLOC, 0, 16⟩
@[reducible] def QDC_ALLOC_MASK1 : Fld := ⟨.QDC_ALLOC, 16, 16⟩
@[reducible] def QDC_ALLOC_MASK2 : Fld := ⟨.QDC_ALLOC, 32, 16⟩
@[reducible] def QDC_ALLOC_MASK3 : Fld := ⟨.QDC_ALLOC, 48, 16⟩
@[reducible] def QDC_ALLOC_COMMIT_COMMIT : Fld := ⟨.QDC_ALLOC_COMMIT, 0, 1⟩
@[reducible] def QDC_ALLOC_COMMIT_PENDING : Fld := ⟨.QDC_ALLOC_COMMIT, 1, 1⟩
@[reducible] def QDC_ALLOC_COMMIT_DISCARD : Fld := ⟨.QDC_ALLOC_COMMIT, 2, 1⟩
@[reducible] def QDC_ALLOC_COMMIT_SHADOW_RD : Fld := ⟨.QDC_ALLOC_COMMIT, 3, 1⟩
@[reducible] def QDC_ALLOC_COMMIT_REJECT : Fld := ⟨.QDC_ALLOC_COMMIT, 4, 1⟩
@[reducible] def QDC_ALLOC_COMMIT_OVERRUN : Fld := ⟨.QDC_ALLOC_COMMIT, 5, 1⟩
@[reducible] def QDC_ALLOC_COMMIT_COMMIT_COUNT : Fld := ⟨.QDC_ALLOC_COMMIT, 16, 16⟩
@[reducible] def QDC_FLUSH_PART : Fld := ⟨.QDC_FLUSH, 0, 10⟩
@[reducible] def QDC_FLUSH_MODE : Fld := ⟨.QDC_FLUSH, 12, 2⟩
@[reducible] def QDC_FLUSH_DONE : Fld := ⟨.QDC_FLUSH, 14, 1⟩
@[reducible] def QDC_FLUSH_START : Fld := ⟨.QDC_FLUSH, 15, 1⟩
@[reducible] def QDC_CE_COUNT : Fld := ⟨.QDC_CE, 0, 16⟩
@[reducible] def QDC_CE_SAT : Fld := ⟨.QDC_CE, 16, 1⟩
@[reducible] def QDC_ERRLOG_VALID : Fld := ⟨.QDC_ERRLOG, 0, 1⟩
@[reducible] def QDC_ERRLOG_MULTI : Fld := ⟨.QDC_ERRLOG, 1, 1⟩
@[reducible] def QDC_ERRLOG_KIND : Fld := ⟨.QDC_ERRLOG, 2, 2⟩
@[reducible] def QDC_ERRLOG_WAY : Fld := ⟨.QDC_ERRLOG, 4, 4⟩
@[reducible] def QDC_ERRLOG_SET : Fld := ⟨.QDC_ERRLOG, 8, 13⟩
@[reducible] def QDC_CNT_COUNT : Fld := ⟨.QDC_CNT, 0, 48⟩
@[reducible] def QDC_CNT_OVF : Fld := ⟨.QDC_CNT, 48, 1⟩
@[reducible] def HOM_DIR_STATUS_ENTRIES : Fld := ⟨.HOM_DIR_STATUS, 0, 23⟩
@[reducible] def HOM_DIR_STATUS_REQS : Fld := ⟨.HOM_DIR_STATUS, 23, 15⟩
@[reducible] def HOM_DIR_STATUS_PARKED : Fld := ⟨.HOM_DIR_STATUS, 38, 15⟩
@[reducible] def HOM_DIR_CE_COUNT : Fld := ⟨.HOM_DIR_CE, 0, 16⟩
@[reducible] def HOM_DIR_CE_SAT : Fld := ⟨.HOM_DIR_CE, 16, 1⟩
@[reducible] def HOM_DIR_ERRLOG_VALID : Fld := ⟨.HOM_DIR_ERRLOG, 0, 1⟩
@[reducible] def HOM_DIR_ERRLOG_MULTI : Fld := ⟨.HOM_DIR_ERRLOG, 1, 1⟩
@[reducible] def HOM_DIR_ERRLOG_WAY : Fld := ⟨.HOM_DIR_ERRLOG, 2, 4⟩
@[reducible] def HOM_DIR_ERRLOG_SET : Fld := ⟨.HOM_DIR_ERRLOG, 6, 18⟩
@[reducible] def HOM_DIR_ERRLOG_RECALLED : Fld := ⟨.HOM_DIR_ERRLOG, 24, 1⟩
@[reducible] def HOM_DIR_CNT_COUNT : Fld := ⟨.HOM_DIR_CNT, 0, 48⟩
@[reducible] def HOM_DIR_CNT_OVF : Fld := ⟨.HOM_DIR_CNT, 48, 1⟩
@[reducible] def HOM_CAP_HBM_MIB : Fld := ⟨.HOM_CAP, 0, 24⟩
@[reducible] def HOM_CAP_OT_MIB : Fld := ⟨.HOM_CAP, 24, 24⟩
@[reducible] def HOM_PC_STATE_PC0 : Fld := ⟨.HOM_PC_STATE, 0, 2⟩
@[reducible] def HOM_PC_STATE_PC1 : Fld := ⟨.HOM_PC_STATE, 2, 2⟩
@[reducible] def HOM_PC_STATE_PC2 : Fld := ⟨.HOM_PC_STATE, 4, 2⟩
@[reducible] def HOM_PC_STATE_PC3 : Fld := ⟨.HOM_PC_STATE, 6, 2⟩
@[reducible] def HOM_PC_STATE_PC4 : Fld := ⟨.HOM_PC_STATE, 8, 2⟩
@[reducible] def HOM_PC_STATE_PC5 : Fld := ⟨.HOM_PC_STATE, 10, 2⟩
@[reducible] def HOM_PC_STATE_PC6 : Fld := ⟨.HOM_PC_STATE, 12, 2⟩
@[reducible] def HOM_PC_STATE_PC7 : Fld := ⟨.HOM_PC_STATE, 14, 2⟩
@[reducible] def HOM_PC_STATE_PC8 : Fld := ⟨.HOM_PC_STATE, 16, 2⟩
@[reducible] def HOM_PC_STATE_PC9 : Fld := ⟨.HOM_PC_STATE, 18, 2⟩
@[reducible] def HOM_PC_STATE_PC10 : Fld := ⟨.HOM_PC_STATE, 20, 2⟩
@[reducible] def HOM_PC_STATE_PC11 : Fld := ⟨.HOM_PC_STATE, 22, 2⟩
@[reducible] def HOM_PC_STATE_PC12 : Fld := ⟨.HOM_PC_STATE, 24, 2⟩
@[reducible] def HOM_PC_STATE_PC13 : Fld := ⟨.HOM_PC_STATE, 26, 2⟩
@[reducible] def HOM_PC_STATE_PC14 : Fld := ⟨.HOM_PC_STATE, 28, 2⟩
@[reducible] def HOM_PC_STATE_PC15 : Fld := ⟨.HOM_PC_STATE, 30, 2⟩
@[reducible] def HOM_PC_STATE_PC16 : Fld := ⟨.HOM_PC_STATE, 32, 2⟩
@[reducible] def HOM_PC_STATE_PC17 : Fld := ⟨.HOM_PC_STATE, 34, 2⟩
@[reducible] def HOM_PC_STATE_PC18 : Fld := ⟨.HOM_PC_STATE, 36, 2⟩
@[reducible] def HOM_PC_STATE_PC19 : Fld := ⟨.HOM_PC_STATE, 38, 2⟩
@[reducible] def HOM_PC_STATE_PC20 : Fld := ⟨.HOM_PC_STATE, 40, 2⟩
@[reducible] def HOM_PC_STATE_PC21 : Fld := ⟨.HOM_PC_STATE, 42, 2⟩
@[reducible] def HOM_PC_STATE_PC22 : Fld := ⟨.HOM_PC_STATE, 44, 2⟩
@[reducible] def HOM_PC_STATE_PC23 : Fld := ⟨.HOM_PC_STATE, 46, 2⟩
@[reducible] def HOM_PC_STATE_PC24 : Fld := ⟨.HOM_PC_STATE, 48, 2⟩
@[reducible] def HOM_PC_STATE_PC25 : Fld := ⟨.HOM_PC_STATE, 50, 2⟩
@[reducible] def HOM_PC_STATE_PC26 : Fld := ⟨.HOM_PC_STATE, 52, 2⟩
@[reducible] def HOM_PC_STATE_PC27 : Fld := ⟨.HOM_PC_STATE, 54, 2⟩
@[reducible] def HOM_PC_STATE_PC28 : Fld := ⟨.HOM_PC_STATE, 56, 2⟩
@[reducible] def HOM_PC_STATE_PC29 : Fld := ⟨.HOM_PC_STATE, 58, 2⟩
@[reducible] def HOM_PC_STATE_PC30 : Fld := ⟨.HOM_PC_STATE, 60, 2⟩
@[reducible] def HOM_PC_STATE_PC31 : Fld := ⟨.HOM_PC_STATE, 62, 2⟩
@[reducible] def HOM_PC_MAPOUT_TARGET : Fld := ⟨.HOM_PC_MAPOUT, 0, 6⟩
@[reducible] def HOM_PC_MAPOUT_PORT : Fld := ⟨.HOM_PC_MAPOUT, 30, 1⟩
@[reducible] def HOM_PC_MAPOUT_GO : Fld := ⟨.HOM_PC_MAPOUT, 31, 1⟩
@[reducible] def HOM_OT_STATUS_TRAINED : Fld := ⟨.HOM_OT_STATUS, 0, 1⟩
@[reducible] def HOM_OT_STATUS_TIER_EN : Fld := ⟨.HOM_OT_STATUS, 1, 1⟩
@[reducible] def HOM_OT_STATUS_SIZE : Fld := ⟨.HOM_OT_STATUS, 2, 2⟩
@[reducible] def HOM_OT_STATUS_STATE : Fld := ⟨.HOM_OT_STATUS, 4, 2⟩
@[reducible] def HOM_TEMP_TEMP0 : Fld := ⟨.HOM_TEMP, 0, 16⟩
@[reducible] def HOM_TEMP_TEMP1 : Fld := ⟨.HOM_TEMP, 16, 16⟩
@[reducible] def HOM_TEMP_LEVEL0 : Fld := ⟨.HOM_TEMP, 32, 2⟩
@[reducible] def HOM_TEMP_LEVEL1 : Fld := ⟨.HOM_TEMP, 34, 2⟩
@[reducible] def HOM_MEM_CE_COUNT : Fld := ⟨.HOM_MEM_CE, 0, 16⟩
@[reducible] def HOM_MEM_CE_SAT : Fld := ⟨.HOM_MEM_CE, 16, 1⟩
@[reducible] def HOM_MEM_ERRLOG_VALID : Fld := ⟨.HOM_MEM_ERRLOG, 0, 1⟩
@[reducible] def HOM_MEM_ERRLOG_MULTI : Fld := ⟨.HOM_MEM_ERRLOG, 1, 1⟩
@[reducible] def HOM_MEM_ERRLOG_SRC : Fld := ⟨.HOM_MEM_ERRLOG, 4, 3⟩
@[reducible] def HOM_MEM_ERRLOG_LINE : Fld := ⟨.HOM_MEM_ERRLOG, 7, 42⟩
@[reducible] def HOM_RSV_HBM_UNITS : Fld := ⟨.HOM_RSV, 0, 13⟩
@[reducible] def HOM_RSV_OT_UNITS : Fld := ⟨.HOM_RSV, 16, 10⟩
@[reducible] def HOM_RSV_COMMIT_COMMIT : Fld := ⟨.HOM_RSV_COMMIT, 0, 1⟩
@[reducible] def HOM_RSV_COMMIT_PENDING : Fld := ⟨.HOM_RSV_COMMIT, 1, 1⟩
@[reducible] def HOM_RSV_COMMIT_DISCARD : Fld := ⟨.HOM_RSV_COMMIT, 2, 1⟩
@[reducible] def HOM_RSV_COMMIT_SHADOW_RD : Fld := ⟨.HOM_RSV_COMMIT, 3, 1⟩
@[reducible] def HOM_RSV_COMMIT_REJECT : Fld := ⟨.HOM_RSV_COMMIT, 4, 1⟩
@[reducible] def HOM_RSV_COMMIT_OVERRUN : Fld := ⟨.HOM_RSV_COMMIT, 5, 1⟩
@[reducible] def HOM_RSV_COMMIT_COMMIT_COUNT : Fld := ⟨.HOM_RSV_COMMIT, 16, 16⟩
@[reducible] def HOM_MAP_NEAR : Fld := ⟨.HOM_MAP, 0, 64⟩
@[reducible] def HOM_MAP_COMMIT_COMMIT : Fld := ⟨.HOM_MAP_COMMIT, 0, 1⟩
@[reducible] def HOM_MAP_COMMIT_PENDING : Fld := ⟨.HOM_MAP_COMMIT, 1, 1⟩
@[reducible] def HOM_MAP_COMMIT_DISCARD : Fld := ⟨.HOM_MAP_COMMIT, 2, 1⟩
@[reducible] def HOM_MAP_COMMIT_SHADOW_RD : Fld := ⟨.HOM_MAP_COMMIT, 3, 1⟩
@[reducible] def HOM_MAP_COMMIT_REJECT : Fld := ⟨.HOM_MAP_COMMIT, 4, 1⟩
@[reducible] def HOM_MAP_COMMIT_OVERRUN : Fld := ⟨.HOM_MAP_COMMIT, 5, 1⟩
@[reducible] def HOM_MAP_COMMIT_COMMIT_COUNT : Fld := ⟨.HOM_MAP_COMMIT, 16, 16⟩
@[reducible] def HOM_HW_PRI_BASE : Fld := ⟨.HOM_HW_PRI, 16, 30⟩
@[reducible] def HOM_HW_REP_BASE : Fld := ⟨.HOM_HW_REP, 16, 30⟩
@[reducible] def HOM_HW_LEN_LEN : Fld := ⟨.HOM_HW_LEN, 0, 21⟩
@[reducible] def HOM_HW_COMMIT_COMMIT : Fld := ⟨.HOM_HW_COMMIT, 0, 1⟩
@[reducible] def HOM_HW_COMMIT_PENDING : Fld := ⟨.HOM_HW_COMMIT, 1, 1⟩
@[reducible] def HOM_HW_COMMIT_DISCARD : Fld := ⟨.HOM_HW_COMMIT, 2, 1⟩
@[reducible] def HOM_HW_COMMIT_SHADOW_RD : Fld := ⟨.HOM_HW_COMMIT, 3, 1⟩
@[reducible] def HOM_HW_COMMIT_REJECT : Fld := ⟨.HOM_HW_COMMIT, 4, 1⟩
@[reducible] def HOM_HW_COMMIT_OVERRUN : Fld := ⟨.HOM_HW_COMMIT, 5, 1⟩
@[reducible] def HOM_HW_COMMIT_COMMIT_COUNT : Fld := ⟨.HOM_HW_COMMIT, 16, 16⟩
@[reducible] def HOM_HW_CTL_STATE : Fld := ⟨.HOM_HW_CTL, 0, 3⟩
@[reducible] def HOM_HW_CTL_CMD : Fld := ⟨.HOM_HW_CTL, 4, 3⟩
@[reducible] def HOM_HW_CTL_ERR : Fld := ⟨.HOM_HW_CTL, 8, 1⟩
@[reducible] def HOM_HW_CTL_FAIL_COPY : Fld := ⟨.HOM_HW_CTL, 9, 1⟩
@[reducible] def HOM_HW_CTL_FAIL_BLOCK : Fld := ⟨.HOM_HW_CTL, 32, 25⟩
@[reducible] def HOM_HW_CNT_FALLBACKS : Fld := ⟨.HOM_HW_CNT, 0, 32⟩
@[reducible] def HOM_HW_CNT_REPAIRS : Fld := ⟨.HOM_HW_CNT, 32, 32⟩
@[reducible] def XLT_CTT_BASE_EN : Fld := ⟨.XLT_CTT_BASE, 0, 1⟩
@[reducible] def XLT_CTT_BASE_BASE : Fld := ⟨.XLT_CTT_BASE, 20, 26⟩
@[reducible] def XLT_IQ_BASE_SIZE : Fld := ⟨.XLT_IQ_BASE, 0, 5⟩
@[reducible] def XLT_IQ_BASE_BASE : Fld := ⟨.XLT_IQ_BASE, 12, 34⟩
@[reducible] def XLT_IQ_BASE_EN : Fld := ⟨.XLT_IQ_BASE, 63, 1⟩
@[reducible] def XLT_IQ_TAIL_TAIL : Fld := ⟨.XLT_IQ_TAIL, 0, 16⟩
@[reducible] def XLT_IQ_HEAD_HEAD : Fld := ⟨.XLT_IQ_HEAD, 0, 16⟩
@[reducible] def XLT_IQ_DONE_SEQ : Fld := ⟨.XLT_IQ_DONE, 0, 32⟩
@[reducible] def XLT_IQ_STATUS_BUSY : Fld := ⟨.XLT_IQ_STATUS, 0, 1⟩
@[reducible] def XLT_IQ_STATUS_BADDESC : Fld := ⟨.XLT_IQ_STATUS, 1, 1⟩
@[reducible] def XLT_IQ_DONE_ADDR_EN : Fld := ⟨.XLT_IQ_DONE_ADDR, 0, 1⟩
@[reducible] def XLT_IQ_DONE_ADDR_ADDR : Fld := ⟨.XLT_IQ_DONE_ADDR, 2, 44⟩
@[reducible] def XLT_RESUME_CONTEXT : Fld := ⟨.XLT_RESUME, 0, 16⟩
@[reducible] def XLT_RESUME_ACTION : Fld := ⟨.XLT_RESUME, 16, 1⟩
@[reducible] def XLT_RESUME_SEQ : Fld := ⟨.XLT_RESUME, 32, 32⟩
@[reducible] def XLT_PRI_STATUS_OUTSTANDING : Fld := ⟨.XLT_PRI_STATUS, 0, 18⟩
@[reducible] def XLT_PRI_STATUS_RF : Fld := ⟨.XLT_PRI_STATUS, 23, 1⟩
@[reducible] def XLT_PRI_STATUS_RF_FUNC : Fld := ⟨.XLT_PRI_STATUS, 24, 8⟩
@[reducible] def XLT_QTLB_STATUS_ENTRIES : Fld := ⟨.XLT_QTLB_STATUS, 0, 14⟩
@[reducible] def XLT_QTLB_STATUS_WALK_CACHE : Fld := ⟨.XLT_QTLB_STATUS, 14, 11⟩
@[reducible] def XLT_QTLB_STATUS_WALKS : Fld := ⟨.XLT_QTLB_STATUS, 25, 5⟩
@[reducible] def XLT_QTLB_STATUS_INV_BUSY : Fld := ⟨.XLT_QTLB_STATUS, 30, 1⟩
@[reducible] def XLT_QTLB_CNT_COUNT : Fld := ⟨.XLT_QTLB_CNT, 0, 48⟩
@[reducible] def XLT_QTLB_CNT_OVF : Fld := ⟨.XLT_QTLB_CNT, 48, 1⟩
@[reducible] def XLT_UTLB_CNT_COUNT : Fld := ⟨.XLT_UTLB_CNT, 0, 48⟩
@[reducible] def XLT_UTLB_CNT_OVF : Fld := ⟨.XLT_UTLB_CNT, 48, 1⟩
@[reducible] def STE_STATUS_BUSY : Fld := ⟨.STE_STATUS, 0, 1⟩
@[reducible] def STE_STATUS_WAITING : Fld := ⟨.STE_STATUS, 10, 8⟩
@[reducible] def STE_STATUS_LINES : Fld := ⟨.STE_STATUS, 18, 10⟩
@[reducible] def STE_STATUS_QUEUES : Fld := ⟨.STE_STATUS, 28, 8⟩
@[reducible] def STE_STATUS_CONTEXT : Fld := ⟨.STE_STATUS, 48, 16⟩
@[reducible] def STE_CNT_COUNT : Fld := ⟨.STE_CNT, 0, 48⟩
@[reducible] def STE_CNT_OVF : Fld := ⟨.STE_CNT, 48, 1⟩
@[reducible] def CNP_CTL_EN : Fld := ⟨.CNP_CTL, 0, 1⟩
@[reducible] def CNP_CTL_ACCT_EN : Fld := ⟨.CNP_CTL, 1, 1⟩
@[reducible] def CNP_CTL_DEF_GRACE : Fld := ⟨.CNP_CTL, 2, 10⟩
@[reducible] def CNP_CTL_PRUNE_DEFAULT : Fld := ⟨.CNP_CTL, 12, 16⟩
@[reducible] def CNP_STATUS_CONTEXTS : Fld := ⟨.CNP_STATUS, 0, 17⟩
@[reducible] def CNP_STATUS_PARTITIONS : Fld := ⟨.CNP_STATUS, 17, 11⟩
@[reducible] def CNP_STATUS_LENT : Fld := ⟨.CNP_STATUS, 28, 11⟩
@[reducible] def CNP_STATUS_RETIRED : Fld := ⟨.CNP_STATUS, 39, 11⟩
@[reducible] def CNP_STATUS_UNCAL : Fld := ⟨.CNP_STATUS, 50, 1⟩
@[reducible] def CNP_STATUS_ACCT_FULL : Fld := ⟨.CNP_STATUS, 51, 1⟩
@[reducible] def CNP_CTX_BASE_BASE : Fld := ⟨.CNP_CTX_BASE, 22, 24⟩
@[reducible] def CNP_CMD_OP : Fld := ⟨.CNP_CMD, 0, 4⟩
@[reducible] def CNP_CMD_CONTEXT : Fld := ⟨.CNP_CMD, 4, 16⟩
@[reducible] def CNP_CMD_GO : Fld := ⟨.CNP_CMD, 63, 1⟩
@[reducible] def CNP_CMD_ARG0_ARG0 : Fld := ⟨.CNP_CMD_ARG0, 0, 64⟩
@[reducible] def CNP_CMD_ARG1_LIST : Fld := ⟨.CNP_CMD_ARG1, 5, 41⟩
@[reducible] def CNP_CMD_ARG1_ENTRIES : Fld := ⟨.CNP_CMD_ARG1, 48, 16⟩
@[reducible] def CNP_CMD_STATUS_RESULT : Fld := ⟨.CNP_CMD_STATUS, 0, 8⟩
@[reducible] def CNP_CMD_STATUS_OVERRUN : Fld := ⟨.CNP_CMD_STATUS, 30, 1⟩
@[reducible] def CNP_CMD_STATUS_BUSY : Fld := ⟨.CNP_CMD_STATUS, 31, 1⟩
@[reducible] def CNP_ACCT_BASE_SIZE : Fld := ⟨.CNP_ACCT_BASE, 0, 5⟩
@[reducible] def CNP_ACCT_BASE_BASE : Fld := ⟨.CNP_ACCT_BASE, 12, 34⟩
@[reducible] def CNP_ACCT_BASE_PERIOD : Fld := ⟨.CNP_ACCT_BASE, 48, 16⟩
@[reducible] def CNP_ACCT_HEAD_HEAD : Fld := ⟨.CNP_ACCT_HEAD, 0, 20⟩
@[reducible] def CNP_ACCT_TAIL_TAIL : Fld := ⟨.CNP_ACCT_TAIL, 0, 20⟩
@[reducible] def CNP_LAYOUT_COMMIT_COMMIT : Fld := ⟨.CNP_LAYOUT_COMMIT, 0, 1⟩
@[reducible] def CNP_LAYOUT_COMMIT_PENDING : Fld := ⟨.CNP_LAYOUT_COMMIT, 1, 1⟩
@[reducible] def CNP_LAYOUT_COMMIT_DISCARD : Fld := ⟨.CNP_LAYOUT_COMMIT, 2, 1⟩
@[reducible] def CNP_LAYOUT_COMMIT_SHADOW_RD : Fld := ⟨.CNP_LAYOUT_COMMIT, 3, 1⟩
@[reducible] def CNP_LAYOUT_COMMIT_REJECT : Fld := ⟨.CNP_LAYOUT_COMMIT, 4, 1⟩
@[reducible] def CNP_LAYOUT_COMMIT_OVERRUN : Fld := ⟨.CNP_LAYOUT_COMMIT, 5, 1⟩
@[reducible] def CNP_LAYOUT_COMMIT_COMMIT_COUNT : Fld := ⟨.CNP_LAYOUT_COMMIT, 16, 16⟩
@[reducible] def CNP_PART_EN : Fld := ⟨.CNP_PART, 0, 1⟩
@[reducible] def CNP_PART_LEND : Fld := ⟨.CNP_PART, 1, 1⟩
@[reducible] def CNP_PART_LEND_GRACE : Fld := ⟨.CNP_PART, 2, 10⟩
@[reducible] def CNP_PART_LEND_NOREMOTE : Fld := ⟨.CNP_PART, 12, 1⟩
@[reducible] def CNP_CLUSTER_OWNED : Fld := ⟨.CNP_CLUSTER, 0, 1⟩
@[reducible] def CNP_CLUSTER_OWNER : Fld := ⟨.CNP_CLUSTER, 1, 10⟩
@[reducible] def CNP_CLUSTER_HELD : Fld := ⟨.CNP_CLUSTER, 12, 1⟩
@[reducible] def CNP_CLUSTER_HOLDER : Fld := ⟨.CNP_CLUSTER, 13, 10⟩
@[reducible] def CNP_CLUSTER_CONTEXT : Fld := ⟨.CNP_CLUSTER, 24, 16⟩
@[reducible] def CNP_CLUSTER_STATE : Fld := ⟨.CNP_CLUSTER, 40, 3⟩
@[reducible] def CNP_CTX_STATE_STATE : Fld := ⟨.CNP_CTX_STATE, 0, 4⟩
@[reducible] def CNP_CTX_STATE_SUSPENDED : Fld := ⟨.CNP_CTX_STATE, 4, 1⟩
@[reducible] def CNP_CTX_STATE_LATE : Fld := ⟨.CNP_CTX_STATE, 5, 1⟩
@[reducible] def CNP_CTX_STATE_CLUSTERS : Fld := ⟨.CNP_CTX_STATE, 6, 11⟩
@[reducible] def CNP_CTX_STATE_WAITING : Fld := ⟨.CNP_CTX_STATE, 17, 11⟩
@[reducible] def EVC_PEND_PEND : Fld := ⟨.EVC_PEND, 0, 32⟩
@[reducible] def EVC_MASK_MASK : Fld := ⟨.EVC_MASK, 0, 32⟩
@[reducible] def EVC_SETCNT_COUNT : Fld := ⟨.EVC_SETCNT, 0, 32⟩
@[reducible] def EVC_DFQ_HEAD_HEAD : Fld := ⟨.EVC_DFQ_HEAD, 0, 16⟩
@[reducible] def EVC_DFQ_TAIL_TAIL : Fld := ⟨.EVC_DFQ_TAIL, 0, 16⟩
@[reducible] def EVC_DFQ_TAIL_SUMMARY : Fld := ⟨.EVC_DFQ_TAIL, 16, 1⟩
@[reducible] def EVC_DFQ_OVF_COUNT : Fld := ⟨.EVC_DFQ_OVF, 0, 32⟩
@[reducible] def EVC_RAW_EDGES : Fld := ⟨.EVC_RAW, 0, 16⟩
@[reducible] def EVC_RAW_ASYNC : Fld := ⟨.EVC_RAW, 30, 1⟩
@[reducible] def EVC_RAW_LEVEL : Fld := ⟨.EVC_RAW, 31, 1⟩
@[reducible] def EVC_ROUTE_VECTOR : Fld := ⟨.EVC_ROUTE, 0, 11⟩
@[reducible] def EVC_ROUTE_FUNC : Fld := ⟨.EVC_ROUTE, 11, 8⟩
@[reducible] def EVC_ROUTE_TARGET : Fld := ⟨.EVC_ROUTE, 19, 2⟩
@[reducible] def EVC_ROUTE_PRIVATE : Fld := ⟨.EVC_ROUTE, 29, 1⟩
@[reducible] def EVC_ROUTE_KIND : Fld := ⟨.EVC_ROUTE, 30, 1⟩
@[reducible] def EVC_ROUTE_DROPPED : Fld := ⟨.EVC_ROUTE, 31, 1⟩
@[reducible] def EVC_FR_KICK_CONTEXT : Fld := ⟨.EVC_FR_KICK, 0, 16⟩
@[reducible] def EVC_TAP_DIES_DIES : Fld := ⟨.EVC_TAP_DIES, 0, 64⟩
@[reducible] def CNP_QP_SQ_HOST : Fld := ⟨.CNP_QP_SQ, 0, 1⟩
@[reducible] def CNP_QP_SQ_ADDR : Fld := ⟨.CNP_QP_SQ, 12, 52⟩
@[reducible] def CNP_QP_CQ_HOST : Fld := ⟨.CNP_QP_CQ, 0, 1⟩
@[reducible] def CNP_QP_CQ_ADDR : Fld := ⟨.CNP_QP_CQ, 12, 52⟩
@[reducible] def CNP_QP_CFG_EN : Fld := ⟨.CNP_QP_CFG, 0, 1⟩
@[reducible] def CNP_QP_CFG_SQ_SIZE : Fld := ⟨.CNP_QP_CFG, 4, 5⟩
@[reducible] def CNP_QP_CFG_CQ_SIZE : Fld := ⟨.CNP_QP_CFG, 9, 5⟩
@[reducible] def CNP_QP_CFG_AGG : Fld := ⟨.CNP_QP_CFG, 14, 8⟩
@[reducible] def CNP_QP_CFG_IRQ_EN : Fld := ⟨.CNP_QP_CFG, 22, 1⟩
@[reducible] def CNP_QP_CFG_VECTOR : Fld := ⟨.CNP_QP_CFG, 23, 11⟩
@[reducible] def CNP_QP_CFG_VFIDX : Fld := ⟨.CNP_QP_CFG, 34, 6⟩
@[reducible] def CNP_QP_CFG_FUNC : Fld := ⟨.CNP_QP_CFG, 40, 8⟩
@[reducible] def CNP_QP_CFG_CONTEXT : Fld := ⟨.CNP_QP_CFG, 48, 16⟩
@[reducible] def CNP_QP_COMMIT_COMMIT : Fld := ⟨.CNP_QP_COMMIT, 0, 1⟩
@[reducible] def CNP_QP_COMMIT_PENDING : Fld := ⟨.CNP_QP_COMMIT, 1, 1⟩
@[reducible] def CNP_QP_COMMIT_DISCARD : Fld := ⟨.CNP_QP_COMMIT, 2, 1⟩
@[reducible] def CNP_QP_COMMIT_SHADOW_RD : Fld := ⟨.CNP_QP_COMMIT, 3, 1⟩
@[reducible] def CNP_QP_COMMIT_REJECT : Fld := ⟨.CNP_QP_COMMIT, 4, 1⟩
@[reducible] def CNP_QP_COMMIT_OVERRUN : Fld := ⟨.CNP_QP_COMMIT, 5, 1⟩
@[reducible] def CNP_QP_COMMIT_COMMIT_COUNT : Fld := ⟨.CNP_QP_COMMIT, 16, 16⟩
@[reducible] def CNP_QP_STATUS_SQ_HEAD : Fld := ⟨.CNP_QP_STATUS, 0, 16⟩
@[reducible] def CNP_QP_STATUS_CQ_TAIL : Fld := ⟨.CNP_QP_STATUS, 16, 16⟩
@[reducible] def CNP_QP_STATUS_OUTSTANDING : Fld := ⟨.CNP_QP_STATUS, 32, 7⟩
@[reducible] def CNP_QP_STATUS_STATE : Fld := ⟨.CNP_QP_STATUS, 40, 2⟩
@[reducible] def CNP_QP_STATUS_ERR : Fld := ⟨.CNP_QP_STATUS, 42, 3⟩
@[reducible] def CNP_BAR4_WIN_EN : Fld := ⟨.CNP_BAR4_WIN, 0, 1⟩
@[reducible] def CNP_BAR4_WIN_BASE : Fld := ⟨.CNP_BAR4_WIN, 16, 48⟩
@[reducible] def CNP_BAR4_CTX_CONTEXT : Fld := ⟨.CNP_BAR4_CTX, 0, 16⟩
@[reducible] def CNP_BAR4_COMMIT_COMMIT : Fld := ⟨.CNP_BAR4_COMMIT, 0, 1⟩
@[reducible] def CNP_BAR4_COMMIT_PENDING : Fld := ⟨.CNP_BAR4_COMMIT, 1, 1⟩
@[reducible] def CNP_BAR4_COMMIT_DISCARD : Fld := ⟨.CNP_BAR4_COMMIT, 2, 1⟩
@[reducible] def CNP_BAR4_COMMIT_SHADOW_RD : Fld := ⟨.CNP_BAR4_COMMIT, 3, 1⟩
@[reducible] def CNP_BAR4_COMMIT_REJECT : Fld := ⟨.CNP_BAR4_COMMIT, 4, 1⟩
@[reducible] def CNP_BAR4_COMMIT_OVERRUN : Fld := ⟨.CNP_BAR4_COMMIT, 5, 1⟩
@[reducible] def CNP_BAR4_COMMIT_COMMIT_COUNT : Fld := ⟨.CNP_BAR4_COMMIT, 16, 16⟩
@[reducible] def CNP_QP_ERRMAP_ERR : Fld := ⟨.CNP_QP_ERRMAP, 0, 64⟩
@[reducible] def TAP_MBX_CMD_OP : Fld := ⟨.TAP_MBX_CMD, 0, 8⟩
@[reducible] def TAP_MBX_CMD_LEN : Fld := ⟨.TAP_MBX_CMD, 8, 19⟩
@[reducible] def TAP_MBX_CMD_COUNT : Fld := ⟨.TAP_MBX_CMD, 32, 21⟩
@[reducible] def TAP_MBX_CMD_RESULT : Fld := ⟨.TAP_MBX_CMD, 53, 8⟩
@[reducible] def TAP_MBX_CMD_STATE : Fld := ⟨.TAP_MBX_CMD, 61, 2⟩
@[reducible] def TAP_MBX_CMD_SEQERR : Fld := ⟨.TAP_MBX_CMD, 63, 1⟩
@[reducible] def TAP_MBX_DATA_DATA : Fld := ⟨.TAP_MBX_DATA, 0, 32⟩
@[reducible] def GRG_PORT_CTL_EN : Fld := ⟨.GRG_PORT_CTL, 0, 1⟩
@[reducible] def GRG_PORT_CTL_RETRAIN : Fld := ⟨.GRG_PORT_CTL, 1, 1⟩
@[reducible] def GRG_PORT_CTL_MAXW : Fld := ⟨.GRG_PORT_CTL, 2, 2⟩
@[reducible] def GRG_PORT_CTL_DEGRADE : Fld := ⟨.GRG_PORT_CTL, 4, 1⟩
@[reducible] def GRG_PORT_CTL_REPLAY_LIMIT : Fld := ⟨.GRG_PORT_CTL, 8, 8⟩
@[reducible] def GRG_PORT_STATUS_STATE : Fld := ⟨.GRG_PORT_STATUS, 0, 3⟩
@[reducible] def GRG_PORT_STATUS_WIDTH : Fld := ⟨.GRG_PORT_STATUS, 3, 2⟩
@[reducible] def GRG_PORT_STATUS_LANES : Fld := ⟨.GRG_PORT_STATUS, 5, 4⟩
@[reducible] def GRG_PORT_STATUS_TRAIN_FAILS : Fld := ⟨.GRG_PORT_STATUS, 9, 2⟩
@[reducible] def GRG_PORT_STATUS_PARTNER_SW : Fld := ⟨.GRG_PORT_STATUS, 11, 1⟩
@[reducible] def GRG_PORT_STATUS_PARTNER_V : Fld := ⟨.GRG_PORT_STATUS, 12, 1⟩
@[reducible] def GRG_PORT_STATUS_PARTNER_ID : Fld := ⟨.GRG_PORT_STATUS, 13, 14⟩
@[reducible] def GRG_PORT_STATUS_PARTNER_PORT : Fld := ⟨.GRG_PORT_STATUS, 27, 6⟩
@[reducible] def GRG_PORT_DELAY_DELAY : Fld := ⟨.GRG_PORT_DELAY, 0, 20⟩
@[reducible] def GRG_PORT_DELAY_VALID : Fld := ⟨.GRG_PORT_DELAY, 31, 1⟩
@[reducible] def GRG_PORT_CNT_COUNT : Fld := ⟨.GRG_PORT_CNT, 0, 48⟩
@[reducible] def GRG_PORT_CNT_OVF : Fld := ⟨.GRG_PORT_CNT, 48, 1⟩
@[reducible] def GRG_PKG_ID_ID : Fld := ⟨.GRG_PKG_ID, 0, 14⟩
@[reducible] def GRG_PKG_ID_V : Fld := ⟨.GRG_PKG_ID, 14, 1⟩
@[reducible] def GRG_PKG_ID_REFUSED : Fld := ⟨.GRG_PKG_ID, 31, 1⟩
@[reducible] def GRG_PKG_STATUS_UP : Fld := ⟨.GRG_PKG_STATUS, 0, 6⟩
@[reducible] def GRG_PKG_STATUS_TRAINING : Fld := ⟨.GRG_PKG_STATUS, 6, 4⟩
@[reducible] def GRG_PKG_STATUS_OUTSTANDING : Fld := ⟨.GRG_PKG_STATUS, 10, 16⟩
@[reducible] def GRG_PKG_STATUS_SYNC_WAIT : Fld := ⟨.GRG_PKG_STATUS, 26, 1⟩
@[reducible] def GRG_RT_BASE_EN : Fld := ⟨.GRG_RT_BASE, 0, 1⟩
@[reducible] def GRG_RT_BASE_BASE : Fld := ⟨.GRG_RT_BASE, 17, 29⟩
@[reducible] def GRG_RT_SYNC_SYNC : Fld := ⟨.GRG_RT_SYNC, 0, 1⟩
@[reducible] def GRG_INGRESS_PART_ACC : Fld := ⟨.GRG_INGRESS, 0, 10⟩
@[reducible] def GRG_INGRESS_ACC_EN : Fld := ⟨.GRG_INGRESS, 10, 1⟩
@[reducible] def GRG_INGRESS_PART_BULK : Fld := ⟨.GRG_INGRESS, 11, 10⟩
@[reducible] def GRG_INGRESS_BULK_EN : Fld := ⟨.GRG_INGRESS, 21, 1⟩
@[reducible] def GRG_WIN_COMMIT_COMMIT : Fld := ⟨.GRG_WIN_COMMIT, 0, 1⟩
@[reducible] def GRG_WIN_COMMIT_PENDING : Fld := ⟨.GRG_WIN_COMMIT, 1, 1⟩
@[reducible] def GRG_WIN_COMMIT_DISCARD : Fld := ⟨.GRG_WIN_COMMIT, 2, 1⟩
@[reducible] def GRG_WIN_COMMIT_SHADOW_RD : Fld := ⟨.GRG_WIN_COMMIT, 3, 1⟩
@[reducible] def GRG_WIN_COMMIT_REJECT : Fld := ⟨.GRG_WIN_COMMIT, 4, 1⟩
@[reducible] def GRG_WIN_COMMIT_OVERRUN : Fld := ⟨.GRG_WIN_COMMIT, 5, 1⟩
@[reducible] def GRG_WIN_COMMIT_COMMIT_COUNT : Fld := ⟨.GRG_WIN_COMMIT, 16, 16⟩
@[reducible] def GRG_PKG_CNT_COUNT : Fld := ⟨.GRG_PKG_CNT, 0, 48⟩
@[reducible] def GRG_PKG_CNT_OVF : Fld := ⟨.GRG_PKG_CNT, 48, 1⟩
@[reducible] def GRG_WIN_BASE_BASE : Fld := ⟨.GRG_WIN_BASE, 16, 30⟩
@[reducible] def GRG_WIN_BASE_RD : Fld := ⟨.GRG_WIN_BASE, 46, 1⟩
@[reducible] def GRG_WIN_BASE_WR : Fld := ⟨.GRG_WIN_BASE, 47, 1⟩
@[reducible] def GRG_WIN_BASE_AT : Fld := ⟨.GRG_WIN_BASE, 48, 1⟩
@[reducible] def GRG_WIN_BASE_EN : Fld := ⟨.GRG_WIN_BASE, 63, 1⟩
@[reducible] def GRG_WIN_LIMIT_LIMIT : Fld := ⟨.GRG_WIN_LIMIT, 16, 30⟩
@[reducible] def TAP_READY_STATE : Fld := ⟨.TAP_READY, 0, 3⟩
@[reducible] def TAP_READY_TAPROOT : Fld := ⟨.TAP_READY, 3, 1⟩
@[reducible] def TAP_READY_STEWARDS : Fld := ⟨.TAP_READY, 4, 1⟩
@[reducible] def TAP_READY_HBM : Fld := ⟨.TAP_READY, 5, 1⟩
@[reducible] def TAP_READY_OUTER : Fld := ⟨.TAP_READY, 6, 1⟩
@[reducible] def TAP_READY_MCTP : Fld := ⟨.TAP_READY, 7, 1⟩
@[reducible] def TAP_READY_GRIGA_DONE : Fld := ⟨.TAP_READY, 8, 1⟩
@[reducible] def TAP_READY_FAIL : Fld := ⟨.TAP_READY, 12, 4⟩
@[reducible] def TAP_READY_LAST_RESET : Fld := ⟨.TAP_READY, 16, 3⟩
@[reducible] def TAP_READY_BOOT_MS : Fld := ⟨.TAP_READY, 32, 32⟩
@[reducible] def TAP_RESET_CTL_OP : Fld := ⟨.TAP_RESET_CTL, 0, 3⟩
@[reducible] def TAP_RESET_CTL_KEY : Fld := ⟨.TAP_RESET_CTL, 8, 8⟩
@[reducible] def TAP_RESET_CTL_BUSY : Fld := ⟨.TAP_RESET_CTL, 16, 1⟩
@[reducible] def TAP_RESET_CTL_REFUSED : Fld := ⟨.TAP_RESET_CTL, 17, 1⟩
@[reducible] def TAP_ID_REV_REV : Fld := ⟨.TAP_ID_REV, 0, 8⟩
@[reducible] def TAP_ID_REV_PART : Fld := ⟨.TAP_ID_REV, 16, 16⟩
@[reducible] def TAP_SERIAL_SERIAL : Fld := ⟨.TAP_SERIAL, 0, 64⟩
@[reducible] def TAP_STATUS_TAKEOVERS : Fld := ⟨.TAP_STATUS, 0, 16⟩
@[reducible] def TAP_STATUS_ACTIVE : Fld := ⟨.TAP_STATUS, 16, 1⟩
@[reducible] def TAP_STATUS_STANDBY_OK : Fld := ⟨.TAP_STATUS, 17, 1⟩
@[reducible] def TAP_STATUS_EDGE0_LOST : Fld := ⟨.TAP_STATUS, 18, 1⟩
@[reducible] def TAP_FW_STATUS_RUN_SVN : Fld := ⟨.TAP_FW_STATUS, 0, 6⟩
@[reducible] def TAP_FW_STATUS_FUSE_SVN : Fld := ⟨.TAP_FW_STATUS, 6, 6⟩
@[reducible] def TAP_FW_STATUS_FLASH_VALID : Fld := ⟨.TAP_FW_STATUS, 12, 1⟩
@[reducible] def TAP_FW_STATUS_UPDATE : Fld := ⟨.TAP_FW_STATUS, 13, 3⟩
@[reducible] def TAP_FW_STATUS_DIE : Fld := ⟨.TAP_FW_STATUS, 16, 7⟩
@[reducible] def TAP_FW_STATUS_FUSE_FREE : Fld := ⟨.TAP_FW_STATUS, 23, 9⟩
@[reducible] def TAP_FW_STATUS_VERSION : Fld := ⟨.TAP_FW_STATUS, 32, 32⟩
@[reducible] def TAP_POWER_VIN : Fld := ⟨.TAP_POWER, 0, 16⟩
@[reducible] def TAP_POWER_IIN : Fld := ⟨.TAP_POWER, 16, 16⟩
@[reducible] def TAP_POWER_PIN : Fld := ⟨.TAP_POWER, 32, 16⟩
@[reducible] def TAP_ENERGY_ENERGY : Fld := ⟨.TAP_ENERGY, 0, 64⟩
@[reducible] def TAP_LOG_STATUS_UNDRAINED : Fld := ⟨.TAP_LOG_STATUS, 0, 18⟩
@[reducible] def TAP_LOG_STATUS_FLASH_NEXT : Fld := ⟨.TAP_LOG_STATUS, 32, 32⟩
@[reducible] def TAP_TEMP_TEMP : Fld := ⟨.TAP_TEMP, 0, 16⟩
@[reducible] def TAP_TEMP_VALID : Fld := ⟨.TAP_TEMP, 31, 1⟩
@[reducible] def TAP_QUAD_HEALTH_RETIRED : Fld := ⟨.TAP_QUAD_HEALTH, 0, 1⟩
@[reducible] def TAP_QUAD_HEALTH_POOL : Fld := ⟨.TAP_QUAD_HEALTH, 1, 5⟩
@[reducible] def TAP_QUAD_HEALTH_CL_RETIRED : Fld := ⟨.TAP_QUAD_HEALTH, 8, 4⟩
@[reducible] def TAP_QUAD_HEALTH_REPLACED : Fld := ⟨.TAP_QUAD_HEALTH, 16, 6⟩
@[reducible] def TAP_DIE_HEALTH_STATE : Fld := ⟨.TAP_DIE_HEALTH, 0, 2⟩
@[reducible] def TAP_DIE_HEALTH_CAUSE : Fld := ⟨.TAP_DIE_HEALTH, 4, 4⟩
@[reducible] def TAP_DIE_HEALTH_LINKS_DOWN : Fld := ⟨.TAP_DIE_HEALTH, 8, 4⟩
@[reducible] def TAP_DIE_HEALTH_QUAD_RETIRED : Fld := ⟨.TAP_DIE_HEALTH, 16, 4⟩
@[reducible] def TAP_DIE_HEALTH_MAPPED : Fld := ⟨.TAP_DIE_HEALTH, 24, 8⟩
@[reducible] def DBG_CTL_EN : Fld := ⟨.DBG_CTL, 0, 1⟩
@[reducible] def DBG_CTL_GUAR : Fld := ⟨.DBG_CTL, 1, 1⟩
@[reducible] def DBG_CMD_OP : Fld := ⟨.DBG_CMD, 0, 4⟩
@[reducible] def DBG_CMD_ATT : Fld := ⟨.DBG_CMD, 4, 4⟩
@[reducible] def DBG_CMD_GROUP : Fld := ⟨.DBG_CMD, 32, 5⟩
@[reducible] def DBG_CMD_ALL : Fld := ⟨.DBG_CMD, 37, 1⟩
@[reducible] def DBG_CMD_LM : Fld := ⟨.DBG_CMD, 38, 1⟩
@[reducible] def DBG_CMD_ACC : Fld := ⟨.DBG_CMD, 39, 1⟩
@[reducible] def DBG_CMD_GO : Fld := ⟨.DBG_CMD, 63, 1⟩
@[reducible] def DBG_CMD_ARG0_ARG0 : Fld := ⟨.DBG_CMD_ARG0, 0, 64⟩
@[reducible] def DBG_CMD_ARG1_BUF : Fld := ⟨.DBG_CMD_ARG1, 12, 34⟩
@[reducible] def DBG_CMD_STATUS_RESULT : Fld := ⟨.DBG_CMD_STATUS, 0, 8⟩
@[reducible] def DBG_CMD_STATUS_BUSY : Fld := ⟨.DBG_CMD_STATUS, 31, 1⟩
@[reducible] def DBG_ATT_CONTEXT : Fld := ⟨.DBG_ATT, 0, 16⟩
@[reducible] def DBG_ATT_TRAPFAULT : Fld := ⟨.DBG_ATT, 16, 1⟩
@[reducible] def DBG_ATT_STOPALL : Fld := ⟨.DBG_ATT, 17, 1⟩
@[reducible] def DBG_ATT_HALT_NEW : Fld := ⟨.DBG_ATT, 18, 1⟩
@[reducible] def DBG_ATT_VALID : Fld := ⟨.DBG_ATT, 63, 1⟩
@[reducible] def DBG_EVENT_VALID : Fld := ⟨.DBG_EVENT, 0, 1⟩
@[reducible] def DBG_EVENT_GROUP : Fld := ⟨.DBG_EVENT, 32, 5⟩
@[reducible] def DBG_EVENT_CODE : Fld := ⟨.DBG_EVENT, 40, 8⟩
@[reducible] def DBG_EVENT_HALTED : Fld := ⟨.DBG_EVENT, 48, 16⟩
@[reducible] def DBG_EVENT_BLOCK_VALUE : Fld := ⟨.DBG_EVENT_BLOCK, 0, 64⟩
@[reducible] def DBG_EVENT_PC_VALUE : Fld := ⟨.DBG_EVENT_PC, 0, 64⟩
@[reducible] def DBG_BP_EN : Fld := ⟨.DBG_BP, 0, 1⟩
@[reducible] def DBG_BP_ADDR : Fld := ⟨.DBG_BP, 3, 54⟩
@[reducible] def DBG_WP_ADDR_ADDR : Fld := ⟨.DBG_WP_ADDR, 0, 57⟩
@[reducible] def DBG_WP_CTL_EN : Fld := ⟨.DBG_WP_CTL, 0, 1⟩
@[reducible] def DBG_WP_CTL_R : Fld := ⟨.DBG_WP_CTL, 1, 1⟩
@[reducible] def DBG_WP_CTL_W : Fld := ⟨.DBG_WP_CTL, 2, 1⟩
@[reducible] def DBG_WP_CTL_LOCAL : Fld := ⟨.DBG_WP_CTL, 3, 1⟩
@[reducible] def DBG_WP_CTL_SIZE : Fld := ⟨.DBG_WP_CTL, 8, 5⟩
@[reducible] def DBG_DIE_STATUS_HALTED : Fld := ⟨.DBG_DIE_STATUS, 0, 13⟩
@[reducible] def DBG_DIE_STATUS_STEPPING : Fld := ⟨.DBG_DIE_STATUS, 13, 13⟩
@[reducible] def TAP_PWR_LIMIT_PLIM : Fld := ⟨.TAP_PWR_LIMIT, 0, 14⟩
@[reducible] def TAP_PWR_LIMIT_HOSTCAP : Fld := ⟨.TAP_PWR_LIMIT, 16, 5⟩
@[reducible] def TAP_DUTY_STATUS_POWER : Fld := ⟨.TAP_DUTY_STATUS, 0, 1⟩
@[reducible] def TAP_DUTY_STATUS_CURRENT : Fld := ⟨.TAP_DUTY_STATUS, 1, 1⟩
@[reducible] def TAP_DUTY_STATUS_CLAMP : Fld := ⟨.TAP_DUTY_STATUS, 2, 1⟩
@[reducible] def TAP_DUTY_STATUS_THERMAL : Fld := ⟨.TAP_DUTY_STATUS, 3, 1⟩
@[reducible] def TAP_DUTY_STATUS_STANDLIM : Fld := ⟨.TAP_DUTY_STATUS, 4, 1⟩
@[reducible] def TAP_DUTY_STATUS_HOST : Fld := ⟨.TAP_DUTY_STATUS, 5, 1⟩
@[reducible] def TAP_DUTY_STATUS_GUAR_MIN : Fld := ⟨.TAP_DUTY_STATUS, 25, 5⟩
@[reducible] def TAP_DUTY_STATUS_MIN_DUTY : Fld := ⟨.TAP_DUTY_STATUS, 30, 5⟩
@[reducible] def TAP_DUTY_STATUS_STAND : Fld := ⟨.TAP_DUTY_STATUS, 35, 5⟩
@[reducible] def TAP_DUTY_STATUS_CLAMPS : Fld := ⟨.TAP_DUTY_STATUS, 48, 16⟩
@[reducible] def TAP_PWR_STATUS_STOP : Fld := ⟨.TAP_PWR_STATUS, 0, 3⟩
@[reducible] def TAP_PWR_STATUS_UNIT : Fld := ⟨.TAP_PWR_STATUS, 8, 8⟩
@[reducible] def EVC_DFQ_WINDOW_DATA : Fld := ⟨.EVC_DFQ_WINDOW, 0, 64⟩

end F

end Sys2Proof.Machine
end

