-- ==== Sys2Proof/Machine/State.lean ====
section
/-! DEFINITION. The state of the package, as plain data, and the state right after reset. Registers stand in one
register file under the numbers of the register map; the other state of each block stands in a structure of its own. -/

namespace Sys2Proof.Machine

/-- Why a run stops. -/
inductive Fault where
  /-- A register access that is not naturally aligned or not of 32 or 64 bits, against R9 ("must be accessed with naturally aligned
  32-bit accesses, or as one half of a naturally aligned 64-bit access"). Raised by `registerWrite` and `outOfReachRead`. Safe: the
  spec gives such an access no effect. -/
  | illFormed
  deriving DecidableEq, Repr

/-- Why a command has no meaning in a state. -/
inductive Refusal where
  /-- The command has no meaning in the model yet. Safe. -/
  | notModelled (mnemonic : String)
  /-- An event that cannot come about in the state it meets: nothing is in progress that it could complete, or its
  condition does not hold. Raised by the rows that are events. Safe: the hardware never shows such an event. -/
  | notEnabled
  deriving DecidableEq, Repr

/-! ### Messages that leave the package -/

/-- What leaves the package, in the order in which it leaves. -/
inductive Out where
  /-- an MSI-X message of a function (R382) -/
  | msix (func vector : Nat) (addr : W64) (data : W32)
  /-- the value a register read returns -/
  | regRead (who : Requester) (value : W64)
  /-- a configuration completion; `none` is Request Retry Status (R398) -/
  | config (func : Nat) (value : Option W32)
  /-- Device Readiness Status, or Function Readiness Status of a function (R398) -/
  | deviceReady
  | functionReady (func : Nat)
  /-- a completion of a BAR read: the data, or Unsupported Request (R401, R402) -/
  | barRead (func : Nat) (data : List Byte) (ep : Bool)
  | barUnsupported (func : Nat)
  /-- a device read or write of host memory (R394, R403) -/
  | hostRead (func : Nat) (pasid : Option Nat) (tag addr len : Nat)
  | hostWrite (func : Nat) (pasid : Option Nat) (addr : Nat) (data : List Byte)
  /-- a PTM request (R38) -/
  | ptmRequest
  /-- an ATS Translation Request, a Page Request, an Invalidate Completion (R310, R312) -/
  | atsRequest (func : Nat) (pasid : Nat) (addr : Nat) (write : Bool)
  | pageRequest (func : Nat) (pasid : Nat) (group : Nat) (addr : Nat) (write : Bool)
  | invalidateCompletion (func : Nat) (tag : Nat)
  /-- an ordered set sent on a Griga port: PRESENT or HOLD (R417) -/
  | present (port : Nat) (hold : Bool)
  /-- a flit sent on a Griga port: kind 0 DATA, 1 IDLE, 2 NAK, 3 DELAY (R419, R420) -/
  | flit (port kind seq ack : Nat)
  /-- a message sent on a Griga port (R422) -/
  | griga (port : Nat) (msg : GMsg)
  /-- a BEAT sent on a Griga port (R432) -/
  | beat (port : Nat) (t corr master hop steps : Nat)
  /-- a management message to a package (R478) -/
  | mgmt (dst : Nat) (typ : Nat) (number : Nat) (body : List Byte)
  /-- an acknowledgement between the two Taproots, and a heartbeat (R452) -/
  | journalAck (n : Nat)
  | heartbeat
  /-- a sideband response (R461, R462, R476): the protocol's code and the body -/
  | mctp (code : Nat) (body : List Byte)
  | pldm (typ code completion : Nat) (body : List Byte)
  | spdm (path : SpdmPath) (code : Nat) (body : List Byte)
  /-- the I3C target acknowledges or does not -/
  | i3cNack
  /-- the test data output: the bits an instruction of the test port shifts out (R528, R529) -/
  | tdo (bits : List Bool)
  deriving DecidableEq, Repr

/-! ### Ring time -/

/-- What the time base keeps of one source or one Griga port (R36, R37). -/
structure Track where
  /-- consecutive consistent samples, up to 4 -/
  count : Nat := 0
  qualified : Bool := false
  /-- the last consistent sample: local count and source time, in ns -/
  last : Option (Nat × Nat) := none
  /-- the source's rate against the local count between its last two consistent samples, in 10^-9 (R35; log 80) -/
  rate : Int := 0
  /-- hop count and master of the last beat -/
  hop : Nat := 0
  master : Nat := 0
  deriving DecidableEq, Repr

/-- The stand time base (02). Times inside are in units of 1/110,000 ns, so that a cycle of the 1.1 GHz clock
(10/11 ns) is 100,000 units and a slew of 100 ppm is 10 units a cycle (R43). -/
structure Ring where
  /-- the local count since edge die 0 left reset (R42) -/
  localU : Nat := 0
  /-- the Ring count; the local count while Unlocked -/
  ringU : Nat := 0
  /-- what is left of a slew, signed (R43) -/
  slew : Int := 0
  /-- the rate of the selected source, or in Holdover the last disciplined one, against the local count, in 10^-9, and
  the fraction of a unit that it has gained, in 10^-9 (R35, R42) -/
  rate : Int := 0
  phase : Nat := 0
  /-- the disciplined count without its steps, which intervals are counted on (R49) -/
  discU : Nat := 0
  ports : SMap Track := []
  ptm : Track := {}
  pps0 : Track := {}
  pps2 : Track := {}
  /-- the Griga port in use (R37) -/
  port : Nat := 0
  /-- local time of the last pulse of the counting input since it was enabled (R39) -/
  lastPulse : Option Nat := none
  /-- software writes of `TB_PPS_NEXT_SEC` within 1 µs of the last of them, newest first: the local time and the value
  before (R39) -/
  secWrites : List (Nat × Nat) := []
  /-- local time since which a source of a priority has stayed qualified (R40) -/
  since : SMap Nat := []
  /-- the preferred Griga port, and the local time since which it has stayed qualified and preferred (R37) -/
  pref : Option (Nat × Nat) := none
  /-- the disciplined count, in ns, at which Holdover began (R42) -/
  holdSince : Nat := 0
  /-- a slot number that the last boundary opened (R46, R48) -/
  slot : Nat := 0
  /-- a forward step's boundary is due (R48) -/
  due : Bool := false
  /-- high halves of `TB_NOW` latched for requesters (R52) -/
  latches : List (Requester × W32) := []
  deriving DecidableEq, Repr

/-! ### Events and fault rings -/

/-- The event controllers (14), beside their registers. -/
structure Evc where
  /-- dies whose control clock is stopped (R384) -/
  stopped : List Nat := []
  /-- edges caught by the asynchronous latches, numbered die × 1,024 + source (R384) -/
  latched : List Nat := []
  /-- records of the device fault queues, numbered die × 256 + slot (R391) -/
  dfq : SMap FaultRec := []
  /-- context records on their way to the fault-ring writer, oldest first (R388) -/
  flight : List FaultRec := []
  /-- recoverable records that wait for space, oldest first (R389) -/
  waiting : List FaultRec := []
  /-- contexts whose message interval runs, with the records it covers (R388) -/
  interval : SMap Bool := []
  deriving DecidableEq, Repr

/-! ### Host attachment -/

/-- What the host sets in a function's configuration space and the state of the function (15). -/
structure Func where
  msixEnable : Bool := false
  functionMask : Bool := false
  atsEnable : Bool := false
  pasidEnable : Bool := false
  priEnable : Bool := false
  ptmEnable : Bool := false
  d3hot : Bool := false
  inFlr : Bool := false
  /-- the uncorrectable errors that AER has logged (R394) -/
  aer : Nat := 0
  deriving DecidableEq, Repr

/-- One entry of a function's MSI-X table with its pending bit (R382, R400). -/
structure MsixVec where
  addr : W64 := 0
  data : W32 := 0
  masked : Bool := true
  pending : Bool := false
  deriving DecidableEq, Repr

/-- A command of a queue pair that was started (R405, R408). -/
structure QCmd where
  cid : Nat
  op : Nat
  addr : Nat := 0
  value : Nat := 0
  timeout : Nat := 0
  /-- local time, in ns, at which a WAIT times out -/
  due : Nat := 0
  /-- the launch's number at Canopy, for a LAUNCH -/
  launch : Nat := 0
  deriving DecidableEq, Repr

/-- A completion that waits to be written (R409, R410). -/
structure Cqe where
  cid : Nat
  status : Nat
  late : Bool := false
  info : Nat := 0
  /-- Ring time of the completion, and its U -/
  time : Nat := 0
  u : Bool := false
  deriving DecidableEq, Repr

/-- What a pair, or Canopy for it, reads at a virtual address: nothing, a read on its way to host memory or another
package, its bytes, or its failure. -/
inductive Aux where
  | none | due
  | got (bytes : List Byte)
  | failed
  deriving DecidableEq, Repr

/-- A queue pair, beside its registers (R403 to R410). -/
structure Qp where
  sqTail : Nat := 0
  cqHead : Nat := 0
  started : List QCmd := []
  held : Option QCmd := none
  waiting : List Cqe := []
  phase : Bool := true
  /-- the AGG interval runs; whether entries wait for its message -/
  interval : Bool := false
  covered : Bool := false
  aux : Aux := .none
  /-- a command packet fetched from host memory, or its read outstanding -/
  fetched : Option (List Byte) := none
  fetching : Bool := false
  /-- a committed EN = 0 waits for the outstanding commands -/
  stopping : Bool := false
  deriving DecidableEq, Repr

/-- What a device read of host memory is for (R394). -/
inductive HostWant where
  | sqEntry (q : Nat)
  | waitWord (q : Nat)
  | access (id : Nat)
  | chunk (id piece : Nat)
  deriving DecidableEq, Repr

/-- The host attachment (15). -/
structure HostIf where
  vfEnable : Bool := false
  numVfs : Nat := 0
  /-- log₂ of the megabytes that BAR4 of the PF, and of each VF, decodes (R400) -/
  bar4 : Nat := 10
  vfBar4 : Nat := 8
  funcs : SMap Func := []
  msix : SMap MsixVec := []
  linkUp : Bool := false
  linkRate : Nat := 0
  linkWidth : Nat := 0
  /-- Request Retry Status has ended (R398) -/
  served : Bool := false
  reads : SMap HostWant := []
  qps : SMap Qp := []
  mbxReq : List W32 := []
  mbxOp : Nat := 0
  mbxRsp : List W32 := []
  deriving DecidableEq, Repr

/-! ### Griga -/

/-- A Griga port, beside its registers (16). -/
structure GPort where
  /-- order number of the port's request for a governor slot (R417) -/
  asked : Option Nat := none
  slot : Bool := false
  heard : Bool := false
  holdWait : Bool := false
  /-- next SEQ to send, next SEQ expected, last ACK received (R420) -/
  txSeq : Nat := 0
  rxSeq : Nat := 0
  acked : Nat := 4095
  unacked : Nat := 0
  nakSent : Bool := false
  replays : Nat := 0
  /-- lanes that a retrain tries (R421) -/
  cand : Nat := 0
  deriving DecidableEq, Repr

/-- Who issued a remote request (R427 to R430). -/
inductive Issuer where
  | access (id : Nat)
  | chunk (id piece : Nat)
  | pair (q : Nat)
  | taproot
  deriving DecidableEq, Repr

/-- An outstanding request of an egress table (R429). -/
structure EgReq where
  msg : GMsg
  port : Nat
  route : Nat
  issuer : Issuer
  issued : Nat
  deriving DecidableEq, Repr

/-- The Griga block (16). -/
structure Griga where
  ports : SMap GPort := []
  order : Nat := 0
  /-- outstanding requests, numbered edge die × 8,192 + index -/
  egress : SMap EgReq := []
  /-- generations of the egress table entries -/
  gens : SMap Nat := []
  /-- route entries cached, numbered edge die × 16,384 + destination -/
  routes : SMap W64 := []
  /-- warm resets so far, by which every generation has risen (R447) -/
  genBase : Nat := 0
  /-- requests that wait at egress: table full, or an old route -/
  egWait : List EgReq := []
  mgmtNo : Nat := 0
  deriving DecidableEq, Repr

/-! ### Power, readiness and Taproot -/

/-- The power input, the resets and readiness (17, 21). -/
structure Power where
  /-- the input is above its start threshold and conversion runs -/
  converting : Bool := true
  softStart : Bool := false
  pwrGood : Bool := true
  perst : Bool := false
  thermtrip : Bool := false
  /-- an overcurrent, overvoltage or trip stop holds conversion off until the input falls below 40 V -/
  latchedOff : Bool := false
  stopCause : Nat := 0
  stopUnit : Nat := 0
  /-- the input rose from below 40 V since the last stop (R533) -/
  fusesLoaded : Bool := false
  /-- dies that are Off -/
  diesOff : List Nat := []
  /-- clusters, quadrants and compute dies in Retain (R11, R13) -/
  retainClus : List Nat := []
  retainQuad : List Nat := []
  retainDie : List Nat := []
  selfTested : List Nat := []
  /-- the reset in progress, by its LAST_RESET code -/
  inReset : Option Nat := none
  /-- a Standby entry or exit in progress -/
  standbyEntry : Bool := false
  standbyExit : Bool := false
  edge0Failed : Bool := false
  edge2Failed : Bool := false
  deriving DecidableEq, Repr

/-- A log record (R458). -/
structure LogRec where
  seq : Nat
  time : Nat
  u : Bool
  severity : Nat
  die : Nat
  kind : Nat
  suppressed : Nat := 0
  fault : Option FaultRec := none
  deriving DecidableEq, Repr

/-- The fuses that matter in service (R471): burnt repair slots, retirements and the SVN minimum. -/
structure Fuses where
  svnMin : Nat := 0
  /-- burnt local-memory repair slots: number (core × 32 + bank) × 4 + slot, value COL -/
  repair : SMap Nat := []
  cores : List Nat := []
  clusters : List Nat := []
  dies : List Nat := []
  deriving DecidableEq, Repr

/-- An update of a flash area in progress (R466): sectors erased and byte ranges programmed. -/
structure FlashUpdate where
  running : Bool := false
  erased : List Nat := []
  written : List (Nat × Nat) := []
  deriving DecidableEq, Repr

/-- Taproot (18). -/
structure Taproot where
  primaryUp : Bool := false
  standbyUp : Bool := false
  /-- the former primary waits to be restarted after a take-over (R454, R467) -/
  formerDown : Bool := false
  fatal : Bool := false
  lastBeat : Nat := 0
  journalSent : Nat := 0
  journalApplied : Nat := 0
  log : List LogRec := []
  logNext : Nat := 1
  overwritten : Nat := 0
  overSinceRead : Bool := false
  flashLog : List LogRec := []
  flashNext : Nat := 0
  /-- per source die × 4,096 + kind: time of the last accepted record and records withheld since -/
  accepted : SMap (Nat × Nat) := []
  /-- the image flash and the second flash device; an unlisted byte is erased -/
  image : SMap Byte := []
  board : SMap Byte := []
  /-- the second flash device as Taproot read it at bring-up: the board data in effect (R465) -/
  boardRead : SMap Byte := []
  imageLen : Nat := 0
  imageUpd : FlashUpdate := {}
  boardUpd : FlashUpdate := {}
  fuses : Fuses := {}
  /-- the device secret has been read and is locked until the next power-on or cold reset (R472) -/
  secretLocked : Bool := false
  /-- the device secret in the boot ROM's memory, until the firmware starts (R472) -/
  secret : Option (BitVec 256) := none
  /-- the seeds of the device identity keys, and of the alias keys in use: Ed25519 and ML-DSA-65 (R472, R473) -/
  deviceSeeds : List Byte × List Byte := ([], [])
  aliasSeeds : List Byte × List Byte := ([], [])
  /-- the measurement and component images of the running firmware -/
  runMeas : BitVec 384 := 0
  stewardMeas : BitVec 384 := 0
  /-- the SVN that the alias keys in use were derived with -/
  aliasSvn : Nat := 0
  burnSvn : Bool := false
  /-- the image's update waits in this take-over phase (R467) -/
  handBack : Bool := false
  /-- who owns the recovery session, `true` for PLDM, and when that path last sent a request, in local ns (R469) -/
  session : Option Bool := none
  sessionAt : Nat := 0
  i3cAddr : Option Nat := none
  eid : Nat := 0
  tid : Nat := 0
  platformEvents : List Nat := []
  /-- of a die whose steward is being replaced or restarted: when it runs again, in local ns (R468, R485) -/
  stewardsDown : SMap Nat := []
  rail7 : Nat := 0
  rails : SMap Nat := []
  /-- products of voltage and current, in 10 µW, of the samples of the last 1 ms, and of all samples together -/
  inputs : List Nat := []
  energyN : Nat := 0
  deriving DecidableEq, Repr

/-- Spares, retirement and error history (19). -/
structure Health where
  /-- physical core behind a logical core that was replaced: core ↦ pool number -/
  phys : SMap Nat := []
  /-- pool cores free, per quadrant -/
  pool : SMap (List Nat) := []
  coreErrors : SMap Nat := []
  /-- cores whose failure a test confirmed (R496) -/
  confirmed : List Nat := []
  failing : List Nat := []
  retiredCores : List Nat := []
  /-- rows of a pseudo-channel replaced by post-package repair, so far -/
  repairs : SMap Nat := []
  /-- of a pseudo-channel, or 1,024 + port: the rows that showed uncorrectable errors, with their times in ns (R497) -/
  chanUe : SMap (List (Nat × Nat)) := []
  /-- of a unit of memory: the hour of its last correctable errors, their number in it, and whether the hour before had more than
  1,000 (R497) -/
  chanCe : SMap (Nat × Nat × Bool) := []
  /-- Ring time of a stack's last change of throttle level, and its U (R289) -/
  throttled : SMap (Nat × Bool) := []
  deriving DecidableEq, Repr

/-- Issue duty (21). -/
structure Duty where
  /-- power-controller ceilings of clusters without and with a Guaranteed context -/
  other : Nat := 16
  /-- the stand duty ceiling in effect (R14) -/
  stand : Nat := 16
  guar : Nat := 16
  calmMs : Nat := 0
  /-- the power controller acts on PIN, and on IIN -/
  onPin : Bool := false
  onIin : Bool := false
  clamp : Bool := false
  /-- thermal ceilings by compute die, and ms since the last raise -/
  thermal : SMap Nat := []
  cool : SMap Nat := []
  /-- dies whose thermal controller lowers, and home dies whose stacks are capped (R531) -/
  hot : List Nat := []
  capped : List Nat := []
  /-- an announced stand ceiling: its value, its slot and the STEP_COUNT it was announced under -/
  announced : Option (Nat × Nat × Nat) := none
  deriving DecidableEq, Repr

/-- The instructions of the test access port (R528). -/
inductive JtagInstr where
  | bypass | idcode | samplePreload | extest | extestPulse | extestTrain | clamp | highz
  deriving DecidableEq, Repr

/-- The test access port (21). -/
structure Jtag where
  ir : JtagInstr := .idcode
  preload : List Bool := []
  deriving DecidableEq, Repr

/-- A halt that waits to be reported (R507, R508). -/
structure Halt where
  att : Nat
  core : Nat
  slot : Nat
  block : Nat
  group : Nat
  code : Nat
  deriving DecidableEq, Repr
/-! ### Cores -/

/-- A register of a group: vector, scalar or predicate. -/
inductive RegRef where
  | v (n : Nat)
  | s (n : Nat)
  | p (n : Nat)
  deriving DecidableEq, Repr

/-- The kinds of reconvergence entries (R63). -/
inductive StackKind where
  | join | pending | loop
  deriving DecidableEq, Repr

/-- An entry of the reconvergence stack (R63). -/
structure StackEntry where
  kind : StackKind
  addr : Nat
  mask : Nat
  deriving DecidableEq, Repr

/-- What a group, or a stream chunk, waits for (R90, R117, R118, R120, R126, R310, R332, R389). A wait for earlier
accesses, for a transfer or for an engine is not held here: the instruction is presented again until it may pass. -/
inductive Wait where
  | none
  /-- at `bar.block` of an id, with its n -/
  | barrier (id n : Nat)
  /-- at `bar.cluster` -/
  | cluster
  /-- on the walk of a 64 KiB page (VA divided by 2^16) -/
  | walk (page : Nat)
  /-- on ATS or a Page Request for a 4 KiB page (VA divided by 2^12) -/
  | host (page : Nat)
  /-- on a record that waits for space in the fault ring (STATE 4, R389) -/
  | ring
  /-- on a translation fault, with the sequence of its record; `none` while the record is on its way (R126) -/
  | fault (seq : Option Nat)
  /-- at a tile mark while a pre-emption is pending (R120) -/
  | mark
  deriving DecidableEq, Repr

/-- A deferred exception that a group holds (R123): the code, the originating instruction or ticket, and the narrowest
scope whose fence covers the access. -/
structure Deferred where
  code : Nat
  pc : Nat
  scope : Nat := 0
  lanes : Nat := 0
  addr : Nat := 0
  ticket : Bool := false
  info : Nat := 0
  /-- an access of the local memory, whose scope is any; `engines` are the handles, as a mask, of the gang of a
  matrix engine (R150) -/
  engines : Nat := 0
  deriving DecidableEq, Repr

/-- A failed translation that a re-presented instruction meets: the first address, the size and the code. -/
structure Miss where
  base : Nat
  size : Nat
  code : Nat
  deriving DecidableEq, Repr

/-- A resident group, beside its registers (R54). -/
structure Grp where
  ctx : Nat := 0
  /-- block slot of its core, and group index in the block -/
  block : Nat := 0
  index : Nat := 0
  pc : Nat := 0
  active : Nat := 0xFFFFFFFF
  exited : Nat := 0
  stack : List StackEntry := []
  flags : Nat := 0
  /-- the generation of the group's remote loads (R360) -/
  gen : Nat := 0
  wait : Wait := .none
  /-- outcomes of the walks of the instruction that is presented again -/
  misses : List Miss := []
  complete : Bool := false
  /-- the group issues nothing further (R127) -/
  stopped : Bool := false
  halted : Bool := false
  stepping : Bool := false
  /-- it was stopped and resumed: it issues once its earlier stores are performed at package scope (R269) -/
  settling : Bool := false
  /-- the next issue does not match breakpoints and watchpoints (R509) -/
  noMatch : Bool := false
  /-- at `mx.wait`: the engines it waits for, with the entries still to complete (R147) -/
  engines : List (Nat × Nat) := []
  /-- what its next instruction was held for when it was last presented: 0 nothing, 1 a register or a unit, 3 memory (R90) -/
  held : Nat := 0
  /-- what halted it: 1 a breakpoint register or watchpoint, 2 `brkpt`, 0 another cause (R509) -/
  cause : Nat := 0
  /-- a non-recoverable exception held under TRAPFAULT (R515) -/
  trapped : Option FaultRec := Option.none
  deferred : List Deferred := []
  /-- physical units of its vector registers (R55) -/
  vunits : List Nat := []
  /-- what unwritten vector registers hold: zeros, or the fill number of their unspecified contents (R74) -/
  seed : Option Nat := Option.none
  deriving DecidableEq, Repr

/-- A round of a block barrier: the n that the first arrival fixed, and the group slots that have arrived (R117). -/
structure Round where
  n : Nat
  arrived : List Nat := []
  deriving DecidableEq, Repr

/-- A block in a block slot of a core (R71, R79). -/
structure Blk where
  /-- number of its block cluster in the model's table, and its rank -/
  bc : Nat := 0
  rank : Nat := 0
  /-- the block's group slots by group index -/
  groups : List Nat := []
  vunits : Nat := 1
  /-- physical local-memory units by logical unit (R179) -/
  units : List Nat := []
  /-- physical engines by handle (R80) -/
  engines : List Nat := []
  rounds : SMap Round := []
  /-- group slots that have arrived at `bar.cluster` -/
  arrived : List Nat := []
  /-- the block is over but for these write-backs of scalar bytes, by access number (R85) -/
  draining : Option (List Nat) := none
  deriving DecidableEq, Repr

/-- A core beside its registers. -/
structure CoreSt where
  /-- the context whose blocks it last held (R74) -/
  last : Option Nat := none
  /-- the kernel, by launch number, for which its near caches were brought up to date (R87) -/
  fresh : Option Nat := none
  gated : Bool := false
  /-- the core is in Retain (R13, R193) -/
  retain : Bool := false
  /-- units that are changing to On (R192) -/
  waking : List Nat := []
  testing : Bool := false
  /-- a repair slot changed: a zero-fill of all units is due (R190) -/
  refill : Bool := false
  /-- a corrected granule that a bank will write back: physical granule numbers (R187) -/
  corrected : List Nat := []
  /-- values of `BCAST_ONLY` to restore when a Guaranteed context's blocks leave (R350) -/
  bcastWas : Option Nat := none
  deriving DecidableEq, Repr

/-! ### Near caches -/

/-- A line of the scalar cache (R195): `dirty` has a bit for each of its 128 bytes. -/
structure ScLine where
  data : Line
  dirty : Nat := 0
  /-- the line's number in the package, its attribute and its context -/
  pa : Nat := 0
  attr : Nat := 0
  ctx : Nat := 0
  age : Nat := 0
  deriving DecidableEq, Repr

/-- A line of the L1 or of the side buffer, with the order of its last use. -/
structure NcLine where
  data : Line
  /-- for the side buffer: the line's number in the package, its attribute and its context -/
  pa : Nat := 0
  attr : Nat := 0
  ctx : Nat := 0
  age : Nat := 0
  deriving DecidableEq, Repr

/-- The arrays in which a read finds errors, and what numbers their places: local memory by granule, memory by line on a read and on
a write, the near caches and the TLBs and walk caches by their line or page, the quadrant caches, directories and request tables by
line. -/
inductive Arr where
  | lm | mem | memWrite | l1 | scalar | icache | tlb | walk | qtag | qdata | dir | table
  deriving DecidableEq, Repr

/-- An array error that no read has found yet (R188): where it lies, and whether its code cannot correct it. -/
structure Upset where
  arr : Arr
  place : Nat
  hard : Bool
  deriving DecidableEq, Repr

/-- The near caches, numbered core × 2^50 + VA / 128. The instruction cache holds which lines it has: commands carry
their instruction (log 20). -/
structure Near where
  l1 : SMap NcLine := []
  sc : SMap ScLine := []
  side : SMap NcLine := []
  ic : SMap Nat := []
  deriving DecidableEq, Repr

/-! ### Accesses, messages, quadrant caches and homes -/

/-- Where one lane of a load takes its bytes: the lane, the offset in the line, the size in bytes, and the first
destination register, vector or scalar. -/
structure LaneRead where
  lane : Nat
  off : Nat
  size : Nat
  scalar : Bool
  dst : Nat
  deriving DecidableEq, Repr

/-- The operation an atomic request carries (R113, R277, R263). -/
inductive AtomOp where
  | add | min | max | and | or | xor | swap | cas
  | loadRsv | storeCond
  deriving DecidableEq, Repr

/-- One lane of an atomic: its offset in the line and its operands. -/
structure AtomLane where
  lane : Nat
  off : Nat
  b : Nat
  c : Nat
  deriving DecidableEq, Repr

/-- An atomic request: the operation, the element's TYPE (R96), and the lanes in ascending order; with `reduce`, a line
reduction whose ETYPE is `type` (R277, R328). -/
structure Atom where
  op : AtomOp
  type : Nat
  reduce : Bool := false
  lanes : List AtomLane := []
  /-- the group of a `ld.rsv` or `st.cond`: core × 32 + slot -/
  owner : Nat := 0
  deriving DecidableEq, Repr

/-- What a filled line goes to. -/
inductive Fill where
  | none | l1 | scalar | side
  deriving DecidableEq, Repr

/-- What an access does. -/
inductive AccKind where
  | load | store | atomic
  deriving DecidableEq, Repr

/-- An access of a group, to one line, that has passed its checks and is not finished (R110, R242); slot 32 is the
core's own: a write-back of scalar-cache bytes or a prefetch. -/
structure Access where
  id : Nat := 0
  /-- the number that the accesses of one instruction share -/
  ins : Nat := 0
  core : Nat
  slot : Nat
  ctx : Nat
  kind : AccKind
  /-- the line's number in the package, or its address / 128 in the stand or in host memory -/
  line : Nat
  /-- 0 own package, 1 another package, 2 host memory; 3 local memory, for an atomic with a release that waits for what it comes
  after, whose lanes' offsets are physical byte addresses (R244) -/
  target : Nat := 0
  attr : Nat := 0
  /-- data address of its first lane -/
  va : Nat := 0
  pc : Nat := 0
  lanes : Nat := 0
  reads : List LaneRead := []
  mask : Nat := 0
  data : Line := 0
  atom : Option Atom := Option.none
  /-- where a filled line goes; a scalar fill takes the bytes of `mask` from `data` as dirty bytes -/
  fill : Fill := .none
  /-- HINT 2: the line is not allocated in the quadrant cache (R109) -/
  noAlloc : Bool := false
  /-- a request is on its way, or an egress table entry holds it -/
  sent : Bool := false
  /-- it has been counted as a miss -/
  tried : Bool := false
  /-- the scopes of an acquire and of a release (R244, R245) -/
  acq : Option Nat := Option.none
  rel : Option Nat := Option.none
  /-- the generation of the group when it was issued (R360) -/
  gen : Nat := 0
  deriving DecidableEq, Repr

/-- The messages of the coherence protocol (R221). -/
inductive MsgKind where
  | getS | getM | readOnce | writeInvFull | writeInvPart | atomic
  | snpShared | snpInvFwd | snpOnce | snpInv | snpRecall
  | comp | compAck | retry | wbAck | snpAck | snpMiss | snpMissWbp | snpRspFwd | snpPoison
  | dataS | dataE | dataM | dataOnce | snpRspData | wbData | atomResult
  deriving DecidableEq, Repr

/-- The states of a line in a quadrant cache, stable and transient (R218, R224). -/
inductive LState where
  | m | o | e | s | is | im | sm | om | wb
  deriving DecidableEq, Repr

/-- A message in flight. -/
structure Msg where
  kind : MsgKind
  line : Nat
  /-- the quadrant that sent it or receives it -/
  quad : Nat
  /-- the stream identifier of a request (R222) -/
  stream : Nat := 0
  /-- the access an uncached request serves -/
  acc : Nat := 0
  /-- for a snoop: the quadrant to which an owner forwards, or the access of a ReadOnce -/
  fwd : Option Nat := none
  fwdAcc : Nat := 0
  data : Line := 0
  poison : Bool := false
  hw : Bool := false
  mask : Nat := 0
  atom : Option Atom := none
  part : Nat := 0
  /-- what SnpRspFwd says of the owner's new state; `none` is I -/
  state : Option LState := none
  /-- an error of the answer: 0, or the exception code the requester receives -/
  code : Nat := 0
  deriving DecidableEq, Repr

/-- A line of a quadrant cache (R211, R215). -/
structure QLine where
  st : LState
  data : Line := 0
  poison : Bool := false
  part : Nat := 0
  hw : Bool := false
  way : Nat := 0
  age : Nat := 0
  /-- what an open request has received: the state that data grants, and a Comp with whether forwarded data belongs to
  it -/
  got : Option LState := none
  comp : Option Bool := none
  deriving DecidableEq, Repr

/-- The kinds of a directory entry (R219). -/
inductive DirKind where
  | x | o | s
  deriving DecidableEq, Repr

/-- An entry of a home's directory: in coarse mode the sharers are compute dies (R219). -/
structure DirEntry where
  kind : DirKind
  owner : Nat := 0
  sharers : List Nat := []
  coarse : Bool := false
  busy : Bool := false
  /-- allocation order (R227) -/
  age : Nat := 0
  deriving DecidableEq, Repr

/-- An open transaction of a line at its home (R223, R225). -/
structure Txn where
  /-- the request; `none` for a recall without a requester -/
  req : Option Msg := none
  /-- quadrants whose answers are still due -/
  wait : List Nat := []
  /-- the owner's data has been sent on by the owner itself -/
  forwarded : Bool := false
  /-- the owner's data came back: the data and its poison -/
  back : Option (Line × Bool) := none
  /-- an owner in WB answered SnpMissWbp, and its WbData is due -/
  wbp : Bool := false
  /-- the owner's new state, from SnpRspFwd -/
  ownerState : Option LState := none
  /-- the owner had dropped the line -/
  missed : Bool := false
  /-- the answers are in and the requester's CompAck is due -/
  answered : Bool := false
  /-- the request waits behind the back-invalidation of this victim line (R227) -/
  victim : Option Nat := none
  deriving DecidableEq, Repr

/-- A reservation at its home: group (core × 32 + slot) and line, oldest first (R263, R265). -/
structure Rsv where
  group : Nat
  line : Nat
  deriving DecidableEq, Repr

/-- A flush that runs in a quadrant (R217): its MODE and PART, and the lines that were there when it began. -/
structure Flush where
  quad : Nat
  mode : Nat
  part : Nat
  lines : List Nat := []
  deriving DecidableEq, Repr

/-! ### Translation -/

/-- An entry of a TLB: of a micro-TLB (`unit` a Cluster ID) or a quadrant TLB (`unit` a Quadrant ID) (R306). -/
structure Tlb where
  quad : Bool
  unit : Nat
  ctx : Nat
  base : Nat
  size : Nat
  host : Bool := false
  rd : Bool := false
  wr : Bool := false
  at' : Bool := false
  attr : Nat := 0
  target : Nat := 0
  out : Nat := 0
  deriving DecidableEq, Repr

/-- An entry of a walk cache: level 5 is the context translation entry (R306). -/
structure WalkEnt where
  quad : Nat
  ctx : Nat
  level : Nat
  /-- the VA divided by what an entry of the level spans -/
  index : Nat
  word : Nat
  deriving DecidableEq, Repr

/-- A walk in progress (R307). -/
structure Walk where
  quad : Nat
  cluster : Nat
  ctx : Nat
  page : Nat
  /-- an invalidation overlapped it: what it has read is discarded and it reads again (R318) -/
  again : Bool := false
  deriving DecidableEq, Repr

/-- An ATS Translation Request or a Page Request outstanding (R310). -/
structure HostXlt where
  func : Nat
  pasid : Nat
  ctx : Nat
  page : Nat
  write : Bool
  cluster : Nat
  /-- 0 Translation Request; 1 Page Request; 2 Translation Request after a PRG Response of Success; 3 a request of the
  gateway's own that was denied -/
  phase : Nat := 0
  deriving DecidableEq, Repr

/-- An invalidation in progress (R312, R318): of the queue (`tag` none), or an ATS Invalidate Request with its tag. -/
structure Inv where
  seq : Nat := 0
  /-- 1 RANGE, 2 CONTEXT, 3 ALL, 4 SYNC -/
  op : Nat
  /-- the contexts it covers; empty for ALL -/
  ctxs : List Nat := []
  va : Nat := 0
  len : Nat := 0
  irq : Bool := false
  tag : Option (Nat × Nat) := none
  /-- accesses and chunks that passed their checks with a dropped entry: their numbers; queue pairs with such an access -/
  accs : List Nat := []
  chunks : List Nat := []
  pairs : List Nat := []
  /-- the near caches have acted: the write-backs that are still to be performed -/
  backs : Option (List Nat) := none
  deriving DecidableEq, Repr

/-! ### Matrix engines -/

/-- An entry of an engine's queue (R141), with the group slot that issued it. -/
inductive EngEntry where
  /-- the configuration word and the engines of the gang -/
  | cfg (slot word : Nat) (gang : List Nat)
  | zero (slot : Nat)
  | mma (slot abase wbase wstride wlen kch pc : Nat)
  | accWr (slot : Nat) (data : List W32)
  | accRd (slot dst : Nat)
  /-- a member's place in a `mx.mma` that its leader runs -/
  | member (slot leader : Nat)
  deriving DecidableEq, Repr

/-- A configuration of an engine: the word, the handle of its gang's leader, and the gang's size (R142). -/
structure GangCfg where
  word : Nat := 0
  leader : Nat
  size : Nat := 1
  deriving DecidableEq, Repr

/-- The operand data of a chunk as an engine has read it: the image of the activations, and of each member of the gang the
images of its weight blocks, each with the digits of its weights where the format is Grain, and the bytes of the panel
between which a Grain chunk lies (R136, R149). -/
structure Feed where
  act : Nat
  wgt : List (List (Nat × Nat))
  spans : List (Nat × Nat)
  deriving DecidableEq, Repr

/-- A matrix engine of a block (R128 to R154), numbered core × 16 + physical engine. -/
structure Eng where
  block : Nat
  handle : Nat
  /-- the configuration in effect, and the one after every queued `mx.cfg` (R144) -/
  act : GangCfg
  pend : GangCfg
  /-- accumulators by 16 × row + column; an unlisted accumulator is +0 -/
  acc : SMap W32 := []
  queue : List EngEntry := []
  /-- the entry at the front is being executed: a tile has started -/
  running : Bool := false
  /-- of a leader: the next chunk of the tile, and the cycles of the tile so far -/
  chunk : Nat := 0
  cycles : Nat := 0
  /-- of a leader: where the next chunk begins in each member's Grain panel (R136) -/
  pos : List Nat := []
  /-- of a leader in broadcast mode: the next chunk in the operand buffer (R133) -/
  buffer : Option Feed := none
  /-- cycles in which the fetch of the next tile's first chunk overlapped the last chunk (R133) -/
  ahead : Nat := 0
  /-- the tile leaves the accumulators unspecified; it read poison (R144, R150, R161) -/
  bad : Bool := false
  poison : Bool := false
  lastT : Nat := 0
  depthOvr : Bool := false
  grainOvr : Bool := false
  deriving DecidableEq, Repr

/-! ### Stream engines -/

/-- A transfer of a stream queue (R322, R328), or of an export (R367). -/
structure Xfer where
  desc : List Byte
  seq : Nat
  ctx : Nat
  core : Nat
  slot : Nat
  /-- index of the next chunk to issue, and the row and the byte of the row at which it begins -/
  next : Nat := 0
  row : Nat := 0
  pos : Nat := 0
  /-- the block-table entry read last: its number and its word (R337) -/
  entry : Option (Nat × Nat) := none
  /-- the error that ends the transfer: code, INDEX and data address -/
  err : Option (Nat × Nat × Nat) := none
  wait : Wait := .none
  misses : List Miss := []
  /-- the ring of a PREFETCH was found full (R335) -/
  full : Bool := false
  /-- an export's source is a physical address; its destination is 1 a stand address, 2 a host VA (R367) -/
  srcPa : Bool := false
  dstKind : Nat := 0
  deriving DecidableEq, Repr

/-- Where bytes of a chunk go when it completes. -/
inductive Dest where
  /-- local memory of a core: physical byte address -/
  | lm (addr : Nat)
  | pa (addr : Nat)
  | host (func pasid addr : Nat)
  | stand (addr : Nat)
  deriving DecidableEq, Repr

/-- A chunk in flight (R324). -/
structure Chunk where
  /-- queue: block × 2 + engine, or 2^20 + context for an export -/
  queue : Nat
  /-- cluster × 2 + engine that issued it -/
  engine : Nat
  index : Nat
  ctx : Nat
  /-- where it began: row and byte of the row; whether it ends its row (R335) -/
  row : Nat
  pos : Nat
  rowEnd : Bool := false
  /-- first global address -/
  va : Nat
  /-- the source bytes in order; `none` for a piece that is due from host memory or another package -/
  srcs : List (Option (List Byte)) := []
  dsts : List (Dest × Nat) := []
  /-- its puts have been sent; how many responses are due -/
  putting : Bool := false
  due : Nat := 0
  /-- its stream identifier (R323) -/
  stream : Nat := 0x40
  /-- the source pieces: bytes, and line requests to host memory or another package -/
  pieces : List (Nat × Nat) := []
  /-- source pieces that were read as poisoned, of a checked load (R280) -/
  bad : List Nat := []
  /-- destination pieces whose puts are outstanding -/
  puts : List Nat := []
  /-- 4-bit elements of a transposing copy (R329) -/
  nib : Bool := false
  /-- a checked load; a checked store (R331) -/
  chkS : Bool := false
  chkD : Bool := false
  /-- a checked load of Heartwood, which its own check arrays verify (R293) -/
  heart : Bool := false
  /-- of a checked chunk: its first block, the source bytes that it reads before its own, its own bytes, and all but check values -/
  first : Nat := 0
  lead : Nat := 0
  len : Nat := 0
  cover : Nat := 0
  /-- how many of the last destination pieces are check values, and whether those to another package have been sent (R331) -/
  checks : Nat := 0
  checked : Bool := false
  red : Nat := 0
  etype : Nat := 0
  err : Option Nat := none
  remote : Bool := false
  /-- the entry of a block table that these 8 bytes are read for (R337) -/
  table : Option Nat := none
  /-- an export's chunk that is tried once more (R368) -/
  retried : Bool := false
  deriving DecidableEq, Repr

/-- A stream queue of a block (R322, R327). -/
structure SteQ where
  /-- sequence of the latest transfer queued -/
  seq : Nat := 0
  xfers : List Xfer := []
  /-- statuses of the most recent completed transfers, newest first, at most 16 -/
  held : List (Nat × W64) := []
  deriving DecidableEq, Repr

/-! ### Canopy -/

/-- The states of a context (R347), numbered as in `CNP_CTX_STATE`. -/
inductive CtxState where
  | free | idle | queued | running | stopping | saved | restoring | faulted | pruning | exported | killed
  deriving DecidableEq, Repr

/-- A launched kernel (R81, R353). -/
structure Kernel where
  number : Nat
  qp : Nat
  cid : Nat
  desc : Nat
  entry : Nat
  gridX : Nat
  gridY : Nat
  gridZ : Nat
  groups : Nat
  cluster : Nat
  vunits : Nat
  lmUnits : Nat
  engines : Nat
  timed : Bool
  args : Nat
  wcet : Nat
  startSlot : Nat := 0
  deadline : Nat := 0
  /-- the next block cluster to place -/
  next : Nat := 0
  late : Bool := false
  deriving DecidableEq, Repr

/-- The final or periodic counters of a context (R370). -/
structure Acct where
  coreU : Nat := 0
  engineU : Nat := 0
  hbm : Nat := 0
  outer : Nat := 0
  griga : Nat := 0
  pcie : Nat := 0
  energy : Nat := 0
  saves : Nat := 0
  forced : Nat := 0
  dropped : Nat := 0
  late : Nat := 0
  deriving DecidableEq, Repr

/-- What a saved group holds that its record has no place for: deferred exceptions, an exception held under TRAPFAULT, and
what halted it. -/
structure Kept where
  deferred : List Deferred := []
  trapped : Option FaultRec := none
  cause : Nat := 0
  deriving DecidableEq, Repr

/-- What a saved transfer holds that its record has no place for: the group slot that issued it, and where its next chunk begins. -/
structure KeptXfer where
  slot : Nat
  row : Nat
  pos : Nat
  deriving DecidableEq, Repr

/-- A registered context (R345, R347). -/
structure Ctx where
  state : CtxState := .idle
  cls : Nat := 0
  service : Bool := false
  noremote : Bool := false
  partition : Nat := 0
  grace : Nat := 50
  minSlots : Nat := 0
  saveClusters : Nat := 1
  saveBase : Nat := 0
  suspended : Bool := false
  /-- the stop is for PRUNE (R347) -/
  pruning : Bool := false
  deadline : Nat := 0
  exportList : List (List Byte) := []
  /-- the fault ring (R387): size, base, control block, vector, message enable -/
  ringSize : Nat := 6
  ringBase : Nat := 0
  ringCtrl : Nat := 0
  vector : Nat := 0
  irqEn : Bool := false
  written : Nat := 0
  /-- the writer's own copy of CONSUMED (R389) -/
  consumed : Nat := 0
  /-- a record was not written, and none is from then on (R389) -/
  ringLost : Bool := false
  launches : List Kernel := []
  acct : Acct := {}
  /-- save slots that hold a saved cluster, waiting for a cluster -/
  slots : List Nat := []
  /-- final records that wait for ring space, by their END (R373) -/
  finalWait : List Nat := []
  ended : Nat := 0
  /-- UNREGISTER waits for that record (R373) -/
  leaving : Bool := false
  /-- the context translation entry in effect since it was registered or invalidated, both words; `none` until it is read (R299) -/
  ctt : Option Nat := none
  /-- it held a core since the last periodic record (R372) -/
  held : Bool := false
  /-- what saved groups hold beside their records: (save slot × 8 + core record) × 32 + group slot -/
  kept : List (Nat × Kept) := []
  /-- what saved transfers hold beside theirs: ((save slot × 8 + core record) × 32 + stream queue) × 2^32 + sequence number -/
  keptXfers : List (Nat × KeptXfer) := []
  deriving DecidableEq, Repr

/-- A resident block cluster (R71). -/
structure BClus where
  ctx : Nat
  kernel : Nat
  number : Nat
  cluster : Nat
  desc : Nat
  args : Nat := 0
  size : Nat
  grid : Nat × Nat × Nat
  /-- its blocks by rank: core and block slot -/
  blocks : List (Nat × Nat)
  /-- it was placed or restored, and no group issues before the restore has ended -/
  restoring : Bool := false
  /-- the local-memory units that a completed block still holds, by rank (R78) -/
  held : SMap (List Nat) := []
  deriving DecidableEq, Repr

/-- The states of a hardware cluster (R374). -/
inductive ClState where
  | idle | running | stopping | saving | restoring | cleaning | retired
  deriving DecidableEq, Repr

/-- A hardware cluster (R340, R374). -/
structure Clus where
  state : ClState := .idle
  ctx : Nat := 0
  holder : Option Nat := none
  /-- save slot of the context for this cluster (R364) -/
  slot : Nat := 0
  /-- the grace interval of a pre-emption ends at this disciplined count, in ns (R49, R357) -/
  grace : Option Nat := none
  /-- slot number of its last placement (R352) -/
  placed : Nat := 0
  /-- a block cluster has been saved to its slot since it was taken -/
  saved : Bool := false
  deriving DecidableEq, Repr

/-- The part of the machine that computes: cores, caches, homes, translation, engines, Canopy. -/
structure Compute where
  cores : SMap CoreSt := []
  /-- resident groups, numbered core × 32 + slot -/
  groups : SMap Grp := []
  /-- scalar registers, numbered group × 64 + n -/
  sregs : SMap W64 := []
  /-- vector registers, numbered (group × 256 + n) × 32 + lane -/
  vregs : SMap W32 := []
  /-- predicates, numbered group × 16 + n -/
  preds : SMap W32 := []
  /-- blocks, numbered core × 16 + block slot -/
  blocks : SMap Blk := []
  bclus : SMap BClus := []
  /-- local memory, numbered core × 2^20 + physical unit × 2^15 + byte -/
  lm : SMap Byte := []
  /-- local-memory units with unspecified contents: core × 32 + unit ↦ fill number (R74) -/
  lmSeed : SMap Nat := []
  /-- poisoned granules, numbered core × 2^16 + granule (R188) -/
  lmPoison : List Nat := []
  near : Near := {}
  /-- array errors that no read has found yet (log 85) -/
  upsets : List Upset := []
  /-- orders of use and of allocation -/
  stamp : Nat := 0
  accs : List Access := []
  accNo : Nat := 0
  net : List Msg := []
  /-- quadrant caches, numbered quadrant × 2^39 + line -/
  qlines : SMap QLine := []
  /-- quadrants that a tag failure stopped (R233) -/
  qdead : List Nat := []
  /-- directory entries and open transactions by line -/
  dir : SMap DirEntry := []
  txns : SMap Txn := []
  /-- requests in the retry FIFOs, oldest first (R228) -/
  parked : List Msg := []
  /-- directory sets (home × 2^18 + set) that are being recalled (R233) -/
  recalls : List Nat := []
  rsvs : List Rsv := []
  /-- regions in the quarantine filter (R489) -/
  qfilter : List Nat := []
  /-- blocks held in the verify buffer of each home, newest first: PA / 2,048, and the copy whose bytes it holds (R293) -/
  verified : SMap (List (Nat × Nat)) := []
  /-- bytes served in this slot, numbered (stack or 32 + port) × 1,024 + partition (R287) -/
  served : SMap Nat := []
  /-- an interval read of `HOM_MAP` left a group's contents indeterminate: group ↦ fill number (R276) -/
  indet : SMap Nat := []
  /-- memory of the package: rising addresses, no byte equal to what an unlisted address reads as -/
  mem : List Host.Cell := []
  /-- poisoned lines of memory (R272) -/
  poison : List Nat := []
  tlbs : List Tlb := []
  wcache : List WalkEnt := []
  walks : List Walk := []
  hostXlt : List HostXlt := []
  /-- functions whose Page Requests ended in Response Failure (R311) -/
  priFailed : List Nat := []
  invs : List Inv := []
  /-- descriptors consumed since reset (R316) -/
  invNo : Nat := 0
  /-- low halves of `XLT_RESUME` that requesters wrote (R314) -/
  resumeLow : List (Requester × W32) := []
  engs : SMap Eng := []
  steqs : SMap SteQ := []
  chunks : SMap Chunk := []
  /-- the queue each stream engine served last -/
  rotation : SMap Nat := []
  /-- the context of the chunk that each stream engine issued last (R339) -/
  steLast : SMap Nat := []
  ctxs : SMap Ctx := []
  clus : SMap Clus := []
  launchNo : Nat := 0
  /-- flushes that run -/
  flushing : List Flush := []
  /-- energy calibrated since reset (R371) -/
  calibrated : Bool := false
  acctSeq : Nat := 0
  /-- worst-case end, in Ring ns, of each partition's last admitted Guaranteed kernel (R355) -/
  guarEnds : SMap Nat := []
  deriving DecidableEq, Repr


/-- The whole machine. -/
structure State where
  /-- the commands that wait, the front first -/
  pending : List Instr := []
  /-- the model's own count of free values taken (log 1) -/
  free : Nat := 0
  /-- clock cycles since package reset (R119) -/
  cycles : Nat := 0
  /-- what has left the package, newest first -/
  out : List Out := []
  /-- the register file: register number × 2^20 + instance; an unlisted register holds its reset word -/
  regs : SMap W64 := []
  /-- shadow copies that differ in standing from the active copy (R27); an unlisted shadow equals the active copy -/
  shadow : SMap W64 := []
  /-- snapshots of accepted commits, by commit register (R28) -/
  snaps : SMap (List (Nat × W64)) := []
  ring : Ring := {}
  evc : Evc := {}
  host : HostIf := {}
  grg : Griga := {}
  pwr : Power := {}
  tap : Taproot := {}
  health : Health := {}
  duty : Duty := {}
  jtag : Jtag := {}
  halts : List Halt := []
  cmp : Compute := {}
  deriving DecidableEq, Repr

/-- The machine right after reset: the moment T0 at which the package leaves reset after power-on (R437, R447), every
register at its reset word and everything else empty. -/
def State.reset : State := {}

end Sys2Proof.Machine
end

