-- ==== Sys2Proof/Machine/Ops.lean ====
section
/-! DEFINITION. The shared operations: free values, the register file, Ring time as the blocks read it, event sources
and their delivery, device fault queues, logs. -/

namespace Sys2Proof.Machine

/-- What a command answers. -/
abbrev Res := Host.Outcome State Fault Refusal

/-- An event that cannot come about here. -/
def stop : Res := .refused .notEnabled

/-- Answers `r` where `c` holds; the event cannot come about otherwise. -/
def need (c : Bool) (r : Res) : Res := if c then r else stop

/-- The bits `[lo + w - 1 : lo]` of a number. -/
def bits (n lo w : Nat) : Nat := n / 2 ^ lo % 2 ^ w

/-- `n` with its bits `[lo + w - 1 : lo]` replaced by those of `v`. -/
def setBits (n lo w v : Nat) : Nat :=
  n / 2 ^ (lo + w) * 2 ^ (lo + w) + v % 2 ^ w * 2 ^ lo + n % 2 ^ lo

/-- Bit `i` of a number. -/
def bit (n i : Nat) : Bool := n.testBit i

/-- 0 or 1. -/
def nb (b : Bool) : Nat := if b then 1 else 0

/-- A signed reading of the low `w` bits. -/
def sgn (w n : Nat) : Int :=
  let m := n % 2 ^ w
  if 2 ^ (w - 1) ≤ m then (m : Int) - 2 ^ w else m

/-- The two's complement of an integer in `w` bits. -/
def unsgn (w : Nat) (i : Int) : Nat := (i % (2 ^ w : Nat)).toNat

/-- The little-endian bytes of a number (R91, R136, R300). -/
def toBytes (n w : Nat) : List Byte :=
  (List.range w).map (fun i => BitVec.ofNat 8 (n / 2 ^ (8 * i)))

/-- The number that bytes spell, little-endian. -/
def ofBytes (l : List Byte) : Nat := l.foldr (fun b n => b.toNat + 256 * n) 0

/-! ### Identity keys (R472 to R474) -/

/-- The bytes of a SHA-384 digest. -/
def measBytes (m : BitVec 384) : List Byte := toBytes m.toNat 48

/-- SHA-384 of a byte string, as bytes. -/
def sha384Bytes (m : List Byte) : List Byte := measBytes (Config.sha384 m)

/-- HMAC-SHA-384 (RFC 2104), for keys of at most the block size of 128 bytes. -/
def hmacSha384 (key m : List Byte) : List Byte :=
  let block := key ++ List.replicate (128 - key.length) 0
  sha384Bytes (block.map (· ^^^ 0x5C) ++ sha384Bytes (block.map (· ^^^ 0x36) ++ m))

/-- HKDF-SHA-384 without a salt, of at most 48 bytes of output (RFC 5869): 32 bytes from key material and an info text. -/
def hkdfSeed (material info : List Byte) : List Byte :=
  (hmacSha384 (hmacSha384 (List.replicate 48 0) material) (info ++ [1])).take 32

/-- The bytes of an ASCII text. -/
def asciiBytes (t : String) : List Byte := t.toList.map (fun c => BitVec.ofNat 8 c.toNat)

/-- The seeds of the two device identity keys, from the device secret (R472). -/
def deviceSeedsOf (secret : BitVec 256) : List Byte × List Byte :=
  let material := toBytes secret.toNat 32
  (hkdfSeed material (asciiBytes "fj64 device ed25519"), hkdfSeed material (asciiBytes "fj64 device mldsa65"))

/-- The seeds of the two alias keys of a firmware measurement and SVN, from the device seeds (R473). -/
def aliasSeedsOf (device : List Byte × List Byte) (meas : BitVec 384) (svn : Nat) : List Byte × List Byte :=
  (hkdfSeed device.1 (Config.aliasInfo 0 meas svn), hkdfSeed device.2 (Config.aliasInfo 1 meas svn))

/-- The serial number: bytes 0 to 7 of SHA-384 over the Ed25519 device identity public key (R474). -/
def deviceSerial : W64 :=
  BitVec.ofNat 64 (ofBytes ((sha384Bytes (Config.ed25519Public (deviceSeedsOf Config.deviceSecret).1)).take 8))

/-- The first element that satisfies `p`, and the list without it. -/
def takeFirst {α : Type} (p : α → Bool) (l : List α) : Option (α × List α) :=
  match l with
  | [] => none
  | a :: r => if p a then some (a, r) else (takeFirst p r).map (fun q => (q.1, a :: q.2))

/-! ### Free values -/

/-- The next free value of `w` bits, and the state with it taken (log 1). -/
def State.take (w : Nat) (s : State) : BitVec w × State :=
  (Config.freeBits w s.free, { s with free := s.free + 1 })

/-- The next choice among `n` alternatives, and the state with it taken (log 1). -/
def State.pick (n : Nat) (s : State) : Nat × State :=
  (Config.choice s.free % (max n 1), { s with free := s.free + 1 })

/-- The array of a number (log 85). -/
def arrOf (n : Nat) : Arr :=
  match n with
  | 0 => .lm
  | 1 => .mem
  | 2 => .memWrite
  | 3 => .l1
  | 4 => .scalar
  | 5 => .icache
  | 6 => .tlb
  | 7 => .walk
  | 8 => .qtag
  | 9 => .qdata
  | 10 => .dir
  | _ => .table

/-- An array error may come about while time passes: a free value (log 85). -/
def State.strike (s : State) : State :=
  { s with
    free := s.free + 1
    cmp := { s.cmp with
      upsets := ((Config.upset s.free).map (fun u => (⟨arrOf u.1, u.2.1, u.2.2⟩ : Upset))).toList ++ s.cmp.upsets } }

/-- The errors of an array that lie in places where `p` holds. -/
def State.upsetsAt (s : State) (a : Arr) (p : Nat → Bool) : List Upset :=
  s.cmp.upsets.filter (fun u => u.arr == a && p u.place)

/-- Whether an array has an error in a place. -/
def State.struck (s : State) (a : Arr) (place : Nat) : Bool := !(s.upsetsAt a (fun k => k == place)).isEmpty

/-- Errors that a read has found are no longer latent. -/
def State.foundUpset (s : State) (a : Arr) (p : Nat → Bool) : State :=
  { s with cmp := { s.cmp with upsets := s.cmp.upsets.filter (fun u => !(u.arr == a && p u.place)) } }

/-- Sends a message out of the package. -/
def State.emit (o : Out) (s : State) : State := { s with out := o :: s.out }

/-! ### The register file -/

/-- The number of one instance of a register. -/
def Reg.key (r : Reg) (i : Nat) : Nat := r.code * 2 ^ 20 + i

/-- The reset word of one instance of a register: the word of its description, with the words the spec gives by
instance (`EVC_ROUTE`, R392; `TAP_SERIAL`, R474; `TAP_LOG_STATUS` and the fused registers follow other state). -/
def Reg.resetWord (r : Reg) (i : Nat) : W64 :=
  match r with
  | .EVC_ROUTE =>
    let die := i / 1024
    let src := i % 1024
    if src < 64 then 0x20000000
    else if src < 128 ∧ (die = 80 ∨ die = 82) then 0x20080000
    else if src = 1008 then 0x40000000
    else 0
  | .TAP_SERIAL => deviceSerial
  | _ => BitVec.ofNat 64 r.spec.reset

/-- The active copy of a register. -/
def State.reg (s : State) (r : Reg) (i : Nat) : W64 := SMap.get s.regs (r.resetWord i) (r.key i)

/-- Writes the active copy of a register as the hardware does. -/
def State.setReg (s : State) (r : Reg) (i : Nat) (v : W64) : State :=
  { s with regs := SMap.set s.regs (r.resetWord i) (r.key i) v }

/-- A field of a register. -/
def State.fget (s : State) (f : Fld) (i : Nat := 0) : Nat := bits (s.reg f.reg i).toNat f.lo f.width

/-- A one-bit field of a register. -/
def State.flag (s : State) (f : Fld) (i : Nat := 0) : Bool := s.fget f i != 0

/-- Writes a field of a register as the hardware does. -/
def State.fset (s : State) (f : Fld) (n : Nat) (i : Nat := 0) : State :=
  s.setReg f.reg i (BitVec.ofNat 64 (setBits (s.reg f.reg i).toNat f.lo f.width n))

/-- Adds to a field that saturates at its highest value. -/
def State.fsat (s : State) (f : Fld) (n : Nat) (i : Nat := 0) : State :=
  s.fset f (min (2 ^ f.width - 1) (s.fget f i + n)) i

/-- Adds to a field that wraps. -/
def State.fadd (s : State) (f : Fld) (n : Nat) (i : Nat := 0) : State := s.fset f (s.fget f i + n) i

/-- Returns every instance of the registers that `p` holds of to its reset word, in both copies (R7, R32). -/
def State.resetRegs (s : State) (p : Reg → Nat → Bool) : State :=
  let hit := fun k => Reg.list.any (fun r => r.code == k / 2 ^ 20 && p r (k % 2 ^ 20))
  { s with
    regs := SMap.keep s.regs (fun k _ => !hit k)
    shadow := SMap.keep s.shadow (fun k _ => !hit k)
    snaps := SMap.keep s.snaps (fun k _ => !hit k) }

/-! ### Ring time as the blocks read it -/

/-- Units of the time base in a nanosecond. -/
def nsUnits : Nat := 110000

/-- Ring time in ns, 64 bits (R35, R53). One count stands for the copies of all dies, which R45 lets differ by ±5 ns: the
model's choice (log 72). -/
def State.now (s : State) : Nat := s.ring.ringU / nsUnits % 2 ^ 64

/-- The local count in ns (R42). -/
def State.localNs (s : State) : Nat := s.ring.localU / nsUnits

/-- The U flag of a time-stamp: Unlocked or in Holdover (R51). -/
def State.uFlag (s : State) : Bool := s.fget F.TB_STATUS_STATE != 1

/-- The current slot number (R46). -/
def State.slotNo (s : State) : Nat := s.now / 250000

/-! ### Functions and MSI-X -/

/-- The configuration of a function. -/
def State.func (s : State) (f : Nat) : Func := SMap.get s.host.funcs {} f

/-- Replaces the configuration of a function. -/
def State.setFunc (s : State) (f : Nat) (v : Func) : State :=
  { s with host := { s.host with funcs := SMap.set s.host.funcs {} f v } }

/-- Whether a function exists: the PF, and the VFs that SR-IOV enables (R397). -/
def State.funcExists (s : State) (f : Nat) : Bool :=
  f == 0 || (s.host.vfEnable && decide (f ≤ s.host.numVfs))

/-- The MSI-X vectors of a function (R383). -/
def vectorCount (f : Nat) : Nat := if f = 0 then 2048 else 64

/-- An entry of a function's MSI-X table. -/
def State.msixVec (s : State) (f v : Nat) : MsixVec := SMap.get s.host.msix {} (f * 2048 + v)

/-- Replaces an entry of a function's MSI-X table. -/
def State.setMsixVec (s : State) (f v : Nat) (e : MsixVec) : State :=
  { s with host := { s.host with msix := SMap.set s.host.msix {} (f * 2048 + v) e } }

/-- Whether a message for a function and vector is taken by the gateway (R382). -/
def State.msixTaken (s : State) (f v : Nat) : Bool :=
  s.funcExists f && !(s.func f).inFlr && (s.func f).msixEnable && decide (v < vectorCount f)

/-- The gateway takes one MSI-X message: a masked vector holds it as pending (R382). -/
def State.msixSend (s : State) (f v : Nat) : State :=
  if s.msixTaken f v then
    let e := s.msixVec f v
    if (s.func f).functionMask || e.masked then s.setMsixVec f v { e with pending := true }
    else s.emit (.msix f v e.addr e.data)
  else s

/-- Sends the messages that masked vectors held, once they are unmasked (R382). -/
def State.msixRelease (s : State) (f v : Nat) : State :=
  let e := s.msixVec f v
  if e.pending && !e.masked && !(s.func f).functionMask && (s.func f).msixEnable then
    (s.setMsixVec f v { e with pending := false }).emit (.msix f v e.addr e.data)
  else s

/-! ### Event sources -/

/-- The number of a source in the event registers. -/
def srcKey (die src : Nat) : Nat := die * 1024 + src

/-- The number of a source's 32-bit word in the event registers. -/
def srcWord (die src : Nat) : Nat := die * 32 + src / 32

/-- Whether a source is pending. -/
def State.srcPending (s : State) (die src : Nat) : Bool :=
  bit (s.fget F.EVC_PEND_PEND (srcWord die src)) (src % 32)

/-- Whether a source is active: pending and not masked (R375). -/
def State.srcActive (s : State) (die src : Nat) : Bool :=
  s.srcPending die src && !bit (s.fget F.EVC_MASK_MASK (srcWord die src)) (src % 32)

/-- Sets or clears a pending bit. -/
def State.setPend (s : State) (die src : Nat) (b : Bool) : State :=
  s.fset F.EVC_PEND_PEND (setBits (s.fget F.EVC_PEND_PEND (srcWord die src)) (src % 32) 1 (nb b)) (srcWord die src)

/-- Delivers an active source that is routed to the host: one message, the pending bit clears, and a message that the
gateway does not take sets DROPPED (R382). -/
def State.evcDeliver (s : State) (die src : Nat) : State :=
  if s.srcActive die src ∧ s.fget F.EVC_ROUTE_TARGET (srcKey die src) = 2 then
    let f := s.fget F.EVC_ROUTE_FUNC (srcKey die src)
    let v := s.fget F.EVC_ROUTE_VECTOR (srcKey die src)
    let s1 := s.setPend die src false
    if s1.msixTaken f v then s1.msixSend f v
    else s1.fset F.EVC_ROUTE_DROPPED 1 (srcKey die src)
  else s

/-- Counts one event of a source (R378); `async` where an asynchronous latch brought it (R384). -/
def State.evcCount (s : State) (die src : Nat) (async : Bool) : State :=
  ((s.fadd F.EVC_RAW_EDGES 1 (srcKey die src)).fset F.EVC_RAW_ASYNC (nb async) (srcKey die src)).fadd
    F.EVC_SETCNT_COUNT 1 (srcWord die src)

/-- An event of an edge source: the pending bit is set, the counts rise, and the source is delivered (R378, R382).
A die that is Off catches nothing; one whose control clock is stopped latches the edge (R384). -/
def State.event (s : State) (die src : Nat) : State :=
  if s.pwr.diesOff.contains die then s
  else if s.evc.stopped.contains die then
    if s.evc.latched.contains (srcKey die src) then s
    else { s with evc := { s.evc with latched := s.evc.latched ++ [srcKey die src] } }
  else ((s.evcCount die src false).setPend die src true).evcDeliver die src

/-- Edge die 0. -/
def edge0 : Nat := 80

/-- Edge die 2. -/
def edge2 : Nat := 82

/-- The device fault queue of a die is not empty. -/
def State.dfqHeld (s : State) (die : Nat) : Nat :=
  (s.fget F.EVC_DFQ_TAIL_TAIL die + 65536 - s.fget F.EVC_DFQ_HEAD_HEAD die) % 65536

/-- The level source 1,008 follows the condition of the device fault queue: its pending bit is set while the
condition holds and a rise counts (R377, R378). -/
def State.levelSource (s : State) (die : Nat) : State :=
  let on := s.dfqHeld die != 0
  let was := s.flag F.EVC_RAW_LEVEL (srcKey die 1008)
  let s1 := s.fset F.EVC_RAW_LEVEL (nb on) (srcKey die 1008)
  if on then
    let s2 := if was then s1 else s1.evcCount die 1008 false
    (s2.setPend die 1008 true).evcDeliver die 1008
  else s1

/-- A latched edge event of a die takes effect, asynchronously: `k` is die × 1,024 + source (R384). -/
def State.catchUp (die : Nat) (s : State) (k : Nat) : State :=
  ((s.evcCount die (k % 1024) true).setPend die (k % 1024) true).evcDeliver die (k % 1024)

/-- The control clock of a die restarts: every latched edge transfers as a single set whose count shows ASYNC (R384). -/
def State.restartClock (s : State) (die : Nat) : State :=
  let mine := s.evc.latched.filter (fun k => k / 1024 == die)
  let s1 := { s with evc := { s.evc with
    stopped := s.evc.stopped.filter (fun d => d != die)
    latched := s.evc.latched.filter (fun k => k / 1024 != die) } }
  mine.foldl (State.catchUp die) s1

/-! ### Logs -/

/-- The number of Taproot's journal entry for a change of its persistent state goes up (R452). -/
def State.journal (s : State) : State :=
  { s with tap := { s.tap with journalSent := s.tap.journalSent + 1 } }

/-- The time the flash log's limit of one record per source and 10 s is measured on: the local count while Unlocked
(R460). -/
def State.logTime (s : State) : Nat := if s.fget F.TB_STATUS_STATE = 0 then s.localNs else s.now

/-- Offers a record to the flash log (R460): at most one record per source per 10 s; the oldest block of 512 records
is lost when the writer reaches a new erase block of a full log. -/
def State.flashRecord (s : State) (r : LogRec) : State :=
  let src := r.die * 4096 + r.kind
  let last := SMap.find s.tap.accepted src
  let due := match last with
    | none => true
    | some (t, _) => decide (t + 10000000000 ≤ s.logTime)
  if due then
    let sup := (last.map (·.2)).getD 0
    let r' := { r with seq := s.tap.flashNext % 2 ^ 32, suppressed := min 65535 sup }
    let old := s.tap.flashLog
    let held := if s.tap.flashNext % 512 = 0 ∧ 65536 ≤ old.length then old.drop 512 else old
    { s with tap := { s.tap with
        flashLog := held ++ [r']
        flashNext := s.tap.flashNext + 1
        accepted := SMap.put s.tap.accepted src (s.logTime, 0) } }
  else
    { s with tap := { s.tap with
        accepted := SMap.upd s.tap.accepted src (fun e => (e.1, e.2 + 1)) } }

/-- Taproot writes a log record: into the SRAM log, where the oldest undrained record is overwritten when it is full,
and, from SEVERITY 3 on, offered to the flash log (R458 to R460). Nothing is logged while no Taproot runs. -/
def State.logRecord (s : State) (severity die kind : Nat) (fault : Option FaultRec := none) : State :=
  if ¬ s.flag F.TAP_READY_TAPROOT then s else
  let r : LogRec :=
    { seq := s.tap.logNext, time := s.now, u := s.uFlag, severity := severity, die := die, kind := kind,
      fault := fault }
  let full := decide (131072 ≤ s.tap.log.length)
  let log := (if full then s.tap.log.drop 1 else s.tap.log) ++ [r]
  let s1 := { s with tap := { s.tap with
    log := log
    logNext := s.tap.logNext + 1
    overwritten := s.tap.overwritten + nb full
    overSinceRead := s.tap.overSinceRead || full } }
  let s2 := s1.journal
  let s3 := if log.length = 98304 ∧ ¬ full then s2.event edge0 549 else s2
  let s4 := if full ∧ ¬ s.tap.overSinceRead then s3.event edge0 550 else s3
  if 3 ≤ severity then s4.flashRecord r else s4

/-- What Taproot logs beside fault records (R459). The spec gives these records no KIND and, but for some, no
SEVERITY: both are free values (log 13). -/
inductive LogEvent where
  | ready | takeover | firmware | fuse | repair | retirement | mapout | capacity | health | clamp | lastStop | edgeLoss
  deriving DecidableEq, Repr

/-- The number of a logged event, for its free KIND and SEVERITY. -/
def LogEvent.number (e : LogEvent) : Nat := 0x100 + e.ctorIdx

/-- Logs an event with the severity the spec gives, or a free one. -/
def State.logEvent (s : State) (e : LogEvent) (die : Nat) (severity : Option Nat := none) : State :=
  s.logRecord (severity.getD (Config.severity e.number % 5)) die (0x100 + Config.logKind e.number % 0xF00)

/-! ### Correctable errors -/

/-- A correctable error of a block with a saturating count (R187, R233, R272). -/
def State.ceCount (s : State) (cnt sat : Fld) (i : Nat) : State :=
  let n := s.fget cnt i
  if n = 65535 then s.fset sat 1 i
  else
    let s1 := s.fset cnt (n + 1) i
    if n + 1 = 65535 then s1.fset sat 1 i else s1

/-- A correctable error that is counted, with the event of the block's error source at the first count and at
saturation (R187, R503). -/
def State.ceEvent (s : State) (cnt sat : Fld) (i die src : Nat) : State :=
  let old := s.fget cnt i
  let s1 := s.ceCount cnt sat i
  if old = 0 ∨ old = 65534 then s1.event die src else s1

/-! ### Device fault queues -/

/-- The device fault queue of a die takes a record (R391): below 255 occupied slots it is written; at 255 it is counted, and one
summary record takes the last slot; at 256 it is only counted. Taproot logs every record it reads from the queue (R459). -/
def State.dfqTake (s : State) (die : Nat) (r : FaultRec) : State :=
  let n := s.dfqHeld die
  let tail := s.fget F.EVC_DFQ_TAIL_TAIL die
  let stamp := fun (q : FaultRec) => { q with seq := tail, time := s.now, u := s.uFlag, die := die }
  let put := fun (s : State) (q : FaultRec) =>
    ({ s with evc := { s.evc with dfq := SMap.put s.evc.dfq (die * 256 + tail % 256) (stamp q) } }).fset
      F.EVC_DFQ_TAIL_TAIL (tail + 1) die
  let count := fun (s : State) =>
    if 0x10 ≤ r.cls ∧ r.cls ≤ 0x17 then s.fsat F.EVC_DFQ_OVF_COUNT 1 (die * 8 + (r.cls - 0x10)) else s
  if s.pwr.diesOff.contains die then s
  else if n < 255 then
    let s1 := (put s r).levelSource die
    s1.logRecord (Config.severity r.cls % 5) die r.cls (some (stamp r))
  else if n = 255 then
    let s1 := count s
    if s.flag F.EVC_DFQ_TAIL_SUMMARY die then s1
    else
      (((put s1 { cls := 0x1F, code := r.cls }).fset F.EVC_DFQ_TAIL_SUMMARY 1 die).levelSource die).event die 1009
  else count s

/-- A record arrives at the device fault queue of a die; it restarts a stopped clock (R384). -/
def State.dfqWrite (s : State) (die : Nat) (r : FaultRec) : State :=
  (if s.evc.stopped.contains die then s.restartClock die else s).dfqTake die r

/-- The requester number of a REACH record (R386). -/
def requesterNumber (q : Requester) : Nat :=
  match q with
  | .pf => 0
  | .vf n => n.val
  | .steward d => 256 + d.val
  | .taproot => 1024

/-- An access outside a register's reach: a REACH record goes to the owning die (R8, R386). -/
def State.reachRecord (s : State) (die : Nat) (who : Requester) (addr : Nat) (write : Bool) : State :=
  s.dfqWrite die { cls := 0x10, addr := addr, info0 := requesterNumber who, info1 := nb write }

end Sys2Proof.Machine
end

