-- ==== Sys2Proof/Machine/BoundaryScan.lean ====
section
/-! DEFINITION. The test access port (R528, R529). -/

namespace Sys2Proof.Machine

/-- Loads an instruction into the port and shifts out what its data register captures. -/
def State.jtagLoad (s : State) (i : JtagInstr) (captured : List Bool) : State :=
  ({ s with jtag := { s.jtag with ir := i } }).emit (.tdo captured)

/-- BYPASS selects the one-bit bypass register, which captures 0. -/
def State.jtagBypassLoad (s : State) : State := s.jtagLoad .bypass [false]

/-- An instruction that takes the lands under test takes effect only while PERST_N is asserted, and otherwise acts as
BYPASS (R529). -/
def State.jtagTest (s : State) (i : JtagInstr) (captured : List Bool) : State :=
  if s.pwr.perst then s.jtagLoad i captured else s.jtagBypassLoad

/-- The IDCODE of the package, lowest bit first (R529). -/
def idcodeBits : List Bool := (List.range 32).map (fun i => (0x16400E77 : W32).getLsbD i)

/-- BYPASS (R528). -/
def execJtagBypass (s : State) : Res := .next s.jtagBypassLoad

/-- IDCODE (R529). -/
def execJtagIdcode (s : State) : Res := .next (s.jtagLoad .idcode idcodeBits)

/-- SAMPLE/PRELOAD captures the lands as they function and loads the boundary register (R528). -/
def execJtagSamplePreload (pins : List Bool) (preload : List Bool) (s : State) : Res :=
  .next (({ s with jtag := { s.jtag with preload := preload } }).jtagLoad .samplePreload pins)

/-- EXTEST drives the lands from the boundary register (R529). -/
def execJtagExtest (s : State) : Res := .next (s.jtagTest .extest s.jtag.preload)

/-- EXTEST_PULSE, for the AC-coupled PCIe and Griga lanes (R528). -/
def execJtagExtestPulse (s : State) : Res := .next (s.jtagTest .extestPulse s.jtag.preload)

/-- EXTEST_TRAIN, for the AC-coupled PCIe and Griga lanes (R528). -/
def execJtagExtestTrain (s : State) : Res := .next (s.jtagTest .extestTrain s.jtag.preload)

/-- CLAMP holds the lands at the boundary register and selects the bypass register (R529). -/
def execJtagClamp (s : State) : Res := .next (s.jtagTest .clamp [false])

/-- HIGHZ floats the lands and selects the bypass register (R529). -/
def execJtagHighz (s : State) : Res := .next (s.jtagTest .highz [false])

/-- TRST_N, or five TCK cycles with TMS high, resets the port and nothing else (R529); the port then holds IDCODE
(log 11). -/
def execTestPortReset (s : State) : Res := .next { s with jtag := { s.jtag with ir := .idcode } }

end Sys2Proof.Machine
end

