-- ==== Sys2Proof/Machine/Float.lean ====
section
/-! DEFINITION. Numbers of the operand formats, exactly: decoding, rounding, arithmetic, conversion, and the special
functions (R101, R102, R155, R156, R172, R173). A finite number is a significand times a power of two. -/

namespace Sys2Proof.Machine

/-- A number of a floating-point format: (−1)^neg × m × 2^e, an infinity, or NaN. -/
inductive Num where
  | nan
  | inf (neg : Bool)
  | fin (neg : Bool) (m : Nat) (e : Int)
  deriving DecidableEq, Repr

/-- A floating-point layout (R155): field widths, bias, which codes are infinities and NaN (0 none, 1 as IEEE,
2 only the all-ones code), and the largest finite value m × 2^e. -/
structure FloatFmt where
  eBits : Nat
  mBits : Nat
  bias : Nat
  hasInf : Bool
  nanKind : Nat
  maxM : Nat
  maxE : Int
  canonNan : Nat
  deriving DecidableEq, Repr

def fp32 : FloatFmt := ⟨8, 23, 127, true, 1, 2 ^ 24 - 1, 104, 0x7FC00000⟩
def fp16 : FloatFmt := ⟨5, 10, 15, true, 1, 2 ^ 11 - 1, 5, 0x7E00⟩
def bf16 : FloatFmt := ⟨8, 7, 127, true, 1, 2 ^ 8 - 1, 120, 0x7FC0⟩
def e4m3 : FloatFmt := ⟨4, 3, 7, false, 2, 14, 5, 0x7F⟩
def e5m2 : FloatFmt := ⟨5, 2, 15, true, 1, 7, 13, 0x7F⟩
def e2m3 : FloatFmt := ⟨2, 3, 1, false, 0, 15, -1, 0⟩
def e3m2 : FloatFmt := ⟨3, 2, 3, false, 0, 7, 2, 0⟩
def e2m1 : FloatFmt := ⟨2, 1, 1, false, 0, 3, 1, 0⟩

/-- The sign bit of a format. -/
def FloatFmt.signBit (f : FloatFmt) : Nat := 2 ^ (f.eBits + f.mBits)

/-- The exponent of the last place of a subnormal. -/
def FloatFmt.qMin (f : FloatFmt) : Int := 1 - (f.bias : Int) - f.mBits

/-- The value a bit pattern stands for (R155). -/
def FloatFmt.decode (f : FloatFmt) (n : Nat) : Num :=
  let neg := n.testBit (f.eBits + f.mBits)
  let e := n / 2 ^ f.mBits % 2 ^ f.eBits
  let m := n % 2 ^ f.mBits
  let top := e == 2 ^ f.eBits - 1
  if f.nanKind = 1 ∧ top ∧ m ≠ 0 then .nan
  else if f.nanKind = 2 ∧ top ∧ m = 2 ^ f.mBits - 1 then .nan
  else if f.hasInf ∧ top ∧ m = 0 then .inf neg
  else if e = 0 then .fin neg m f.qMin
  else .fin neg (m + 2 ^ f.mBits) ((e : Int) - f.bias - f.mBits)

/-- Sticky flags: invalid 1, divide-by-zero 2, overflow 4, underflow 8, inexact 16 (R119). -/
abbrev Flags := Nat

/-- Whether a discarded part makes the magnitude go up: `rem` out of `2^sh`, the kept part odd or not, under a rounding
mode: 0 nearest-even, 1 toward zero, 2 toward −∞, 3 toward +∞ (R101). -/
def roundUp (mode : Nat) (neg odd : Bool) (rem sh : Nat) : Bool :=
  match mode with
  | 0 => decide (2 ^ sh < 2 * rem) || (2 ^ sh == 2 * rem && odd)
  | 1 => false
  | 2 => neg && rem != 0
  | _ => !neg && rem != 0

/-- The magnitude `m` in units of `2^sh` times its own last place, rounded. -/
def roundAt (mode : Nat) (neg : Bool) (m : Nat) (sh : Int) : Nat :=
  if sh ≤ 0 then m * 2 ^ (-sh).toNat
  else
    let k := sh.toNat
    let q := m / 2 ^ k
    let rem := m % 2 ^ k
    if roundUp mode neg (q % 2 == 1) rem k then q + 1 else q

/-- Whether `a × 2^x < b × 2^y`. -/
def dyLt (a : Nat) (x : Int) (b : Nat) (y : Int) : Bool :=
  if x ≤ y then decide (a < b * 2 ^ (y - x).toNat) else decide (a * 2 ^ (x - y).toNat < b)

/-- A finite value rounded to a format: the significand and the exponent of its last place, whether it is out of range,
and whether it is inexact and tiny. Rounding is to the format's precision with an unbounded exponent for the range
(R173). -/
def FloatFmt.roundFin (f : FloatFmt) (mode : Nat) (neg : Bool) (m : Nat) (e : Int) : Nat × Int × Bool × Bool × Bool :=
  if m = 0 then (0, f.qMin, false, false, false)
  else
    let top := e + (Nat.log2 m : Int)
    let qu := top - f.mBits
    let q := max qu f.qMin
    let r := roundAt mode neg m (q - e)
    let exact := if q ≤ e then true else m % 2 ^ (q - e).toNat == 0
    let ru := roundAt mode neg m (qu - e)
    let tiny := if Config.tinyAfter then dyLt ru qu 1 (1 - (f.bias : Int)) else dyLt m e 1 (1 - (f.bias : Int))
    (r, q, dyLt f.maxM f.maxE r q, !exact, tiny)

/-- The bit pattern of a value r × 2^q that the format holds, without its sign. -/
def FloatFmt.pattern (f : FloatFmt) (r : Nat) (q : Int) : Nat :=
  if r < 2 ^ f.mBits then r
  else
    let r' := if 2 ^ (f.mBits + 1) ≤ r then r / 2 else r
    let q' := if 2 ^ (f.mBits + 1) ≤ r then q + 1 else q
    (q' + f.bias + f.mBits).toNat * 2 ^ f.mBits + (r' - 2 ^ f.mBits)

/-- The pattern of the largest finite value. -/
def FloatFmt.maxPattern (f : FloatFmt) : Nat := f.pattern f.maxM f.maxE

/-- The pattern of infinity. -/
def FloatFmt.infPattern (f : FloatFmt) : Nat := (2 ^ f.eBits - 1) * 2 ^ f.mBits

/-- A finite value as a bit pattern of an IEEE format, with its flags (R101). -/
def FloatFmt.encode (f : FloatFmt) (mode : Nat) (neg : Bool) (m : Nat) (e : Int) : Nat × Flags :=
  let (r, q, ovf, inexact, tiny) := f.roundFin mode neg m e
  let s := if neg then f.signBit else 0
  if ovf then
    let toInf := match mode with
      | 0 => true
      | 1 => false
      | 2 => neg
      | _ => !neg
    (s + (if toInf then f.infPattern else f.maxPattern), 4 + 16)
  else (s + f.pattern r q, (if inexact then 16 else 0) + (if inexact && tiny then 8 else 0))

/-- A number as a bit pattern of an IEEE format. -/
def FloatFmt.ofNum (f : FloatFmt) (mode : Nat) (v : Num) : Nat × Flags :=
  match v with
  | .nan => (f.canonNan, 0)
  | .inf n => ((if n then f.signBit else 0) + f.infPattern, 0)
  | .fin n m e => f.encode mode n m e

/-- The sum of two finite values as an integer and an exponent. -/
def dyAdd (n1 : Bool) (m1 : Nat) (e1 : Int) (n2 : Bool) (m2 : Nat) (e2 : Int) : Int × Int :=
  let e := min e1 e2
  let a : Int := (m1 * 2 ^ (e1 - e).toNat : Nat)
  let b : Int := (m2 * 2 ^ (e2 - e).toNat : Nat)
  ((if n1 then -a else a) + (if n2 then -b else b), e)

/-- Exact sum of two numbers with the sign of an exact zero under a rounding mode; `true` marks an invalid operation. -/
def Num.add (mode : Nat) (a b : Num) : Num × Bool :=
  match a, b with
  | .nan, _ => (.nan, false)
  | _, .nan => (.nan, false)
  | .inf n, .inf k => if n = k then (.inf n, false) else (.nan, true)
  | .inf n, _ => (.inf n, false)
  | _, .inf n => (.inf n, false)
  | .fin n1 m1 e1, .fin n2 m2 e2 =>
    let (v, e) := dyAdd n1 m1 e1 n2 m2 e2
    if v = 0 then
      (.fin (if m1 = 0 ∧ n1 = n2 then n1 else mode == 2) 0 e, false)
    else (.fin (decide (v < 0)) v.natAbs e, false)

/-- Exact product of two numbers; `true` marks an invalid operation. -/
def Num.mul (a b : Num) : Num × Bool :=
  match a, b with
  | .nan, _ => (.nan, false)
  | _, .nan => (.nan, false)
  | .inf n, .inf k => (.inf (n != k), false)
  | .inf n, .fin k m _ => if m = 0 then (.nan, true) else (.inf (n != k), false)
  | .fin k m _, .inf n => if m = 0 then (.nan, true) else (.inf (n != k), false)
  | .fin n1 m1 e1, .fin n2 m2 e2 => (.fin (n1 != n2) (m1 * m2) (e1 + e2), false)

/-- The number with its sign turned. -/
def Num.neg (a : Num) : Num :=
  match a with
  | .nan => .nan
  | .inf n => .inf (!n)
  | .fin n m e => .fin (!n) m e

/-- A floating-point operation of class 0x05 on three operands (R101): 0 add, 1 sub, 2 mul, 3 fma. -/
def FloatFmt.arith (f : FloatFmt) (op mode : Nat) (a b c : Nat) : Nat × Flags :=
  let x := f.decode a
  let y := f.decode b
  let (v, bad) := match op with
    | 0 => x.add mode y
    | 1 => x.add mode y.neg
    | 2 => x.mul y
    | _ =>
      let (p, bad1) := x.mul y
      if bad1 then
        (.nan, match f.decode c with
          | .nan => Config.fmaNanInvalid
          | _ => true)
      else
        let (r, bad2) := p.add mode (f.decode c)
        (r, bad2)
  let (r, fl) := f.ofNum mode v
  (r, if bad then 1 else fl)

/-- Whether one number is below another, with −0 below +0 when `zero` is set. -/
def Num.lt (zero : Bool) (a b : Num) : Bool :=
  match a, b with
  | .nan, _ => false
  | _, .nan => false
  | .inf n, .inf k => n && !k
  | .inf n, _ => n
  | _, .inf n => !n
  | .fin n1 m1 e1, .fin n2 m2 e2 =>
    if m1 = 0 ∧ m2 = 0 then zero && n1 && !n2
    else match n1, n2 with
      | true, false => true
      | false, true => false
      | false, false => dyLt m1 e1 m2 e2
      | true, true => dyLt m2 e2 m1 e1

/-- Whether two numbers are equal as values. -/
def Num.eq (a b : Num) : Bool :=
  match a, b with
  | .nan, _ => false
  | _, .nan => false
  | _, _ => !a.lt false b && !b.lt false a

/-- `min` and `max` (R101): the operand that is not NaN, −0 below +0. -/
def FloatFmt.minMax (f : FloatFmt) (max : Bool) (a b : Nat) : Nat :=
  match f.decode a, f.decode b with
  | .nan, .nan => f.canonNan
  | .nan, _ => b
  | _, .nan => a
  | x, y => if max then (if x.lt true y then b else a) else (if y.lt true x then b else a)

/-- A comparison (R100): 0 eq, 1 ne, 2 lt, 3 le, 4 gt, 5 ge; with NaN only ne holds. -/
def FloatFmt.compare (f : FloatFmt) (cond : Nat) (a b : Nat) : Bool :=
  let x := f.decode a
  let y := f.decode b
  match cond with
  | 0 => x.eq y
  | 1 => !x.eq y
  | 2 => x.lt false y
  | 3 => x.lt false y || x.eq y
  | 4 => y.lt false x
  | _ => y.lt false x || x.eq y

/-! ### Conversion -/

/-- The conversion format codes (R171). -/
def cvtFmt (code : Nat) : Option FloatFmt :=
  match code with
  | 0 => some fp32
  | 1 => some fp16
  | 2 => some bf16
  | 3 => some e4m3
  | 4 => some e5m2
  | 5 => some e2m3
  | 6 => some e3m2
  | 7 => some e2m1
  | _ => none

/-- The range of an integer format by its code (R156, R171). -/
def cvtRange (code : Nat) : Int × Int :=
  match code with
  | 8 => (-2147483648, 2147483647)
  | 9 => (0, 4294967295)
  | 10 => (-128, 127)
  | 11 => (-8, 7)
  | 12 => (-2, 1)
  | _ => (-1, 1)

/-- The width of a format by its code. -/
def cvtWidth (code : Nat) : Nat :=
  match code with
  | 0 => 32
  | 1 => 16
  | 2 => 16
  | 3 => 8
  | 4 => 8
  | 5 => 6
  | 6 => 6
  | 7 => 4
  | 8 => 32
  | 9 => 32
  | 10 => 8
  | 11 => 4
  | 12 => 2
  | 13 => 2
  | 14 => 1
  | _ => 8

/-- The number in the low bits of an element under a format code (R155, R156, R172). -/
def cvtSource (code n : Nat) : Num :=
  match cvtFmt code with
  | some f => f.decode (n % 2 ^ cvtWidth code)
  | none =>
    match code with
    | 9 => .fin false (n % 2 ^ 32) 0
    | 14 => .fin (n % 2 == 0) 1 0
    | 15 => if n % 256 = 255 then .nan else .fin false 1 ((n % 256 : Nat) - 127)
    | _ =>
      let w := cvtWidth code
      let m := n % 2 ^ w
      if 2 ^ (w - 1) ≤ m then .fin true (2 ^ w - m) 0 else .fin false m 0

/-- A conversion to a floating-point destination (R173). -/
def cvtToFloat (code : Nat) (f : FloatFmt) (mode : Nat) (sat : Bool) (v : Num) : Nat × Flags :=
  let sgnBits := fun (n : Bool) => if n then f.signBit else 0
  match v with
  | .nan => (f.canonNan, if f.nanKind = 0 then 1 else 0)
  | .inf n =>
    if f.hasInf then (sgnBits n + f.infPattern, 0)
    else if code = 3 then (if sat then sgnBits n + f.maxPattern else 0x7F, 1)
    else (sgnBits n + f.maxPattern, 1)
  | .fin n m e =>
    let (_, _, ovf, _, _) := f.roundFin mode n m e
    if ovf then
      if code = 3 then (if sat then sgnBits n + f.maxPattern else 0x7F, 4 + 16)
      else if sat ∨ ¬ f.hasInf then (sgnBits n + f.maxPattern, 4 + 16)
      else f.encode mode n m e
    else f.encode mode n m e

/-- The integer nearest to a finite value under a rounding mode, and whether it is exact. -/
def dyToInt (mode : Nat) (n : Bool) (m : Nat) (e : Int) : Int × Bool :=
  let r := roundAt mode n m (-e)
  let exact := if 0 ≤ e then true else m % 2 ^ (-e).toNat == 0
  ((if n then -(r : Int) else r), exact)

/-- A conversion to an integer, ternary or binary destination (R173). -/
def cvtToInt (code mode : Nat) (v : Num) : Nat × Flags :=
  let w := cvtWidth code
  let (lo, hi) := cvtRange code
  let enc := fun (i : Int) => (i % (2 ^ w : Nat)).toNat
  if code = 14 then
    match v with
    | .nan => (1, 1)
    | .inf n => (if n then 0 else 1, 1)
    | .fin n m e =>
      let (i, exact) := dyToInt mode n m e
      (if n ∧ m ≠ 0 then 0 else 1, if 1 < i.natAbs then 4 + 16 else if i.natAbs = 1 ∧ exact then 0 else 16)
  else
    match v with
    | .nan => (0, 1)
    | .inf n => (enc (if n then lo else hi), 1)
    | .fin n m e =>
      let (i, exact) := dyToInt mode n m e
      if i < lo then (enc lo, 4 + 16)
      else if hi < i then (enc hi, 4 + 16)
      else (enc i, if exact then 0 else 16)

/-- Whether a pair of codes is accepted by `cvt` (R172). -/
def cvtPair (dst src : Nat) : Bool :=
  dst != src && decide (src < 16) &&
  ((dst == 0) || (src == 0 && dst != 15) || (src == 8 && (10 ≤ dst && dst ≤ 13)) || (dst == 8 && (10 ≤ src && src ≤ 14)))

/-- `cvt` of one element (R172, R173). -/
def cvtElem (dst src mode : Nat) (sat : Bool) (n : Nat) : Nat × Flags :=
  let v := cvtSource src n
  match cvtFmt dst with
  | some f => cvtToFloat dst f mode sat v
  | none => cvtToInt dst mode v

/-! ### Special functions (R102) -/

/-- Fixed-point numbers of the special functions have this many fraction bits. -/
def fxBits : Nat := 200

/-- ln 2 and 2π in fixed point, rounded down. -/
def fxLn2 : Int := 1113844574712631719546256151097547306333272293549090750737802
def fxTwoPi : Int := 10096689509235987743946820282484873672429286842977325943070736

/-- Product of two fixed-point numbers. -/
def fxMul (a b : Int) : Int := a * b / 2 ^ fxBits

/-- A finite value in fixed point, rounded down. -/
def fxOf (n : Bool) (m : Nat) (e : Int) : Int :=
  let k := e + fxBits
  let v : Int := if 0 ≤ k then (m * 2 ^ k.toNat : Nat) else (m / 2 ^ (-k).toNat : Nat)
  if n then -v else v

/-- The sum of `terms` terms of a power series: the next term is the last times `x` over the next divisor. -/
def fxSeries (x : Int) (divs : List Nat) (first : Int) : Int :=
  (divs.foldl (fun (acc : Int × Int) (d : Nat) =>
    let t := fxMul acc.2 x / (d : Int)
    (acc.1 + t, t)) (first, first)).1

/-- 2^x for a fixed-point x in [0, 1). -/
def fxExp2 (x : Int) : Int := fxSeries (fxMul x fxLn2) ((List.range 60).map (· + 1)) (2 ^ fxBits)

/-- log₂ of a fixed-point number in [1, 2), by the series of the inverse hyperbolic tangent. -/
def fxLog2 (x : Int) : Int :=
  let one : Int := 2 ^ fxBits
  let y := (x - one) * 2 ^ fxBits / (x + one)
  let y2 := fxMul y y
  let s := ((List.range 70).foldl (fun (acc : Int × Int) k =>
    (acc.1 + acc.2 / ((2 * k + 1 : Nat) : Int), fxMul acc.2 y2)) (0, y)).1
  2 * s * 2 ^ fxBits / fxLn2

/-- sin and cos of a fixed-point number in [0, 2π). -/
def fxSin (x : Int) : Int := fxSeries (-(fxMul x x)) ((List.range 50).map (fun k => (2 * k + 2) * (2 * k + 3))) x
def fxCos (x : Int) : Int := fxSeries (-(fxMul x x)) ((List.range 50).map (fun k => (2 * k + 1) * (2 * k + 2))) (2 ^ fxBits)

/-- The exponent of the last place of f32 at a positive value v × 2^e. -/
def ulpExp (v : Nat) (e : Int) : Int := max (e + (Nat.log2 v : Int) - 23) (-149)

/-- Whether an f32 pattern lies within `k` units in the last place of v × 2^e, signed. -/
def withinUlp (k : Nat) (c : Nat) (v : Int) (e : Int) : Bool :=
  match fp32.decode c with
  | .fin n m ce =>
    let (d, de) := dyAdd n m ce (decide (0 < v)) v.natAbs e
    !dyLt k (ulpExp v.natAbs e) d.natAbs de
  | _ => false

/-- The nearest f32 to v × 2^e. -/
def nearest32 (v : Int) (e : Int) : Nat := (fp32.encode 0 (decide (v < 0)) v.natAbs e).1

/-- The answer of a special function with an exact result v × 2^e and a bound of `k` ulp: the hardware's own value where
it lies within the bound, else the nearest value. -/
def specialUlp (fn k : Nat) (x : Nat) (v : Int) (e : Int) : Nat :=
  let c := (Config.special fn (BitVec.ofNat 32 x)).toNat
  if withinUlp k c v e then c else nearest32 v e

/-- sin and cos within 2⁻²¹ for |x| ≤ 100π, and a finite value in [−1, 1] beyond (R102). -/
def specialTrig (fn : Nat) (x : Nat) (n : Bool) (m : Nat) (e : Int) : Nat :=
  let c := (Config.special fn (BitVec.ofNat 32 x)).toNat
  let inUnit := match fp32.decode c with
    | .fin _ cm ce => !dyLt 1 0 cm ce
    | _ => false
  let fx := fxOf false m e
  if fx ≤ 50 * fxTwoPi then
    let r := fx % fxTwoPi
    let v := if fn = 4 then (if n then -(fxSin r) else fxSin r) else fxCos r
    let near := match fp32.decode c with
      | .fin cn cm ce =>
        let (d, de) := dyAdd cn cm ce (decide (0 < v)) v.natAbs (-(fxBits : Int))
        !dyLt 1 (-21) d.natAbs de
      | _ => false
    if near then c else nearest32 v (-(fxBits : Int))
  else if inUnit then c else 0

/-- A special function of an f32 element: 0 rcp, 1 rsqrt, 2 exp2, 3 log2, 4 sin, 5 cos (R102). -/
def specialElem (fn x : Nat) : Nat :=
  let inf : Nat := 0x7F800000
  let nan : Nat := 0x7FC00000
  let one : Nat := 0x3F800000
  match fp32.decode x with
  | .nan => nan
  | .inf n =>
    match fn with
    | 0 => if n then 0x80000000 else 0
    | 1 => if n then nan else 0
    | 2 => if n then 0 else inf
    | 3 => if n then nan else inf
    | _ => nan
  | .fin n m e =>
    if m = 0 then
      match fn with
      | 0 => if n then 0xFF800000 else inf
      | 1 => if n then 0xFF800000 else inf
      | 2 => one
      | 3 => 0xFF800000
      | 4 => x
      | _ => one
    else
      match fn with
      | 0 =>
        let v : Int := (2 ^ 120 / m : Nat)
        specialUlp 0 1 x (if n then -v else v) (-120 - e)
      | 1 =>
        if n then nan
        else
          let odd := e % 2
          let v := Nat.sqrt (2 ^ 240 / (m * 2 ^ odd.toNat))
          specialUlp 1 1 x v (-120 - (e - odd) / 2)
      | 2 =>
        if dyLt 256 0 m e then (if n then specialUlp 2 2 x 1 (-200) else inf)
        else
          let fx := fxOf n m e
          let k := fx / 2 ^ fxBits
          if 128 ≤ k then inf
          else specialUlp 2 2 x (fxExp2 (fx % 2 ^ fxBits)) (k - fxBits)
      | 3 =>
        if n then nan
        else
          let k := Nat.log2 m
          let v := fxLog2 (fxOf false m (-(k : Int))) + (e + k) * 2 ^ fxBits
          if v = 0 then 0 else specialUlp 3 2 x v (-(fxBits : Int))
      | _ => specialTrig fn x n m e

/-- The sticky flags of a special function: invalid where a number gives NaN, divide-by-zero where a zero gives an
infinity; overflow, underflow and inexact are not stated (R101, R102; log 2). -/
def specialFlags (fn x : Nat) : Flags :=
  let r := specialElem fn x
  match fp32.decode x with
  | .nan => 0
  | .inf _ => if r = 0x7FC00000 then 1 else 0
  | .fin _ m _ =>
    if r = 0x7FC00000 then 1
    else if m = 0 ∧ (fn = 0 ∨ fn = 1 ∨ fn = 3) then 2
    else if m = 0 then 0
    else 4 * (Config.specialFlags fn (BitVec.ofNat 32 x)).toNat

end Sys2Proof.Machine
end

