-- ==== Sys2Proof/Machine/Events.lean ====
section
/-! DEFINITION. The event controllers: pending words, timers, stopped clocks, device fault records (R375 to R384,
R391). -/

namespace Sys2Proof.Machine

/-- Whether a requester is within a reach (00_scope, "Reach"; R8). A VF reaches no register of the map. -/
def reachOk (r : Reach) (who : Requester) : Bool :=
  match who, r with
  | .vf _, _ => false
  | .taproot, _ => true
  | .pf, .all => true
  | .pf, .pfTaproot => true
  | .pf, _ => false
  | .steward _, .all => true
  | .steward _, .stewardTaproot => true
  | .steward _, _ => false

/-- Whether BAR0 decodes a host access: the PF is in D0, no reset runs, and Request Retry Status has ended; in Recovery and in
Failed only the mailbox answers, in Standby only the `TAP_` registers (R394, R398, R443, R444). -/
def State.hostReach (s : State) (mbx tap : Bool) : Bool :=
  let st := s.fget F.TAP_READY_STATE
  !(s.func 0).d3hot && !(s.func 0).inFlr && s.pwr.inReset.isNone &&
    (if st = 1 ∨ st = 5 then mbx else s.host.served && (st != 4 || tap))

/-- Whether an access of a requester comes to BAR0 at all. -/
def State.arrives (s : State) (who : Requester) (mbx tap : Bool) : Bool := who != .pf || s.hostReach mbx tap

/-- Whether a source exists on a die (R377): the sources its table lists for the die's kind. -/
def sourceExists (die src : Nat) : Bool :=
  src ≤ 32 || (1008 ≤ src && src ≤ 1010) ||
  (if die < 64 then (128 ≤ src && src ≤ 443)
   else if die < 80 then (128 ≤ src && src ≤ 133)
   else ((die == 80 || die == 82) && (64 ≤ src && src ≤ 127)) || (256 ≤ src && src ≤ 511) ||
    (die == 80 && ((128 ≤ src && src ≤ 131) || (136 ≤ src && src ≤ 141) || (512 ≤ src && src ≤ 520) ||
      (544 ≤ src && src ≤ 551))))

/-- Counts and delivers the sources of a word whose bits a write turned from 0 to 1 (R378), then those that a write
left active (R382). -/
def State.afterPend (s : State) (die word : Nat) (rising : Nat) : State :=
  (List.range 32).foldl (fun s b =>
    let src := word * 32 + b
    let s1 := if bit rising b then s.evcCount die src false else s
    s1.evcDeliver die src) s

/-- A software write replaces a pending word; a bit it turns from 0 to 1 counts as a hardware event does; sources that
do not exist stay 0; the level source is set again while its condition holds (R377 to R379). -/
def State.pendWrite (s : State) (die word : Nat) (value : W32) : State :=
  let old := s.fget F.EVC_PEND_PEND (die * 32 + word)
  let exist := (List.range 32).foldl (fun n b => n + 2 ^ b * nb (sourceExists die (word * 32 + b))) 0
  let new := value.toNat &&& exist
  let rising := new &&& (old ^^^ 0xFFFFFFFF)
  let s1 := (s.fset F.EVC_PEND_PEND new (die * 32 + word)).afterPend die word rising
  if word = 31 then s1.levelSource die else s1

/-- A write to `EVC_PEND` (R379). -/
def execEvcPendWrite (who : Requester) (die : Fin 84) (word : Fin 32) (value : W32) (s : State) : Res :=
  if ¬ s.arrives who false false ∨ s.fget F.TAP_DIE_HEALTH_STATE die.val = 2 ∨ s.pwr.diesOff.contains die.val then .next s
  else if reachOk .all who then .next (s.pendWrite die.val word.val value)
  else .next (s.reachRecord die.val who (0x1000000 + die.val * 0x400000 + word.val * 4) true)

/-- A record arrives for a die's device fault queue (R391). -/
def execDeviceFaultRecord (die : Fin 84) (record : FaultRec) (s : State) : Res :=
  .next (s.dfqWrite die.val record)

/-- The control clock of a die restarts (R384). -/
def execControlClockRestart (die : Fin 84) (s : State) : Res := .next (s.restartClock die.val)

/-- The steward timer of a die runs out (R377). -/
def execStewardTimer (die : Fin 84) (s : State) : Res := .next (s.event die.val 32)

end Sys2Proof.Machine
end

