-- ==== Sys2Proof/Machine/Mailbox.lean ====
section
/-! DEFINITION. The management mailbox, its operations, the flash devices and the image (R412, R413, R458, R463 to
R467, R470). -/

namespace Sys2Proof.Machine

/-- Whether sequence `a` comes before `b` in 32-bit serial order (R317). -/
def seqBefore (a b : Nat) : Bool :=
  let d := (b + 2 ^ 32 - a % 2 ^ 32) % 2 ^ 32
  0 < d && d < 2 ^ 31

/-- One step of CRC-32C over one byte (R279). -/
def crcByte (c : W32) (b : Byte) : W32 :=
  (List.range 8).foldl (fun c _ => if c.getLsbD 0 then (c >>> 1) ^^^ 0x82F63B78 else c >>> 1)
    (c ^^^ b.setWidth 32)

/-- CRC-32C of a byte string (R279). -/
def crc32c (l : List Byte) : W32 := ~~~ (l.foldl crcByte 0xFFFFFFFF)

/-- The eight 8-byte words of a fault record (R385). -/
def recWords (r : FaultRec) : List Nat :=
  [bits r.cls 0 8 + bits r.code 0 8 * 2 ^ 8 + nb r.u * 2 ^ 16 + nb r.fetch * 2 ^ 17 + nb r.deferred * 2 ^ 18 +
     nb r.ticket * 2 ^ 19 + bits r.seq 0 32 * 2 ^ 32,
   r.time % 2 ^ 64,
   bits r.context 0 16 + bits r.partition 0 10 * 2 ^ 16 + bits r.core 0 13 * 2 ^ 26 + bits r.slot 0 5 * 2 ^ 39 +
     bits r.die 0 8 * 2 ^ 44,
   r.instr % 2 ^ 64,
   bits r.active 0 32 + bits r.lanes 0 32 * 2 ^ 32,
   r.addr % 2 ^ 64, r.info0 % 2 ^ 64, r.info1 % 2 ^ 64]

/-- The 64 bytes of a fault record (R385). -/
def recBytes (r : FaultRec) : List Byte := (recWords r).flatMap (fun w => toBytes w 8)

/-- The 128 bytes of a log record (R458). -/
def logBytes (r : LogRec) : List Byte :=
  toBytes r.seq 8 ++ toBytes r.time 8 ++
  toBytes (nb r.u + bits r.severity 0 3 * 2 + bits r.die 0 8 * 2 ^ 4 + bits r.kind 0 12 * 2 ^ 12 +
    bits r.suppressed 0 16 * 2 ^ 24) 8 ++
  match r.fault with
  | some f => recBytes f ++ (List.range 40).map (fun _ => 0)
  | none => (List.range 26).flatMap (fun i => toBytes (Config.logData r.seq i).toNat 4)

/-- The 32-bit words of a byte string, zero-padded. -/
def toWords (l : List Byte) : List W32 :=
  (List.range ((l.length + 3) / 4)).map (fun i => BitVec.ofNat 32 (ofBytes ((l.drop (4 * i)).take 4)))

/-- The bytes of 32-bit words. -/
def wordBytes (l : List W32) : List Byte := l.flatMap (fun w => toBytes w.toNat 4)

/-! ### Flash -/

/-- Bytes of a flash device; an erased byte reads 0xFF (R466). -/
def flashRead (m : SMap Byte) (off len : Nat) : List Byte :=
  (List.range len).map (fun i => SMap.get m 0xFF (off + i))

/-- A word of a flash device. -/
def flashWord (m : SMap Byte) (off : Nat) : Nat := ofBytes (flashRead m off 4)

/-- Erases the 64 KiB sector `n`. -/
def flashErase (m : SMap Byte) (n : Nat) : SMap Byte := SMap.keep m (fun k _ => k / 65536 != n)

/-- Programs bytes. -/
def flashProgram (m : SMap Byte) (off : Nat) (l : List Byte) : SMap Byte :=
  (l.zipIdx).foldl (fun m e => SMap.set m 0xFF (off + e.2) e.1) m

/-- Whether a range meets bytes that the update has already programmed (R466). -/
def FlashUpdate.meets (u : FlashUpdate) (off len : Nat) : Bool :=
  u.written.any (fun r => decide (off < r.1 + r.2 ∧ r.1 < off + len))

/-- One write of an update: the sectors it touches are erased once in the update, then its bytes are programmed. -/
def flashWrite (m : SMap Byte) (u : FlashUpdate) (base off : Nat) (l : List Byte) : SMap Byte × FlashUpdate :=
  let sectors := (List.range ((off + l.length - 1) / 65536 + 1)).filter (fun n => off / 65536 ≤ n)
  let new := sectors.filter (fun n => !u.erased.contains n)
  let m1 := new.foldl (fun m n => flashErase m (base / 65536 + n)) m
  (flashProgram m1 (base + off) l,
   { running := true, erased := u.erased ++ new, written := u.written ++ [(off, l.length)] })

/-- Where the board data and the certificates lie in the second flash device (R463). -/
def boardBase : Nat := 0x800000

/-- The board data area that Taproot read at bring-up, if its check holds (R465). -/
def State.boardValid (s : State) : Bool :=
  flashWord s.tap.boardRead (boardBase + 0xFFFC) = (crc32c (flashRead s.tap.boardRead boardBase 0xFFFC)).toNat

/-! ### The image -/

/-- The measurement of the flash image of `len` bytes (R463). -/
def State.imageMeasurement (s : State) (len : Nat) : BitVec 384 :=
  Config.sha384 (flashRead s.tap.image 0x2000 (len - 0x2000) ++ flashRead s.tap.image 0 0x20)

/-- The SVN in the flash image's header. -/
def State.imageSvn (s : State) : Nat := bits (flashWord s.tap.image 0x0C) 0 6

/-- The check of the flash image against a committed length (R464): 0 valid; 1 Ed25519 failed; 2 ML-DSA-65 failed;
3 SVN below the minimum; 4 length or header invalid (R470). -/
def State.imageCheck (s : State) (len : Nat) : Nat :=
  let f := s.tap.image
  let m := s.imageMeasurement len
  if flashWord f 0 ≠ 0x46574A46 ∨ flashWord f 4 ≠ 1 ∨ flashWord f 0x10 ≠ len ∨ len < 0x4000 ∨ 0x4000000 < len then 4
  else if ¬ Config.ed25519Ok m (flashRead f 0x50 64) then 1
  else if ¬ Config.mlDsaOk m (flashRead f 0x90 3309) then 2
  else if s.imageSvn < s.tap.fuses.svnMin then 3
  else 0

/-! ### The mailbox -/

/-- An access that breaks the mailbox's order sets SEQERR and raises source 546 (R412, R482). -/
def State.seqErr (s : State) : State := (s.fset F.TAP_MBX_CMD_SEQERR 1).event edge0 546

/-- The mailbox answers: RESPONDING with its result, or straight to IDLE where no words are to read; source 545 is
raised (R412, R482). -/
def State.mbxRespond (s : State) (result : Nat) (words : List W32) : State :=
  let s1 := { s with host := { s.host with mbxReq := [], mbxRsp := words } }
  let s2 := (s1.fset F.TAP_MBX_CMD_RESULT result).fset F.TAP_MBX_CMD_COUNT words.length
  (s2.fset F.TAP_MBX_CMD_STATE (if words.isEmpty then 0 else 3)).event edge0 545

/-- Whether the boot ROM, not Taproot, serves the mailbox (R412, R444). -/
def State.bootRom (s : State) : Bool := !s.flag F.TAP_READY_TAPROOT

/-- Whether an operation is served in the readiness state (R413, R444). -/
def State.mbxServed (s : State) (op : Nat) : Bool :=
  match s.fget F.TAP_READY_STATE with
  | 0 => op == 1
  | 1 => op == 1 || op == 5 || op == 6
  | 5 => op == 1 || op == 3
  | _ => decide (1 ≤ op ∧ op ≤ 6)

/-- A request of a path in Recovery: it keeps the session of the path that owns it; an image write takes one that nobody owns
(R469). -/
def State.sessionUse (s : State) (pldm write : Bool) : State :=
  if s.fget F.TAP_READY_STATE ≠ 1 then s
  else if s.tap.session = some pldm ∨ (s.tap.session.isNone ∧ write) then
    { s with tap := { s.tap with session := some pldm, sessionAt := s.localNs } }
  else s

/-- A write to `TAP_MBX_CMD` with OP ≠ 0: in IDLE a length of 1 to 262,148 words enters RECEIVING; otherwise it is
ignored and sets SEQERR (R412). -/
def State.mbxCommand (s : State) (op len : Nat) : State :=
  if s.fget F.TAP_MBX_CMD_STATE = 0 ∧ 1 ≤ len ∧ len ≤ 262148 then
    ((({ s with host := { s.host with mbxReq := [], mbxRsp := [], mbxOp := op } }).fset F.TAP_MBX_CMD_STATE 1).fset
      F.TAP_MBX_CMD_COUNT len).sessionUse false false
  else s.seqErr

/-- ABORT: the request or response is discarded, in any state (R412). -/
def State.mbxReset (s : State) : State :=
  (({ s with host := { s.host with mbxReq := [], mbxRsp := [] } }).fset F.TAP_MBX_CMD_STATE 0).fset
    F.TAP_MBX_CMD_COUNT 0

/-- A write of OP = 0 to `TAP_MBX_CMD` (R412); a SEQERR bit written as 1 is cleared (R4). -/
def execMbxAbort (who : Requester) (word : W64) (s : State) : Res :=
  if ¬ s.arrives who true true then .next s
  else if reachOk .pfTaproot who then
    let s1 := if word.getLsbD 63 then s.fset F.TAP_MBX_CMD_SEQERR 0 else s
    .next s1.mbxReset
  else .next (s.reachRecord edge0 who 0x410000 true)

/-- A 32-bit write to `TAP_MBX_DATA`: in RECEIVING it appends a word; the last word makes the mailbox BUSY, where an
operation that is not served is answered with RESULT 2 (R412, R413). -/
def execMbxDataWrite (who : Requester) (word : W32) (s : State) : Res :=
  if ¬ reachOk .pfTaproot who then .next (s.reachRecord edge0 who 0x410008 true)
  else if ¬ s.arrives who true true then .next s
  else if s.fget F.TAP_MBX_CMD_STATE = 1 then
    let n := s.fget F.TAP_MBX_CMD_COUNT
    let s1 := ({ s with host := { s.host with mbxReq := s.host.mbxReq ++ [word] } }).fset F.TAP_MBX_CMD_COUNT (n - 1)
    if n ≤ 1 then
      let s2 := s1.fset F.TAP_MBX_CMD_STATE 2
      .next (if s.mbxServed s.host.mbxOp then s2 else s2.mbxRespond 2 [])
    else .next s1
  else .next s.seqErr

/-- A 32-bit read of `TAP_MBX_DATA`: in RESPONDING it returns and removes a word (R412). -/
def execMbxDataRead (who : Requester) (s : State) : Res :=
  if ¬ reachOk .pfTaproot who then .next ((s.reachRecord edge0 who 0x410008 false).emit (.regRead who 0))
  else if ¬ s.arrives who true true then .next (s.emit (.barUnsupported 0))
  else if s.fget F.TAP_MBX_CMD_STATE = 3 then
    match s.host.mbxRsp with
    | [] => .next ((s.fset F.TAP_MBX_CMD_STATE 0).emit (.regRead who 0))
    | w :: r =>
      let s1 := ({ s with host := { s.host with mbxRsp := r } }).fset F.TAP_MBX_CMD_COUNT r.length
      let s2 := if r.isEmpty then s1.fset F.TAP_MBX_CMD_STATE 0 else s1
      .next (s2.emit (.regRead who (w.setWidth 64)))
  else .next (s.seqErr.emit (.regRead who 0))

/-- The mailbox is BUSY with a request of operation `op`. -/
def State.mbxBusy (s : State) (op : Nat) : Bool :=
  s.fget F.TAP_MBX_CMD_STATE == 2 && s.host.mbxOp == op

/-- Word `i` of the request. -/
def State.mbxWord (s : State) (i : Nat) : Nat := (s.host.mbxReq.getD i 0).toNat

/-- HBM and outer-tier capacity in MiB, the sums of `HOM_CAP` (R285, R462). -/
def State.capacity (s : State) : Nat × Nat :=
  (List.range 16).foldl (fun a i => (a.1 + s.fget F.HOM_CAP_HBM_MIB i, a.2 + s.fget F.HOM_CAP_OT_MIB i)) (0, 0)

/-- Clusters not Retired (R462). -/
def State.clustersLeft (s : State) : Nat :=
  1024 - SMap.count s.cmp.clus (fun _ k => k.state == .retired)

/-- The twelve words of GET_INFO (R470). -/
def State.infoWords (s : State) : List W32 :=
  let w := fun n => BitVec.ofNat 32 n
  let serial := (s.reg .TAP_SERIAL 0).toNat
  let rom := s.bootRom
  let cap := s.capacity
  [w (s.reg .TAP_ID_REV 0).toNat, w serial, w (serial / 2 ^ 32), w (s.reg .TAP_READY 0).toNat,
   w (s.fget F.TAP_FW_STATUS_VERSION),
   w (s.fget F.TAP_FW_STATUS_RUN_SVN + s.tap.fuses.svnMin * 2 ^ 8 + s.imageSvn * 2 ^ 16),
   w (s.reg .TAP_FW_STATUS 0).toNat,
   w (if rom then 0 else cap.1), w (if rom then 0 else cap.2), w (if rom then 0 else s.clustersLeft),
   w (if rom then 0 else s.fget F.TAP_STATUS_ACTIVE), 0]

/-- GET_INFO (R470). -/
def execGetInfo (s : State) : Res :=
  need (s.mbxBusy 1)
    (.next (if s.host.mbxReq.length = 1 ∧ s.mbxWord 0 = 0 then s.mbxRespond 0 s.infoWords else s.mbxRespond 3 []))

/-- READ_LOG drains the oldest undrained records of the SRAM log (R459, R470). -/
def execReadLog (s : State) : Res :=
  let n := bits (s.mbxWord 0) 0 12
  need (s.mbxBusy 2)
    (.next (if s.host.mbxReq.length = 1 ∧ 1 ≤ n ∧ n ≤ 2048 then
      let out := s.tap.log.take n
      let s1 := { s with tap := { s.tap with
        log := s.tap.log.drop n, overwritten := 0, overSinceRead := false } }
      (s1.mbxRespond 0 ([BitVec.ofNat 32 out.length, BitVec.ofNat 32 s.tap.overwritten] ++
        out.flatMap (fun r => toWords (logBytes r)))).journal
    else s.mbxRespond 3 []))

/-- READ_FLASH_LOG reads records of the flash log (R460, R470). With no record held the word for the oldest SEQ is a
free value. -/
def execReadFlashLog (s : State) : Res :=
  let n := s.mbxWord 1
  need (s.mbxBusy 3)
    (.next (if s.host.mbxReq.length = 2 ∧ 1 ≤ n ∧ n ≤ 2048 then
      let out := (s.tap.flashLog.filter (fun r => !seqBefore r.seq (s.mbxWord 0))).take n
      let (v, s1) := s.take 32
      let oldest : W32 := match s.tap.flashLog with
        | [] => v
        | r :: _ => BitVec.ofNat 32 r.seq
      s1.mbxRespond 0 ([BitVec.ofNat 32 out.length, oldest] ++ out.flatMap (fun r => toWords (logBytes r)))
    else s.mbxRespond 3 []))

/-- The alias certificate of an algorithm: over the alias public key, signed by the device identity key (R473). -/
def State.aliasCert (s : State) (alg : Nat) : List Byte :=
  let d := s.tap.deviceSeeds
  let a := s.tap.aliasSeeds
  let body := fun (key : List Byte → List Byte) (subject issuer : List Byte) =>
    Config.aliasBody alg (key subject) (key issuer) s.tap.runMeas s.tap.aliasSvn
  if alg = 0 then
    let b := body Config.ed25519Public a.1 d.1
    Config.certificate 0 b (toBytes (Config.ed25519Sign d.1 b).toNat 64)
  else
    let b := body Config.mlDsaPublic a.2 d.2
    Config.certificate 1 b (toBytes (Config.mlDsaSign d.2 b).toNat 3309)

/-- The certificate chain of an algorithm, root first and alias last (R473). -/
def State.certChain (s : State) (alg : Nat) : List Byte :=
  Config.identityCerts alg (flashRead s.tap.board 0x810000 0x10000) ++ s.aliasCert alg

/-- GET_CERT (R470). -/
def execGetCert (s : State) : Res :=
  need (s.mbxBusy 4)
    (.next (if s.host.mbxReq.length = 1 ∧ s.mbxWord 0 ≤ 1 then
      let c := s.certChain (s.mbxWord 0)
      s.mbxRespond 0 (BitVec.ofNat 32 c.length :: toWords c)
    else s.mbxRespond 3 []))

/-- An update of the firmware runs: image requests end with RESULT 4 (R468), and so do those of a path that does not
own the recovery session (R469). -/
def State.imageBusy (s : State) (pldm : Bool) : Bool :=
  s.fget F.TAP_FW_STATUS_UPDATE != 0 ||
  (s.fget F.TAP_READY_STATE == 1 && (match s.tap.session with | some p => p != pldm | none => false))

/-- One write of an image or board-data chunk into flash (R466): answers the result code and the state. -/
def State.imageWrite (s : State) (board : Bool) (off : Nat) (l : List Byte) : Nat × State :=
  let u := if board then s.tap.boardUpd else s.tap.imageUpd
  let lim := if board then 0x10000 else 0x4000000
  if off % 4096 ≠ 0 ∨ l.isEmpty ∨ lim < off + l.length ∨ (u.running ∧ u.meets off l.length) then (3, s)
  else
    let u0 := if u.running then u else { running := true }
    if board then
      let r := flashWrite s.tap.board u0 boardBase off l
      (0, { s with tap := { s.tap with board := r.1, boardUpd := r.2 } })
    else
      let r := flashWrite s.tap.image u0 0 off l
      (0, ({ s with tap := { s.tap with image := r.1, imageUpd := r.2 } }).fset F.TAP_FW_STATUS_FLASH_VALID 0)

/-- IMAGE_WRITE (R466, R470). -/
def execImageWrite (s : State) : Res :=
  let len := s.mbxWord 1
  let data := wordBytes (s.host.mbxReq.drop 4)
  let board := s.mbxWord 3 == 1
  need (s.mbxBusy 5)
    (.next (if s.imageBusy false then s.mbxRespond 4 []
    else
      let s0 := s.sessionUse false true
      if s.host.mbxReq.length = 4 + len / 4 ∧ 4 ≤ len ∧ len ≤ 1048576 ∧ len % 4 = 0 ∧ s.mbxWord 3 ≤ 1 ∧
          (crc32c data).toNat = s.mbxWord 2 then
        let r := s0.imageWrite board (s.mbxWord 0) data
        if r.1 = 0 then r.2.mbxRespond 0 [BitVec.ofNat 32 len] else s0.mbxRespond r.1 []
      else s0.mbxRespond 3 []))

/-- `TAP_FW_STATUS.UPDATE` changes, with source 548 (R467, R482). -/
def State.setUpdate (s : State) (n : Nat) : State := (s.fset F.TAP_FW_STATUS_UPDATE n).event edge0 548

/-- The image commit, from the mailbox or PLDM: verifies the flash image; a valid one sets FLASH_VALID and, outside
Recovery, starts the live update with phase 1 (R467, R469). Answers the detail code and the state. -/
def State.imageCommit (s : State) (len : Nat) (burn : Bool) : Nat × State :=
  let d := s.imageCheck len
  let s1 := { s with tap := { s.tap with
    imageLen := len, imageUpd := {}, session := none, burnSvn := burn } }
  if d = 0 then
    let s2 := s1.fset F.TAP_FW_STATUS_FLASH_VALID 1
    (0, if s.fget F.TAP_READY_STATE = 1 then s2 else (s2.logEvent .firmware 255).setUpdate 1)
  else (d, (s1.fset F.TAP_FW_STATUS_FLASH_VALID 0).logEvent .firmware 255)

/-- IMAGE_COMMIT (R467, R470). -/
def execImageCommit (s : State) : Res :=
  need (s.mbxBusy 6)
    (.next (if s.imageBusy false then s.mbxRespond 4 []
    else if s.host.mbxReq.length = 2 ∧ s.mbxWord 1 ≤ 1 then
      let svn := s.imageSvn
      let r := s.imageCommit (s.mbxWord 0) (s.mbxWord 1 == 1)
      r.2.mbxRespond (if r.1 = 0 then 0 else 1) [BitVec.ofNat 32 svn, BitVec.ofNat 32 r.1]
    else s.mbxRespond 3 []))

end Sys2Proof.Machine
end

