-- ==== Sys2Proof/Machine/Place.lean ====
section
/-! DEFINITION. The package's memory: where an address lies (R19, R20, R273 to R275, R283), what a byte of it holds,
and the named operations that read and write lines of it. -/

namespace Sys2Proof.Machine

/-! ### Addresses -/

/-- The first address of the outer-tier window (R19). -/
def outerBase : Nat := 0x40000000000

/-- The first address of register space (R19). -/
def regBase : Nat := 0x3F0000000000

/-- Its size, that of BAR0; what follows it is reserved (R19, R23). -/
def regSize : Nat := 0x20000000

/-- Where a byte of memory lies: its home (0 to 15), its outer-tier port or its pseudo-channel, and the byte address
within it. -/
structure Loc where
  home : Nat
  port : Bool
  unit : Nat
  off : Nat
  deriving DecidableEq, Repr

/-- The state of a pseudo-channel: 0 Active, 1 Failing, 2 MappedOut (R282). -/
def State.pcState (s : State) (pc : Nat) : Nat := bits (s.reg .HOM_PC_STATE (pc / 32)).toNat (2 * (pc % 32)) 2

/-- Sets the state of a pseudo-channel. -/
def State.setPcState (s : State) (pc v : Nat) : State :=
  s.setReg .HOM_PC_STATE (pc / 32)
    (BitVec.ofNat 64 (setBits (s.reg .HOM_PC_STATE (pc / 32)).toNat (2 * (pc % 32)) 2 v))

/-- The number of 1 GiB ranges of the populated outer tier: 1,024 with 64 GiB devices, 2,048 with 128 GiB (R271). -/
def State.outerRanges (s : State) : Nat :=
  let size := fun h => if s.flag F.HOM_OT_STATUS_TIER_EN h then s.fget F.HOM_OT_STATUS_SIZE h else 0
  let m := (List.range 16).foldl (fun n h => max n (size h)) 0
  if m = 1 then 1024 else if m = 2 then 2048 else 0

/-- Whether a group of a tier is near (R273): HBM groups 0 to 255, outer-tier groups 0 to 127. -/
def State.nearGroup (s : State) (outer : Bool) (g : Nat) : Bool :=
  bit (s.fget F.HOM_MAP_NEAR ((if outer then 4 else 0) + g / 64)) (g % 64)

/-- The place of an HBM address (R274). -/
def State.hbmLoc (s : State) (pa : Nat) : Loc :=
  let r := pa / 2 ^ 30
  let g := r / 16
  let i := r % 16
  let gn := pa / 4096 % 2 ^ 18
  if s.nearGroup false g then
    let pc := 64 * i + ((gn % 64) ^^^ (gn / 64 % 64))
    ⟨pc / 64, false, pc, g * 2 ^ 24 + gn / 64 * 4096 + pa % 4096⟩
  else
    let pc := (gn % 1024) ^^^ (gn / 1024 * 4 + r % 4)
    ⟨pc / 64, false, pc, g * 2 ^ 24 + i * 2 ^ 20 + gn / 1024 * 4096 + pa % 4096⟩

/-- The place of an outer-tier address (R275). -/
def State.outerLoc (s : State) (pa : Nat) : Loc :=
  let u := pa - outerBase
  let r := u / 2 ^ 30
  let g := r / 16
  let i := r % 16
  let gn := u / 4096 % 2 ^ 18
  if s.nearGroup true g then ⟨i, true, i, g * 2 ^ 30 + u % 2 ^ 30⟩
  else
    let p := (gn % 16) ^^^ i
    ⟨p, true, p, g * 2 ^ 30 + i * 2 ^ 26 + gn / 16 * 4096 + u % 4096⟩

/-- The place of a populated address; `none` for an address that is a decode error (R20, R271, R283). -/
def State.locate (s : State) (pa : Nat) : Option Loc :=
  if pa < outerBase then
    let l := s.hbmLoc pa
    if s.pcState l.unit = 2 then none else some l
  else if (pa - outerBase) / 2 ^ 30 < s.outerRanges then
    let l := s.outerLoc pa
    if s.fget F.HOM_OT_STATUS_STATE l.unit = 2 ∨ s.fget F.HOM_OT_STATUS_STATE l.unit = 3 then none else some l
  else none

/-- Whether an address is populated. -/
def State.populated (s : State) (pa : Nat) : Bool := (s.locate pa).isSome

/-- Whether every byte of an extent is populated: populated granules are whole 4 KiB. -/
def State.populatedRange (s : State) (pa len : Nat) : Bool :=
  (List.range ((pa % 4096 + len + 4095) / 4096)).all (fun k => s.populated (pa / 4096 * 4096 + k * 4096))

/-- The home of a line: of the place its address decodes to, whether or not the place is mapped out (R16). -/
def State.homeOf (s : State) (line : Nat) : Nat :=
  if line * 128 < outerBase then (s.hbmLoc (line * 128)).home else (s.outerLoc (line * 128)).home

/-- The unit whose bytes a line's traffic counts against: a stack (0 to 31), or 32 + port (R287). -/
def State.tierUnit (s : State) (line : Nat) : Nat :=
  if line * 128 < outerBase then (s.hbmLoc (line * 128)).unit / 32 else 32 + (s.outerLoc (line * 128)).unit

/-! ### Lines as data -/

/-- Byte `i` of a line. -/
def lineByte (d : Line) (i : Nat) : Byte := d.extractLsb' (8 * i) 8

/-- The line whose bytes are given, from byte 0. -/
def lineOf (l : List Byte) : Line := BitVec.ofNat 1024 (Machine.ofBytes l)

/-- The bytes of a line. -/
def lineBytes (d : Line) : List Byte := toBytes d.toNat 128

/-- The bits that a byte mask of 128 bits covers. -/
def byteBits (mask : Nat) : Line :=
  BitVec.ofNat 1024 ((List.range 128).foldl (fun n i => if bit mask i then n ||| (0xFF <<< (8 * i)) else n) 0)

/-- A line with the bytes of a mask taken from another. -/
def lineMerge (old new : Line) (mask : Nat) : Line :=
  (new &&& byteBits mask) ||| (old &&& ~~~ byteBits mask)

/-- The number of `size` bytes of a line from byte `off`. -/
def lineGet (d : Line) (off size : Nat) : Nat := d.toNat / 2 ^ (8 * off) % 2 ^ (8 * size)

/-- A line with `size` bytes from `off` replaced. -/
def lineSet (d : Line) (off size v : Nat) : Line := BitVec.ofNat 1024 (setBits d.toNat (8 * off) (8 * size) v)

/-- The mask of all bytes of a line. -/
def fullMask : Nat := 2 ^ 128 - 1

/-- The mask of `len` bytes from byte `off`. -/
def maskOf (off len : Nat) : Nat := (2 ^ len - 1) * 2 ^ off

/-! ### Bytes of memory -/

/-- The interleave group of an address: HBM groups 0 to 255, outer-tier groups from 256 on. -/
def groupOf (pa : Nat) : Nat :=
  if pa < outerBase then pa / 2 ^ 34 else 256 + (pa - outerBase) / 2 ^ 34

/-- What an unlisted byte of memory reads as: 0 (log 3), or a free value in a group whose contents a change of its
interleave mode left indeterminate (R276). -/
def State.memDefault (s : State) (a : Nat) : Byte :=
  match SMap.find s.cmp.indet (groupOf a) with
  | none => 0
  | some seed => (Config.residue seed a).truncate 8

/-- A byte of memory. -/
def State.memByte (s : State) (a : Nat) : Byte := SMap.get s.cmp.mem (s.memDefault a) a

/-- Writes a byte of memory; a byte equal to what an unlisted address reads as is not listed. -/
def State.setMemByte (s : State) (a : Nat) (b : Byte) : State :=
  { s with cmp := { s.cmp with mem := SMap.set s.cmp.mem (s.memDefault a) a b } }

/-- The canonical form of the package's memory: addresses strictly rising, no byte listed that an unlisted address would
read as. -/
def State.memWf (s : State) : Bool :=
  SMap.sorted s.cmp.mem && s.cmp.mem.all (fun e => e.2 != s.memDefault e.1)

/-- A line of memory, as its home reads it. -/
def State.memLine (s : State) (line : Nat) : Line :=
  lineOf ((List.range 128).map (fun i => s.memByte (line * 128 + i)))

/-- Writes the masked bytes of a line of memory. -/
def State.setMemBytes (s : State) (line mask : Nat) (d : Line) : State :=
  (List.range 128).foldl (fun s i => if bit mask i then s.setMemByte (line * 128 + i) (lineByte d i) else s) s

/-- Whether a line of memory is poisoned (R272). -/
def State.isPoisoned (s : State) (line : Nat) : Bool := s.cmp.poison.contains line

/-- Marks a line of memory as poisoned, or as sound. -/
def State.setPoison (s : State) (line : Nat) (b : Bool) : State :=
  let rest := s.cmp.poison.filter (fun l => l != line)
  { s with cmp := { s.cmp with poison := if b then line :: rest else rest } }

/-- An uncorrectable error of memory is logged and raises source 128 of the home (R272); SRC 0 a read, 1 the patrol scrub,
2 a Heartwood verification, 3 write parity. -/
def State.memErrLog (s : State) (line src : Nat) : State :=
  let h := s.homeOf line
  let s1 :=
    if s.flag F.HOM_MEM_ERRLOG_VALID h then s.fset F.HOM_MEM_ERRLOG_MULTI 1 h
    else
      (((s.fset F.HOM_MEM_ERRLOG_VALID 1 h).fset F.HOM_MEM_ERRLOG_MULTI 0 h).fset F.HOM_MEM_ERRLOG_SRC src h).fset
        F.HOM_MEM_ERRLOG_LINE line h
  s1.event (64 + h) 128

/-- A correctable error of memory is counted (R272, R503). -/
def State.memCe (s : State) (h : Nat) : State := s.ceEvent F.HOM_MEM_CE_COUNT F.HOM_MEM_CE_SAT h (64 + h) 128

/-- A unit of memory: a pseudo-channel, or an outer-tier port. -/
inductive Chan where
  | pc (n : Nat)
  | port (h : Nat)
  deriving DecidableEq, Repr

/-- The home of a unit. -/
def Chan.home (c : Chan) : Nat :=
  match c with
  | .pc n => n / 64
  | .port h => h

/-- The state of a unit. -/
def State.chanState (s : State) (c : Chan) : Nat :=
  match c with
  | .pc n => s.pcState n
  | .port h => s.fget F.HOM_OT_STATUS_STATE h

/-- Sets the state of a unit. -/
def State.setChan (s : State) (c : Chan) (v : Nat) : State :=
  match c with
  | .pc n => s.setPcState n v
  | .port h => s.fset F.HOM_OT_STATUS_STATE v h

/-- A unit becomes Failing (R282, R497). -/
def State.failing (s : State) (c : Chan) : State :=
  if s.chanState c = 0 then (s.setChan c 1).event (64 + c.home) 129 else s

/-- The unit that a line lies on. -/
def State.chanAt (s : State) (line : Nat) : Chan :=
  let pa := line * 128
  if pa < outerBase then .pc (s.hbmLoc pa).unit else .port (s.outerLoc pa).unit

/-- The number of a unit of memory. -/
def Chan.number (c : Chan) : Nat :=
  match c with
  | .pc n => n
  | .port h => 1024 + h

/-- An uncorrectable error of a line: Taproot sets its unit Failing at the fourth distinct row within 24 h (R282, R497). -/
def State.watchUe (s : State) (line : Nat) : State :=
  let c := s.chanAt line
  let t := s.ring.discU / nsUnits
  let row := Config.memRow (line * 128)
  let old := (SMap.get s.health.chanUe [] c.number).filter (fun e => decide (t < e.2 + 86400000000000) && e.1 != row)
  let s1 : State := { s with health := { s.health with chanUe := SMap.put s.health.chanUe c.number ((row, t) :: old) } }
  if 3 ≤ old.length then s1.failing c else s1

/-- A correctable error of a unit of memory: more than 1,000 an hour for 2 consecutive hours make it Failing (R497). -/
def State.countCe (s : State) (c : Chan) : State :=
  let hour := s.ring.discU / nsUnits / 3600000000000
  let (h, n, before) := SMap.get s.health.chanCe (0, 0, false) c.number
  let e : Nat × Nat × Bool := if h = hour then (h, n + 1, before) else (hour, 1, h + 1 == hour && decide (1000 < n))
  let s1 : State := { s with health := { s.health with chanCe := SMap.put s.health.chanCe c.number e } }
  if e.2.2 ∧ 1000 < e.2.1 then s1.failing c else s1

/-- The errors of a line of memory that a read of it finds (R272): a correctable sector is counted; an uncorrectable one leaves the line
poisoned and is logged, unless the line was written as poisoned before. -/
def State.memFind (s : State) (line src : Nat) : State :=
  (s.upsetsAt .mem (fun l => l == line)).foldl (fun (s : State) u =>
    if s.isPoisoned line then s
    else if u.hard then ((s.setPoison line true).memErrLog line src).watchUe line
    else (s.memCe (s.homeOf line)).countCe (s.chanAt line)) (s.foundUpset .mem (fun l => l == line))

/-- A write of a line meets a parity error of its command, address or data (R270): where its one retry fails too, the error is
uncorrectable for the access, and the line is left as poisoned. -/
def State.writeFind (s : State) (line : Nat) : State :=
  let bad := (s.upsetsAt .memWrite (fun l => l == line)).any (·.hard)
  let s1 := s.foundUpset .memWrite (fun l => l == line)
  if bad then ((s1.setPoison line true).memErrLog line 3).watchUe line else s1

/-- The home writes a line: a write of all 128 bytes clears poison, another write leaves it (R270, R272). -/
def State.homeWrite (s : State) (line mask : Nat) (d : Line) (poison : Bool := false) : State :=
  let s1 := s.setMemBytes line mask d
  let s2 := if poison then s1.setPoison line true
    else if mask = fullMask then s1.setPoison line false
    else s1
  if s.struck .memWrite line then s2.writeFind line else s2

/-! ### Heartwood extents (R290 to R296) -/

/-- Length in bytes of one copy: data and check array (R290). -/
def hwCopyLen (len : Nat) : Nat := (len + (len + 511) / 512) * 65536

/-- The state of a region: 0 Free, 1 Loading, 2 Sealed, 3 Repairing, 4 Quarantined. -/
def State.hwState (s : State) (r : Nat) : Nat := s.fget F.HOM_HW_CTL_STATE r

/-- The base of a copy of a region: 0 the primary, 1 the replica. -/
def State.hwBase (s : State) (r copy : Nat) : Nat :=
  if copy = 0 then s.fget F.HOM_HW_PRI_BASE r * 65536 else s.fget F.HOM_HW_REP_BASE r * 65536

/-- The region, and its copy, whose extent holds an address, among the regions that `p` holds of. -/
def State.hwAt (s : State) (p : Nat → Bool) (pa : Nat) : Option (Nat × Nat) :=
  ((List.range 64).flatMap (fun r => [(r, 0), (r, 1)])).find? (fun rc =>
    p rc.1 && decide (s.hwBase rc.1 rc.2 ≤ pa) &&
      decide (pa < s.hwBase rc.1 rc.2 + hwCopyLen (s.fget F.HOM_HW_LEN_LEN rc.1)))

/-- Whether an extent overlaps a copy of a region that is not Free. -/
def State.hwOverlap (s : State) (pa len : Nat) : Bool :=
  ((List.range 64).flatMap (fun r => [(r, 0), (r, 1)])).any (fun rc =>
    s.hwState rc.1 != 0 && decide (s.hwBase rc.1 rc.2 < pa + len) &&
      decide (pa < s.hwBase rc.1 rc.2 + hwCopyLen (s.fget F.HOM_HW_LEN_LEN rc.1)))

/-- A read of an address is verified: its extent belongs to a Sealed or Repairing region (R293, R486). -/
def State.hwVerified (s : State) (pa : Nat) : Option (Nat × Nat) :=
  s.hwAt (fun r => s.hwState r == 2 || s.hwState r == 3) pa

/-- A write-type request to an address is refused (R294). -/
def State.hwRefused (s : State) (pa : Nat) : Option (Nat × Nat) :=
  s.hwAt (fun r => s.hwState r == 2 || s.hwState r == 3 || s.hwState r == 4) pa

/-- The Heartwood event of R491: a HEARTWOOD record at the home die of the block's primary copy, and source 133. -/
def State.hwEvent (s : State) (r block : Nat) (copy outcome : Nat) (poisoned : Bool) : State :=
  let pa := s.hwBase r 0 + block * 2048
  let die := 64 + s.homeOf (pa / 128)
  let info := r + copy * 256 + outcome * 512 + nb poisoned * 4096
  (s.dfqWrite die { cls := 0x15, addr := pa, info0 := info, info1 := block }).event die 133

/-- The verify buffers hold no block of a region any more. -/
def State.dropVerified (s : State) (r : Nat) : State :=
  let mine := fun (b : Nat × Nat) => (s.hwAt (fun x => x == r) (b.1 * 2048)).isSome
  { s with cmp := { s.cmp with verified := SMap.mapVals s.cmp.verified (fun _ l => l.filter (fun b => !mine b)) } }

/-- Both copies of a block failed: the region is quarantined, its extents enter the quarantine filter, and every quadrant
drops its HW lines (R489). -/
def State.hwQuarantine (s : State) (r block : Nat) (poisoned : Bool) : State :=
  let s1 := s.fset F.HOM_HW_CTL_STATE 4 r
  let s2 := { s1.dropVerified r with cmp := { (s1.dropVerified r).cmp with
    qfilter := r :: s1.cmp.qfilter.filter (fun x => x != r)
    qlines := SMap.keep s1.cmp.qlines (fun _ l => !l.hw) } }
  s2.hwEvent r block 0 3 poisoned

/-- Whether a 2 KiB block of a copy is good: no line of its data or of its check value is poisoned, and its CRC-32C is
its check value (R279, R486). The second part says that poison, not the CRC, failed it. -/
def State.hwBlockGood (s : State) (r copy block : Nat) : Bool × Bool :=
  let base := s.hwBase r copy
  let pa := base + block * 2048
  let chk := base + s.fget F.HOM_HW_LEN_LEN r * 65536 + 4 * block
  let pois := (List.range 16).any (fun i => s.isPoisoned (pa / 128 + i) || !s.populated (pa + 128 * i)) ||
    s.isPoisoned (chk / 128) || !s.populated chk
  let data := (List.range 2048).map (fun i => s.memByte (pa + i))
  let want := Machine.ofBytes ((List.range 4).map (fun i => s.memByte (chk + i)))
  (!pois && crc32c data == want, pois)

/-- The memory of a block of a copy and of its check value is read (R272, R486). -/
def State.hwFetch (s : State) (r copy block : Nat) : State :=
  let base := s.hwBase r copy
  let chk := (base + s.fget F.HOM_HW_LEN_LEN r * 65536 + 4 * block) / 128
  (((List.range 16).map (fun i => (base + block * 2048) / 128 + i)) ++ [chk]).foldl (fun (s : State) l => s.memFind l 2) s

/-- A home's verify buffer takes a block: 512 of them, the oldest leaving; the buffer holds the bytes of the copy that was good (R293). -/
def State.keepVerified (s : State) (home block copy : Nat) : State :=
  { s with cmp := { s.cmp with
    verified := SMap.put s.cmp.verified home (((block, copy) :: SMap.get s.cmp.verified [] home).take 512) } }

/-- A block of a region is verified: that of the primary, or of the replica while it is Repairing, then that of the other copy; the copy
whose block is good, with the FALLBACKS count, the records and the quarantine that follow (R292, R486). -/
def State.hwVerify (s : State) (r block : Nat) : State × Option Nat :=
  let first := if s.hwState r = 3 then 1 else 0
  let s1 := s.hwFetch r first block
  let (ok1, p1) := s1.hwBlockGood r first block
  if ok1 then (s1, some first)
  else
    let other := 1 - first
    let s2 := s1.hwFetch r other block
    let (ok2, p2) := s2.hwBlockGood r other block
    if ok2 then ((s2.fsat F.HOM_HW_CNT_FALLBACKS 1 r).hwEvent r block first 0 p1, some other)
    else (s2.hwQuarantine r block (p1 || p2), none)

/-- A verified read of a line of a region (R292, R293, R486): from the home's verify buffer, or of a block that is verified now; the
line's bytes and whether the requester receives poison. The check array itself is read as it stands. -/
def State.hwRead (s : State) (r copy line : Nat) : State × Line × Bool :=
  let off := line * 128 - s.hwBase r copy
  let at_ := fun (c : Nat) => (s.hwBase r c + off) / 128
  if s.fget F.HOM_HW_LEN_LEN r * 65536 ≤ off then
    let s1 := s.memFind line 0
    (s1, s1.memLine line, s1.isPoisoned line)
  else
    let home := s.homeOf line
    match (SMap.get s.cmp.verified [] home).find? (fun b => b.1 == line / 16) with
    | some b => (s, s.memLine (at_ b.2), false)
    | none =>
      match s.hwVerify r (off / 2048) with
      | (s1, some c) => (s1.keepVerified home (line / 16) c, s1.memLine (at_ c), false)
      | (s1, none) => (s1, 0, true)

/-- Whether an address lies in the data of a region whose reads are verified. -/
def State.hwData (s : State) (pa : Nat) : Bool :=
  match s.hwVerified pa with
  | some (r, c) => decide (pa < s.hwBase r c + s.fget F.HOM_HW_LEN_LEN r * 65536)
  | none => false

/-- A checked load of a stream engine reads data of a region: the engine verifies each block itself (R293, R486). -/
def State.hwPiece (s : State) (pieces : List (Nat × Nat)) : State × List Byte × Nat :=
  pieces.foldl (fun (x : State × List Byte × Nat) e =>
    match x.1.hwVerified e.1 with
    | none => (x.1, x.2.1 ++ List.replicate e.2 0, 0x28)
    | some (r, c) =>
      let off := e.1 - x.1.hwBase r c
      match x.1.hwVerify r (off / 2048) with
      | (s1, some g) => (s1, x.2.1 ++ (List.range e.2).map (fun i => s1.memByte (s1.hwBase r g + off + i)), x.2.2)
      | (s1, none) => (s1, x.2.1 ++ List.replicate e.2 0, 0x28)) (s, [], 0)

/-! ### Traffic counts -/

/-- A context's accounting counters change (R370). -/
def State.account (s : State) (ctx : Nat) (f : Acct → Acct) : State :=
  { s with cmp := { s.cmp with ctxs := SMap.upd s.cmp.ctxs ctx (fun c => { c with acct := f c.acct }) } }

/-- The arbiter of a stack or port serves `bytes` to a partition in this slot (R287). -/
def State.serve (s : State) (line part : Nat) (bytes : Nat) : State :=
  let k := s.tierUnit line * 1024 + part
  { s with cmp := { s.cmp with served := SMap.put s.cmp.served k (SMap.get s.cmp.served 0 k + bytes) } }

/-- The bytes that a partition has reserved in a slot at the stack or port of a line (R286). -/
def State.reservation (s : State) (line part : Nat) : Nat :=
  let u := s.tierUnit line
  if u < 32 then s.fget F.HOM_RSV_HBM_UNITS (u / 2 * 1024 + part) * 16384
  else s.fget F.HOM_RSV_OT_UNITS ((u - 32) * 1024 + part) * 16384

/-- Whether a request of a partition to a line is reserved and not best-effort: its count is below its reservation (R287), and its
stack is not in thermal emergency (R289). -/
def State.reserved (s : State) (line part : Nat) : Bool :=
  let u := s.tierUnit line
  let level := if 32 ≤ u then 0 else s.fget (if u % 2 = 0 then F.HOM_TEMP_LEVEL0 else F.HOM_TEMP_LEVEL1) (u / 2)
  level != 3 && decide (SMap.get s.cmp.served 0 (u * 1024 + part) < s.reservation line part)

/-- Counts granules of 64 B moved for a context in the tier of a line (R370). -/
def State.countTier (s : State) (ctx line n : Nat) : State :=
  s.account ctx (fun a => if line * 128 < outerBase then { a with hbm := a.hbm + n } else { a with outer := a.outer + n })

/-- The number of 64 B halves of a line that a byte mask touches (R370). -/
def halves (mask : Nat) : Nat := nb (mask % 2 ^ 64 != 0) + nb (mask / 2 ^ 64 != 0)

end Sys2Proof.Machine
end

