-- ==== Sys2Proof/Machine/Coherent.lean ====
section
/-! DEFINITION. The memory as agents without caches see it (R229): the current data of a line, reads and writes that act
at the home at once (log 15), reservations, and the arithmetic of atomics (R113, R261, R277). -/

namespace Sys2Proof.Machine

/-! ### Atomics -/

/-- The bytes of an element of a TYPE (R96, R113). -/
def typeBytes (type : Nat) : Nat := if type = 2 ∨ type = 3 ∨ type = 8 then 8 else 4

/-- The bytes of a reduction element (R328). -/
def etypeBytes (e : Nat) : Nat := if e = 1 ∨ e = 2 then 2 else if e = 5 ∨ e = 6 then 8 else 4

/-- A floating-point add, min or max of an atomic: to nearest even, NaN results canonical (R113, R277). -/
def atomFloat (f : FloatFmt) (op : AtomOp) (a b : Nat) : Nat :=
  match op with
  | .min => f.minMax false a b
  | .max => f.minMax true a b
  | _ => (f.arith 0 0 a b 0).1

/-- The same on both halves of a packed element. -/
def atomPair (f : FloatFmt) (op : AtomOp) (a b : Nat) : Nat :=
  atomFloat f op (a % 65536) (b % 65536) + 65536 * atomFloat f op (a / 65536 % 65536) (b / 65536 % 65536)

/-- An integer operation of an atomic on `w` bits. -/
def atomInt (w : Nat) (signed : Bool) (op : AtomOp) (a b c : Nat) : Nat :=
  let lt := fun (x y : Nat) => if signed then decide (sgn w x < sgn w y) else decide (x < y)
  match op with
  | .add => (a + b) % 2 ^ w
  | .min => if lt b a then b else a
  | .max => if lt a b then b else a
  | .and => a &&& b
  | .or => a ||| b
  | .xor => a ^^^ b
  | .swap => b
  | .cas => if a = b then c else a
  | .loadRsv => a
  | .storeCond => b

/-- The value of an element after one lane of an atomic (R113, R261). -/
def atomElem (op : AtomOp) (type a b c : Nat) : Nat :=
  match type with
  | 1 => atomInt 32 true op a b c
  | 2 => atomInt 64 false op a b c
  | 3 => atomInt 64 true op a b c
  | 4 => atomFloat fp32 op a b
  | 5 => atomPair fp16 op a b
  | 6 => atomPair bf16 op a b
  | 8 => atomInt 64 false op a b c
  | _ => atomInt 32 false op a b c

/-- The value of an element after one line reduction (R277). -/
def redElem (op : AtomOp) (etype a b : Nat) : Nat :=
  match etype with
  | 0 => atomFloat fp32 op a b
  | 1 => atomFloat fp16 op a b
  | 2 => atomFloat bf16 op a b
  | 3 => atomInt 32 true op a b 0
  | 5 => atomInt 64 true op a b 0
  | 6 => atomInt 64 false op a b 0
  | _ => atomInt 32 false op a b 0

/-- Performs an atomic on a line: the lanes in ascending order, each returning the value before its own turn (R261). -/
def Atom.apply (a : Atom) (d : Line) : Line × List (Nat × Nat) :=
  let n := if a.reduce then etypeBytes a.type else typeBytes a.type
  a.lanes.foldl (fun (r : Line × List (Nat × Nat)) l =>
    let old := lineGet r.1 l.off n
    let new := if a.reduce then redElem a.op a.type old l.b else atomElem a.op a.type old l.b l.c
    (lineSet r.1 l.off n new, r.2 ++ [(l.lane, old)])) (d, [])

/-! ### Reservations (R263 to R265) -/

/-- Cancels every reservation on a line but that of the group `keep` (R264). -/
def State.cancelRsvs (s : State) (line : Nat) (keep : Option Nat := none) : State :=
  { s with cmp := { s.cmp with rsvs := s.cmp.rsvs.filter (fun r => r.line != line || some r.group == keep) } }

/-- Cancels the reservation of a group (R264, R267). -/
def State.dropRsv (s : State) (group : Nat) : State :=
  { s with cmp := { s.cmp with rsvs := s.cmp.rsvs.filter (fun r => r.group != group) } }

/-- Records a reservation: an earlier one of the group is replaced, and the oldest of a home that holds 16,384 is
displaced (R112, R265). -/
def State.addRsv (s : State) (group line : Nat) : State :=
  let s1 := s.dropRsv group
  let h := s1.homeOf line
  let mine := s1.cmp.rsvs.filter (fun r => s1.homeOf r.line == h)
  let rest := if 16384 ≤ mine.length then
      match takeFirst (fun (r : Rsv) => s1.homeOf r.line == h) s1.cmp.rsvs with
      | some (_, l) => l
      | none => s1.cmp.rsvs
    else s1.cmp.rsvs
  { s1 with cmp := { s1.cmp with rsvs := rest ++ [⟨group, line⟩] } }

/-- Whether a group holds a reservation on a line. -/
def State.holdsRsv (s : State) (group line : Nat) : Bool :=
  s.cmp.rsvs.any (fun r => r.group == group && r.line == line)

/-! ### The current data of a line -/

/-- The number of a line in a quadrant cache's table. -/
def qkey (quad line : Nat) : Nat := quad * 2 ^ 39 + line

/-- The copies of a line in quadrant caches: quadrant and line. -/
def State.copies (s : State) (line : Nat) : List (Nat × QLine) :=
  (s.cmp.qlines.filter (fun e => e.1 % 2 ^ 39 == line)).map (fun e => (e.1 / 2 ^ 39, e.2))

/-- Whether a state of a copy holds data that memory may not have (R218, R224). -/
def LState.dirty (st : LState) : Bool :=
  match st with
  | .m | .o | .om | .wb => true
  | _ => false

/-- Whether a state of a copy holds valid data. -/
def LState.valid (st : LState) : Bool :=
  match st with
  | .is | .im => false
  | _ => true

/-- Whether a copy is its line's owner, with data that memory may not have. The data of a line in WB is no longer the cache's to give:
it is in WbData, at the home or in memory (R220, R231). -/
def LState.owns (st : LState) : Bool :=
  match st with
  | .m | .o | .om => true
  | _ => false

/-- Whether a message carries a line's newest data from a copy that has given it up. -/
def MsgKind.carries (k : MsgKind) : Bool :=
  match k with
  | .dataM | .snpRspData | .wbData => true
  | _ => false

/-- The quadrant that a directory entry names as the owner of a line, if there is one. -/
def DirEntry.owned (e : DirEntry) : Option Nat :=
  if e.kind = DirKind.s then none else some e.owner

/-- Whether the owner of a line is a quadrant that a tag failure stopped: its answer to a snoop is SnpPoison (R233). -/
def State.deadOwner (s : State) (line : Nat) : Bool :=
  match (SMap.find s.cmp.dir line).bind (·.owned) with
  | some q => s.cmp.qdead.contains q
  | none => false

/-- The current data of a line and its poison: of an owner, of a message on which an owner's data travels, of an open
transaction that holds it, or of memory (R229); a line whose owner a tag failure stopped is poisoned (R233). -/
def State.current (s : State) (line : Nat) : Line × Bool :=
  if s.deadOwner line then (s.memLine line, true)
  else
  match (s.copies line).find? (fun c => c.2.st.owns) with
  | some c => (c.2.data, c.2.poison)
  | none =>
    match s.cmp.net.find? (fun m => m.line == line && m.kind.carries) with
    | some m => (m.data, m.poison)
    | none =>
      match (SMap.find s.cmp.txns line).bind (·.back) with
      | some b => b
      | none => (s.memLine line, s.isPoisoned line)

/-- Whether a line has an open transaction at its home. -/
def State.lineBusy (s : State) (line : Nat) : Bool := SMap.has s.cmp.txns line

/-- Whether a message belongs to the open transaction or the write-back of its line, and not to a request that waits or to the answer
of one that has ended. -/
def Msg.inside (m : Msg) : Bool :=
  match m.kind with
  | .getS | .getM | .readOnce | .writeInvFull | .writeInvPart | .atomic | .retry | .dataOnce | .atomResult => false
  | .comp => m.acc == 0
  | _ => true

/-- What is left of a copy of a line that is invalidated: a request of its cache still waits for an answer. -/
def QLine.gone (l : QLine) : Option QLine :=
  match l.st with
  | .is => some { l with got := none, comp := none }
  | .im | .sm | .om => some { l with st := .im, got := none, comp := none }
  | _ => none

/-- The requests that the home takes back when a line's transactions are put off: that of the open transaction, unless its
CompAck is on its way, and those that wait for the way of the line (R227). -/
def State.takenBack (s : State) (line : Nat) : List Msg :=
  let acked := fun (m : Msg) => s.cmp.net.any (fun x => x.line == line && x.kind == .compAck && x.quad == m.quad)
  ((SMap.find s.cmp.txns line).bind (·.req)).toList.filter (fun m => !acked m) ++
    (s.cmp.txns.filter (fun e => e.2.victim == some line)).filterMap (fun e => e.2.req)

/-- No copy of a line is left, nor anything of its transactions: a request that has started waits again as though it had arrived
after what comes now (log 15). A write-back on its way has arrived. -/
def State.clearLine (s : State) (line : Nat) : State :=
  { s with cmp := { s.cmp with
    net := s.takenBack line ++ s.cmp.net.filter (fun m => !(m.line == line && m.inside))
    txns := SMap.keep s.cmp.txns (fun l t => l != line && t.victim != some line)
    dir := SMap.del s.cmp.dir line
    qlines := s.cmp.qlines.filterMap (fun e =>
      if e.1 % 2 ^ 39 = line then (e.2.gone).map (fun l => (e.1, l)) else some e) } }

/-- A write by an agent without a cache: the owner's data is recalled, every copy is invalidated, memory holds the
result, and reservations on the line are cancelled (R225, R229, R264). -/
def State.writeLine (s : State) (line mask : Nat) (d : Line) (poison : Bool := false) : State :=
  let s0 := s.cancelRsvs line
  let (cur, pois) := s0.current line
  let s1 := s0.clearLine line
  let s2 := if mask = fullMask then s1 else s1.homeWrite line fullMask cur pois
  s2.homeWrite line mask d poison

/-- The model's number of an agent that is neither a quadrant cache (0 to 255) nor a stream engine (256 on). -/
def otherAgent : Nat := 4096

/-- The refusal of a write by the home of a Heartwood extent: a HW_REFUSED record at the home steward that names the requester. The spec
numbers no agents and does not place the two numbers in INFO0: the agent number stands in [11:0], the Partition ID in [21:12] (R294,
R386, log 86). -/
def State.hwRefuse (s : State) (pa agent part : Nat) : State :=
  s.dfqWrite (64 + s.homeOf (pa / 128))
    { cls := 0x12, addr := pa, info0 := (Config.agentNumber agent).toNat + part % 1024 * 2 ^ 12 }

/-- The read of memory for a line that no cache owns finds its errors (R272). -/
def State.readFind (s : State) (line : Nat) : State :=
  if s.struck .mem line && !(s.copies line).any (fun c => c.2.st.owns) then s.memFind line 0 else s

/-- A read of one line by an agent without a cache: the data and 0, or the code of a decode error or of poison. -/
def State.readLine (s : State) (line : Nat) : State × Line × Nat :=
  if ¬ s.populated (line * 128) then (s, 0, 0x24)
  else
    match s.hwAt (fun r => s.hwState r == 4) (line * 128) with
    | some _ => (s, 0, 0x28)
    | none =>
      match s.hwVerified (line * 128) with
      | some (r, c) =>
        let (s1, d, p) := s.hwRead r c line
        (s1, d, if p then 0x28 else 0)
      | none =>
        let s1 := s.readFind line
        let (d, p) := s1.current line
        (s1, d, if p then 0x28 else 0)

/-- A write of masked bytes of one line by an agent without a cache: 0, or the code of a decode error; a write to a
Heartwood extent that is not writable is refused and completes (R294); `by_` are the agent and its partition. -/
def State.putLine (s : State) (line mask : Nat) (d : Line) (poison : Bool := false) (by_ : Nat × Nat := (otherAgent, 0)) : State × Nat :=
  if ¬ s.populated (line * 128) then (s, 0x24)
  else if (s.hwRefused (line * 128)).isSome then (s.hwRefuse (line * 128) by_.1 by_.2, 0)
  else (s.writeLine line mask d poison, 0)

/-- A read of bytes by an agent without a cache: the bytes, and the first error code of its lines. -/
def State.readBytes (s : State) (pa len : Nat) : State × List Byte × Nat :=
  let lines := (List.range ((pa % 128 + len + 127) / 128)).map (fun i => pa / 128 + i)
  let (s1, all, code) := lines.foldl (fun (r : State × List Byte × Nat) l =>
    let (s', d, c) := r.1.readLine l
    (s', r.2.1 ++ lineBytes d, if r.2.2 = 0 then c else r.2.2)) (s, [], 0)
  (s1, (all.drop (pa % 128)).take len, code)

/-- A write of bytes by an agent without a cache. -/
def State.writeBytes (s : State) (pa : Nat) (b : List Byte) (by_ : Nat × Nat := (otherAgent, 0)) : State × Nat :=
  let n := (pa % 128 + b.length + 127) / 128
  (List.range n).foldl (fun (r : State × Nat) i =>
    let line := pa / 128 + i
    let lo := if i = 0 then pa % 128 else 0
    let from_ := line * 128 + lo - pa
    let len := min (128 - lo) (b.length - from_)
    let d := lineOf (List.replicate lo 0 ++ (b.drop from_).take len)
    let (s', c) := r.1.putLine line (maskOf lo len) d false by_
    (s', if r.2 = 0 then c else r.2)) (s, 0)

/-- A little-endian word in memory, as an agent without a cache reads it. -/
def State.readWord (s : State) (pa len : Nat) : State × Nat × Nat :=
  let (s1, b, c) := s.readBytes pa len
  (s1, ofBytes b, c)

/-- An atomic or a line reduction performed at the home at once for an agent without a cache (R230, R278): the old
values, and the code of a decode error or of poison. -/
def State.atomLine (s : State) (line : Nat) (a : Atom) (by_ : Nat × Nat := (otherAgent, 0)) : State × List (Nat × Nat) × Nat :=
  if ¬ s.populated (line * 128) then (s, [], 0x24)
  else if (s.hwRefused (line * 128)).isSome then (s.hwRefuse (line * 128) by_.1 by_.2, [], 0x28)
  else
    let s := s.readFind line
    let (d, p) := s.current line
    if p then (s.cancelRsvs line, [], 0x28)
    else
      let (d', old) := a.apply d
      (s.writeLine line fullMask d', old, 0)

end Sys2Proof.Machine
end

