-- ==== Sys2Proof/Machine/CanopyOps.lean ====
section
/-! DEFINITION. Contexts, blocks and groups: the operations that several families share. A context's end and the stop of
its blocks (R88, R267, R347), completions of launches (R408), accounting records (R372, R373), and counters that wrap. -/

namespace Sys2Proof

/-- The number of the group that issues an instruction: core × 32 + slot (R17, R54). -/
def Who.group (w : Who) : Nat := w.core.val * 32 + w.slot.val

end Sys2Proof

namespace Sys2Proof.Machine

/-! ### Look-ups -/

/-- The context of an ID, if it is registered. -/
def State.ctx (s : State) (c : Nat) : Option Ctx := SMap.find s.cmp.ctxs c

/-- Changes a context. -/
def State.updCtx (s : State) (c : Nat) (f : Ctx → Ctx) : State :=
  { s with cmp := { s.cmp with ctxs := SMap.upd s.cmp.ctxs c f } }

/-- The group of a slot, by core × 32 + slot. -/
def State.grp (s : State) (g : Nat) : Option Grp := SMap.find s.cmp.groups g

/-- Changes a group. -/
def State.updGrp (s : State) (g : Nat) (f : Grp → Grp) : State :=
  { s with cmp := { s.cmp with groups := SMap.upd s.cmp.groups g f } }

/-- The block of a block slot, by core × 16 + slot. -/
def State.blk (s : State) (b : Nat) : Option Blk := SMap.find s.cmp.blocks b

/-- Changes a block. -/
def State.updBlk (s : State) (b : Nat) (f : Blk → Blk) : State :=
  { s with cmp := { s.cmp with blocks := SMap.upd s.cmp.blocks b f } }

/-- The number of the block that a group belongs to. -/
def blockKey (g : Nat) (grp : Grp) : Nat := g / 32 * 16 + grp.block

/-- The hardware cluster of a core (R17). -/
def clusterOf (core : Nat) : Nat := core / 8

/-- The quadrant of a core (R17). -/
def quadOf (core : Nat) : Nat := core / 32

/-- The compute die of a core (R17). -/
def dieOf (core : Nat) : Nat := core / 128

/-- The state of a core beside its registers. -/
def State.core (s : State) (c : Nat) : CoreSt := SMap.get s.cmp.cores {} c

/-- Changes the state of a core. -/
def State.updCore (s : State) (c : Nat) (f : CoreSt → CoreSt) : State :=
  { s with cmp := { s.cmp with cores := SMap.set s.cmp.cores {} c (f (s.core c)) } }

/-- A hardware cluster. -/
def State.cluster (s : State) (k : Nat) : Clus := SMap.get s.cmp.clus {} k

/-- Changes a hardware cluster. -/
def State.updCluster (s : State) (k : Nat) (f : Clus → Clus) : State :=
  { s with cmp := { s.cmp with clus := SMap.set s.cmp.clus {} k (f (s.cluster k)) } }

/-- The address of a context translation entry (R298). -/
def State.cttAddr (s : State) (c : Nat) : Nat := s.fget F.XLT_CTT_BASE_BASE * 2 ^ 20 + c * 16

/-- The context translation entry of a context: the one in effect, or what a read of the table answers, with the code of its error
(R298, R299). -/
def State.cttRead (s : State) (c : Nat) : State × Nat × Nat :=
  match (s.ctx c).bind (·.ctt) with
  | some w => (s, w, 0)
  | none => s.readWord (s.cttAddr c) 16

/-- The entry of a registered context is read where none is in effect: later changes of the table take effect only after an
invalidation of kind CONTEXT or ALL that covers the context (R299). -/
def State.cttLoad (s : State) (c : Nat) : State :=
  if ¬ s.flag F.XLT_CTT_BASE_EN then s
  else
    let (s1, w, code) := s.cttRead c
    if code = 0 then s1.updCtx c (fun x => { x with ctt := some w }) else s1

/-- The second word of a context translation entry. -/
def State.cttWord (s : State) (c : Nat) : Nat := (s.cttRead c).2.1 / 2 ^ 64

/-- The FUNC and PASID of a context (R298). -/
def State.ctxFunc (s : State) (c : Nat) : Nat × Nat :=
  let w := s.cttWord c
  (bits w 20 8, bits w 0 20)

/-- The partition's number a request of a context carries (R287). -/
def State.partOf (s : State) (c : Nat) : Nat := ((s.ctx c).map (·.partition)).getD 0

/-! ### Counters -/

/-- Adds to a 48-bit counter that wraps: a wrap sets `ovf` and raises a source of a die (R154, R234, R321, R339). -/
def State.wrapCount (s : State) (f ovf : Fld) (i n die src : Nat) : State :=
  let v := s.fget f i + n
  let s1 := s.fset f (v % 2 ^ 48) i
  if 2 ^ 48 ≤ v then (s1.fset ovf 1 i).event die src else s1

/-- Counts an event of a quadrant cache: 0 hits, 1 misses, 2 snoops, 3 Retry answers (R234). -/
def State.quadCount (s : State) (q i : Nat) (n : Nat := 1) : State :=
  s.wrapCount F.QDC_CNT_COUNT F.QDC_CNT_OVF (q * 4 + i) n (q / 4) (388 + q % 4)

/-- Counts an event of a home's directory: 0 back-invalidations, 1 Retry answers, 2 crossings, 3 coarse entries
(R235). -/
def State.dirCount (s : State) (h i : Nat) : State :=
  s.wrapCount F.HOM_DIR_CNT_COUNT F.HOM_DIR_CNT_OVF (h * 4 + i) 1 (64 + h) 132

/-- Counts an event of a quadrant TLB: 0 hits, 1 misses, 2 walks, 3 parity errors (R321). -/
def State.qtlbCount (s : State) (q i : Nat) : State :=
  s.wrapCount F.XLT_QTLB_CNT_COUNT F.XLT_QTLB_CNT_OVF (q * 4 + i) 1 (q / 4) (392 + q % 4)

/-- Counts a hit (0) or a miss (1) of a micro-TLB (R321). -/
def State.utlbCount (s : State) (k i : Nat) : State :=
  s.wrapCount F.XLT_UTLB_CNT_COUNT F.XLT_UTLB_CNT_OVF (k * 2 + i) 1 (k / 16) (396 + k % 16)

/-- Counts an event of a stream engine, numbered die × 32 + n: 0 bytes read, 1 bytes written, 2 chunks, 3 check blocks
(R339). -/
def State.steCount (s : State) (e i n : Nat) : State :=
  s.wrapCount F.STE_CNT_COUNT F.STE_CNT_OVF (e * 4 + i) n (e / 32) (412 + e % 32)

/-! ### Chunks in flight (R323, R339) -/

/-- The line requests of an extent that are outstanding until a response comes: those to host memory and to other packages. -/
def Dest.requests (d : Dest) (n : Nat) : Nat :=
  match d with
  | .stand a | .host _ _ a => (a % 128 + n + 127) / 128
  | _ => 0

/-- The most line requests that a chunk has in flight: those of its reads, then those of its puts. -/
def Chunk.lines (c : Chunk) : Nat :=
  let puts := c.dsts.foldl (fun n e => n + (match e.1 with
    | .stand _ => e.1.requests e.2
    | _ => 0)) 0
  max (c.pieces.foldl (fun n p => n + p.2) 0) puts

/-- The line requests that a chunk has in flight. -/
def Chunk.linesOut (c : Chunk) : Nat :=
  if c.putting then c.puts.foldl (fun n k => match c.dsts[k]? with
    | some e => n + e.1.requests e.2
    | none => n) 0
  else (c.srcs.zip c.pieces).foldl (fun n e => if e.1.isNone then n + e.2.2 else n) 0

/-- The chunks that an engine has in flight. -/
def State.engineChunks (s : State) (e : Nat) : List Chunk := SMap.vals (SMap.keep s.cmp.chunks (fun _ c => c.engine == e))

/-! ### Completions of launches -/

/-- A queue pair. -/
def State.qp (s : State) (q : Nat) : Qp := SMap.get s.host.qps {} q

/-- Changes a queue pair. -/
def State.updQp (s : State) (q : Nat) (f : Qp → Qp) : State :=
  { s with host := { s.host with qps := SMap.set s.host.qps {} q (f (s.qp q)) } }

/-- A completion of a pair waits to be written, in the order of completion (R409, R410). -/
def State.qpPost (s : State) (q cid status : Nat) (late : Bool := false) (info : Nat := 0) : State :=
  s.updQp q (fun p => { p with waiting := p.waiting ++ [⟨cid, status, late, info, s.now, s.uFlag⟩] })

/-- A LAUNCH of a queue pair completes (R408). Number 4,096 is no pair: the kernel of an imported context was launched on
another package (R369). -/
def State.qpComplete (s : State) (q cid status : Nat) (late : Bool := false) (info : Nat := 0) : State :=
  if 4096 ≤ q then s
  else
    (s.updQp q (fun p =>
      { p with
        started := (match takeFirst (fun (c : QCmd) => c.cid == cid) p.started with
          | some (_, l) => l
          | none => p.started) })).qpPost q cid status late info

/-! ### Accounting (R370 to R373) -/

/-- The bytes of an accounting record (R372). -/
def State.acctBytes (s : State) (c : Nat) (x : Ctx) (final : Bool) (ended : Nat) : List Byte :=
  let a := x.acct
  toBytes (c + x.partition * 2 ^ 16 + x.cls * 2 ^ 26 + nb final * 2 ^ 28 + nb s.uFlag * 2 ^ 29 +
    nb (!s.cmp.calibrated) * 2 ^ 30 + s.cmp.acctSeq % 2 ^ 32 * 2 ^ 32) 8 ++
  toBytes s.now 8 ++ toBytes s.slotNo 8 ++
  toBytes (a.coreU / nsUnits) 8 ++ toBytes (a.engineU / nsUnits) 8 ++ toBytes a.hbm 8 ++ toBytes a.outer 8 ++
  toBytes a.griga 8 ++ toBytes a.pcie 8 ++ toBytes a.energy 8 ++ toBytes a.saves 4 ++ toBytes a.forced 4 ++
  toBytes a.dropped 4 ++ toBytes a.late 4 ++ toBytes ended 1 ++ List.replicate 31 0

/-- Writes an accounting record if the ring has room: `none` when it is full (R373). -/
def State.acctWrite (s : State) (c : Nat) (final : Bool) (ended : Nat) : Option State :=
  match s.ctx c with
  | none => some s
  | some x =>
    let size := 2 ^ s.fget F.CNP_ACCT_BASE_SIZE
    let tail := s.fget F.CNP_ACCT_TAIL_TAIL
    let head := s.fget F.CNP_ACCT_HEAD_HEAD
    if (tail + 1) % size = head % size then none
    else
      let pa := s.fget F.CNP_ACCT_BASE_BASE * 4096 + tail % size * 128
      let s1 := (s.writeBytes pa (s.acctBytes c x final ended)).1
      let s2 := s1.fset F.CNP_ACCT_TAIL_TAIL ((tail + 1) % size)
      let s3 := { s2 with cmp := { s2.cmp with acctSeq := s2.cmp.acctSeq + 1 } }
      some ((s3.account c (fun a => { a with dropped := 0 })).event edge0 138)

/-- The final record of a context: it waits, with ACCT_FULL set, while the ring is full (R372, R373). -/
def State.acctFinal (s : State) (c ended : Nat) : State :=
  if ¬ s.flag F.CNP_CTL_ACCT_EN then s
  else
    match s.acctWrite c true ended with
    | some s1 => s1
    | none =>
      let s1 := s.updCtx c (fun x => { x with finalWait := x.finalWait ++ [ended] })
      if s1.flag F.CNP_STATUS_ACCT_FULL then s1
      else (s1.fset F.CNP_STATUS_ACCT_FULL 1).event edge0 138

/-- The periodic record of a context: a full ring drops and counts it (R373). -/
def State.acctPeriodic (s : State) (c : Nat) : State :=
  match s.acctWrite c false 0 with
  | some s1 => s1
  | none => s.account c (fun a => { a with dropped := min (2 ^ 32 - 1) (a.dropped + 1) })

/-! ### The stop of a context's blocks -/

/-- The attachment slot of a context (R505). -/
def State.attOf (s : State) (c : Nat) : Option Nat :=
  (List.range 16).find? (fun a => s.flag F.DBG_ATT_VALID a && s.fget F.DBG_ATT_CONTEXT a == c)

/-- A program counter is 57 bits wide (R54): what follows the last address is the first. -/
def wrapPc (n : Nat) : Nat := n % 2 ^ 57

/-- A halted or stepping group goes on: past a `brkpt` it halted at, and after its earlier stores are performed (R269, R509). -/
def Grp.goOn (g : Grp) : Grp :=
  { g with
    halted := false
    stepping := false
    settling := g.settling || g.halted
    pc := if g.halted && g.cause == 2 then wrapPc (g.pc + 8) else g.pc
    cause := 0 }

/-- An attachment ends: its breakpoints and watchpoints are cleared, and halted and stepping groups of its context
resume (R506). -/
def State.attEnd (s : State) (a : Nat) : State :=
  let c := s.fget F.DBG_ATT_CONTEXT a
  let s1 := (s.fset F.DBG_ATT_VALID 0 a).fset F.DBG_ATT_CONTEXT 0 a
  let s2 := (List.range 4).foldl (fun (s : State) j =>
    ((s.setReg .DBG_BP (a * 4 + j) 0).setReg .DBG_WP_ADDR (a * 4 + j) 0).setReg .DBG_WP_CTL (a * 4 + j) 0) s1
  { s2 with
    halts := s2.halts.filter (fun h => h.att != a)
    cmp := { s2.cmp with
      groups := SMap.mapVals s2.cmp.groups (fun _ g =>
        if g.ctx = c ∧ (g.halted ∨ g.stepping) then g.goOn else g) } }

/-- Forgets the registers of a group slot. -/
def State.clearRegs (s : State) (g : Nat) : State :=
  { s with cmp := { s.cmp with
    sregs := SMap.keep s.cmp.sregs (fun k _ => k / 64 != g)
    vregs := SMap.keep s.cmp.vregs (fun k _ => k / 8192 != g)
    preds := SMap.keep s.cmp.preds (fun k _ => k / 16 != g) } }

/-- Near-cache lines of a core are gone; dirty scalar bytes are not written (R206). -/
def State.nearDrop (s : State) (core : Nat) : State :=
  { s with cmp := { s.cmp with near := {
    l1 := SMap.keep s.cmp.near.l1 (fun k _ => k / 2 ^ 50 != core)
    sc := SMap.keep s.cmp.near.sc (fun k _ => k / 2 ^ 50 != core)
    side := SMap.keep s.cmp.near.side (fun k _ => k / 2 ^ 50 != core)
    ic := SMap.keep s.cmp.near.ic (fun k _ => k / 2 ^ 50 != core) } } }

/-- A core whose Guaranteed blocks have left has its former `BCAST_ONLY` back (R350). -/
def State.bcastBack (s : State) (core : Nat) : State :=
  match (s.core core).bcastWas with
  | none => s
  | some v => (s.fset F.MXE_CTL_BCAST_ONLY v core).updCore core (fun c => { c with bcastWas := none })

/-- The cores on which a context has blocks. -/
def State.coresOf (s : State) (c : Nat) : List Nat :=
  ((s.cmp.bclus.filter (fun e => e.2.ctx == c)).flatMap (fun e => e.2.blocks.map (·.1))).eraseDups

/-- A context's resident blocks stop as at a kill (R88, R267, R268, R338): groups, blocks, engines and stream queues are
gone; buffered stores and dirty scalar bytes are discarded; stores that the quadrant, the home or egress has accepted
complete, and deliver nothing to a register; reservations are cancelled; the context holds no cluster. -/
def State.stopBlocks (s : State) (c : Nat) : State :=
  let cores := s.coresOf c
  let gone := SMap.keys (SMap.keep s.cmp.groups (fun _ g => g.ctx == c))
  let bks := SMap.keys (SMap.keep s.cmp.blocks (fun k b =>
    match SMap.find s.cmp.bclus b.bc with
    | some x => x.ctx == c && cores.contains (k / 16)
    | none => false))
  let s1 := gone.foldl (fun (s : State) g => (s.clearRegs g).dropRsv g) s
  let s2 := cores.foldl (fun (s : State) k => (s.nearDrop k).bcastBack k) s1
  { s2 with
    halts := s2.halts.filter (fun h => !gone.contains (h.core * 32 + h.slot))
    evc := { s2.evc with waiting := s2.evc.waiting.filter (fun r => r.context != c) }
    grg := { s2.grg with egWait := s2.grg.egWait.filter (fun e =>
      match e.issuer with
      | .access a => !(s2.cmp.accs.any (fun x => x.id == a && x.ctx == c))
      | _ => true) }
    cmp := { s2.cmp with
      groups := SMap.keep s2.cmp.groups (fun _ g => g.ctx != c)
      blocks := SMap.keep s2.cmp.blocks (fun k _ => !bks.contains k)
      bclus := SMap.keep s2.cmp.bclus (fun _ b => b.ctx != c)
      engs := SMap.keep s2.cmp.engs (fun k e => !bks.contains (k / 16 * 16 + e.block))
      steqs := SMap.keep s2.cmp.steqs (fun k _ => !bks.contains (k / 2))
      chunks := SMap.keep s2.cmp.chunks (fun _ x => x.ctx != c)
      accs := (s2.cmp.accs.filter (fun a => a.ctx != c || a.sent)).map (fun a =>
        if a.ctx = c then { a with reads := [], fill := .none } else a)
      clus := SMap.mapVals s2.cmp.clus (fun _ k =>
        if k.ctx = c ∧ k.state ≠ .idle ∧ k.state ≠ .retired
        then { k with state := .idle, ctx := 0, grace := none } else k) } }

/-- A context reaches an end state (R347, R366, R368): its blocks stop, its attachment ends, its launches complete with
a status, and its final record is written. -/
def State.ctxEnd (s : State) (c : Nat) (st : CtxState) (status ended info : Nat) : State :=
  match s.ctx c with
  | none => s
  | some x =>
    let s1 := s.stopBlocks c
    let s2 := match s1.attOf c with
      | some a => s1.attEnd a
      | none => s1
    let s3 := x.launches.foldl (fun (s : State) k => s.qpComplete k.qp k.cid status k.late info) s2
    let s4 : State := { s3 with cmp := { s3.cmp with steqs := SMap.del s3.cmp.steqs (2 ^ 20 + c) } }
    (s4.updCtx c (fun x => { x with
      state := st, launches := [], slots := [], kept := [], keptXfers := [], pruning := false, exportList := [], ended := ended })).acctFinal c ended

/-- A non-recoverable exception or device error puts a context into the faulted state (R88, R127). The completion of its
launches carries the fault-ring sequence the record will have. -/
def State.ctxFault (s : State) (c : Nat) : State :=
  match s.ctx c with
  | none => s
  | some x =>
    if x.state = .faulted ∨ x.state = .killed ∨ x.state = .exported then s
    else
      let ahead := (s.evc.flight.filter (fun r => r.context == c)).length
      s.ctxEnd c .faulted 4 6 ((x.written + ahead) % 2 ^ 32)

/-- Whether a partition has an admitted Guaranteed kernel (R495, R356). -/
def State.hasGuaranteed (s : State) (p : Nat) : Bool :=
  s.cmp.ctxs.any (fun e => e.2.cls == 0 && e.2.partition == p && !e.2.launches.isEmpty)

/-- The bound-void event of Canopy for a partition (R356). -/
def State.boundVoid (s : State) (p : Nat) : State := if s.hasGuaranteed p then s.event edge0 137 else s

end Sys2Proof.Machine
end

