-- ==== Sys2Proof/Machine/Retire.lean ====
section
/-! DEFINITION. Failed cores and retired units: clusters, quadrants and compute dies (R233, R492 to R495, R501, R504). -/

namespace Sys2Proof.Machine

/-- Reported capacity changed: source 139 and a log record (R501). -/
def State.capacityChanged (s : State) : State := (s.event edge0 139).logEvent .capacity edge0

/-- A die whose units are reduced reads as degraded unless it is retired (R504). -/
def State.degrade (s : State) (die : Nat) : State :=
  if s.fget F.TAP_DIE_HEALTH_STATE die = 0 then s.fset F.TAP_DIE_HEALTH_STATE 1 die else s

/-! ### Cores -/

/-- A core has failed (R492). -/
def State.coreFailed (s : State) (core : Nat) : State :=
  if s.health.failing.contains core then s
  else { s with health := { s.health with failing := s.health.failing ++ [core] } }

/-- Nanoseconds in 24 h. -/
def dayNs : Nat := 86400000000000

/-- An uncorrectable error in a core's register, engine or control arrays; the second one within 24 h shows that the core has
failed (R492). -/
def State.coreError (s : State) (core : Nat) : State :=
  let again := match SMap.find s.health.coreErrors core with
    | some t => decide (s.localNs ≤ t + dayNs)
    | none => false
  let s1 : State := { s with health := { s.health with
    coreErrors := SMap.put s.health.coreErrors core s.localNs } }
  if again then s1.coreFailed core else s1

/-- Canopy places nothing on a cluster of which a core has failed, or on a retired one (R493, R494). -/
def State.clusterSound (s : State) (k : Nat) : Bool :=
  !s.health.failing.any (fun c => c / 8 == k) && (s.cluster k).state != .retired

/-- Whether Canopy may place blocks on a cluster, and pre-empt there: it is enabled, no take-over is under way, and the steward of
the cluster's die runs (R453, R468, R485). -/
def State.canopyActs (s : State) (k : Nat) : Bool :=
  s.flag F.CNP_CTL_EN && !s.tap.fatal && decide (SMap.get s.tap.stewardsDown 0 (k / 16) ≤ s.localNs)

/-- The pool cores free in a quadrant (R493). -/
def State.poolOf (s : State) (q : Nat) : List Nat := SMap.get s.health.pool [] q

/-- Replaces the pool of a quadrant; POOL follows (R504). -/
def State.setPool (s : State) (q : Nat) (l : List Nat) : State :=
  ({ s with health := { s.health with pool := SMap.set s.health.pool [] q l } }).fset F.TAP_QUAD_HEALTH_POOL l.length q

/-! ### Clusters, quadrants and compute dies -/

/-- The partitions that a cluster belongs to or is held by. -/
def State.partitionsAt (s : State) (k : Nat) : List Nat :=
  ((if s.flag F.CNP_CLUSTER_OWNED k then [s.fget F.CNP_CLUSTER_OWNER k] else []) ++ (s.cluster k).holder.toList).eraseDups

/-- OWNED and OWNER of a cluster become 0 in both copies (R494). -/
def State.disown (s : State) (k : Nat) : State :=
  let s1 := s.setReg .CNP_CLUSTER k 0
  { s1 with shadow := SMap.del s1.shadow (Reg.key .CNP_CLUSTER k) }

/-- The local-memory units of a core that is Off are Off, their contents lost (R192, R193). -/
def State.unitsOff (s : State) (core : Nat) : State :=
  let s1 := s.setReg .CORE_LM_POWER core (BitVec.ofNat 64 ((List.range 32).foldl (fun (n : Nat) u => n + 2 * 4 ^ u) 0))
  { s1 with cmp := { s1.cmp with
    lm := SMap.keep s1.cmp.lm (fun a _ => a / 2 ^ 20 != core)
    lmSeed := SMap.keep s1.cmp.lmSeed (fun u _ => u / 32 != core)
    lmPoison := s1.cmp.lmPoison.filter (fun g => g / 2 ^ 16 != core) } }

/-- A cluster becomes Retired and unowned, and its cores are Off (R193, R494). -/
def State.clusterMark (s : State) (k : Nat) : State :=
  let s1 := (List.range 8).foldl (fun (s : State) i => s.unitsOff (k * 8 + i)) s
  ((s1.disown k).updCluster k (fun _ => { state := .retired })).fset F.TAP_QUAD_HEALTH_CL_RETIRED
    (setBits (s.fget F.TAP_QUAD_HEALTH_CL_RETIRED (k / 4)) (k % 4) 1 1) (k / 4)

/-- A quadrant with all four clusters retired is retired (R494). -/
def State.quadMark (s : State) (q : Nat) : State :=
  if s.fget F.TAP_QUAD_HEALTH_CL_RETIRED q = 15 then
    (s.fset F.TAP_QUAD_HEALTH_RETIRED 1 q).fset F.TAP_DIE_HEALTH_QUAD_RETIRED
      (setBits (s.fget F.TAP_DIE_HEALTH_QUAD_RETIRED (q / 4)) (q % 4) 1 1) (q / 4)
  else s

/-- A compute die with all four quadrants retired is retired, and its lines are handled as R233 gives; one with a retired unit is
degraded (R494, R504). -/
def State.dieMark (s : State) (die : Nat) : State :=
  if s.fget F.TAP_DIE_HEALTH_STATE die ≠ 2 ∧ s.fget F.TAP_DIE_HEALTH_QUAD_RETIRED die = 15 then
    let qs := (List.range 4).map (fun i => 4 * die + i)
    let s1 : State := { s with cmp := { s.cmp with qdead := qs ++ s.cmp.qdead.filter (fun x => !qs.contains x) } }
    (s1.fset F.TAP_DIE_HEALTH_STATE 2 die).fset F.TAP_DIE_HEALTH_CAUSE 4 die
  else s.degrade die

/-- Retires clusters: their units, the bound-void event of the partitions that lose one, a log record, and the change of
capacity (R494, R495, R501). -/
def State.retireClusters (s : State) (ks : List Nat) : State :=
  let parts := (ks.flatMap (fun k => s.partitionsAt k)).eraseDups
  let s1 := ks.foldl (fun (s : State) k => ((s.clusterMark k).quadMark (k / 4)).dieMark (k / 16)) s
  let s2 : State := { s1 with health := { s1.health with
    failing := s1.health.failing.filter (fun c => !ks.contains (c / 8)) } }
  let s3 := parts.foldl (fun (s : State) p => s.boundVoid p) s2
  ((ks.map (· / 16)).eraseDups.foldl (fun (s : State) d => s.logEvent .retirement d) s3).capacityChanged

/-- The contexts whose blocks hold one of the clusters. -/
def State.ctxsOn (s : State) (ks : List Nat) : List Nat :=
  ((SMap.keep s.cmp.clus (fun k c => ks.contains k && c.state != .idle && c.state != .retired && c.state != .cleaning)).map
    (fun e => e.2.ctx)).eraseDups

/-- Quadrants stop accepting requests: the contexts on their clusters are faulted, and they answer every snoop with SnpPoison
from then on (R233). -/
def State.quadsStop (s : State) (qs : List Nat) : State :=
  let s1 : State := { s with cmp := { s.cmp with qdead := qs ++ s.cmp.qdead.filter (fun x => !qs.contains x) } }
  (s1.ctxsOn (qs.flatMap (fun q => [4 * q, 4 * q + 1, 4 * q + 2, 4 * q + 3]))).foldl (fun (s : State) c => s.ctxFault c) s1

/-- A quadrant is retired under R233. -/
def State.retireQuadrant (s : State) (q : Nat) : State :=
  (s.quadsStop [q]).retireClusters ([4 * q, 4 * q + 1, 4 * q + 2, 4 * q + 3].filter (fun k =>
    (s.cluster k).state != .retired))

/-- A compute die is retired: its clusters are Retired, and its lines are handled as R233 gives for each of its quadrants
(R494). -/
def State.retireComputeDie (s : State) (die cause : Nat) : State :=
  let qs := (List.range 4).map (fun i => 4 * die + i)
  let ks := ((List.range 16).map (fun i => 16 * die + i)).filter (fun k => (s.cluster k).state != .retired)
  let s1 := (s.fset F.TAP_DIE_HEALTH_STATE 2 die).fset F.TAP_DIE_HEALTH_CAUSE cause die
  (s1.quadsStop qs).retireClusters ks

end Sys2Proof.Machine
end

