-- ==== Sys2Proof/Machine/Duty.lean ====
section
/-! DEFINITION. Issue duty: the ceilings, the duty of a cluster, and what a change of a ceiling does (R14, R522 to R525). -/

namespace Sys2Proof.Machine

/-- Whether a cluster holds a Guaranteed context. -/
def State.guarAt (s : State) (k : Nat) : Bool :=
  let t := s.cluster k
  (t.state == .running || t.state == .stopping || t.state == .saving || t.state == .restoring) &&
    ((s.ctx t.ctx).map (·.cls)).getD 2 == 0

/-- The ceiling of the power controller for a cluster (R523). -/
def State.powerCeiling (s : State) (k : Nat) : Nat := if s.guarAt k then s.duty.guar else s.duty.other

/-- The ceiling of the current clamp. -/
def State.clampCeiling (s : State) : Nat := if s.duty.clamp then 8 else 16

/-- The ceiling of a compute die's thermal controller. -/
def State.heatCeiling (s : State) (k : Nat) : Nat := SMap.get s.duty.thermal 16 (k / 16)

/-- The ceiling of the host cap. -/
def State.hostCeiling (s : State) (k : Nat) : Nat := if s.guarAt k then 16 else s.fget F.TAP_PWR_LIMIT_HOSTCAP

/-- The duty of a cluster, in sixteenths: the lowest of its ceilings, and never below 1/16 (R522, R523). -/
def State.dutyOf (s : State) (k : Nat) : Nat :=
  max 1 (min (min (s.powerCeiling k) s.clampCeiling) (min (s.heatCeiling k) (min s.duty.stand (s.hostCeiling k))))

/-- The clusters in service. -/
def State.clustersUp (s : State) : List Nat := (List.range 1024).filter (fun k => (s.cluster k).state != .retired)

/-- Whether a ceiling limits a cluster: it is the lowest, and below 16/16. -/
def State.limits (s : State) (ceiling : State → Nat → Nat) : Bool :=
  s.clustersUp.any (fun k => decide (ceiling s k < 16) && decide (ceiling s k = s.dutyOf k))

/-- Whether no ceiling is below 16/16. -/
def State.dutyFree (s : State) : Bool :=
  decide (16 ≤ s.duty.other) && decide (16 ≤ s.duty.guar) && !s.duty.clamp && s.duty.thermal.isEmpty && decide (16 ≤ s.duty.stand) &&
    decide (16 ≤ s.fget F.TAP_PWR_LIMIT_HOSTCAP)

/-- The ceilings that limit a cluster, as the bits of `TAP_DUTY_STATUS`: 0 POWER, 1 CURRENT, 2 CLAMP, 3 THERMAL, 4 STANDLIM, 5 HOST
(R525, R534). -/
def State.limitSet (s : State) : Nat :=
  if s.dutyFree then 0
  else
    let power := s.limits State.powerCeiling
    nb (power && s.duty.onPin) + nb (power && s.duty.onIin) * 2 + nb s.duty.clamp * 4 + nb (s.limits State.heatCeiling) * 8 +
      nb (s.limits (fun t _ => t.duty.stand)) * 16 + nb (s.limits State.hostCeiling) * 32

/-- The lowest duty of some clusters; 16 when there is none. -/
def State.lowestDuty (s : State) (l : List Nat) : Nat :=
  if s.dutyFree then 16 else l.foldl (fun (m : Nat) k => min m (s.dutyOf k)) 16

/-- A state that follows `s`: a change of the set of limiting ceilings raises source 141 (R525). -/
def State.dutyMoved (t s : State) : State := if t.limitSet = s.limitSet then t else t.event edge0 141

/-- A ceiling changes: a change of the set of limiting ceilings raises source 141, and a Guaranteed cluster that falls further below
16/16 voids the bound of its partition (R524, R525). -/
def State.dutyChange (s : State) (f : State → State) : State :=
  let s1 := f s
  let parts := ((s1.clustersUp.filter (fun k =>
    s1.guarAt k && decide (s1.dutyOf k < 16) && decide (s1.dutyOf k < s.dutyOf k))).map (fun k =>
      s1.partOf (s1.cluster k).ctx)).eraseDups
  parts.foldl (fun (s : State) p => s.boundVoid p) (s1.dutyMoved s)

end Sys2Proof.Machine
end

