-- ==== Sys2Proof/Machine/Flags.lean ====
section
/-! DEFINITION. Conditions and flags: the comparisons of `cmp` (R100), and the sticky floating-point bits of a group
(R101). -/

namespace Sys2Proof.Machine

/-- Whether a TYPE is 64 bits wide (R96). -/
def wide (type : Nat) : Bool := type == 2 || type == 3 || type == 8

/-- The width of a TYPE in bits. -/
def typeBits (type : Nat) : Nat := if wide type then 64 else 32

/-- Whether a TYPE is ordered as signed numbers; b32 and b64 order as u32 and u64 (R535). -/
def signedType (type : Nat) : Bool := type == 1 || type == 3

/-- A condition on two ordered numbers: 0 eq, 1 ne, 2 lt, 3 le, 4 gt, 5 ge (R100). -/
def cmpOrd (cond : Nat) (lt eq : Bool) : Bool :=
  match cond with
  | 0 => eq
  | 1 => !eq
  | 2 => lt
  | 3 => lt || eq
  | 4 => !(lt || eq)
  | _ => !lt

/-- A condition on two integers of a TYPE. -/
def cmpInt (type cond a b : Nat) : Bool :=
  let w := typeBits type
  let lt := if signedType type then decide (sgn w a < sgn w b) else decide (a < b)
  cmpOrd cond lt (a == b)

/-- The comparison of two elements of a TYPE: a NaN makes every condition false but ne; a packed type gives the AND of
its halves (R100). -/
def cmpElem (type cond a b : Nat) : Bool :=
  match type with
  | 4 => fp32.compare cond a b
  | 5 => fp16.compare cond (a % 65536) (b % 65536) && fp16.compare cond (a / 65536) (b / 65536)
  | 6 => bf16.compare cond (a % 65536) (b % 65536) && bf16.compare cond (a / 65536) (b / 65536)
  | _ => cmpInt type cond a b

/-- The group's sticky bits FPFLAGS take further conditions: [0] invalid, [1] divide-by-zero, [2] overflow, [3]
underflow, [4] inexact (R101, R119). -/
def State.sticky (s : State) (g : Nat) (f : Nat) : State := s.updGrp g (fun x => { x with flags := x.flags ||| f })

end Sys2Proof.Machine
end

