-- ==== Sys2Proof/Machine/Operands.lean ====
section
/-! DEFINITION. The operands of instructions: registers of a group (R54), the forms of the second operand (R95), the
rules that make an encoding reserved (R92 to R97, R535), and the lanes an instruction acts on (R94). -/

namespace Sys2Proof.Machine

/-! ### Registers of a group; `g` is core × 32 + slot -/

/-- A scalar register. -/
def State.sReg (s : State) (g n : Nat) : Nat := (SMap.get s.cmp.sregs 0 (g * 64 + n)).toNat

/-- Writes a scalar register. -/
def State.setS (s : State) (g n v : Nat) : State :=
  { s with cmp := { s.cmp with sregs := SMap.set s.cmp.sregs 0 (g * 64 + n) (BitVec.ofNat 64 v) } }

/-- A predicate; p0 reads as all ones (R54). -/
def State.pReg (s : State) (g n : Nat) : Nat :=
  if n = 0 then 0xFFFFFFFF else (SMap.get s.cmp.preds 0 (g * 16 + n)).toNat

/-- Writes a predicate; a write to p0 is ignored (R54). -/
def State.setP (s : State) (g n v : Nat) : State :=
  if n = 0 then s
  else { s with cmp := { s.cmp with preds := SMap.set s.cmp.preds 0 (g * 16 + n) (BitVec.ofNat 32 v) } }

/-- What an unwritten vector register of a group holds: zeros, or the unspecified contents it was left with (R74,
log 4). -/
def State.vDefault (s : State) (g n lane : Nat) : W32 :=
  match (s.grp g).bind (·.seed) with
  | none => 0
  | some seed => Config.residue seed (n * 32 + lane)

/-- One lane of a vector register. -/
def State.vReg (s : State) (g n lane : Nat) : Nat :=
  (SMap.get s.cmp.vregs (s.vDefault g n lane) ((g * 256 + n) * 32 + lane)).toNat

/-- Writes one lane of a vector register. -/
def State.setV (s : State) (g n lane v : Nat) : State :=
  { s with cmp := { s.cmp with
    vregs := SMap.set s.cmp.vregs (s.vDefault g n lane) ((g * 256 + n) * 32 + lane) (BitVec.ofNat 32 v) } }

/-- One lane of a vector operand of a TYPE: a 64-bit value occupies a pair, its low half in the even register (R54). -/
def State.vVal (s : State) (g type n lane : Nat) : Nat :=
  if wide type then s.vReg g n lane + 2 ^ 32 * s.vReg g (n + 1) lane else s.vReg g n lane

/-- Writes one lane of a vector operand of a TYPE. -/
def State.setVVal (s : State) (g type n lane v : Nat) : State :=
  if wide type then (s.setV g n lane (v % 2 ^ 32)).setV g (n + 1) lane (v / 2 ^ 32) else s.setV g n lane v

/-- A scalar operand of a TYPE: 32-bit types read bits [31:0] (R99). -/
def State.sVal (s : State) (g type n : Nat) : Nat := s.sReg g n % 2 ^ typeBits type

/-- Writes `f lane` to the lanes of a mask. -/
def State.setLanes32 (s : State) (g type n mask : Nat) (f : Nat → Nat) : State :=
  (List.range 32).foldl (fun s l => if bit mask l then s.setVVal g type n l (f l) else s) s

/-- The vector registers of the group's kernel (R55). -/
def State.vregCount (s : State) (g : Nat) (grp : Grp) : Nat :=
  8 * ((s.blk (blockKey g grp)).map (·.vunits)).getD 1

/-! ### The second operand (R95) -/

/-- An 8-bit signed integer converted exactly to a TYPE; a packed type takes it in both halves. -/
def imm8 (type b : Nat) : Nat :=
  let v := sgn 8 b
  let flt := fun (f : FloatFmt) => (f.encode 0 (decide (v < 0)) v.natAbs 0).1
  match type with
  | 4 => flt fp32
  | 5 => flt fp16 * 65537
  | 6 => flt bf16 * 65537
  | _ => unsgn (typeBits type) v

/-- The second operand of a scalar instruction, of a TYPE. -/
def State.secondS (s : State) (g : Nat) (i : FmtR) (type : Nat) : Nat :=
  match i.bmode.val with
  | 2 => imm8 type i.b.val
  | 3 => i.imm.toNat % 2 ^ typeBits type
  | _ => s.sVal g type i.b.val

/-- The second operand of a vector instruction in one lane, of a TYPE. -/
def State.secondV (s : State) (g : Nat) (i : FmtR) (type lane : Nat) : Nat :=
  match i.bmode.val with
  | 0 => s.vVal g type i.b.val lane
  | 1 => s.sVal g type i.b.val
  | 2 => imm8 type i.b.val
  | _ => i.imm.toNat % 2 ^ typeBits type

/-! ### The forms of format R -/

/-- What a register field names. -/
inductive Opd where
  | no | s | v | p
  deriving DecidableEq, Repr

/-- What the second operand is: none, an operand of a scalar or of a vector instruction, a literal number in B, a
predicate in B, a scalar register under BMODE 1, or an immediate under BMODE 2 or 3 (R95, R535). -/
inductive Sec where
  | none | scalar | vector | literal | pred | sOnly | imm | imm8 | lane
  deriving DecidableEq, Repr

/-- The operand use of an instruction of format R (R535, R139, R171, R208, R325). `types` empty: TYPE must be 0. `mods`
and `auxs`: how many values of MOD and AUX are accepted. -/
structure Form where
  types : List Nat := []
  d : Opd := .no
  a : Opd := .no
  sec : Sec := .none
  c : Opd := .no
  mods : Nat := 1
  auxs : Nat := 1
  /-- the instruction takes no guard (R139, R174, R325) -/
  noGuard : Bool := false
  deriving DecidableEq, Repr

/-- Whether a field that names `o` keeps its upper bits 0, or is 0 where it names nothing (R92, R93). -/
def Opd.fits (o : Opd) (n : Nat) : Bool :=
  match o with
  | .no => n == 0
  | .s => decide (n < 64)
  | .p => decide (n < 16)
  | .v => true

/-- Whether B and BMODE are well encoded for a second operand (R95). -/
def Sec.fits (o : Sec) (i : FmtR) : Bool :=
  let b := i.b.val
  let regS := i.bmode == 1 && decide (b < 64)
  let long := i.bmode == 3 && b == 0
  match o with
  | .none => b == 0 && i.bmode == 0
  | .literal => i.bmode == 0
  | .pred => i.bmode == 0 && decide (b < 16)
  | .sOnly => regS
  | .imm => i.bmode == 2 || long
  | .imm8 => i.bmode == 2
  | .scalar => regS || i.bmode == 2 || long
  | .lane => regS || i.bmode == 2 || long
  | .vector => i.bmode == 0 || regS || i.bmode == 2 || long

/-- Whether an instruction's encoding is reserved: W without BMODE 3 or the reverse, a TYPE, MOD or AUX that its row
does not accept, a field that the row does not name or whose upper bits are set (R92 to R95, R535). -/
def Form.reserved (f : Form) (i : FmtR) : Bool :=
  !((i.w == (i.bmode == 3)) &&
    (if f.types.isEmpty then i.type == 0 else f.types.contains i.type.val) &&
    decide (i.mod.val < f.mods) && decide (i.aux.val < f.auxs) &&
    f.d.fits i.d.val && f.a.fits i.a.val && f.c.fits i.c.val && f.sec.fits i &&
    (!f.noGuard || (i.pg == 0 && !i.pneg)))

/-- The vector fields of an instruction, with whether each names a pair. -/
def Form.vectors (f : Form) (i : FmtR) : List (Nat × Bool) :=
  let w := wide i.type.val
  (if f.d = .v then [(i.d.val, w)] else []) ++ (if f.a = .v then [(i.a.val, w)] else []) ++
  (if f.c = .v then [(i.c.val, w)] else []) ++
  (if f.sec = .vector ∧ i.bmode = 0 then [(i.b.val, w)] else [])

/-- The exception of a vector field: register-range (R97), then operand-alignment (R96). -/
def vectorFault (vregs : Nat) (l : List (Nat × Bool)) : Option Nat :=
  if l.any (fun v => vregs ≤ v.1 + nb v.2) then some 0x04
  else if l.any (fun v => v.2 && v.1 % 2 == 1) then some 0x05
  else none

/-- The registers a vector field covers. -/
def vecRefs (n : Nat) (w : Bool) : List RegRef := if w then [.v n, .v (n + 1)] else [.v n]

/-- The registers that a field reads or writes. -/
def Opd.refs (o : Opd) (n : Nat) (w : Bool) : List RegRef :=
  match o with
  | .no => []
  | .s => [.s n]
  | .p => [.p n]
  | .v => vecRefs n w

/-- The registers and predicates that an instruction reads or writes, its guard included (R58, R535). -/
def Form.refs (f : Form) (i : FmtR) : List RegRef :=
  let w := wide i.type.val
  f.d.refs i.d.val w ++ f.a.refs i.a.val w ++ f.c.refs i.c.val w ++
  (match f.sec with
   | .none | .literal | .imm | .imm8 => []
   | .pred => [.p i.b.val]
   | _ => if i.bmode = 1 then [.s i.b.val] else if i.bmode = 0 then vecRefs i.b.val w else []) ++
  (if f.noGuard then [] else [.p i.pg.val])

/-- The guard's lanes (R94). -/
def State.guardMask (s : State) (g : Nat) (pg : Fin 16) (pneg : Bool) : Nat :=
  let p := s.pReg g pg.val
  if pneg then p ^^^ 0xFFFFFFFF else p

/-! ### Registers with a write pending (R58) -/

/-- The registers that a lane of a load or atomic will write. -/
def LaneRead.refs (r : LaneRead) : List RegRef :=
  if r.scalar then [.s r.dst]
  else (List.range (if r.size ≤ 4 then 1 else r.size / 4)).map (fun k => .v (r.dst + k))

/-- The registers of a group with a write pending: of loads and atomics that have not returned, of `mx.acc.rd`
entries, and of stream instructions (R58, R146). -/
def State.pendingRefs (s : State) (g : Nat) : List RegRef :=
  (s.cmp.accs.filter (fun a => a.core * 32 + a.slot == g)).flatMap (fun a => a.reads.flatMap LaneRead.refs) ++
  (s.cmp.engs.filter (fun e => e.1 / 16 == g / 32)).flatMap (fun e => e.2.queue.flatMap (fun q =>
    match q with
    | .accRd slot dst => if e.1 / 16 * 32 + slot = g then (List.range 8).map (fun k => .v (dst + k)) else []
    | _ => []))

end Sys2Proof.Machine
end

