-- ==== Sys2Proof/Machine/Translate.lean ====
section
/-! DEFINITION. Translation of an access through the TLBs (R302 to R310): look-up, rights, the quarantine filter, the
start of walks and of host translations. -/

namespace Sys2Proof.Machine

/-- The kinds of access and the rights they need (R304). -/
inductive Right where
  | fetch | read | write | atomic | loadRsv | storeCond | reduce
  deriving DecidableEq, Repr

/-- Whether an access reads, writes or is atomic, as to the rights it needs. -/
def Right.rd (r : Right) : Bool :=
  match r with
  | .fetch | .read | .loadRsv => true
  | _ => false

/-- Whether it needs WR. -/
def Right.wr (r : Right) : Bool :=
  match r with
  | .write | .storeCond | .reduce => true
  | _ => false

/-- Whether it needs AT. -/
def Right.at' (r : Right) : Bool :=
  match r with
  | .atomic | .loadRsv | .storeCond | .reduce => true
  | _ => false

/-- Whether a page's target or attribute is refused for an access (R304); for TARGET 1 ATTR has no effect (R303). -/
def Right.refused (r : Right) (target attr : Nat) : Bool :=
  match r with
  | .fetch => target == 1 || target == 2
  | .read | .write => false
  | .atomic | .reduce => (attr == 3 && target != 1) || target == 2
  | .loadRsv | .storeCond => attr == 3 || target == 1 || target == 2

/-- Where a translated access goes: target 0 a package physical address, 1 a stand address, 2 a translated host
address. -/
structure Dst where
  target : Nat
  attr : Nat
  addr : Nat
  deriving DecidableEq, Repr

/-- What a translation answers. -/
inductive Xlt where
  | hit (d : Dst)
  | fault (code : Nat)
  /-- no translation of the page is cached: a walk is needed -/
  | walk
  /-- a host translation is needed -/
  | host (func pasid : Nat)
  deriving DecidableEq, Repr

/-- The package's own Package ID (R18, R442). -/
def State.pkgId (s : State) : Nat := s.fget F.GRG_PKG_ID_ID

/-- Whether a stand address carries the package's own Package ID, which it has while the ID is valid: it is then treated as the
local address (R22, R442). -/
def State.ownStand (s : State) (a : Nat) : Bool := s.flag F.GRG_PKG_ID_V && a / 2 ^ 46 == s.pkgId

/-- Whether a cached entry covers an address of a context. -/
def Tlb.covers (t : Tlb) (ctx va : Nat) : Bool := t.ctx == ctx && decide (t.base ≤ va) && decide (va < t.base + t.size)

/-- The cached leaf, or host translation, that a cluster's look-up of an address hits: in its micro-TLB, or in its quadrant's TLB; the
Boolean is true for the micro-TLB. -/
def State.tlbHit (s : State) (cluster ctx va : Nat) (host : Bool) : Option (Tlb × Bool) :=
  match s.cmp.tlbs.find? (fun t => !t.quad && t.unit == cluster && t.host == host && t.covers ctx va) with
  | some t => some (t, true)
  | none =>
    (s.cmp.tlbs.find? (fun t => t.quad && t.unit == cluster / 4 && t.host == host && t.covers ctx va)).map (fun t => (t, false))

/-- The cached leaf of an address for a cluster. -/
def State.leaf (s : State) (cluster ctx va : Nat) : Option (Tlb × Bool) := s.tlbHit cluster ctx va false

/-- The cached host translation of an address for a cluster. -/
def State.hostLeaf (s : State) (cluster ctx va : Nat) : Option Tlb := (s.tlbHit cluster ctx va true).map (·.1)

/-- The place a package physical address gives an access of a context: Heartwood-loss in the quarantine filter for a
Tenant context (R489), a decode error where nothing is populated (R20, R21). -/
def State.physical (s : State) (service : Bool) (attr pa : Nat) : Xlt :=
  if !service && (s.hwAt (fun r => s.cmp.qfilter.contains r) pa).isSome then .fault 0x27
  else if s.populated pa then .hit ⟨0, attr, pa⟩
  else .fault 0x24

/-- The translation of an address for an access of a context on a cluster; `misses` are the outcomes of walks that an
instruction or chunk has met (R303 to R305, R310, R489). A page of the own Package ID with TARGET 1 is WB: its ATTR has no effect
(R22, R303, log 88). -/
def State.translate (s : State) (cluster ctx : Nat) (misses : List Miss) (r : Right) (va : Nat) : Xlt :=
  let service := ((s.ctx ctx).map (·.service)).getD false
  if 2 ^ 57 ≤ va then .fault 0x24
  else
    match misses.find? (fun m => decide (m.base ≤ va) && decide (va < m.base + m.size)) with
    | some m => .fault m.code
    | none =>
      if ¬ s.flag F.XLT_CTT_BASE_EN then .fault 0x24
      else
        match s.leaf cluster ctx va with
        | none => .walk
        | some (t, _) =>
          if (r.rd && !t.rd) || (r.wr && !t.wr) || (r.at' && !t.at') || r.refused t.target t.attr then .fault 0x23
          else
            let out := t.out + (va - t.base)
            match t.target with
            | 0 => s.physical service t.attr out
            | 1 => if s.ownStand out then s.physical service 0 (out % 2 ^ 46) else .hit ⟨1, t.attr, out⟩
            | _ =>
              let (f, p) := s.ctxFunc ctx
              if ¬ (s.func f).atsEnable ∨ ¬ (s.func f).priEnable then .fault 0x24
              else
                match s.hostLeaf cluster ctx va with
                | none => .host f p
                | some h => if (r.rd && !h.rd) || (r.wr && !h.wr) then .host f p else .hit ⟨2, 3, h.out + (va - h.base)⟩

/-- The number of entries a TLB keeps of those that compete for a place: 512 of a micro-TLB, 8 of a set of a quadrant
TLB (R306). -/
def Tlb.rivals (t : Tlb) (u : Tlb) : Bool :=
  t.quad == u.quad && t.unit == u.unit && (!t.quad || t.base / t.size % 1024 == u.base / u.size % 1024)

/-- Puts an entry first into a TLB; the entry used longest ago among its rivals leaves a full one (R306, log 16). -/
def State.tlbFill (s : State) (t : Tlb) : State :=
  let rest := s.cmp.tlbs.filter (fun u => !(u.quad == t.quad && u.unit == t.unit && u.host == t.host && u.covers t.ctx t.base))
  let cap := if t.quad then 8 else 512
  let rivals := rest.filter (fun u => t.rivals u)
  let rest' := if cap ≤ rivals.length then
      match rivals.getLast? with
      | some v => rest.filter (fun u => u != v)
      | none => rest
    else rest
  { s with cmp := { s.cmp with tlbs := t :: rest' } }

/-- A look-up counts, moves the entry to the front of its TLB, and a quadrant-TLB hit fills the cluster's micro-TLB
(R306, R321). -/
def State.lookUp (s : State) (cluster ctx va : Nat) (host : Bool) : State :=
  match s.tlbHit cluster ctx va host with
  | some (t, true) => (s.utlbCount cluster 0).tlbFill t
  | some (t, false) =>
    (((s.utlbCount cluster 1).qtlbCount (cluster / 4) 0).tlbFill t).tlbFill { t with quad := false, unit := cluster }
  | none => (s.utlbCount cluster 1).qtlbCount (cluster / 4) 1

/-- The look-ups of an address: of its leaf, and for a page of host memory of the host translation (R306, R310). -/
def State.tlbUse (s : State) (cluster ctx va : Nat) : State :=
  let s1 := s.lookUp cluster ctx va false
  match s.leaf cluster ctx va with
  | some (t, _) => if t.target = 2 then s1.lookUp cluster ctx va true else s1
  | none => s1

/-- The look-ups of a list of addresses, once per 64 KiB page. -/
def State.usePages (s : State) (cluster ctx : Nat) (l : List Nat) : State :=
  ((l.map (fun a => a / 65536)).eraseDups).foldl (fun (s : State) p => s.tlbUse cluster ctx (p * 65536)) s

/-- A TLB entry with a parity error is dropped and counted (R308). -/
def State.tlbDrop (cluster : Nat) (s : State) (t : Tlb) : State :=
  (({ s with cmp := { s.cmp with tlbs := s.cmp.tlbs.filter (fun u => u != t) } }).foundUpset .tlb (fun k => k == t.base / 4096)).qtlbCount
    (cluster / 4) 3

/-- Parity errors of the TLB entries that look-ups of some addresses read: the entries are dropped and counted (R308). An error lies in
the entries of the page from its place × 4 KiB (log 85). -/
def State.tlbSweep (s : State) (cluster ctx : Nat) (l : List Nat) : State :=
  let hit := fun (t : Tlb) => (if t.quad then t.unit == cluster / 4 else t.unit == cluster) && s.struck .tlb (t.base / 4096) &&
    l.any (fun a => t.covers ctx a)
  if (s.upsetsAt .tlb (fun _ => true)).isEmpty then s
  else
    (s.cmp.tlbs.filter hit).foldl (State.tlbDrop cluster) s

/-- Starts the walk of a page, unless one is in progress or the quadrant runs 16 (R307). -/
def State.startWalk (s : State) (cluster ctx va : Nat) : State :=
  let page := va / 65536
  let q := cluster / 4
  if s.cmp.walks.any (fun w => w.quad == q && w.ctx == ctx && w.page == page) then s.tlbUse cluster ctx va
  else if 16 ≤ (s.cmp.walks.filter (fun w => w.quad == q)).length then s
  else
    let s1 := (s.tlbUse cluster ctx va).qtlbCount q 2
    { s1 with cmp := { s1.cmp with walks := s1.cmp.walks ++ [{ quad := q, cluster := cluster, ctx := ctx, page := page }] } }

/-- Sends an ATS Translation Request for a page, unless one is outstanding (R310). -/
def State.startHost (s0 : State) (cluster ctx func pasid va : Nat) (write : Bool) : State :=
  let page := va / 4096
  let s := if cluster < 1024 then s0.tlbUse cluster ctx va else s0
  if s.cmp.hostXlt.any (fun h => h.ctx == ctx && h.page == page && h.cluster == cluster) then s
  else
    let h : HostXlt := { func := func, pasid := pasid, ctx := ctx, page := page, write := write, cluster := cluster }
    { (s.emit (.atsRequest func pasid (page * 4096) write)) with
      cmp := { s.cmp with hostXlt := s.cmp.hostXlt ++ [h] } }

/-- A walk or a host translation of `va` has ended: every group of the context on the quadrant that waited for the page
is ready to issue again, and takes the outcome where it is a failure. -/
def State.wake (s : State) (ctx : Nat) (on : Nat → Bool) (w : Wait) (miss : Option Miss) : State :=
  { s with cmp := { s.cmp with
    groups := SMap.mapVals s.cmp.groups (fun k g =>
      if g.ctx = ctx ∧ g.wait = w ∧ on (clusterOf (k / 32)) then { g with wait := .none, misses := miss.toList ++ g.misses }
      else g)
    steqs := SMap.mapVals s.cmp.steqs (fun k q => { q with
      xfers := q.xfers.map (fun x =>
        if x.wait = w ∧ x.ctx = ctx ∧ (2 ^ 20 ≤ k ∨ on (clusterOf (k / 32))) then { x with wait := .none, misses := miss.toList ++ x.misses }
        else x) }) } }

end Sys2Proof.Machine
end

