-- ==== Sys2Proof/Machine/Issue.lean ====
section
/-! DEFINITION. The issue of an instruction by a group, and exceptions (R57 to R59, R92 to R97, R121 to R127,
R507 to R515). -/

namespace Sys2Proof.Machine

/-! ### Exceptions -/

/-- The address that an exception without a data address names: none, so that ADDR of its record is a free value (log 79). -/
def noAddr : Nat := 2 ^ 64

/-- The instruction's or access's record in the layout of R385, before the writer numbers it. -/
def State.excRecord (s : State) (g : Nat) (grp : Grp) (code instr lanes addr : Nat) (fetch deferred ticket : Bool)
    (info0 : Nat) : FaultRec :=
  { cls := if ticket then 3 else 1
    code := code
    u := s.uFlag
    fetch := fetch && code == 0x22
    deferred := deferred
    ticket := ticket
    time := s.now
    context := grp.ctx
    partition := s.partOf grp.ctx
    core := g / 32
    slot := g % 32
    die := dieOf (g / 32)
    instr := instr
    active := grp.active
    lanes := lanes
    addr := if addr = noAddr then (Config.recordAddr code instr).toNat else addr
    info0 := info0 }

/-- A context record is on its way to the fault-ring writer (R388). -/
def State.sendRecord (s : State) (r : FaultRec) : State :=
  { s with evc := { s.evc with flight := s.evc.flight ++ [r] } }

/-- The block index of a group (R83). -/
def State.blockIndex (s : State) (g : Nat) (grp : Grp) : Nat :=
  match s.blk (blockKey g grp) with
  | none => 0
  | some b =>
    match SMap.find s.cmp.bclus b.bc with
    | none => 0
    | some x => x.number * x.size + b.rank

/-- The outstanding acquire of a group that is stopped is cancelled: its load or atomic holds nothing back any more (R269). -/
def State.cancelAcquire (s : State) (g : Nat) : State :=
  { s with cmp := { s.cmp with accs := s.cmp.accs.map (fun a => if a.core * 32 + a.slot = g then { a with acq := none } else a) } }

/-- Whether a store or atomic that is not finished has been performed at a scope (R242, R244). -/
def Access.performedAt (a : Access) (scope : Nat) : Bool :=
  if scope ≤ 2 then a.rel.isNone || a.sent
  else a.target == 1 && a.sent && decide (scope < 5)

/-- Whether every store and atomic of a group is performed at package scope (R269). -/
def State.settled (s : State) (g : Nat) : Bool :=
  s.cmp.accs.all (fun a => a.core * 32 + a.slot != g || a.kind == .load || a.performedAt 4)

/-- A group halts for a cause that is then reported (R507, R508); its reservation and its outstanding
acquire are cancelled (R264, R269). -/
def State.haltOne (s : State) (a g : Nat) (code cause : Nat) : State :=
  match s.grp g with
  | none => s
  | some grp =>
    let h : Halt := ⟨a, g / 32, g % 32, s.blockIndex g grp, grp.index, code⟩
    let s1 := (s.dropRsv g).updGrp g (fun x => { x with halted := true, stepping := false, cause := cause })
    { s1.cancelAcquire g with halts := s1.halts ++ [h] }

/-- A group halts, and with STOPALL every other resident group of its context that is not complete (R508). -/
def State.halt (s : State) (a g : Nat) (code cause : Nat := 0) : State :=
  let s1 := s.haltOne a g code cause
  if s.flag F.DBG_ATT_STOPALL a ∧ code ≠ 0xF2 then
    let c := s.fget F.DBG_ATT_CONTEXT a
    (SMap.keys (SMap.keep s1.cmp.groups (fun k x => x.ctx == c && k != g && !x.complete && !x.halted))).foldl
      (fun s k => s.haltOne a k 0xF2 0) s1
  else s1

/-- The outcome of a breakpoint, watchpoint or non-recoverable exception of a group (R127, R508, R515): a breakpoint or
watchpoint halts a group of an attached context, and so does every non-recoverable exception under TRAPFAULT; otherwise the
group issues nothing further and its context is faulted. -/
def State.outcome (s : State) (g : Nat) (r : FaultRec) (cause : Nat) : State :=
  let dead := fun (s : State) => (s.updGrp g (fun x => { x with stopped := true })).ctxFault r.context
  match s.attOf r.context with
  | some a =>
    if r.code = 0x30 ∨ r.code = 0x32 then s.halt a g r.code cause
    else if s.flag F.DBG_ATT_TRAPFAULT a then (s.halt a g r.code 0).updGrp g (fun x => { x with trapped := some r })
    else dead s
  | none => dead s

/-- An exception of a group (R123 to R127): its record is sent; a translation that is not present makes the group wait. -/
def State.except (s : State) (g : Nat) (r : FaultRec) (cause : Nat := 1) : State :=
  let s1 := ((s.dropRsv g).cancelAcquire g).sendRecord r
  if r.code = 0x22 ∧ ¬ r.deferred then s1.updGrp g (fun x => { x with wait := .fault none, misses := [] })
  else s1.outcome g r cause

/-- A precise exception of the instruction at the group's program counter (R123, R125). -/
def State.raise (s : State) (g : Nat) (code lanes addr : Nat) (fetch : Bool := false) (info0 : Nat := 0)
    (cause : Nat := 1) : State :=
  match s.grp g with
  | none => s
  | some grp => s.except g (s.excRecord g grp code grp.pc lanes addr fetch false false info0) cause

/-- A deferred exception of a group is raised: its record names the originating access (R123, R124, R332). -/
def State.raiseDeferred (s : State) (g : Nat) (d : Deferred) : State :=
  match s.grp g with
  | none => s
  | some grp =>
    let s1 := s.updGrp g (fun x => { x with deferred := x.deferred.filter (fun e => e != d) })
    s1.except g (s.excRecord g grp d.code d.pc d.lanes d.addr false true d.ticket d.info)

/-- A group holds a deferred exception (R123). -/
def State.defer (s : State) (g : Nat) (d : Deferred) : State :=
  s.updGrp g (fun x => { x with deferred := x.deferred ++ [d] })

/-! ### Readiness and instruction fetch -/

/-- Whether the block cluster of a group is wholly resident and may issue: it is not being saved or restored (R73, R359). -/
def State.clusterReady (s : State) (g : Nat) (grp : Grp) : Bool :=
  match s.blk (blockKey g grp) with
  | none => false
  | some b =>
    match SMap.find s.cmp.bclus b.bc with
    | none => false
    | some x => !x.restoring && (s.cluster x.cluster).state != .saving

/-- Whether a group may issue (R59, R73, R269, R507): it waits for nothing, is neither complete nor stopped nor halted. -/
def State.ready (s : State) (g : Nat) (grp : Grp) : Bool :=
  grp.wait == .none && !grp.complete && !grp.stopped && !grp.halted && grp.trapped.isNone && s.clusterReady g grp &&
    (!grp.settling || s.settled g)

/-- Whether a pre-emption of the group's cluster is pending (R119, R357). -/
def State.preempt (s : State) (g : Nat) : Bool := (s.cluster (clusterOf (g / 32))).grace.isSome

/-- The number of a near-cache line. -/
def ncKey (core va : Nat) : Nat := core * 2 ^ 50 + va / 128

/-- Puts a line into a core's instruction cache: 64 sets of 4 ways, the victim chosen by the hardware (R195). -/
def State.icFill (s : State) (core va : Nat) : State :=
  let k := ncKey core va
  let same := SMap.keys (SMap.keep s.cmp.near.ic (fun j _ => j / 2 ^ 50 == core && j % 64 == k % 64))
  let (n, s1) := s.pick 4
  let ic := if same.contains k then s1.cmp.near.ic
    else if 4 ≤ same.length then SMap.del s1.cmp.near.ic ((same[n]?).getD k)
    else s1.cmp.near.ic
  { s1 with cmp := { s1.cmp with near := { s1.cmp.near with ic := SMap.put ic k 0 } } }

/-- A parity error of an instruction line, found as it is looked up: the line is dropped and counted, and fetched again (R203). -/
def State.icFind (s : State) (core va : Nat) : State :=
  let k := ncKey core va
  if SMap.has s.cmp.near.ic k && s.struck .icache k then
    let s1 := s.foundUpset .icache (fun x => x == k)
    ({ s1 with cmp := { s1.cmp with near := { s1.cmp.near with ic := SMap.del s1.cmp.near.ic k } } }).ceEvent F.CORE_NC_PARITY_IC
      F.CORE_NC_PARITY_IC_SAT core (core / 128) (128 + core % 128)
  else s

/-- What the fetch of an instruction answers. -/
inductive Fetch where
  | ok (s : State)
  | wait (s : State)
  | fault (code : Nat)

/-- A group needs the walk of a page: it waits for it, or is presented again while the quadrant runs 16 others (R307). -/
def State.waitWalk (s : State) (g ctx va : Nat) : State :=
  let k := clusterOf (g / 32)
  let s1 := s.startWalk k ctx va
  if s1.cmp.walks.any (fun w => w.quad == k / 4 && w.ctx == ctx && w.page == va / 65536)
  then s1.updGrp g (fun x => { x with wait := .walk (va / 65536) }) else s1

/-- The fetch of the line of one address (R105, R203, R304): a hit, or a fill from the quadrant with the prefetch of the
next line of the 64 KiB block, or a translation fault, or the start of a walk. -/
def State.fetchLine (s : State) (g : Nat) (grp : Grp) (va : Nat) : Fetch :=
  let core := g / 32
  if SMap.has s.cmp.near.ic (ncKey core va) && !s.struck .icache (ncKey core va) then .ok s
  else
    let s := (s.icFind core va).tlbSweep (clusterOf core) grp.ctx [va]
    match s.translate (clusterOf core) grp.ctx grp.misses .fetch va with
    | .fault c => .fault c
    | .walk => .wait (s.waitWalk g grp.ctx va)
    | .host _ _ => .fault 0x23
    | .hit d =>
      if (s.current (d.addr / 128)).2 then .fault 0x28
      else
        let s1 := (s.tlbUse (clusterOf core) grp.ctx va).icFill core va
        let next := va / 128 * 128 + 128
        let pa := d.addr / 128 * 128 + 128
        if next % 65536 = 0 ∨ ¬ s.populated pa ∨ (s.current (pa / 128)).2 then .ok s1
        else .ok (s1.icFill core next)

/-! ### Issue -/

/-- What an instruction's own part answers: done, with the program counter still to advance; a jump, with the program
counter set; not ready for memory or for a unit; a precise exception with its lanes, first data address and INFO0; or that the array error its operand
names cannot come about. -/
inductive Eff where
  | done (s : State)
  | jump (s : State)
  | wait (s : State)
  | busy (s : State)
  | raise (s : State) (code lanes addr info : Nat)
  | stop

/-- What `CORE_GROUP_STATE` shows of a group whose instruction is held: 1 a register or a unit, 3 memory (R90). -/
def State.hold (s : State) (g k : Nat) : State := s.updGrp g (fun x => { x with held := k })

/-- The end of an issue: the outcomes of earlier walks are forgotten, and a stepped group halts again once it waits for
nothing (R512). -/
def State.issued (s : State) (g : Nat) : State :=
  let s1 := s.updGrp g (fun x => { x with misses := [], noMatch := false, held := 0, settling := false })
  match s1.grp g with
  | none => s1
  | some grp =>
    if grp.stepping ∧ grp.wait = .none then
      match s1.attOf grp.ctx with
      | some a => s1.halt a g 0xF0
      | none => s1
    else s1

/-- The program counter of a group moves past an instruction of `len` bytes. -/
def State.pastPc (s : State) (g len : Nat) : State := s.updGrp g (fun x => { x with pc := wrapPc (x.pc + len) })

/-- An instruction of `len` bytes is done. -/
def State.finish (s : State) (g len : Nat) : State := (s.pastPc g len).issued g

/-- Whether a breakpoint register of the context's attachment matches an address (R510). -/
def State.bpMatch (s : State) (grp : Grp) : Bool :=
  !grp.noMatch &&
    match s.attOf grp.ctx with
    | none => false
    | some a => (List.range 4).any (fun j =>
        s.flag F.DBG_BP_EN (a * 4 + j) && s.fget F.DBG_BP_ADDR (a * 4 + j) * 8 == grp.pc)

/-- What the shared issue knows of an instruction: its length, whether its encoding is reserved, its guard, the registers
it reads or writes. -/
structure Head where
  len : Nat
  reserved : Bool
  mask : Nat
  refs : List RegRef

/-- Whether the word at the group's program counter, where the sender gives it, has a CLASS and OP pair that is not assigned
(R93, R98). -/
def illegal (w : Who) : Bool :=
  match w.word with
  | none => false
  | some x => !(opcodeOf x).listed

/-- One instruction of a group (R57 to R59, R93, R94, R123, R510): a slot without a group issues nothing; a group that is
not ready, or one of whose registers has a write pending, does not issue yet; a breakpoint halts it; a CLASS and OP
pair that is not assigned, and a reserved encoding, are exceptions whatever the guard; an instruction that acts on no lane only passes; otherwise `body` says what it does
on the lanes of the mask. -/
def State.issue (s : State) (w : Who) (head : Nat → Grp → Head) (body : State → Nat → Grp → Nat → Eff) : Res :=
  let g := w.group
  match s.grp g with
  | none => stop
  | some grp =>
    if ¬ s.ready g grp then .next s
    else
      let h := head g grp
      match s.fetchLine g grp grp.pc with
      | .wait s1 => .next (s1.hold g 3)
      | .fault c => .next (s.raise g c grp.active grp.pc true)
      | .ok s0 =>
        match s0.fetchLine g grp (wrapPc (grp.pc + h.len - 1)) with
        | .wait s1 => .next (s1.hold g 3)
        | .fault c => .next (s0.raise g c grp.active (wrapPc (grp.pc + 8)) true)
        | .ok s1 =>
          if s1.bpMatch grp then .next (s1.raise g 0x30 grp.active noAddr)
          else if illegal w then .next (s1.raise g 0x01 grp.active noAddr)
          else if h.reserved then .next (s1.raise g 0x02 grp.active noAddr)
          else if (s1.pendingRefs g).any (fun r => h.refs.contains r) then .next (s1.hold g 1)
          else
            let m := grp.active &&& h.mask
            if m = 0 then .next (s1.finish g h.len)
            else
              match body s1 g grp m with
              | .done t => .next (t.finish g h.len)
              | .jump t => .next (t.issued g)
              | .wait t => .next (t.hold g 3)
              | .busy t => .next (t.hold g 1)
              | .raise t code lanes addr info => .next (t.raise g code lanes addr false info)
              | .stop => stop

/-- The length of an instruction of format R, M or C by its W (R91). -/
def lenOf (w : Bool) : Nat := if w then 16 else 8

/-- An instruction of format R under a form (R535): its vector fields are checked before it acts. -/
def State.issueR (s : State) (w : Who) (f : Form) (i : FmtR) (body : State → Nat → Grp → Nat → Eff)
    (extra : Bool := false) (vecs : List (Nat × Bool) := []) : Res :=
  s.issue w
    (fun g _ =>
      { len := lenOf i.w
        reserved := f.reserved i || extra
        mask := if f.noGuard then 0xFFFFFFFF else s.guardMask g i.pg i.pneg
        refs := f.refs i ++ vecs.flatMap (fun v => vecRefs v.1 v.2) })
    (fun t g grp m =>
      match vectorFault (t.vregCount g grp) (f.vectors i ++ vecs) with
      | some c => .raise t c m noAddr 0
      | none => body t g grp m)

/-- The lanes of a group that have not exited. -/
def Grp.live (grp : Grp) : Nat := grp.exited ^^^ 0xFFFFFFFF

end Sys2Proof.Machine
end

