-- ==== Sys2Proof/Machine/Ring.lean ====
section
/-! DEFINITION. The stand time base: samples, qualification, lock states, steps and slews (R35 to R53, R432). -/

namespace Sys2Proof.Machine

/-- Seconds in the count of a pulse (R39). -/
def secondNs : Nat := 1000000000

/-- Parts of the rate fields: a rate is counted in 10^-9 of the local count. -/
def rateUnits : Int := 1000000000

/-- What a span of the local count comes to at a rate. -/
def atRate (rate : Int) (span : Nat) : Int := (span : Int) + (span : Int) * rate / rateUnits

/-- The rate between two samples, `e` ns of the local count and `v` ns of the source apart, held within the ±50 ppm that
R47 allows the 25 MHz reference (log 80). -/
def rateOf (e : Nat) (v : Int) : Int := max (-50000) (min 50000 ((v - e) * rateUnits / (e : Int)))

/-- The source time of a track now, from its last consistent sample and its rate. -/
def Track.time (t : Track) (localNs : Nat) : Nat :=
  match t.last with
  | none => 0
  | some (l, v) => ((v : Int) + atRate t.rate (localNs - l)).toNat

/-- Takes one sample into a track: a sample within 1 µs of the time predicted from the previous ones is consistent; an
inconsistent one restarts the count of a source that is not yet qualified (R36). Four consecutive consistent samples
qualify. Answers the track and whether the sample was consistent. -/
def Track.sample (t : Track) (localNs value : Nat) : Track × Bool :=
  let predicted := t.time localNs
  if t.last.isNone ∨ (value ≤ predicted + 1000 ∧ predicted ≤ value + 1000) then
    let n := min 4 (t.count + 1)
    let rate := match t.last with
      | none => 0
      | some (l, v) => if l < localNs then rateOf (localNs - l) ((value : Int) - v) else t.rate
    ({ t with count := n, qualified := t.qualified || n == 4, last := some (localNs, value), rate := rate }, true)
  else if t.qualified then (t, false)
  else ({ t with count := 0, last := none, rate := 0 }, false)

/-- The track of a Griga port. -/
def State.portTrack (s : State) (p : Nat) : Track := SMap.get s.ring.ports {} p

/-- Replaces the track of a Griga port. -/
def State.setPortTrack (s : State) (p : Nat) (t : Track) : State :=
  { s with ring := { s.ring with ports := SMap.set s.ring.ports {} p t } }

/-- The preferred qualified Griga port: the lowest hop count, then the lowest number (R37). -/
def State.preferredPort (s : State) : Option Nat :=
  (s.ring.ports.filter (fun e => e.2.qualified)).foldl
    (fun best e => match best with
      | none => some e.1
      | some b => if (s.portTrack e.1).hop < (s.portTrack b).hop then some e.1 else some b) none

/-- Whether the source of a priority is qualified: 1 Griga, 2 PTM, 3 and 4 the pulses (R36). -/
def State.srcQualified (s : State) (k : Nat) : Bool :=
  match k with
  | 1 => s.preferredPort.isSome
  | 2 => s.ring.ptm.qualified
  | 3 => s.ring.pps0.qualified
  | 4 => s.ring.pps2.qualified
  | _ => false

/-- The highest qualified source, 0 for none. -/
def State.bestSource (s : State) : Nat :=
  if s.srcQualified 1 then 1 else if s.srcQualified 2 then 2
  else if s.srcQualified 3 then 3 else if s.srcQualified 4 then 4 else 0

/-- The track of a source: of Griga, that of the port in use. -/
def State.srcTrack (s : State) (k : Nat) : Track :=
  match k with
  | 1 => s.portTrack s.ring.port
  | 2 => s.ring.ptm
  | 3 => s.ring.pps0
  | _ => s.ring.pps2

/-- The time of a source now. -/
def State.srcTime (s : State) (k : Nat) : Nat := (s.srcTrack k).time s.localNs

/-- Since when each source has stayed qualified, and the preferred port has stayed qualified and preferred (R37, R40). -/
def State.noteQualified (s : State) : State :=
  { s with ring := { s.ring with
    since := [1, 2, 3, 4].foldl (fun (m : SMap Nat) k =>
      if s.srcQualified k then (if SMap.has m k then m else SMap.put m k s.localNs) else SMap.del m k) s.ring.since
    pref := match s.preferredPort with
      | none => none
      | some p => if s.ring.pref.map (·.1) = some p then s.ring.pref else some (p, s.localNs) } }

/-- `TB_STATUS.QUALIFIED` shows the qualified sources (R53). -/
def State.showQualified (s : State) : State :=
  s.noteQualified.fset F.TB_STATUS_QUALIFIED
    (nb (s.srcQualified 1) + 2 * nb (s.srcQualified 2) + 4 * nb (s.srcQualified 3) + 8 * nb (s.srcQualified 4))

/-- `TB_OFFSET` of a source time: source minus Ring time, saturating (R53). -/
def State.showOffset (s : State) (time : Nat) : State :=
  let d : Int := (time : Int) - s.now
  s.fset F.TB_OFFSET_OFFSET (unsgn 32 (max (-2147483647) (min 2147483647 d)))

/-- Steps the count to a source time: STEP_COUNT rises and STEP is raised; a forward step makes one boundary due; a
backward step renumbers the slots, and its next boundary is the next multiple of 250,000 ns (R43, R48). -/
def State.ringStep (s : State) (time : Nat) : State :=
  let t := time % 2 ^ 64
  (({ s with ring := { s.ring with
    ringU := t * nsUnits, slew := 0, due := decide (s.now < t)
    slot := if t < s.now then t / 250000 else s.ring.slot } }).fadd
    F.TB_STATUS_STEP_COUNT 1).event edge0 128

/-- Corrects an offset at a later lock, a switch or a sample: up to 10 µs it is slewed, more is stepped (R43). -/
def State.ringCorrect (s : State) (time : Nat) : State :=
  let d : Int := (time : Int) - s.now
  if -10000 ≤ d ∧ d ≤ 10000 then
    { s with ring := { s.ring with slew := d * (nsUnits : Int) } }
  else s.ringStep time

/-- Shows a source as selected; SRC_CHANGE is raised when it differs (R43). -/
def State.setSource (s : State) (k : Nat) : State :=
  if s.fget F.TB_STATUS_SRC = k then s else (s.fset F.TB_STATUS_SRC k).event edge0 131

/-- The count runs at the rate of the selected source (R35). -/
def State.runAt (s : State) (rate : Int) : State := { s with ring := { s.ring with rate := rate } }

/-- Selects a source and locks to it: from Unlocked by a step, otherwise by slewing or stepping (R42, R43). -/
def State.lockTo (s : State) (k : Nat) : State :=
  let st := s.fget F.TB_STATUS_STATE
  let s1 := if k = 1 then { s with ring := { s.ring with port := s.preferredPort.getD 0 } } else s
  let time := s1.srcTime k
  let s2 := (s1.runAt (s1.srcTrack k).rate).showOffset time
  let s3 := if st = 0 then s2.ringStep time else s2.ringCorrect time
  let s4 := s3.setSource k
  if st = 1 then s4 else (s4.fset F.TB_STATUS_STATE 1).event edge0 129

/-- The count is Unlocked: it runs at the local oscillator's rate and UNLOCK is raised, here and not on leaving Locked
for Holdover (R42, R43; log 72). The count goes on from the Ring time it has reached, and is not set back to the local
count since reset, which would be a step (R43; log 72). -/
def State.ringFree (s : State) : State :=
  ((({ s with ring := { s.ring with slew := 0 } }).runAt 0).fset F.TB_STATUS_STATE 0).event edge0 130

/-- The disciplined count in ns, which steps do not move (R49). -/
def State.discNs (s : State) : Nat := s.ring.discU / nsUnits

/-- No qualified source remains: Holdover at the last disciplined rate, without what is left of a slew, or Unlocked at
once with HOLD_MS = 0 (R40, R42, R53). -/
def State.ringUnlock (s : State) : State :=
  let s1 := (s.setSource 0).fset F.TB_OFFSET_OFFSET 0
  if s.fget F.TB_SRC_CFG_HOLD_MS = 0 then s1.ringFree
  else ({ s1 with ring := { s1.ring with slew := 0, holdSince := s1.discNs } }).fset F.TB_STATUS_STATE 2

/-- After the tracks have changed: the qualified sources are shown; with no source selected the highest qualified one
is taken; a lost selected source gives way to the highest that remains, or to Holdover (R36, R40, R42); and when the
Griga port in use is lost the preferred one takes over (R37). -/
def State.reselect (s0 : State) : State :=
  let s := s0.showQualified
  let k := s.fget F.TB_STATUS_SRC
  if k = 0 then (if s.bestSource = 0 then s else s.lockTo s.bestSource)
  else if ¬ s.srcQualified k then (if s.bestSource = 0 then s.ringUnlock else s.lockTo s.bestSource)
  else if k = 1 ∧ ¬ (s.portTrack s.ring.port).qualified then s.lockTo 1
  else s

/-- A consistent sample of the selected source disciplines the count (R36, R42). -/
def State.discipline (s : State) (k : Nat) (time : Nat) : State :=
  if s.fget F.TB_STATUS_SRC = k ∧ s.fget F.TB_STATUS_STATE = 1 then
    ((s.runAt (s.srcTrack k).rate).showOffset time).ringCorrect time
  else s

/-- The source time a beat gives at its arrival: T + CORR + the port's delay (R432). -/
def State.beatTime (s : State) (p : Nat) (t corr : Nat) : Nat :=
  t + (corr + s.fget F.GRG_PORT_DELAY_DELAY p) / 16

/-- A BEAT arrives on a Griga port. It counts on an enabled port and below 16 hops; a package Locked to beats relays
the beat of its port in use on its other enabled ports that are Up, with its input delay and its residence time, a
free value, added to CORR (R37, R41, R432). The spec does not say whether a beat that is discarded as inconsistent still
tells the port's hop count and master, and whether it is relayed: the model's choice is that it is and does (log 72). -/
def execBeat (port : Fin 32) (t : W64) (corr : W32) (master : Fin 16384) (hop : Fin 256) (steps : W16) (s : State) :
    Res :=
  if s.flag F.TB_SRC_CFG_EN_GRIGA ∧ ¬ s.flag F.TB_SRC_CFG_MASTER ∧ bit (s.fget F.TB_GRIGA_PORTS_PORTS) port.val ∧
      hop.val < 16 then
    let time := s.beatTime port.val t.toNat corr.toNat
    let r := (s.portTrack port.val).sample s.localNs time
    let s1 := s.setPortTrack port.val { r.1 with hop := hop.val, master := master.val }
    let s2 := s1.reselect
    let s3 := if r.2 ∧ s.ring.port = port.val ∧ s.fget F.TB_STATUS_SRC = 1 then s2.discipline 1 time else s2
    if s3.fget F.TB_STATUS_STATE = 1 ∧ s3.fget F.TB_STATUS_SRC = 1 ∧ s3.ring.port = port.val then
      let (stay, s4) := s3.take 32
      let corr' := (corr.toNat + s.fget F.GRG_PORT_DELAY_DELAY port.val + stay.toNat) % 2 ^ 32
      .next ((List.range 32).foldl (fun s p =>
        if p ≠ port.val ∧ bit (s.fget F.TB_GRIGA_PORTS_PORTS) p ∧ s.fget F.GRG_PORT_STATUS_STATE p = 4 then
          s.emit (.beat p t.toNat corr' master.val (hop.val + 1) steps.toNat)
        else s) s4)
    else .next s3
  else .next s

/-- Every 10 ms the time base starts a PTM dialogue on the PF, once the host has enabled PTM there and the source is
enabled (R36, R38, R443). -/
def execPtmRequest (s : State) : Res :=
  if s.flag F.TB_SRC_CFG_EN_PTM ∧ (s.func 0).ptmEnable then .next (s.emit .ptmRequest) else .next s

/-- A PTM dialogue completes: the host's master time plus `TB_PTM_OFFSET` is a sample (R38). -/
def execPtmDialogue (master : W64) (s : State) : Res :=
  if s.flag F.TB_SRC_CFG_EN_PTM then
    let time := (master.toNat + s.fget F.TB_PTM_OFFSET_OFFSET) % 2 ^ 64
    let r := s.ring.ptm.sample s.localNs time
    let s1 := ({ s with ring := { s.ring with ptm := r.1 } }).reselect
    .next (if r.2 ∧ s.fget F.TB_STATUS_SRC = 2 then s1.discipline 2 time else s1)
  else .next s

/-- What `TB_PPS_NEXT_SEC` holds for a pulse now: software writes within 1 µs before it apply to the following pulse;
and whether there was such a write (R39). -/
def State.secHeld (s : State) : Nat × Bool :=
  match (s.ring.secWrites.filter (fun e => decide (s.localNs ≤ e.1 + 1000))).getLast? with
  | some (_, old) => (old, true)
  | none => (s.fget F.TB_PPS_NEXT_SEC_SEC, false)

/-- The second that a pulse marks and the state with `TB_PPS_NEXT_SEC` moved on (R39): the counting input marks the
register and increments it, except that a write within 1 µs before the pulse stands for the following pulse; the other
input marks the second counted from the last pulse of the counting input. -/
def State.pulseSecond (s : State) (counting : Bool) : Nat × State :=
  let l := s.localNs
  let (sec, late) := s.secHeld
  if counting ∨ s.ring.lastPulse.isNone then
    let s1 := { s with ring := { s.ring with
      lastPulse := if counting then some l else s.ring.lastPulse, secWrites := [] } }
    (sec, if late then s1 else s1.fset F.TB_PPS_NEXT_SEC_SEC (sec + 1))
  else
    ((sec + 2 ^ 35 - 1 + (l - s.ring.lastPulse.getD 0 + secondNs / 2) / secondNs) % 2 ^ 35, s)

/-- A pulse-per-second edge on edge die 0 or, with `second`, on edge die 2 (R39). A pulse on an input that is not
enabled is not taken. -/
def execPpsPulse (second : Bool) (s : State) : Res :=
  let on0 := s.flag F.TB_SRC_CFG_EN_PPS0
  let on := if second then s.flag F.TB_SRC_CFG_EN_PPS2 else on0
  if on then
    let (sec, s1) := s.pulseSecond (second != on0)
    let time := sec * secondNs % 2 ^ 64
    let r := (if second then s.ring.pps2 else s.ring.pps0).sample s.localNs time
    let s2 := { s1 with ring := if second then { s1.ring with pps2 := r.1 } else { s1.ring with pps0 := r.1 } }
    let s3 := s2.reselect
    let k := if second then 4 else 3
    .next (if r.2 ∧ s.fget F.TB_STATUS_SRC = k then s3.discipline k time else s3)
  else .next s

/-- A track with what it holds removed: it qualifies afresh. -/
def State.dropTrack (s : State) (src : RingSrc) : State :=
  match src with
  | .port p => s.setPortTrack p.val {}
  | .ptm => { s with ring := { s.ring with ptm := {} } }
  | .pps0 => { s with ring := { s.ring with pps0 := {} } }
  | .pps2 => { s with ring := { s.ring with pps2 := {} } }

/-- "Lost after", in ns (R36). -/
def lostAfter (src : RingSrc) : Nat :=
  match src with
  | .port _ => 2000000
  | .ptm => 30000000
  | .pps0 | .pps2 => 2000000000

/-- The track of a source. -/
def State.trackOf (s : State) (src : RingSrc) : Track :=
  match src with
  | .port p => s.portTrack p.val
  | .ptm => s.ring.ptm
  | .pps0 => s.ring.pps0
  | .pps2 => s.ring.pps2

/-- How many cores hold a block of a context (R370). -/
def State.coresHeld (s : State) (c : Nat) : Nat :=
  ((s.cmp.bclus.filter (fun e => e.2.ctx == c)).flatMap (fun e => e.2.blocks.map (·.1))).eraseDups.length

/-- Lets `u` units of the local count pass: the Ring count advances at the rate of its source (R35), a slew moves it by
100 ppm meanwhile (R43), and every whole cycle of the clock counts (R119). -/
def State.pass (s : State) (u : Nat) : State :=
  let x : Int := (s.ring.phase : Int) + u * s.ring.rate
  let lim : Int := (u / 10000 : Nat)
  let d := max (-lim) (min lim s.ring.slew)
  let w := ((u : Int) + x / rateUnits + d).toNat
  { s with
    cycles := (s.cycles + ((s.ring.localU + u) / 100000 - s.ring.localU / 100000)) % 2 ^ 64
    ring := { s.ring with
      localU := s.ring.localU + u
      ringU := s.ring.ringU + w
      discU := s.ring.discU + w
      phase := (x % rateUnits).toNat
      slew := s.ring.slew - d }
    cmp := { s.cmp with ctxs := SMap.mapVals s.cmp.ctxs (fun c x =>
      { x with acct := { x.acct with coreU := x.acct.coreU + u * s.coresHeld c } }) } }

/-- The units of the local count in which the disciplined count advances by `w`. -/
def State.spanOf (s : State) (w : Nat) : Nat :=
  let slew : Int := if 0 < s.ring.slew then 100000 else if s.ring.slew < 0 then -100000 else 0
  ((w : Int) * rateUnits / (rateUnits + s.ring.rate + slew)).toNat

/-- Lets the disciplined count advance by `w` units. -/
def State.passRing (s : State) (w : Nat) : State :=
  let s1 := s.pass (s.spanOf w)
  { s1 with ring := { s1.ring with ringU := s.ring.ringU + w, discU := s.ring.discU + w } }

/-- Lets time pass until Ring time is at least `ns`: an event scheduled against Ring time has come (R49). -/
def State.reach (s : State) (ns : Nat) : State :=
  if s.now < ns then s.passRing (ns * nsUnits - s.ring.ringU) else s

/-- Lets time pass until the disciplined count is at least `ns`: an interval is over (R49). -/
def State.reachDisc (s : State) (ns : Nat) : State :=
  if s.discNs < ns then s.passRing (ns * nsUnits - s.ring.discU) else s

/-- Local time passes until a time of the local count, in ns. -/
def State.reachLocal (s : State) (ns : Nat) : State :=
  if s.localNs < ns then s.pass (ns * nsUnits - s.ring.localU) else s

/-- One cycle of the 1.1 GHz clock passes: 10/11 ns (R3, R119); an array error may come about meanwhile. -/
def State.tick (s : State) : State := (s.pass 100000).strike

/-- A source or a Griga port passes its "Lost after" time with no consistent sample: it is lost, and the time base
moves to the best source that remains or enters Holdover (R36, R37, R40). -/
def execSourceLost (src : RingSrc) (s : State) : Res :=
  match (s.trackOf src).last with
  | none => stop
  | some (l, _) => .next ((s.reachLocal (l + lostAfter src)).dropTrack src).reselect

/-- 2 s, the time that a source or a port stays qualified before the time base moves to it (R37, R40). -/
def stayNs : Nat := 2000000000

/-- A Griga port that stayed qualified and preferred for 2 s becomes the port in use (R37). -/
def execPortPreferenceSwitch (s : State) : Res :=
  match s.ring.pref with
  | none => stop
  | some (p, t) =>
    need (s.fget F.TB_STATUS_SRC == 1 && p != s.ring.port) (.next ((s.reachLocal (t + stayNs)).lockTo 1))

/-- The sources of a higher priority than the selected one that are qualified. -/
def State.higherSources (s : State) : List Nat :=
  [1, 2, 3, 4].filter (fun k => decide (k < s.fget F.TB_STATUS_SRC) && s.srcQualified k)

/-- The local time at which a source will have stayed qualified for 2 s (R40). -/
def State.stayed (s : State) (k : Nat) : Nat := SMap.get s.ring.since 0 k + stayNs

/-- The first of the higher-priority sources to have stayed qualified for 2 s is selected; of several, the one of the
highest priority (R40). -/
def execSourceSwitch (s : State) : Res :=
  match s.higherSources with
  | [] => stop
  | k :: rest =>
    let s1 := s.reachLocal (rest.foldl (fun m j => min m (s.stayed j)) (s.stayed k))
    .next (s1.lockTo (((k :: rest).find? (fun j => decide (s.stayed j ≤ s1.localNs))).getD k))

/-- Holdover turns into Unlocked after HOLD_MS with no qualified source (R42). -/
def execHoldoverExpiry (s : State) : Res :=
  need (s.fget F.TB_STATUS_STATE == 2)
    (.next (s.reachDisc (s.ring.holdSince + s.fget F.TB_SRC_CFG_HOLD_MS * 1000000)).ringFree)

/-- The high half of `TB_NOW` latched for a requester (R52). -/
def State.latchOf (s : State) (who : Requester) : Option W32 := List.lookup who s.ring.latches

/-- A read of `TB_NOW`: a 64-bit read is atomic; a 32-bit low read latches the high half for the requester; a high
read returns and consumes the latch, or returns the live half (R52). A VF is outside the register's reach (R8). -/
def execTbNowRead (who : Requester) (part : TbPart) (s : State) : Res :=
  let now := s.now
  let rest := s.ring.latches.filter (fun e => e.1 != who)
  if ¬ s.arrives who false false then
    .next (s.emit (if s.fget F.TAP_READY_STATE = 1 then .regRead who 0 else .barUnsupported 0))
  else
  match who, part with
  | .vf _, _ => .next ((s.reachRecord edge0 who 0x400008 false).emit (.regRead who 0))
  | _, .full => .next (s.emit (.regRead who (BitVec.ofNat 64 now)))
  | _, .low =>
    .next (({ s with ring := { s.ring with latches := (who, BitVec.ofNat 32 (now / 2 ^ 32)) :: rest } }).emit
      (.regRead who (BitVec.ofNat 64 (now % 2 ^ 32))))
  | _, .high =>
    match s.latchOf who with
    | some h => .next (({ s with ring := { s.ring with latches := rest } }).emit (.regRead who (BitVec.ofNat 64 h.toNat)))
    | none => .next (s.emit (.regRead who (BitVec.ofNat 64 (now / 2 ^ 32))))

/-- After a commit of TB_SRC: a source that the new set does not enable, or newly enables, starts afresh (R53); the last
pulse of the counting input is forgotten when another input counts, or it is enabled anew (R39). -/
def State.tbSrcApplied (old s : State) : State :=
  let changed := fun (f : Fld) => old.fget f != s.fget f
  let ports := s.ring.ports.filter (fun e =>
    s.flag F.TB_SRC_CFG_EN_GRIGA && !changed F.TB_SRC_CFG_EN_GRIGA && bit (s.fget F.TB_GRIGA_PORTS_PORTS) e.1)
  let r := { s.ring with
    ports := ports
    ptm := if s.flag F.TB_SRC_CFG_EN_PTM && !changed F.TB_SRC_CFG_EN_PTM then s.ring.ptm else {}
    pps0 := if s.flag F.TB_SRC_CFG_EN_PPS0 && !changed F.TB_SRC_CFG_EN_PPS0 then s.ring.pps0 else {}
    pps2 := if s.flag F.TB_SRC_CFG_EN_PPS2 && !changed F.TB_SRC_CFG_EN_PPS2 then s.ring.pps2 else {}
    lastPulse :=
      if changed F.TB_SRC_CFG_EN_PPS0 || (!s.flag F.TB_SRC_CFG_EN_PPS0 && changed F.TB_SRC_CFG_EN_PPS2) then none
      else s.ring.lastPulse }
  ({ s with ring := r }).reselect

end Sys2Proof.Machine
end

