-- ==== Sys2Proof/Machine/Scalar.lean ====
section
/-! DEFINITION. The scalar instructions of classes 0x00 and 0x01: integer arithmetic, compare, and the special registers
(R99, R100, R119, R535). -/

namespace Sys2Proof.Machine

/-- The integer types (R535). -/
def intTypes : List Nat := [0, 1, 2, 3, 7, 8]

/-- The operations that scalar and vector integer instructions share. -/
inductive IntOp where
  | add | sub | mulLo | mulHi | min | max | and | or | xor | not | shl | shr | sra
  deriving DecidableEq, Repr

/-- The types an operation accepts (R99, R535). -/
def IntOp.types (o : IntOp) : List Nat :=
  match o with
  | .mulLo | .mulHi => [0, 1]
  | .min | .max => [0, 1, 2, 3]
  | _ => intTypes

/-- Whether an operation takes a second operand. -/
def IntOp.binary (o : IntOp) : Bool := o != .not

/-- An integer operation modulo 2^n, n the width of TYPE; shift counts are taken modulo n (R99). -/
def IntOp.eval (o : IntOp) (type a b : Nat) : Nat :=
  let n := typeBits type
  let lt := fun (x y : Nat) => if signedType type then decide (sgn n x < sgn n y) else decide (x < y)
  match o with
  | .add => (a + b) % 2 ^ n
  | .sub => (a + 2 ^ n - b) % 2 ^ n
  | .mulLo => a * b % 2 ^ n
  | .mulHi => if signedType type then unsgn n (sgn n a * sgn n b / 2 ^ n) else a * b / 2 ^ n
  | .min => if lt b a then b else a
  | .max => if lt a b then b else a
  | .and => a &&& b
  | .or => a ||| b
  | .xor => a ^^^ b
  | .not => a ^^^ (2 ^ n - 1)
  | .shl => a * 2 ^ (b % n) % 2 ^ n
  | .shr => a / 2 ^ (b % n)
  | .sra => unsgn n (sgn n a / 2 ^ (b % n))

/-- The operand use of a scalar integer instruction (R535). -/
def scalarForm (o : IntOp) : Form :=
  { types := o.types, d := .s, a := .s, sec := if o.binary then .scalar else .none }

/-- A scalar integer instruction: it acts once, whatever lanes are active (R57, R94, R99). -/
def State.scalarInt (s : State) (o : IntOp) (w : Who) (i : FmtR) : Res :=
  s.issueR w (scalarForm o) i (fun t g _ _ =>
    .done (t.setS g i.d.val (o.eval i.type.val (t.sVal g i.type.val i.a.val) (t.secondS g i i.type.val))))

/-- `add` (class 0x00). -/
def execScalarAdd (w : Who) (i : FmtR) (s : State) : Res := s.scalarInt .add w i
/-- `sub`. -/
def execScalarSub (w : Who) (i : FmtR) (s : State) : Res := s.scalarInt .sub w i
/-- `mul.lo`. -/
def execScalarMulLo (w : Who) (i : FmtR) (s : State) : Res := s.scalarInt .mulLo w i
/-- `mul.hi`. -/
def execScalarMulHi (w : Who) (i : FmtR) (s : State) : Res := s.scalarInt .mulHi w i
/-- `min`. -/
def execScalarMin (w : Who) (i : FmtR) (s : State) : Res := s.scalarInt .min w i
/-- `max`. -/
def execScalarMax (w : Who) (i : FmtR) (s : State) : Res := s.scalarInt .max w i
/-- `and`. -/
def execScalarAnd (w : Who) (i : FmtR) (s : State) : Res := s.scalarInt .and w i
/-- `or`. -/
def execScalarOr (w : Who) (i : FmtR) (s : State) : Res := s.scalarInt .or w i
/-- `xor`. -/
def execScalarXor (w : Who) (i : FmtR) (s : State) : Res := s.scalarInt .xor w i
/-- `not`. -/
def execScalarNot (w : Who) (i : FmtR) (s : State) : Res := s.scalarInt .not w i
/-- `shl`. -/
def execScalarShl (w : Who) (i : FmtR) (s : State) : Res := s.scalarInt .shl w i
/-- `shr`. -/
def execScalarShr (w : Who) (i : FmtR) (s : State) : Res := s.scalarInt .shr w i
/-- `sra`. -/
def execScalarSra (w : Who) (i : FmtR) (s : State) : Res := s.scalarInt .sra w i

/-- The operand use of `sel`, scalar or vector: pC is named by C[3:0] (R535). -/
def selForm (scalar : Bool) : Form :=
  { types := intTypes, d := if scalar then .s else .v, a := if scalar then .s else .v,
    sec := if scalar then .scalar else .vector, c := .p }

/-- `sel`, scalar: A when pC is set in any lane that it acts on (R99). -/
def execScalarSel (w : Who) (i : FmtR) (s : State) : Res :=
  s.issueR w (selForm true) i (fun t g _ m =>
    .done (t.setS g i.d.val
      (if t.pReg g i.c.val &&& m ≠ 0 then t.sVal g i.type.val i.a.val else t.secondS g i i.type.val)))

/-- The operand use of `mov`, scalar or vector. -/
def movForm (scalar : Bool) : Form :=
  { types := intTypes, d := if scalar then .s else .v, sec := if scalar then .scalar else .vector }

/-- `mov`, scalar. -/
def execScalarMov (w : Who) (i : FmtR) (s : State) : Res :=
  s.issueR w (movForm true) i (fun t g _ _ => .done (t.setS g i.d.val (t.secondS g i i.type.val)))

/-- `cmp`, scalar: the same bit into all 32 lanes of the predicate (R94, R100). -/
def execScalarCmp (w : Who) (i : FmtR) (s : State) : Res :=
  s.issueR w { types := intTypes, d := .p, a := .s, sec := .scalar, mods := 6 } i (fun t g _ _ =>
    let r := cmpInt i.type.val i.mod.val (t.sVal g i.type.val i.a.val) (t.secondS g i i.type.val)
    .done (t.setP g i.d.val (if r then 0xFFFFFFFF else 0)))

/-- The numbers of the special registers (R119). -/
def specialNumbers : List Nat :=
  [0x00, 0x01, 0x02, 0x03, 0x04, 0x05, 0x06, 0x07, 0x08, 0x09, 0x0A, 0x0B, 0x10, 0x11, 0x12, 0x14, 0x15, 0x16, 0x17,
   0x18, 0x19]

/-- The value of a special register (R119). -/
def State.special (s : State) (g : Nat) (grp : Grp) (n : Nat) : Nat :=
  let b := (s.blk (blockKey g grp)).getD {}
  let x := SMap.find s.cmp.bclus b.bc
  match n with
  | 0x01 => grp.index
  | 0x02 => s.blockIndex g grp
  | 0x03 => (x.map (·.number)).getD 0
  | 0x04 => b.rank
  | 0x05 => (x.map (·.grid.1)).getD 0
  | 0x06 => (x.map (·.grid.2.1)).getD 0
  | 0x07 => (x.map (·.grid.2.2)).getD 0
  | 0x08 => g / 32
  | 0x09 => grp.ctx
  | 0x0A => s.partOf grp.ctx
  | 0x0B => 8 * b.vunits + b.units.length * 2 ^ 16 + b.engines.length * 2 ^ 32 + ((x.map (·.size)).getD 0) * 2 ^ 40
  | 0x10 => s.now
  | 0x11 => s.fget F.TB_STATUS_STATE + nb s.uFlag * 4 + s.fget F.TB_STATUS_STEP_COUNT * 2 ^ 16
  | 0x12 => s.slotNo
  | 0x14 => s.cycles
  | 0x15 => s.dutyOf (clusterOf (g / 32))
  | 0x16 => grp.active
  | 0x17 => grp.exited
  | 0x18 => grp.flags
  | 0x19 => nb (s.preempt g)
  | _ => 0

/-- `sr.rd`: a special register into a scalar register, LANEID into a vector register (R119). -/
def execSrRd (w : Who) (i : FmtR) (s : State) : Res :=
  let lane := i.b == 0
  let f : Form := { d := if lane then .v else .s, sec := .literal }
  s.issueR w f i (fun t g grp m =>
    if lane then .done (t.setLanes32 g 0 i.d.val m (fun l => l))
    else .done (t.setS g i.d.val (t.special g grp i.b.val)))
    (!specialNumbers.contains i.b.val)

/-- `sr.wr`: accepted for FPFLAGS only; a privilege exception for any other special register (R119). -/
def execSrWr (w : Who) (i : FmtR) (s : State) : Res :=
  s.issueR w { a := .s, sec := .literal } i (fun t g _ m =>
    if i.b.val = 0x18 then .done (t.updGrp g (fun x => { x with flags := t.sReg g i.a.val % 32 }))
    else .raise t 0x03 m noAddr 0)
    (!specialNumbers.contains i.b.val)

end Sys2Proof.Machine
end

