-- ==== Sys2Proof/Machine/Vector.lean ====
section
/-! DEFINITION. The vector instructions of classes 0x04 to 0x08: integer and logic, compare, predicate logic, floating
point, special functions, and lane exchange (R99 to R104, R535). -/

namespace Sys2Proof.Machine

/-- The operand use of a vector integer instruction: that of the scalar row with vector registers (R535). -/
def vectorForm (o : IntOp) : Form :=
  { types := o.types, d := .v, a := .v, sec := if o.binary then .vector else .none }

/-- A vector integer instruction, in each lane it acts on (R57, R94, R99). -/
def State.vectorInt (s : State) (o : IntOp) (w : Who) (i : FmtR) : Res :=
  s.issueR w (vectorForm o) i (fun t g _ m =>
    .done (t.setLanes32 g i.type.val i.d.val m (fun l =>
      o.eval i.type.val (t.vVal g i.type.val i.a.val l) (t.secondV g i i.type.val l))))

/-- `add` (class 0x04). -/
def execVectorAdd (w : Who) (i : FmtR) (s : State) : Res := s.vectorInt .add w i
/-- `sub`. -/
def execVectorSub (w : Who) (i : FmtR) (s : State) : Res := s.vectorInt .sub w i
/-- `mul.lo`. -/
def execVectorMulLo (w : Who) (i : FmtR) (s : State) : Res := s.vectorInt .mulLo w i
/-- `mul.hi`. -/
def execVectorMulHi (w : Who) (i : FmtR) (s : State) : Res := s.vectorInt .mulHi w i
/-- `min`. -/
def execVectorMin (w : Who) (i : FmtR) (s : State) : Res := s.vectorInt .min w i
/-- `max`. -/
def execVectorMax (w : Who) (i : FmtR) (s : State) : Res := s.vectorInt .max w i
/-- `and`. -/
def execVectorAnd (w : Who) (i : FmtR) (s : State) : Res := s.vectorInt .and w i
/-- `or`. -/
def execVectorOr (w : Who) (i : FmtR) (s : State) : Res := s.vectorInt .or w i
/-- `xor`. -/
def execVectorXor (w : Who) (i : FmtR) (s : State) : Res := s.vectorInt .xor w i
/-- `not`. -/
def execVectorNot (w : Who) (i : FmtR) (s : State) : Res := s.vectorInt .not w i
/-- `shl`. -/
def execVectorShl (w : Who) (i : FmtR) (s : State) : Res := s.vectorInt .shl w i
/-- `shr`. -/
def execVectorShr (w : Who) (i : FmtR) (s : State) : Res := s.vectorInt .shr w i
/-- `sra`. -/
def execVectorSra (w : Who) (i : FmtR) (s : State) : Res := s.vectorInt .sra w i

/-- `sel`, vector: A where pC is set, the second operand where it is clear (R99). -/
def execVectorSel (w : Who) (i : FmtR) (s : State) : Res :=
  s.issueR w (selForm false) i (fun t g _ m =>
    .done (t.setLanes32 g i.type.val i.d.val m (fun l =>
      if bit (t.pReg g i.c.val) l then t.vVal g i.type.val i.a.val l else t.secondV g i i.type.val l)))

/-- `mov`, vector. -/
def execVectorMov (w : Who) (i : FmtR) (s : State) : Res :=
  s.issueR w (movForm false) i (fun t g _ m =>
    .done (t.setLanes32 g i.type.val i.d.val m (fun l => t.secondV g i i.type.val l)))

/-- `mad.lo`: (A × B + C) mod 2^32 (R99). -/
def execVectorMadLo (w : Who) (i : FmtR) (s : State) : Res :=
  s.issueR w { types := [0, 1], d := .v, a := .v, sec := .vector, c := .v } i (fun t g _ m =>
    .done (t.setLanes32 g 0 i.d.val m (fun l =>
      (t.vReg g i.a.val l * t.secondV g i 0 l + t.vReg g i.c.val l) % 2 ^ 32)))

/-- The mask of the lanes of `m` in which a condition holds. -/
def laneMask (m : Nat) (f : Nat → Bool) : Nat :=
  (List.range 32).foldl (fun n l => if bit m l && f l then n ||| 2 ^ l else n) 0

/-- Writes the lanes `m` of a predicate; its other bits keep their values (R100). -/
def State.setPLanes (s : State) (g n m v : Nat) : State :=
  s.setP g n ((s.pReg g n &&& (m ^^^ 0xFFFFFFFF)) ||| (v &&& m))

/-- `cmp`, vector: the lanes it acts on of the predicate (R100). -/
def execVectorCmp (w : Who) (i : FmtR) (s : State) : Res :=
  s.issueR w { types := [0, 1, 2, 3, 4, 5, 6, 7, 8], d := .p, a := .v, sec := .vector, mods := 6 } i (fun t g _ m =>
    .done (t.setPLanes g i.d.val m (laneMask m (fun l =>
      cmpElem i.type.val i.mod.val (t.vVal g i.type.val i.a.val l) (t.secondV g i i.type.val l)))))

/-- Predicate logic on the lanes it acts on (R535). -/
def State.predOp (s : State) (f : Nat → Nat → Nat) (two : Bool) (w : Who) (i : FmtR) : Res :=
  s.issueR w { d := .p, a := .p, sec := if two then .pred else .none } i (fun t g _ m =>
    .done (t.setPLanes g i.d.val m (f (t.pReg g i.a.val) (t.pReg g i.b.val))))

/-- `pand`. -/
def execPand (w : Who) (i : FmtR) (s : State) : Res := s.predOp (fun a b => a &&& b) true w i
/-- `por`. -/
def execPor (w : Who) (i : FmtR) (s : State) : Res := s.predOp (fun a b => a ||| b) true w i
/-- `pxor`. -/
def execPxor (w : Who) (i : FmtR) (s : State) : Res := s.predOp (fun a b => a ^^^ b) true w i
/-- `pnot`. -/
def execPnot (w : Who) (i : FmtR) (s : State) : Res := s.predOp (fun a _ => a ^^^ 0xFFFFFFFF) false w i

/-! ### Floating point (R101) -/

/-- A floating-point element operation of a TYPE on three operands, with the flags it raises: binary32, or each half of
a packed type. -/
def floatElem (f : FloatFmt → Nat → Nat → Nat → Nat × Nat) (type a b c : Nat) : Nat × Nat :=
  let half := fun (fm : FloatFmt) =>
    let lo := f fm (a % 65536) (b % 65536) (c % 65536)
    let hi := f fm (a / 65536) (b / 65536) (c / 65536)
    (lo.1 + 65536 * hi.1, lo.2 ||| hi.2)
  match type with
  | 4 => f fp32 a b c
  | 5 => half fp16
  | _ => half bf16

/-- A vector floating-point instruction: each lane's result, and the sticky flags of every lane (R101). -/
def State.floatOp (s : State) (f : FloatFmt → Nat → Nat → Nat → Nat × Nat) (binary ternary : Bool) (mods : Nat) (w : Who)
    (i : FmtR) : Res :=
  s.issueR w { types := [4, 5, 6], d := .v, a := .v, sec := if binary then .vector else .none,
               c := if ternary then .v else .no, mods := mods } i (fun t g _ m =>
    let r := fun l => floatElem f i.type.val (t.vReg g i.a.val l)
      (if binary then t.secondV g i i.type.val l else 0) (if ternary then t.vReg g i.c.val l else 0)
    let flags := (List.range 32).foldl (fun n l => if bit m l then n ||| (r l).2 else n) 0
    .done ((t.setLanes32 g i.type.val i.d.val m (fun l => (r l).1)).sticky g flags))

/-- `add` (class 0x05). -/
def execFloatAdd (w : Who) (i : FmtR) (s : State) : Res :=
  s.floatOp (fun f a b c => f.arith 0 i.mod.val a b c) true false 4 w i
/-- `sub`. -/
def execFloatSub (w : Who) (i : FmtR) (s : State) : Res :=
  s.floatOp (fun f a b c => f.arith 1 i.mod.val a b c) true false 4 w i
/-- `mul`. -/
def execFloatMul (w : Who) (i : FmtR) (s : State) : Res :=
  s.floatOp (fun f a b c => f.arith 2 i.mod.val a b c) true false 4 w i
/-- `fma`: it rounds once. -/
def execFloatFma (w : Who) (i : FmtR) (s : State) : Res :=
  s.floatOp (fun f a b c => f.arith 3 i.mod.val a b c) true true 4 w i
/-- `min`: the operand that is not NaN, −0 below +0. -/
def execFloatMin (w : Who) (i : FmtR) (s : State) : Res :=
  s.floatOp (fun f a b _ => (f.minMax false a b, 0)) true false 1 w i
/-- `max`. -/
def execFloatMax (w : Who) (i : FmtR) (s : State) : Res :=
  s.floatOp (fun f a b _ => (f.minMax true a b, 0)) true false 1 w i
/-- `abs`: only the sign bit changes, of a NaN too. -/
def execFloatAbs (w : Who) (i : FmtR) (s : State) : Res :=
  s.floatOp (fun f a _ _ => (a % f.signBit, 0)) false false 1 w i
/-- `neg`: only the sign bit changes, of a NaN too. -/
def execFloatNeg (w : Who) (i : FmtR) (s : State) : Res :=
  s.floatOp (fun f a _ _ => (a ^^^ f.signBit, 0)) false false 1 w i

/-- A special function on f32 (R102). -/
def State.specialOp (s : State) (fn : Nat) (w : Who) (i : FmtR) : Res :=
  s.issueR w { types := [4], d := .v, a := .v } i (fun t g _ m =>
    let flags := (List.range 32).foldl (fun n l =>
      if bit m l then n ||| Machine.specialFlags fn (t.vReg g i.a.val l) else n) 0
    .done ((t.setLanes32 g 4 i.d.val m (fun l => specialElem fn (t.vReg g i.a.val l))).sticky g flags))

/-- `rcp`. -/
def execRcp (w : Who) (i : FmtR) (s : State) : Res := s.specialOp 0 w i
/-- `rsqrt`. -/
def execRsqrt (w : Who) (i : FmtR) (s : State) : Res := s.specialOp 1 w i
/-- `exp2`. -/
def execExp2 (w : Who) (i : FmtR) (s : State) : Res := s.specialOp 2 w i
/-- `log2`. -/
def execLog2 (w : Who) (i : FmtR) (s : State) : Res := s.specialOp 3 w i
/-- `sin`. -/
def execSin (w : Who) (i : FmtR) (s : State) : Res := s.specialOp 4 w i
/-- `cos`. -/
def execCos (w : Who) (i : FmtR) (s : State) : Res := s.specialOp 5 w i

/-! ### Lane exchange (R103, R104) -/

/-- The source lane of `shfl` for lane `l` and shift `b`: 0 idx, 1 up, 2 down, 3 xor; a lane outside 0 to 31 is 32 or
more (R103). The spec does not say whether the shift of up and down is signed or wraps: the model takes it as an unsigned
number without wrap, so that a lane whose shift is −1 keeps its own vA (log 83). -/
def shflSource (kind l b : Nat) : Nat :=
  match kind with
  | 0 => b % 32
  | 1 => if b ≤ l then l - b else 32
  | 2 => l + b
  | _ => l ^^^ b

/-- `shfl`: a lane whose source is outside the group or not acted on keeps its own vA (R103). -/
def execShfl (w : Who) (i : FmtR) (s : State) : Res :=
  s.issueR w { types := [7], d := .v, a := .v, sec := .vector, mods := 4 } i (fun t g _ m =>
    .done (t.setLanes32 g 7 i.d.val m (fun l =>
      let src := shflSource i.mod.val l (t.secondV g i 7 l)
      if src < 32 ∧ bit m src then t.vReg g i.a.val src else t.vReg g i.a.val l)))

/-- `vote.any`: 1 in every lane of pD if pA is set in a lane acted on (R104). -/
def execVoteAny (w : Who) (i : FmtR) (s : State) : Res :=
  s.issueR w { d := .p, a := .p } i (fun t g _ m =>
    .done (t.setP g i.d.val (if t.pReg g i.a.val &&& m ≠ 0 then 0xFFFFFFFF else 0)))

/-- `vote.all`: 1 in every lane of pD if pA is set in all lanes acted on (R104). -/
def execVoteAll (w : Who) (i : FmtR) (s : State) : Res :=
  s.issueR w { d := .p, a := .p } i (fun t g _ m =>
    .done (t.setP g i.d.val (if t.pReg g i.a.val &&& m = m then 0xFFFFFFFF else 0)))

/-- `vote.ballot`: (pA & m), zero-extended (R104). -/
def execVoteBallot (w : Who) (i : FmtR) (s : State) : Res :=
  s.issueR w { d := .s, a := .p } i (fun t g _ m => .done (t.setS g i.d.val (t.pReg g i.a.val &&& m)))

/-- `mov.sv`: a lane of vA into sD, even of an inactive lane (R104). -/
def execMovSv (w : Who) (i : FmtR) (s : State) : Res :=
  s.issueR w { d := .s, a := .v, sec := .lane } i (fun t g _ _ =>
    .done (t.setS g i.d.val (t.vReg g i.a.val (t.secondS g i 0 % 32))))

/-- `mov.vs`: sA[31:0] into each lane acted on (R104). -/
def execMovVs (w : Who) (i : FmtR) (s : State) : Res :=
  s.issueR w { d := .v, a := .s } i (fun t g _ m =>
    .done (t.setLanes32 g 0 i.d.val m (fun _ => t.sReg g i.a.val % 2 ^ 32)))

end Sys2Proof.Machine
end

