-- ==== Sys2Proof/Machine/Convert.lean ====
section
/-! DEFINITION. The conversion instructions of class 0x09: `cvt`, and the collective `pack`, `unpack`, `grain.enc`,
`grain.dec` and `mxscale` (R159, R160, R171 to R177). -/

namespace Sys2Proof.Machine

/-- `cvt`: the destination's code is in OP, the source's in AUX[3:0], SAT in AUX[4] (R171 to R173). -/
def execCvt (w : Who) (dst : Fin 16) (i : FmtR) (s : State) : Res :=
  let src := i.aux.val % 16
  s.issueR w { d := .v, a := .v, mods := 4, auxs := 32 } i (fun t g _ m =>
    let r := fun l => cvtElem dst.val src i.mod.val (decide (16 ≤ i.aux.val)) (t.vReg g i.a.val l)
    let flags := (List.range 32).foldl (fun n l => if bit m l then n ||| (r l).2 else n) 0
    .done ((t.setLanes32 g 0 i.d.val m (fun l => (r l).1)).sticky g flags))
    (!cvtPair dst.val src)

/-- All 32 lanes. -/
def allLanes : Nat := 0xFFFFFFFF

/-- A collective instruction: every lane that has not exited must be active, else code 0x13 (R139, R174). -/
def State.collective (s : State) (w : Who) (f : Form) (i : FmtR) (extra : Bool) (vecs : List (Nat × Bool))
    (body : State → Nat → Grp → Eff) : Res :=
  s.issueR w { f with noGuard := true } i (fun t g grp m =>
    if grp.active ≠ grp.live then .raise t 0x13 m noAddr 0 else body t g grp) extra vecs

/-- The lanes 0 to `n` − 1 of a vector register as one little-endian number. -/
def State.vImage (s : State) (g n lanes : Nat) : Nat :=
  (List.range lanes).foldl (fun v l => v + s.vReg g n l * 2 ^ (32 * l)) 0

/-- Writes a little-endian number over the 32 lanes of a vector register. -/
def State.setVImage (s : State) (g n v : Nat) : State :=
  s.setLanes32 g 0 n allLanes (fun l => v / 2 ^ (32 * l) % 2 ^ 32)

/-- The widths `pack` and `unpack` accept (R174). -/
def packWidths : List Nat := [1, 2, 4, 6, 8, 16]

/-- `pack`: 32 fields of w bits, lane 0 lowest; lanes w to 31 receive 0 (R174). -/
def execPack (w : Who) (i : FmtR) (s : State) : Res :=
  let n := i.b.val
  s.collective w { d := .v, a := .v, sec := .imm8 } i (!packWidths.contains n) [] (fun t g _ =>
    .done (t.setVImage g i.d.val
      ((List.range 32).foldl (fun v l => v + t.vReg g i.a.val l % 2 ^ n * 2 ^ (n * l)) 0)))

/-- `unpack`: field i of 32 fields of w bits into lane i, zero-extended (R174). -/
def execUnpack (w : Who) (i : FmtR) (s : State) : Res :=
  let n := i.b.val
  s.collective w { d := .v, a := .v, sec := .imm8 } i (!packWidths.contains n) [] (fun t g _ =>
    let image := t.vImage g i.a.val n
    .done (t.setLanes32 g 0 i.d.val allLanes (fun l => image / 2 ^ (n * l) % 2 ^ n)))

/-- The largest magnitude of finite numbers, as m × 2^e. -/
def maxMagnitude (l : List Num) : Nat × Int :=
  l.foldl (fun (r : Nat × Int) x =>
    match x with
    | .fin _ m e => if dyLt r.1 r.2 m e then (m, e) else r
    | _ => r) (0, 0)

/-- Whether a number is NaN or an infinity. -/
def Num.special (x : Num) : Bool :=
  match x with
  | .fin _ _ _ => false
  | _ => true

/-- The smallest integer x such that m × 2^e ≤ q × 2^x, for m and q not 0: ⌈log₂(m × 2^e / q)⌉. -/
def ceilLog2 (m : Nat) (e : Int) (q : Nat) : Int :=
  let x := e + (Nat.log2 m : Int) - (Nat.log2 q : Int)
  let low := x - 1
  if ! dyLt q low m e then low else if ! dyLt q x m e then x else x + 1

/-- A Grain block of 32 numbers: its image as a number, and the flags (R159, R175). -/
def grainEncode (d : Nat) (uns : Bool) (mode : Nat) (l : List Num) : Nat × Flags :=
  let head := nb uns * 2 ^ 12 + (d - 1) * 2 ^ 8
  if l.any Num.special then (head + 0xFF, 1)
  else
    let (m, e) := maxMagnitude l
    if m = 0 then (head + 2 ^ 11, 0)
    else
      let hi : Int := if uns then 4 ^ d - 1 else 2 ^ (2 * d - 1) - 1
      let lo : Int := if uns then 0 else -(2 ^ (2 * d - 1))
      let sc := max 0 (min 254 (127 + ceilLog2 m e hi.toNat))
      let one := fun (x : Num) => match x with
        | .fin n m e =>
          let (v, exact) := dyToInt mode n m (e - (sc - 127))
          let c := max lo (min hi v)
          (unsgn (2 * d) c, (if c ≠ v then 4 else 0) + (if exact then 0 else 16))
        | _ => (0, 0)
      let r := l.map one
      (head + sc.toNat + 2 ^ 16 * (r.foldr (fun x v => x.1 + v * 2 ^ (2 * d)) 0),
        r.foldl (fun f x => f ||| x.2) 0)

/-- Weight `k` of a Grain block image whose first byte is the header's (R159, R160): a number, NaN under a scale of
0xFF. -/
def grainWeight (image k : Nat) : Num :=
  let h := image % 2 ^ 16
  let d := bits h 8 3 + 1
  let sc := bits h 0 8
  let f := image / 2 ^ (16 + 2 * d * k) % 2 ^ (2 * d)
  if sc = 0xFF then .nan
  else if bit h 11 then .fin false 0 0
  else
    let e : Int := (sc : Int) - 127
    let v : Int := if bit h 12 then (f : Int) else sgn (2 * d) f
    .fin (decide (v < 0)) v.natAbs e

/-- `grain.enc`: depth 1 to 8 in B, UNS in AUX[0] (R174, R175). -/
def execGrainEnc (w : Who) (i : FmtR) (s : State) : Res :=
  let d := i.b.val
  s.collective w { d := .v, a := .v, sec := .imm8, mods := 4, auxs := 2 } i (decide (d = 0 ∨ 8 < d)) [] (fun t g _ =>
    let (image, f) := grainEncode d (i.aux == 1) i.mod.val
      ((List.range 32).map (fun l => fp32.decode (t.vReg g i.a.val l)))
    .done ((t.setVImage g i.d.val image).sticky g f))

/-- `grain.dec`: the f32 value of weight k into lane k, rounded by MOD (R174). -/
def execGrainDec (w : Who) (i : FmtR) (s : State) : Res :=
  s.collective w { d := .v, a := .v, mods := 4 } i false [] (fun t g _ =>
    let image := t.vImage g i.a.val 17
    let r := fun k => fp32.ofNum i.mod.val (grainWeight image k)
    let f := (List.range 32).foldl (fun n k => n ||| (r k).2) 0
    .done ((t.setLanes32 g 0 i.d.val allLanes (fun k => (r k).1)).sticky g f))

/-- The format values of `mxscale` with the exponent of each format's largest power of two (R174, R176). -/
def mxEmax (f : Nat) : Option Int :=
  match f with
  | 3 => some 8
  | 4 => some 15
  | 5 => some 2
  | 6 => some 4
  | 7 => some 2
  | 10 => some 0
  | _ => none

/-- `mxscale` (R176). -/
def execMxscale (w : Who) (i : FmtR) (s : State) : Res :=
  let em := mxEmax i.b.val
  s.collective w { d := .s, a := .v, sec := .imm8 } i em.isNone [] (fun t g _ =>
    let l := (List.range 32).map (fun k => fp32.decode (t.vReg g i.a.val k))
    if l.any Num.special then .done ((t.setS g i.d.val 0xFF).sticky g 1)
    else
      let (m, e) := maxMagnitude l
      if m = 0 then .done (t.setS g i.d.val 0)
      else
        let x := e + (Nat.log2 m : Int) - em.getD 0
        .done (t.setS g i.d.val (max (-127) (min 127 x) + 127).toNat))

end Sys2Proof.Machine
end

