-- ==== Sys2Proof/Machine/Control.lean ====
section
/-! DEFINITION. Control flow: the instructions of class 0x10 and the reconvergence stack (R62 to R68, R105, R106). -/

namespace Sys2Proof.Machine

/-- OFFSET of a control instruction, bits [31:0]. -/
def cOff (i : FmtC) : Int := sgn 32 i.low.toNat

/-- OFFSET of `call`, bits [22:0] (R106). -/
def cOff23 (i : FmtC) : Int := sgn 23 i.low.toNat

/-- The D field of a control instruction, bits [38:31]. -/
def cD (i : FmtC) : Nat := bits i.low.toNat 31 8

/-- The A field of a control instruction, bits [30:23]. -/
def cA (i : FmtC) : Nat := bits i.low.toNat 23 8

/-- A relative target, in units of 8 B, modulo 2^64 (R105). -/
def relTarget (pc : Nat) (off : Int) : Nat := ((pc : Int) + 8 * off).emod (2 ^ 64) |>.toNat

/-- Whether a target lies outside the 57-bit addresses or is not a multiple of 8 (R105, R106). -/
def badTarget (t : Nat) : Bool := t % 8 != 0 || decide (2 ^ 57 ≤ t)

/-- A control instruction: PG and PNEG carry a condition, or are 0 where `cond` is false; W is that of its row (R94,
R105). -/
def State.issueC (s : State) (w : Who) (i : FmtC) (long cond lowOk : Bool) (refs : List RegRef)
    (body : State → Nat → Grp → Eff) : Res :=
  s.issue w
    (fun _ _ =>
      { len := lenOf i.w
        reserved := i.w != long || !lowOk || (!cond && (i.pg != 0 || i.pneg))
        mask := 0xFFFFFFFF
        refs := refs ++ (if cond then [.p i.pg.val] else []) })
    (fun t g grp _ => body t g grp)

/-- Moves a group to an address. -/
def State.goto (s : State) (g pc : Nat) : State := s.updGrp g (fun x => { x with pc := pc })

/-- `bra`: uniform (R62, R105). -/
def execBra (w : Who) (i : FmtC) (s : State) : Res :=
  s.issueC w i false true (decide (i.low.toNat < 2 ^ 32)) [] (fun t g grp =>
    let p := t.guardMask g i.pg i.pneg &&& grp.active
    let target := relTarget grp.pc (cOff i)
    if p ≠ 0 ∧ p ≠ grp.active then .raise t 0x10 grp.active noAddr 0
    else if badTarget target then .raise t 0x20 grp.active noAddr 0
    else if p = 0 then .done t
    else .jump (t.goto g target))

/-- `bra.div`: a divergent branch (R63, R64, R105). -/
def execBraDiv (w : Who) (i : FmtC) (s : State) : Res :=
  s.issueC w i true true (decide (i.low.toNat < 2 ^ 32)) [] (fun t g grp =>
    let p := t.guardMask g i.pg i.pneg
    let yes := grp.active &&& p
    let no := grp.active &&& (p ^^^ 0xFFFFFFFF)
    let target := relTarget grp.pc (cOff i)
    let meet := relTarget grp.pc (sgn 32 i.imm.toNat)
    let fall := wrapPc (grp.pc + 16)
    let split := yes != 0 && no != 0
    if 32 < grp.stack.length + 1 + nb split then .raise t 0x11 grp.active noAddr 0
    else if badTarget target || badTarget meet then .raise t 0x20 grp.active noAddr 0
    else
      let joined := grp.stack ++ [⟨.join, meet, grp.active⟩]
      .jump (t.updGrp g (fun x =>
        if split then { x with stack := joined ++ [⟨.pending, fall, no⟩], active := yes, pc := target }
        else { x with stack := joined, pc := if no = 0 then target else fall })))

/-- What `join` at an address does to a stack whose top is first: the new mask, program counter and rest; `none` for a
mismatch (R65). -/
def joinStack (here : Nat) (top : List StackEntry) : Option (Nat × Nat × List StackEntry) :=
  match top with
  | [] => none
  | e :: r =>
    match e.kind with
    | .pending => if e.mask = 0 then joinStack here r else some (e.mask, e.addr, r)
    | .join => if e.addr = here then some (e.mask, wrapPc (here + 8), r) else none
    | .loop => none

/-- `join` (R65). -/
def execJoin (w : Who) (i : FmtC) (s : State) : Res :=
  s.issueC w i false false (i.low == 0) [] (fun t g grp =>
    match joinStack grp.pc grp.stack.reverse with
    | none => .raise t 0x12 grp.active noAddr 0
    | some (m, pc, r) => .jump (t.updGrp g (fun x => { x with active := m, pc := pc, stack := r.reverse })))

/-- `loop.enter` (R63, R66). -/
def execLoopEnter (w : Who) (i : FmtC) (s : State) : Res :=
  s.issueC w i false false (decide (i.low.toNat < 2 ^ 32)) [] (fun t g grp =>
    let out := relTarget grp.pc (cOff i)
    if 32 ≤ grp.stack.length then .raise t 0x11 grp.active noAddr 0
    else if badTarget out then .raise t 0x20 grp.active noAddr 0
    else .done (t.updGrp g (fun x => { x with stack := x.stack ++ [⟨.loop, out, x.active⟩] })))

/-- The unwind of R68 on a stack whose top is first: what the group becomes; complete where the stack empties. -/
def unwindStack (exited : Nat) (grp : Grp) (top : List StackEntry) : Grp :=
  match top with
  | [] => { grp with stack := [], active := 0, complete := true }
  | e :: r =>
    let m := e.mask &&& (exited ^^^ 0xFFFFFFFF)
    if m = 0 then unwindStack exited grp r
    else
      { grp with
        stack := r.reverse
        active := m
        pc := (match e.kind with
          | .pending => e.addr
          | .join => wrapPc (e.addr + 8)
          | .loop => e.addr) }

/-- Goes on after `brk` or `exit`: at the next instruction while lanes are active, else by the unwind (R68). -/
def Grp.afterLoss (grp : Grp) (next : Nat) : Grp :=
  if grp.active = 0 then unwindStack grp.exited grp grp.stack.reverse else { grp with pc := next }

/-- Takes lanes out of the entries above the innermost LOOP entry, the top first; `none` without a LOOP (R66). -/
def brkStack (lanes : Nat) (top : List StackEntry) : Option (List StackEntry) :=
  match top with
  | [] => none
  | e :: r =>
    if e.kind = .loop then some (e :: r)
    else (brkStack lanes r).map (fun l => { e with mask := e.mask &&& (lanes ^^^ 0xFFFFFFFF) } :: l)

/-- `brk` (R66, R68). -/
def execBrk (w : Who) (i : FmtC) (s : State) : Res :=
  s.issueC w i false true (i.low == 0) [] (fun t g grp =>
    let out := grp.active &&& t.guardMask g i.pg i.pneg
    match brkStack out grp.stack.reverse with
    | none => .raise t 0x12 grp.active noAddr 0
    | some l =>
      .jump (t.updGrp g (fun _ =>
        ({ grp with stack := l.reverse, active := grp.active &&& (out ^^^ 0xFFFFFFFF) }).afterLoss (wrapPc (grp.pc + 8)))))

/-- `exit` (R67, R68). -/
def execExit (w : Who) (i : FmtC) (s : State) : Res :=
  s.issueC w i false true (i.low == 0) [] (fun t g grp =>
    let out := grp.active &&& t.guardMask g i.pg i.pneg
    let keep := out ^^^ 0xFFFFFFFF
    .jump (t.updGrp g (fun _ =>
      let y : Grp := { grp with
        exited := grp.exited ||| out
        active := grp.active &&& keep
        stack := grp.stack.map (fun e => { e with mask := e.mask &&& keep }) }
      y.afterLoss (wrapPc (grp.pc + 8)))))

/-- Jumps to the address in a scalar register (R105, R106). -/
def State.jumpTo (s : State) (w : Who) (i : FmtC) : Res :=
  s.issueC w i false false (decide (i.low.toNat = (cA i) * 2 ^ 23) && decide ((cA i) < 64)) [.s (cA i)] (fun t g grp =>
    let target := t.sReg g (cA i)
    if badTarget target then .raise t 0x20 grp.active noAddr 0 else .jump (t.goto g target))

/-- `bra.ind`. -/
def execBraInd (w : Who) (i : FmtC) (s : State) : Res := s.jumpTo w i

/-- `call`: sD = address + 8 (R105, R106). -/
def execCall (w : Who) (i : FmtC) (s : State) : Res :=
  s.issueC w i false false (decide (i.low.toNat < 2 ^ 39) && (cA i) == 0 && decide ((cD i) < 64)) [.s (cD i)] (fun t g grp =>
    let target := relTarget grp.pc (cOff23 i)
    if badTarget target then .raise t 0x20 grp.active noAddr 0
    else .jump ((t.setS g (cD i) ((grp.pc + 8) % 2 ^ 64)).goto g target))

/-- `ret`. -/
def execRet (w : Who) (i : FmtC) (s : State) : Res := s.jumpTo w i

end Sys2Proof.Machine
end

