-- ==== Sys2Proof/Machine/LocalMem.lean ====
section
/-! DEFINITION. Format M and local memory: the checks of a memory instruction (R107, R108, R110, R511), local addresses
(R75, R76, R178, R179), loads, stores and atomics of local memory and their errors (R181, R185 to R188). -/

namespace Sys2Proof.Machine

/-! ### Format M (R92, R107, R535) -/

/-- ASRC: the base is a scalar register. -/
def mAsrc (i : FmtM) : Bool := i.low.toNat.testBit 22

/-- ORD of an atomic (R114). -/
def mOrd (i : FmtM) : Nat := bits i.low.toNat 20 2

/-- HINT (R109). -/
def mHint (i : FmtM) : Nat := bits i.low.toNat 18 2

/-- OFFSET, signed. -/
def mOffset (i : FmtM) : Int := sgn 18 i.low.toNat

/-- The bytes that a SIZE moves. -/
def sizeBytes (n : Nat) : Nat := 2 ^ n

/-- The 32-bit vector registers that an access of some bytes covers. -/
def sizeRegs (bytes : Nat) : Nat := max 1 (bytes / 4)

/-- What a class of format M uses: its largest SIZE and smallest, whether D is a scalar register, and whether HINT and
SCOPE are used. -/
structure MForm where
  low : Nat := 0
  high : Nat := 4
  scalar : Bool := false
  hint : Bool := false
  scope : Bool := false
  /-- the base of a vector access is a pair: 57-bit and physical addresses -/
  pair : Bool := true

/-- Whether an instruction of format M other than an atomic or `st.cond` is reserved (R92, R107, R109, R111, R535). -/
def MForm.reserved (f : MForm) (i : FmtM) : Bool :=
  !(!i.w && decide (f.low ≤ i.size.val) && decide (i.size.val ≤ f.high) && mOrd i == 0 &&
    (if f.hint then mHint i != 3 else mHint i == 0) &&
    (if f.scope then decide (i.scope.val ≤ 5) else i.scope == 0) &&
    (!f.scalar || mAsrc i) && (!mAsrc i || decide (i.a.val < 64)) && (!f.scalar || decide (i.d.val < 64)))

/-- The vector fields of a memory instruction: first register, and how many. -/
def memVecs (bytes : Nat) (pair scalar : Bool) (i : FmtM) : List (Nat × Nat) :=
  (if scalar then [] else [(i.d.val, sizeRegs bytes)]) ++ (if mAsrc i then [] else [(i.a.val, if pair then 2 else 1)])

/-- Register-range, then operand-alignment (R56, R96, R107). -/
def memVecFault (vregs : Nat) (l : List (Nat × Nat)) : Option Nat :=
  if l.any (fun v => decide (vregs < v.1 + v.2)) then some 0x04
  else if l.any (fun v => v.1 % v.2 != 0) then some 0x05
  else none

/-- The registers of vector fields. -/
def memVecRefs (l : List (Nat × Nat)) : List RegRef := l.flatMap (fun v => (List.range v.2).map (fun k => .v (v.1 + k)))

/-- A memory instruction (R58, R94): `vecs` are its vector fields, `refs` its other registers. -/
def State.issueM (s : State) (w : Who) (i : FmtM) (reserved : Bool) (vecs : List (Nat × Nat)) (refs : List RegRef)
    (body : State → Nat → Grp → Nat → Eff) (early : State → Grp → Option Nat := fun _ _ => none) : Res :=
  s.issue w
    (fun g _ =>
      { len := lenOf i.w
        reserved := reserved
        mask := s.guardMask g i.pg i.pneg
        refs := memVecRefs vecs ++ refs ++ (if mAsrc i then [.s i.a.val] else []) ++ [.p i.pg.val] })
    (fun t g grp m =>
      match (early t grp).or (memVecFault (t.vregCount g grp) vecs) with
      | some c => .raise t c m noAddr 0
      | none => body t g grp m)

/-- The base of a lane's address (R107). -/
def State.laneBase (s : State) (g : Nat) (i : FmtM) (pair : Bool) (lane : Nat) : Nat :=
  if mAsrc i then s.sReg g i.a.val
  else if pair then s.vReg g i.a.val lane + 2 ^ 32 * s.vReg g (i.a.val + 1) lane
  else s.vReg g i.a.val lane

/-! ### The checks (R110, R125) -/

/-- The lanes of a mask. -/
def lanesOf (m : Nat) : List Nat := (List.range 32).filter (fun l => bit m l)

/-- Whether a watchpoint of the context's attachment covers an access (R511). -/
def State.wpMatch (s : State) (grp : Grp) (rd wr loc : Bool) (addr size : Nat) : Bool :=
  !grp.noMatch &&
    match s.attOf grp.ctx with
    | none => false
    | some a => (List.range 4).any (fun j =>
        let k := a * 4 + j
        let len := 2 ^ s.fget F.DBG_WP_CTL_SIZE k
        let base := s.fget F.DBG_WP_ADDR_ADDR k / len * len
        s.flag F.DBG_WP_CTL_EN k &&
        ((rd && s.flag F.DBG_WP_CTL_R k) || (wr && s.flag F.DBG_WP_CTL_W k)) &&
          s.flag F.DBG_WP_CTL_LOCAL k == loc && decide (addr < base + len) && decide (base < addr + size))

/-- The lowest code among those that lanes raise, the lanes that raise it, and the first such lane (R125). -/
def lowestCode (l : List (Nat × List Nat)) : Option (Nat × Nat × Nat) :=
  let all := l.flatMap (·.2)
  match all with
  | [] => none
  | c :: r =>
    let low := r.foldl min c
    let who := (l.filter (fun x => x.2.contains low)).map (·.1)
    some (low, who.foldl (fun n x => n ||| 2 ^ x) 0, who.headD 0)

/-! ### Local addresses -/

/-- Where a local address lies for a block, whose peers may have completed (R78): the core, the block's units there, and the physical byte address
core × 2^20 + unit × 2^15 + byte; `none` for the places of R76. -/
def State.blkPlace (s : State) (bk addr : Nat) : Option Nat :=
  let place := fun (core : Nat) (units : List Nat) (off : Nat) =>
    (units[off / 32768]?).map (fun u => core * 2 ^ 20 + u * 2 ^ 15 + off % 32768)
  match s.blk bk with
  | none => none
  | some b =>
    if addr < 2 ^ 23 then place (bk / 16) b.units addr
    else if 2 ^ 24 ≤ addr then none
    else
      match SMap.find s.cmp.bclus b.bc with
      | none => none
      | some x =>
        match x.blocks[addr / 2 ^ 20 % 8]? with
        | none => none
        | some (core, slot) =>
          match SMap.find x.held (addr / 2 ^ 20 % 8), s.blk (core * 16 + slot) with
          | some l, _ => place core l (addr % 2 ^ 20)
          | none, none => none
          | none, some p => place core p.units (addr % 2 ^ 20)

/-- Where a local address of a group lies (R75, R76, R179). -/
def State.localPlace (s : State) (g : Nat) (grp : Grp) (addr : Nat) : Option Nat := s.blkPlace (blockKey g grp) addr

/-- What an unlisted byte of local memory reads as: 0, or the unspecified contents its unit was left with (R74, log 4). -/
def State.lmDefault (s : State) (a : Nat) : Byte :=
  match SMap.find s.cmp.lmSeed (a / 2 ^ 15) with
  | none => 0
  | some seed => (Config.residue seed a).truncate 8

/-- A byte of local memory. -/
def State.lmByte (s : State) (a : Nat) : Byte := SMap.get s.cmp.lm (s.lmDefault a) a

/-- Writes a byte of local memory. -/
def State.setLmByte (s : State) (a : Nat) (b : Byte) : State :=
  { s with cmp := { s.cmp with lm := SMap.set s.cmp.lm (s.lmDefault a) a b } }

/-- Bytes of local memory as a number. -/
def State.lmGet (s : State) (a n : Nat) : Nat := ofBytes ((List.range n).map (fun k => s.lmByte (a + k)))

/-- Writes bytes of local memory. -/
def State.lmPut (s : State) (a : Nat) (l : List Byte) : State :=
  (l.zipIdx).foldl (fun s b => s.setLmByte (a + b.2) b.1) s

/-- The granule of a physical byte address: core × 2^16 + 64 × 32 × unit + … (R178). -/
def granuleOf (a : Nat) : Nat := a / 16

/-- Whether a granule is poisoned. -/
def State.lmPoisoned (s : State) (a : Nat) : Bool := s.cmp.lmPoison.contains (granuleOf a)

/-- Marks a granule as poisoned, or as sound. -/
def State.setLmPoison (s : State) (a : Nat) (b : Bool) : State :=
  let rest := s.cmp.lmPoison.filter (fun k => k != granuleOf a)
  { s with cmp := { s.cmp with lmPoison := if b then granuleOf a :: rest else rest } }

/-- An uncorrectable read of a granule is logged and raises the core's error source (R188); REQ is the reader. -/
def State.lmErrLog (s : State) (a req : Nat) : State :=
  let core := a / 2 ^ 20
  let s1 :=
    if s.flag F.CORE_LM_ERRLOG_VALID core then s.fset F.CORE_LM_ERRLOG_MULTI 1 core
    else
      ((((s.fset F.CORE_LM_ERRLOG_VALID 1 core).fset F.CORE_LM_ERRLOG_MULTI 0 core).fset F.CORE_LM_ERRLOG_BANK
        (a / 16 % 32) core).fset F.CORE_LM_ERRLOG_ROW (a / 512 % 2048) core).fset F.CORE_LM_ERRLOG_REQ req core
  s1.event (core / 128) (128 + core % 128)

/-- REQ of a group's access: the core path, or the crossbar for another core's memory. -/
def lmReq (g a : Nat) : Nat := if a / 2 ^ 20 = g / 32 then 0 else 1

/-- The scope whose fence covers an access of local memory: block, or cluster for a peer's (R242). -/
def lmScope (g a : Nat) : Nat := if a / 2 ^ 20 = g / 32 then 1 else 2

/-- An error of the granule that the first lane addresses (R187, R188): a corrected granule waits for its write-back; an
uncorrectable one is poisoned. -/
def State.lmArrayErr (s : State) (e : ArrayErr) (a : Nat) : Option State :=
  match e with
  | .none => some s
  | .correctable =>
    some (s.updCore (a / 2 ^ 20) (fun c => { c with corrected := c.corrected ++ [granuleOf a % 2 ^ 16] }))
  | .uncorrectable => some (s.setLmPoison a true)
  | _ => none

/-- The errors of the granules of some bytes that a read finds (R187, R188): a corrected granule waits for its write-back; an
uncorrectable one is poisoned. -/
def State.lmFind (s : State) (l : List Nat) : State :=
  let here := fun (k : Nat) => l.any (fun a => granuleOf a == k)
  (s.upsetsAt .lm here).foldl (fun (s : State) u =>
    if u.hard then s.setLmPoison (u.place * 16) true
    else s.updCore (u.place / 2 ^ 16) (fun c => { c with corrected := c.corrected ++ [u.place % 2 ^ 16] })) (s.foundUpset .lm here)

/-- The lanes of a local access with their addresses, or the exception that they raise; base + OFFSET is computed in 64 bits, where
what falls below 0 lies above 2^24 (R76, R108). -/
def State.localLanes (s : State) (g : Nat) (grp : Grp) (i : FmtM) (off : Int) (bytes m : Nat) (rd wr : Bool) :
    Except (Nat × Nat × Nat) (List (Nat × Nat)) :=
  let addr := fun l => unsgn 64 ((s.laneBase g i false l : Int) + off)
  let codes := fun l =>
    let a := addr l
    let out := decide (2 ^ 24 ≤ a)
    (if a % bytes ≠ 0 then [0x20] else []) ++
    (if out ∨ s.localPlace g grp a = none then [0x21] else []) ++
    (if 2 ^ 24 ≤ s.laneBase g i false l then [0x24] else []) ++
    (if !out && s.wpMatch grp rd wr true a bytes then [0x32] else [])
  match lowestCode ((lanesOf m).map (fun l => (l, codes l))) with
  | some (c, who, first) => .error (c, who, addr first)
  | none => .ok ((lanesOf m).map (fun l => (l, ((s.localPlace g grp (addr l)).getD 0))))

/-- The local data address of a lane, for a record. -/
def State.localAddr (s : State) (g : Nat) (i : FmtM) (off : Int) (lane : Nat) : Nat :=
  unsgn 64 ((s.laneBase g i false lane : Int) + off)

/-- The deferred exception of an access that met poison (R123, R188). -/
def poisonDeferred (grp : Grp) (scope lanes addr : Nat) : Deferred :=
  { code := 0x28, pc := grp.pc, scope := scope, lanes := lanes, addr := addr }

/-- Writes a loaded value to the registers of a lane: bytes above a small load are zero (R107). -/
def State.putLoaded (s : State) (g : Nat) (r : LaneRead) (v : Nat) : State :=
  if r.scalar then s.setS g r.dst v
  else (List.range (sizeRegs r.size)).foldl (fun s k => s.setV g (r.dst + k) r.lane (v / 2 ^ (32 * k) % 2 ^ 32)) s

/-- Unspecified data for a lane's registers: a free value. -/
def State.putFree (s : State) (g : Nat) (r : LaneRead) : State :=
  let (v, s1) := s.take 128
  s1.putLoaded g r (v.toNat % 2 ^ (8 * r.size))

/-- The lowest-numbered lane of a mask. -/
def firstLane (m : Nat) : Nat := (lanesOf m).headD 0

/-- The lanes of a list that satisfy `p`, as a mask. -/
def maskBy (l : List (Nat × Nat)) (p : Nat → Bool) : Nat :=
  l.foldl (fun n x => if p x.2 then n ||| 2 ^ x.1 else n) 0

/-- The distinct poisoned granules that lanes address. -/
def State.poisonedOf (s : State) (l : List (Nat × Nat)) : List Nat :=
  ((l.map (·.2)).filter (fun a => s.lmPoisoned a)).map (fun a => a / 16 * 16) |>.eraseDups

/-- Whether a local access of a group may not issue yet: an acquire has not returned (R245), or an atomic on one of its bytes, held by
its release, is still to be performed (R238). -/
def State.localHeld (s : State) (g : Nat) (l : List (Nat × Nat)) (bytes : Nat) : Bool :=
  s.cmp.accs.any (fun a => a.core * 32 + a.slot == g && (a.acq.isSome ||
    (a.target == 3 && ((a.atom.map (·.lanes)).getD []).any (fun y =>
      l.any (fun x => decide (x.2 < y.off + 8) && decide (y.off < x.2 + bytes))))))

/-- `ld.l` (R107, R180, R187, R188, R245). -/
def execLdL (w : Who) (i : FmtM) (e : ArrayErr) (s : State) : Res :=
  let n := sizeBytes i.size.val
  let f : MForm := { pair := false }
  s.issueM w i (f.reserved i) (memVecs n false false i) [] (fun t g grp m =>
    match t.localLanes g grp i (mOffset i) n m true false with
    | .error (c, who, a) => .raise t c who a 0
    | .ok l =>
      if t.localHeld g l n then .wait t
      else if e = .registers then .raise (t.coreError (g / 32)) 0x28 m noAddr 0
      else
        match (t.lmFind (l.map (·.2))).lmArrayErr e ((l.map (·.2)).headD 0) with
        | none => .stop
        | some t1 =>
          let bad := maskBy l (fun a => t1.lmPoisoned a)
          let t2 := (t1.poisonedOf l).foldl (fun (s : State) a => s.lmErrLog a (lmReq g a)) t1
          let t3 := l.foldl (fun (s : State) x =>
            let r : LaneRead := ⟨x.1, 0, n, false, i.d.val⟩
            if t1.lmPoisoned x.2 then s.putFree g r else s.putLoaded g r (t1.lmGet x.2 n)) t2
          .done (if bad = 0 then t3
            else t3.defer g (poisonDeferred grp ((l.filter (fun x => bit bad x.1)).foldl (fun k x => max k (lmScope g x.2)) 1)
              bad (t.localAddr g i (mOffset i) (firstLane bad)))))

/-- The first addresses of the granules that extents lie in, each once. -/
def lmGranules (l : List (Nat × Nat)) : List Nat :=
  (l.flatMap (fun x => (List.range ((x.1 % 16 + x.2 + 15) / 16)).map (fun k => (x.1 / 16 + k) * 16))).eraseDups

/-- The bytes that lanes write, in ascending lane order: where two lanes write one byte, the higher-numbered lane's value
remains; a granule that is written whole is sound (R181, R188). -/
def State.lmWrite (s : State) (l : List (Nat × List Byte)) : State :=
  let full := fun (a : Nat) =>
    (List.range 16).all (fun k => l.any (fun x => decide (x.1 ≤ a + k) && decide (a + k < x.1 + x.2.length)))
  let s1 := (lmGranules (l.map (fun x => (x.1, x.2.length)))).foldl
    (fun (s : State) a => if full a then s.setLmPoison a false else s) s
  l.foldl (fun (s : State) x => s.lmPut x.1 x.2) s1

/-- The granules that lanes write in part (R181). -/
def lmPartial (l : List (Nat × Nat)) : List Nat :=
  (lmGranules l).filter (fun a => !(List.range 16).all (fun k => l.any (fun x => decide (x.1 ≤ a + k) && decide (a + k < x.1 + x.2))))

/-- A register's value as the bytes that a store moves: its low bytes, or those of the registers that SIZE covers. -/
def State.storeBytes (s : State) (g d lane n : Nat) : List Byte :=
  toBytes ((List.range (sizeRegs n)).foldl (fun v k => v + s.vReg g (d + k) lane * 2 ^ (32 * k)) 0) n

/-- `st.l` (R107, R181, R188, R245): a partial write reads its granule first. -/
def execStL (w : Who) (i : FmtM) (e : ArrayErr) (s : State) : Res :=
  let n := sizeBytes i.size.val
  let f : MForm := { pair := false }
  s.issueM w i (f.reserved i) (memVecs n false false i) [] (fun t g grp m =>
    match t.localLanes g grp i (mOffset i) n m false true with
    | .error (c, who, a) => .raise t c who a 0
    | .ok l =>
      if t.localHeld g l n then .wait t
      else if e = .registers then .raise (t.coreError (g / 32)) 0x28 m noAddr 0
      else
        let part := lmPartial (l.map (fun x => (x.2, n)))
        match (t.lmFind part).lmArrayErr e ((l.map (·.2)).headD 0) with
        | none => .stop
        | some t1 =>
          let t2 := (part.filter (fun a => t1.lmPoisoned a)).foldl (fun (s : State) a => s.lmErrLog a 6) t1
          .done (t2.lmWrite (l.map (fun x => (x.2, t.storeBytes g i.d.val x.1 n)))))

/-! ### Local atomics -/

/-- The B and C fields of an atomic (R113). -/
def mB (i : FmtM) : Nat := bits i.low.toNat 10 8
def mC (i : FmtM) : Nat := bits i.low.toNat 2 8

/-- The types an atomic operation accepts (R113). -/
def AtomOp.types (o : AtomOp) : List Nat :=
  match o with
  | .add => [0, 1, 2, 3, 4, 5, 6]
  | .min | .max => [0, 1, 2, 3, 4]
  | _ => [7, 8]

/-- Whether an atomic's encoding is reserved (R92, R113 to R115): C is used by `cas` alone. -/
def atomReserved (o : AtomOp) (scalar : Bool) (i : FmtM) : Bool :=
  !(!i.w && o.types.contains i.size.val && decide (i.scope.val ≤ 5) && mHint i == 0 && i.low.toNat % 4 == 0 &&
    (!scalar || mAsrc i) && (!mAsrc i || decide (i.a.val < 64)) &&
    (!scalar || (decide (i.d.val < 64) && decide (mB i < 64) && decide (mC i < 64))) && (o == .cas || mC i == 0))

/-- The vector fields of an atomic. -/
def atomVecs (o : AtomOp) (scalar pair : Bool) (i : FmtM) : List (Nat × Nat) :=
  let k := if wide i.size.val then 2 else 1
  (if scalar then [] else [(i.d.val, k), (mB i, k)] ++ (if o = .cas then [(mC i, k)] else [])) ++
  (if mAsrc i then [] else [(i.a.val, if pair then 2 else 1)])

/-- The scalar registers of an atomic. -/
def atomRefs (o : AtomOp) (scalar : Bool) (i : FmtM) : List RegRef :=
  if scalar then [.s i.d.val, .s (mB i)] ++ (if o = .cas then [.s (mC i)] else []) else []

/-- An operand of an atomic in one lane. -/
def State.atomOperand (s : State) (g : Nat) (scalar : Bool) (type n lane : Nat) : Nat :=
  if scalar then s.sVal g type n else s.vVal g type n lane

/-- An atomic of a group on local memory is performed (R113, R185, R186, R188, R261): its lanes in ascending order on each location,
whose physical addresses their offsets are; a location in a poisoned granule is not written, and its lanes receive unspecified
data. -/
def State.localAtomic (s : State) (g pc : Nat) (a : Atom) (reads : List LaneRead) (va : Nat) : State :=
  let n := typeBytes a.type
  let l := a.lanes.map (fun y => (y.lane, y.off))
  let t := s.lmFind (l.map (·.2))
  let bad := maskBy l (fun p => t.lmPoisoned p)
  let t1 := (t.poisonedOf l).foldl (fun (s : State) p => s.lmErrLog p (lmReq g p)) t
  let t2 := (a.lanes.zip reads).foldl (fun (s : State) x =>
    if t.lmPoisoned x.1.off then s.putFree g x.2
    else
      let old := s.lmGet x.1.off n
      (s.lmPut x.1.off (toBytes (atomElem a.op a.type old x.1.b x.1.c) n)).putLoaded g x.2 old) t1
  if bad = 0 then t2
  else t2.defer g { code := 0x28, pc := pc, scope := (l.filter (fun x => bit bad x.1)).foldl (fun k x => max k (lmScope g x.2)) 1,
                    lanes := bad, addr := va }

/-- An atomic on local memory (R113, R244, R245). A scalar form is performed once. `before` holds it back, or says whether everything
that its release comes after is over; until then it waits as an access, and the group goes on. `after` applies what an acquire
brings. -/
def State.atomLocal (s : State) (before : State → Nat → Grp → Eff × Bool) (after : State → Nat → State) (acq rel : Option Nat)
    (o : AtomOp) (w : Who) (scalar : Bool) (i : FmtM) : Res :=
  let n := typeBytes i.size.val
  s.issueM w i (atomReserved o scalar i) (atomVecs o scalar false i) (atomRefs o scalar i) (fun t g grp m =>
    match t.localLanes g grp i 0 n m true true with
    | .error (c, who, a) => .raise t c who a 0
    | .ok l0 =>
      if t.localHeld g l0 n then .wait t
      else
        match before t g grp with
        | (.done t0, due) =>
          let l := if scalar then l0.take 1 else l0
          let parts := l.map (fun x => (⟨x.1, x.2, t.atomOperand g scalar i.size.val (mB i) x.1,
            t.atomOperand g scalar i.size.val (mC i) x.1⟩ : AtomLane))
          let reads := l.map (fun x => (⟨x.1, 0, n, scalar, i.d.val⟩ : LaneRead))
          let a : Atom := { op := o, type := i.size.val, lanes := parts }
          let va := t.localAddr g i 0 (firstLane m)
          if due then .done (after (t0.localAtomic g grp.pc a reads va) g)
          else .done { t0 with cmp := { t0.cmp with
            accNo := t0.cmp.accNo + 1
            accs := t0.cmp.accs ++ [
              { id := t0.cmp.accNo + 1, ins := t0.cmp.accNo + 1, core := g / 32, slot := g % 32, ctx := grp.ctx, kind := .atomic
                line := (l.headD (0, 0)).2, target := 3, va := va, pc := grp.pc, lanes := m, reads := reads, atom := some a
                acq := acq, rel := rel }] } }
        | (x, _) => x)

/-- Writing back a corrected granule (R187): the bank's counter increments; its first count and the count that saturates
it raise the core's error source. -/
def execLmCeWriteback (core : Fin 8192) (granule : Fin 65536) (s : State) : Res :=
  let k := core.val
  match takeFirst (fun x => x == granule.val) (s.core k).corrected with
  | none => stop
  | some (_, rest) =>
    let bank := k * 32 + granule.val % 32
    .next ((s.updCore k (fun c => { c with corrected := rest })).ceEvent F.CORE_LM_CE_COUNT F.CORE_LM_CE_SAT bank (k / 128)
      (128 + k % 128))

end Sys2Proof.Machine
end

