-- ==== Sys2Proof/Machine/RegWrite.lean ====
section
/-! DEFINITION. Writes of registers by requesters: the access codes of the fields (R4 to R6), the shadows of commit groups
(R27), halves (R9), and where a register stands in BAR0 (R23, R24). -/

namespace Sys2Proof.Machine

/-! ### Places -/

/-- The first die of a zone's windows and how many dies it spans; `none` for package registers (R10, R23). -/
def Zone.dies (z : Zone) : Option (Nat × Nat) :=
  match z with
  | .pkg => none
  | .compute | .computeShared => some (0, 64)
  | .home | .homeShared => some (64, 16)
  | .edge | .edgeShared => some (80, 4)
  | .every => some (0, 84)

/-- Whether every window of the zone shows one and the same register. -/
def Zone.shared (z : Zone) : Bool :=
  match z with
  | .computeShared | .homeShared | .edgeShared => true
  | _ => false

/-- The first BAR0 offset of a die's window (R23). -/
def windowBase (die : Nat) : Nat := 0x1000000 + die * 0x400000

/-- The instances of a register in one window. -/
def RegSpec.perWindow (p : RegSpec) : Nat := p.c1 * p.c2

/-- The die that owns an instance of a register: that of its window; edge die 0 for package registers (R10). Which die owns
a register that all windows of a kind share, and a package register, the spec does not say: the model takes the first die
of the kind (0, 64 or 80) and edge die 0, so that the REACH record of such a register goes to that die's queue, with its
window's offset as ADDR (R8, R386; log 81). -/
def Reg.die (r : Reg) (i : Nat) : Nat :=
  match r.spec.zone.dies with
  | none => edge0
  | some (first, _) => if r.spec.zone.shared then first else first + i / r.spec.perWindow

/-- The BAR0 offset of an instance of a register: in the first window of a zone whose windows share it. -/
def Reg.addr (r : Reg) (i : Nat) : Nat :=
  let p := r.spec
  let j := i % p.perWindow
  let off := p.base + j / p.c2 * p.s1 + j % p.c2 * p.s2
  match p.zone.dies with
  | none => off
  | some _ => windowBase (r.die i) + off

/-! ### Writes -/

/-- The fields that a write of 1 clears with a field (R210, R234, R235, R296). -/
def clearedWith (f : Fld) : List Fld :=
  if f = F.CORE_LM_ERRLOG_VALID then [F.CORE_LM_ERRLOG_MULTI]
  else if f = F.CORE_NC_PARITY_IC_SAT then [F.CORE_NC_PARITY_IC]
  else if f = F.CORE_NC_PARITY_SC_SAT then [F.CORE_NC_PARITY_SC]
  else if f = F.CORE_NC_PARITY_L1_SAT then [F.CORE_NC_PARITY_L1]
  else if f = F.CORE_LM_CE_SAT then [F.CORE_LM_CE_COUNT]
  else if f = F.QDC_CE_SAT then [F.QDC_CE_COUNT]
  else if f = F.QDC_ERRLOG_VALID then [F.QDC_ERRLOG_MULTI]
  else if f = F.HOM_DIR_CE_SAT then [F.HOM_DIR_CE_COUNT]
  else if f = F.HOM_DIR_ERRLOG_VALID then [F.HOM_DIR_ERRLOG_MULTI, F.HOM_DIR_ERRLOG_RECALLED]
  else if f = F.HOM_MEM_CE_SAT then [F.HOM_MEM_CE_COUNT]
  else if f = F.HOM_MEM_ERRLOG_VALID then [F.HOM_MEM_ERRLOG_MULTI]
  else []

/-- The standing of a register's shadow copy: equal to the active copy unless it was written (R27). -/
def State.shadowReg (s : State) (r : Reg) (i : Nat) : W64 := SMap.get s.shadow (s.reg r i) (r.key i)

/-- Writes the shadow copy of a register. -/
def State.setShadow (s : State) (r : Reg) (i : Nat) (v : W64) : State :=
  { s with shadow := SMap.set s.shadow (s.reg r i) (r.key i) v }

/-- A write of the bits `mask` of a register to one of its fields (R4, R5, R6). An encoding that the field reserves leaves
an undefined value in it: a free value (log 1). An SC or WO field is the business of the register's own operation. -/
def State.writeField (s : State) (r : Reg) (i value mask : Nat) (f : FieldSpec) : State :=
  let m := bits mask f.lo f.width
  if m = 0 then s
  else
    let v := bits value f.lo f.width
    let fld : Fld := ⟨r, f.lo, f.width⟩
    let merged := fun (old : Nat) => (v &&& m) ||| (old &&& (m ^^^ (2 ^ f.width - 1)))
    match f.acc with
    | .ro | .wo | .sc => s
    | .w1c =>
      let s1 := s.fset fld (s.fget fld i &&& ((v &&& m) ^^^ (2 ^ f.width - 1))) i
      if v &&& m = 0 then s1 else (clearedWith fld).foldl (fun (s : State) c => s.fset c 0 i) s1
    | .w1s => s.fset fld (s.fget fld i ||| (v &&& m)) i
    | .rw =>
      let new := merged (s.fget fld i)
      match f.legal with
      | none => s.fset fld new i
      | some (lo, hi) =>
        if lo ≤ new ∧ new ≤ hi then s.fset fld new i
        else
          let (x, s1) := s.take f.width
          s1.fset fld x.toNat i
    | .cm =>
      let old := (s.shadowReg r i).toNat
      s.setShadow r i (BitVec.ofNat 64 (setBits old f.lo f.width (merged (bits old f.lo f.width))))

/-- A write of the bits `mask` of a register: every field that they touch. -/
def State.writeReg (s : State) (r : Reg) (i value mask : Nat) : State :=
  r.spec.fields.foldl (fun (s : State) f => s.writeField r i value mask f) s

/-- Whether a register is in the `TAP_` range (R23). -/
def Reg.inTap (r : Reg) : Bool :=
  r.spec.zone == .pkg && decide (0x410000 ≤ r.spec.base) && decide (r.spec.base < 0x420000)

/-- Whether a register is one of the mailbox. -/
def Reg.inMbx (r : Reg) : Bool := r == .TAP_MBX_CMD || r == .TAP_MBX_DATA

/-- Whether a die's window is gone: the die is retired or Off (R25, R449). -/
def State.dieGone (s : State) (die : Nat) : Bool :=
  s.fget F.TAP_DIE_HEALTH_STATE die == 2 || s.pwr.diesOff.contains die

/-- Whether the window that holds an instance is gone. -/
def State.windowGone (s : State) (r : Reg) (i : Nat) : Bool :=
  r.spec.zone.dies.isSome && !r.spec.zone.shared && s.dieGone (r.die i)

/-- Whether an access comes to an instance of a register. -/
def State.regOpen (s : State) (who : Requester) (r : Reg) (i : Nat) : Bool :=
  s.arrives who r.inMbx r.inTap && !s.windowGone r i

/-- Whether the PF or Taproot may still read an instance: one in the `EVC_` and `DBG_` ranges of a retired compute or home die
whose steward is powered (R25). -/
def State.retiredReadable (s : State) (who : Requester) (r : Reg) (i : Nat) : Bool :=
  r.spec.zone == .every && decide (r.die i < 80) && !s.pwr.diesOff.contains (r.die i) && (who == .pf || who == .taproot)

/-- Whether a read comes to an instance of a register (R25). -/
def State.readOpen (s : State) (who : Requester) (r : Reg) (i : Nat) : Bool :=
  s.arrives who r.inMbx r.inTap && (!s.windowGone r i || s.retiredReadable who r i)

/-- The mask of all bits of a register. -/
def Reg.full (r : Reg) : Nat := 2 ^ r.spec.width - 1

/-- A write of a whole register by a requester, within its reach; `act` is what the register's own operation adds. Out of
reach it has no effect, and a REACH record says so (R8); where BAR0 does not decode it, or its window is gone, it has none
either. -/
def State.regAction (s : State) (who : Requester) (r : Reg) (i value : Nat) (act : State → State) : Res :=
  if ¬ reachOk r.spec.wr who then .next (s.reachRecord (r.die i) who (r.addr i) true)
  else if ¬ s.regOpen who r i then .next s
  else .next (act (s.writeReg r i value r.full))

end Sys2Proof.Machine
end

