-- ==== Sys2Proof/Machine/LmService.lean ====
section
/-! DEFINITION. Service of local memory: unit power, zero-fill, the bank test and repair slots (R189 to R194). -/

namespace Sys2Proof.Machine

/-! ### Units -/

/-- The physical units of a core that are allocated, those held for peers included (R78). -/
def State.unitsUsed (s : State) (core : Nat) : List Nat :=
  (SMap.vals (SMap.keep s.cmp.blocks (fun k _ => k / 16 == core))).flatMap (·.units) ++
  (SMap.vals s.cmp.bclus).flatMap (fun x =>
    x.held.flatMap (fun e => if (x.blocks[e.1]?).map (·.1) = some core then e.2 else []))

/-- The power state of a unit: 0 On, 1 Retain, 2 Off (R192). -/
def State.unitPower (s : State) (core u : Nat) : Nat := bits (s.reg .CORE_LM_POWER core).toNat (2 * u) 2

/-- Sets the power state of a unit. -/
def State.setUnitPower (s : State) (core u v : Nat) : State :=
  s.setReg .CORE_LM_POWER core (BitVec.ofNat 64 (setBits (s.reg .CORE_LM_POWER core).toNat (2 * u) 2 v))

/-- A write was refused under R190, R193 or R194. -/
def State.lmRefuse (s : State) (core : Nat) : State := s.fset F.CORE_LM_STATUS_REFUSED 1 core

/-- A unit holds zeros and no poison (R194). -/
def State.unitZero (s : State) (core u : Nat) : State :=
  { s with cmp := { s.cmp with
    lm := SMap.keep s.cmp.lm (fun a _ => a / 2 ^ 15 != core * 32 + u)
    lmSeed := SMap.del s.cmp.lmSeed (core * 32 + u)
    lmPoison := s.cmp.lmPoison.filter (fun g => g / 2 ^ 11 != core * 32 + u) } }

/-- Every unit of a core holds zeros. -/
def State.coreZero (s : State) (core : Nat) : State :=
  (List.range 32).foldl (fun (s : State) u => s.unitZero core u) s

/-- Whether a core has no allocated unit and neither a test nor a zero-fill runs (R190, R191). -/
def State.lmIdle (s : State) (core : Nat) : Bool :=
  (s.unitsUsed core).isEmpty && !(s.core core).testing && s.fget F.CORE_LM_ZERO_UNITS core == 0

/-! ### Commands -/

/-- A write of `CORE_LM_POWER`: each unallocated unit goes to its new state, an allocated one stays On; a unit switched off
loses its contents; a reserved encoding is a free value (R6, R192, R193); a unit is not more active than its core (R13). -/
def execLmPowerWrite (who : Requester) (core : Fin 8192) (word : W64) (s : State) : Res :=
  let k := core.val
  if ¬ reachOk Reg.CORE_LM_POWER.spec.wr who then .next (s.reachRecord (Reg.die .CORE_LM_POWER k) who (Reg.addr .CORE_LM_POWER k) true)
  else if ¬ s.regOpen who .CORE_LM_POWER k then .next s
  else
    .next ((List.range 32).foldl (fun (s : State) u =>
      let old := s.unitPower k u
      let (x, s0) := if bits word.toNat (2 * u) 2 = 3 then s.take 2 else (BitVec.ofNat 2 (bits word.toNat (2 * u) 2), s)
      let new := if (s0.core k).retain ∧ x.toNat = 0 then 1 else x.toNat
      if (s.unitsUsed k).contains u then (if new = 0 then s0 else s0.lmRefuse k)
      else
        let s1 := s0.setUnitPower k u new
        let s2 := if new = 2 then s1.unitZero k u else s1
        s2.updCore k (fun c =>
          { c with waking := c.waking.filter (fun v => v != u) ++
              (if new = 0 ∧ (old ≠ 0 ∨ c.waking.contains u) then [u] else []) })) s)

/-- A unit reaches On (R192). -/
def execLmUnitWakeDone (core : Fin 8192) (unit : Fin 32) (s : State) : Res :=
  need ((s.core core.val).waking.contains unit.val)
    (.next (s.updCore core.val (fun c => { c with waking := c.waking.filter (fun v => v != unit.val) })))

/-- A write of `CORE_LM_ZERO`: units that are unallocated and On are filled; every other bit is refused (R194). -/
def execLmZeroRequest (who : Requester) (core : Fin 8192) (word : W32) (s : State) : Res :=
  let k := core.val
  if ¬ reachOk Reg.CORE_LM_ZERO.spec.wr who then .next (s.reachRecord (Reg.die .CORE_LM_ZERO k) who (Reg.addr .CORE_LM_ZERO k) true)
  else if ¬ s.regOpen who .CORE_LM_ZERO k then .next s
  else
    let ok := fun (u : Nat) => !(s.unitsUsed k).contains u && s.unitPower k u == 0 && !(s.core k).waking.contains u
    .next ((List.range 32).foldl (fun (s : State) u =>
      if ¬ word.getLsbD u then s
      else if ok u then s.fset F.CORE_LM_ZERO_UNITS (s.fget F.CORE_LM_ZERO_UNITS k ||| 2 ^ u) k
      else s.lmRefuse k) s)

/-- Whether a core leaves the banks to a zero-fill, a save, a restore or the bank test: none of its groups issues, no engine
has a queue entry, and no stream engine transfers to or from the units (R184). -/
def State.lmQuiet (s : State) (core : Nat) (units : List Nat) : Bool :=
  s.cmp.groups.all (fun e => !(e.1 / 32 == core) || e.2.complete || e.2.stopped || e.2.halted || e.2.wait != .none) &&
  s.cmp.engs.all (fun e => !(e.1 / 16 == core) || e.2.queue.isEmpty) &&
  s.cmp.chunks.all (fun e => e.2.dsts.all (fun d => match d.1 with
    | .lm a => !(a / 2 ^ 20 == core && units.contains (a / 2 ^ 15 % 32))
    | _ => true))

/-- A unit's zero-fill completes (R184, R194). -/
def execLmZeroDone (core : Fin 8192) (unit : Fin 32) (s : State) : Res :=
  let k := core.val
  let m := s.fget F.CORE_LM_ZERO_UNITS k
  need (bit m unit.val && s.lmQuiet k [unit.val]) (.next ((s.unitZero k unit.val).fset F.CORE_LM_ZERO_UNITS (m - 2 ^ unit.val) k))

/-- A write of `CORE_LM_TEST` (R191): BANKS is written; START runs the test under the conditions of R190. -/
def execLmTestStart (who : Requester) (core : Fin 8192) (word : W64) (s : State) : Res :=
  let k := core.val
  s.regAction who .CORE_LM_TEST k word.toNat (fun t =>
    if ¬ word.getLsbD 32 then t
    else if t.lmIdle k then
      ((t.fset F.CORE_LM_TEST_START 1 k).fset F.CORE_LM_TEST_DONE 0 k).updCore k (fun c => { c with testing := true })
    else t.lmRefuse k)

/-- The columns that the enabled slots of a bank replace (R189). -/
def State.repaired (s : State) (core bank : Nat) : List Nat :=
  let w := (s.reg .CORE_LM_REPAIR (core * 32 + bank)).toNat
  (List.range 4).filterMap (fun i => if bit w (16 * i + 8) then some (bits w (16 * i) 8) else none)

/-- Inserts a number into a rising list without repeats. -/
def insertNat (n : Nat) (l : List Nat) : List Nat :=
  match l with
  | [] => [n]
  | m :: r => if n < m then n :: m :: r else if n = m then m :: r else m :: insertNat n r

/-- A write of a bank's repair slots: Taproot's, under the conditions of R190; any other is refused. A fused slot keeps its
values; after a change the core zero-fills its units before it allocates one (R189, R190). -/
def execLmRepairWrite (who : Requester) (core : Fin 8192) (bank : Fin 32) (word : W64) (s : State) : Res :=
  let k := core.val
  let i := k * 32 + bank.val
  if who ≠ .taproot then .next ((s.reachRecord (Reg.die .CORE_LM_REPAIR i) who (Reg.addr .CORE_LM_REPAIR i) true).lmRefuse k)
  else if ¬ s.regOpen who .CORE_LM_REPAIR i then .next s
  else if ¬ s.lmIdle k then .next (s.lmRefuse k)
  else
    let old := (s.reg .CORE_LM_REPAIR i).toNat
    let mask := (List.range 4).foldl (fun (m : Nat) j => if bit old (16 * j + 9) then m else m + 0x1FF * 2 ^ (16 * j)) 0
    let s1 := s.writeReg .CORE_LM_REPAIR i word.toNat mask
    .next (if s1.reg .CORE_LM_REPAIR i = s.reg .CORE_LM_REPAIR i then s1
      else s1.updCore k (fun c => { c with refill := true }))

end Sys2Proof.Machine
end

