-- ==== Sys2Proof/Machine/GrigaLink.lean ====
section
/-! DEFINITION. Griga ports: training under the governor, flits, link-level retry, retrains and delays (R417 to R421,
R431, R433, R434). -/

namespace Sys2Proof.Machine

/-- The edge die of a port. -/
def portDie (p : Nat) : Nat := 80 + p / 8

/-- Event `k` of a port (R433). -/
def State.portEvent (s : State) (p k : Nat) : State := s.event (portDie p) (256 + 32 * (p % 8) + k)

/-- A port's state beside its registers. -/
def State.gport (s : State) (p : Nat) : GPort := SMap.get s.grg.ports {} p

/-- Replaces a port's state. -/
def State.setGport (s : State) (p : Nat) (g : GPort) : State :=
  { s with grg := { s.grg with ports := SMap.set s.grg.ports {} p g } }

/-- The state of a port: 0 Disabled, 1 Detect, 2 Hold, 3 Training, 4 Up, 5 Retrain, 6 Failed (R434). -/
def State.portState (s : State) (p : Nat) : Nat := s.fget F.GRG_PORT_STATUS_STATE p

/-- A 48-bit counter counts; a wrap sets its OVF bit and raises an event (R434, and the counters of the other blocks). -/
def State.count48 (s : State) (count ovf : Fld) (i n die src : Nat) : State :=
  let v := s.fget count i + n
  let s1 := s.fset count v i
  if 2 ^ 48 ≤ v then (s1.fset ovf 1 i).event die src else s1

/-- Counter `i` of a port counts `n` (R434). -/
def State.portCount (s : State) (p i n : Nat) : State :=
  s.count48 F.GRG_PORT_CNT_COUNT F.GRG_PORT_CNT_OVF (p * 4 + i) n (portDie p) (256 + 32 * (p % 8) + 4)

/-- A readiness bit or the state changes: source 544 and a log record (R445, R459). -/
def State.readiness (s : State) (f : Fld) (n : Nat) : State :=
  if s.fget f = n then s else ((s.fset f n).event edge0 544).logEvent .ready 255

/-- GRIGA_DONE follows the ports: no enabled port is in Hold or Training (R438, R451). -/
def State.grigaDone (s : State) : State :=
  let busy := (List.range 32).any (fun p => s.portState p == 2 || s.portState p == 3)
  if s.flag F.TAP_READY_STEWARDS then s.readiness F.TAP_READY_GRIGA_DONE (nb (!busy)) else s

/-- The LINK record of a port (R433). -/
def State.linkRecord (s : State) (p : Nat) : State :=
  s.dfqWrite (portDie p)
    { cls := 0x16, info0 := p + s.portState p * 2 ^ 8,
      info1 := s.fget F.GRG_PORT_STATUS_LANES p + s.fget F.GRG_PORT_STATUS_WIDTH p * 2 ^ 4 }

/-- The width code of a set of lanes: 0 none, 1 x1, 2 x2, 3 x4 (R434). -/
def laneWidth (lanes : Nat) : Nat :=
  match lanes with
  | 0 => 0
  | 15 => 3
  | 3 => 2
  | 12 => 2
  | _ => 1

/-- A set of lanes a port can run on (R416). -/
def lanesLegal (lanes : Nat) : Bool := [15, 3, 12, 1, 2, 4, 8].contains lanes

/-- Shows the lanes of a port; a change of width raises event 1 (R433). -/
def State.showLanes (s : State) (p lanes : Nat) : State :=
  let w := laneWidth lanes
  let s1 := (s.fset F.GRG_PORT_STATUS_LANES lanes p).fset F.GRG_PORT_STATUS_WIDTH w p
  if w = s.fget F.GRG_PORT_STATUS_WIDTH p then s1 else s1.portEvent p 1

/-- Gives a port its lanes; a change of width writes a LINK record beside its event (R433). -/
def State.setLanes (s : State) (p lanes : Nat) : State :=
  let s1 := s.showLanes p lanes
  if laneWidth lanes = s.fget F.GRG_PORT_STATUS_WIDTH p then s1 else s1.linkRecord p

/-- Puts a port into a state with its events: STATE changed, and on entry into Failed, where it uses no lane, event 5 and one LINK
record (R433; DESIGN CHOICE, log 87: that record is also the one of the change of width). The delay is of one Up period, and RETRAIN
returns to 0 when the port leaves Retrain or Training for another state (R4, R434). -/
def State.setPortState (s : State) (p st : Nat) : State :=
  let old := s.portState p
  if old = st then s
  else
    let s1 := (s.fset F.GRG_PORT_STATUS_STATE st p).portEvent p 0
    let s2 := if st = 6 then ((s1.showLanes p 0).portEvent p 5).linkRecord p else s1
    let s3 := if old = 4 then s2.fset F.GRG_PORT_DELAY_VALID 0 p else s2
    let left := (old == 3 || old == 5) && !(st == 3 || st == 5)
    let s4 := if left || st == 0 || st == 6 then s3.fset F.GRG_PORT_CTL_RETRAIN 0 p else s3
    s4.grigaDone

/-- The governor's slots in use (R417). -/
def State.slotsUsed (s : State) : Nat := SMap.count s.grg.ports (fun _ g => g.slot)

/-- A port asks the governor for a slot: it takes its place in the order of first requests; with no slot free it
enters Hold and sends HOLD (R417). -/
def State.askSlot (s : State) (p : Nat) : State :=
  let g := s.gport p
  let s1 := if g.asked.isSome then s else
    { s.setGport p { g with asked := some s.grg.order, holdWait := false } with
      grg := { (s.setGport p { g with asked := some s.grg.order, holdWait := false }).grg with
        order := s.grg.order + 1 } }
  if 8 ≤ s.slotsUsed then (s1.setPortState p 2).emit (.present p true) else s1

/-- A port is enabled: it enters Detect and sends PRESENT (R417). -/
def State.portEnable (s : State) (p : Nat) : State :=
  ((s.setGport p {}).setPortState p 1).emit (.present p false)

/-- A port is disabled: its transmitter is idle and it gives up its slot and its place (R417). -/
def State.portDisable (s : State) (p : Nat) : State :=
  ((s.setGport p {}).setPortState p 0).setLanes p 0

/-- The partner's fields are shown (R434). -/
def State.showPartner (s : State) (p : Nat) (q : Present) : State :=
  (((s.fset F.GRG_PORT_STATUS_PARTNER_SW (nb q.switch) p).fset F.GRG_PORT_STATUS_PARTNER_V (nb q.idValid) p).fset
    F.GRG_PORT_STATUS_PARTNER_ID q.id.val p).fset F.GRG_PORT_STATUS_PARTNER_PORT q.port.val p

/-- A PRESENT arrives: a port in Detect asks the governor for a slot; a Disabled port takes no part (R417). -/
def execPresentSet (port : Fin 32) (partner : Present) (s : State) : Res :=
  let p := port.val
  if s.portState p = 0 then .next s
  else
    let s1 := s.showPartner p partner
    .next (if s.portState p = 1 ∧ ¬ (s.gport p).holdWait then s1.askSlot p else s1)

/-- A HOLD arrives: the port gives up its slot, if it holds one, sends PRESENT and asks again 10 ms later (R417). -/
def execHoldSet (port : Fin 32) (partner : Present) (s : State) : Res :=
  let p := port.val
  let st := s.portState p
  if st = 1 ∨ st = 2 ∨ st = 3 then
    let s1 := (s.showPartner p partner).setGport p
      { s.gport p with slot := false, asked := none, holdWait := true }
    .next ((s1.setPortState p 1).emit (.present p false))
  else .next s

/-- 10 ms after a HOLD the port asks again (R417). -/
def execHoldRetry (port : Fin 32) (s : State) : Res :=
  let p := port.val
  need (s.portState p == 1 && (s.gport p).holdWait)
    (.next ((s.setGport p { s.gport p with holdWait := false }).askSlot p))

/-- The governor grants one of its 8 slots to the waiting port whose first request is oldest (R417). -/
def execTrainingGrant (port : Fin 32) (s : State) : Res :=
  let p := port.val
  let mine := (s.gport p).asked
  let first := s.grg.ports.all (fun e => match e.2.asked, mine with
    | some a, some m => decide (m ≤ a)
    | _, _ => true)
  need (mine.isSome && first && decide (s.slotsUsed < 8) && (s.portState p == 1 || s.portState p == 2))
    (.next ((s.setGport p { s.gport p with slot := true, asked := none }).setPortState p 3))

/-- The widest width that MAXW admits (R434). -/
def State.maxWidth (s : State) (p : Nat) : Nat :=
  match s.fget F.GRG_PORT_CTL_MAXW p with
  | 0 => 3
  | 1 => 2
  | _ => 1

/-- Training completes: the port is Up on a set of lanes no wider than MAXW and frees its slot (R417, R421). -/
def execPortUp (port : Fin 32) (lanes : BitVec 4) (s : State) : Res :=
  let p := port.val
  need (s.portState p == 3 && lanesLegal lanes.toNat && decide (laneWidth lanes.toNat ≤ s.maxWidth p))
    (.next (((s.setGport p { slot := false }).setLanes p lanes.toNat).setPortState p 4))

/-- A Training port does not reach Up within 300 ms: it gives up its slot and asks again; the third failure enters
Failed (R417). -/
def execTrainingTimeout (port : Fin 32) (s : State) : Res :=
  let p := port.val
  let n := s.fget F.GRG_PORT_STATUS_TRAIN_FAILS p + 1
  let s1 := (s.setGport p { s.gport p with slot := false }).fset F.GRG_PORT_STATUS_TRAIN_FAILS (min n 3) p
  need (s.portState p == 3) (.next (if 3 ≤ n then s1.setPortState p 6 else (s1.setPortState p 1).askSlot p))

/-- A port enters Retrain on a set of candidate lanes (R421). -/
def State.enterRetrain (s : State) (p cand : Nat) : State :=
  (((s.setGport p { s.gport p with cand := cand, replays := 0 }).setPortState p 5).portEvent p 2).portCount p 3 1

/-- An ACK arrives: the flits up to it leave the replay store (R420). -/
def State.takeAck (s : State) (p ack : Nat) : State :=
  let g := s.gport p
  let n := (ack + 4096 - g.acked) % 4096
  if n = 0 ∨ g.unacked < n then s
  else s.setGport p { g with acked := ack, unacked := g.unacked - n, replays := 0 }

/-- The receiver drops a flit: it is counted, and after the first such drop one NAK names the expected SEQ (R420). -/
def State.dropFlit (s : State) (p : Nat) : State :=
  let s1 := s.portCount p 2 1
  let g := s1.gport p
  if g.nakSent then s1
  else (s1.setGport p { g with nakSent := true }).emit (.flit p 2 g.txSeq ((g.rxSeq + 4095) % 4096))

/-- A DATA flit arrives: the next expected one is delivered; any other, or a bad one, is dropped (R420). The messages a delivered flit
completes arrive as commands of their own. -/
def execDataFlit (port : Fin 32) (seq : Fin 4096) (ack : Fin 4096) (good : Bool) (s : State) : Res :=
  let p := port.val
  let g := s.gport p
  if s.portState p ≠ 4 then .next s
  else if good ∧ seq.val = g.rxSeq then
    .next ((s.setGport p { g with rxSeq := (g.rxSeq + 1) % 4096, nakSent := false }).takeAck p ack.val)
  else .next (s.dropFlit p)

/-- An IDLE flit arrives with its ACK and the sender's next SEQ; a bad one, or one whose SEQ is not the expected one, is dropped
(R419, R420). -/
def execIdleFlit (port : Fin 32) (seq : Fin 4096) (ack : Fin 4096) (good : Bool) (s : State) : Res :=
  let p := port.val
  if s.portState p ≠ 4 then .next s
  else if good ∧ seq.val = (s.gport p).rxSeq then .next (s.takeAck p ack.val)
  else .next (s.dropFlit p)

/-- The transmitter replays its unacknowledged flits; the same flit replayed REPLAY_LIMIT times without ACK passing it
enters Retrain (R420, R421). -/
def State.replay (s : State) (p : Nat) : State :=
  let g := s.gport p
  let s1 := (s.setGport p { g with replays := g.replays + 1 }).portCount p 1 g.unacked
  if s.fget F.GRG_PORT_CTL_REPLAY_LIMIT p ≤ g.replays + 1 then
    (s1.portEvent p 3).enterRetrain p (s.fget F.GRG_PORT_STATUS_LANES p)
  else s1.emit (.flit p 0 ((g.acked + 1) % 4096) ((g.rxSeq + 4095) % 4096))

/-- A NAK arrives: every flit from the one named is replayed (R420). -/
def execNakFlit (port : Fin 32) (expected : Fin 4096) (s : State) : Res :=
  let p := port.val
  if s.portState p ≠ 4 then .next s
  else
    let s1 := s.takeAck p ((expected.val + 4095) % 4096)
    .next (if (s1.gport p).unacked = 0 then s1 else s1.replay p)

/-- 8 µs pass with unacknowledged flits and no advance of ACK: the flits are replayed (R420). -/
def execReplayTimeout (port : Fin 32) (s : State) : Res :=
  need (s.portState port.val == 4 && (s.gport port.val).unacked != 0) (.next (s.replay port.val))

/-- A DELAY exchange ends: the one-way delay of the link, in 1/16 ns as its four times are (R431). -/
def execDelayFlit (port : Fin 32) (t1 : W64) (t2 : W64) (t3 : W64) (t4 : W64) (s : State) : Res :=
  let d := ((t4 - t1) - (t3 - t2)).toNat / 2
  if s.portState port.val = 4 then
    .next ((s.fset F.GRG_PORT_DELAY_DELAY d port.val).fset F.GRG_PORT_DELAY_VALID 1 port.val)
  else .next s

/-- Loss of FEC alignment enters Retrain (R421). -/
def execFecAlignmentLoss (port : Fin 32) (s : State) : Res :=
  need (s.portState port.val == 4)
    (.next (s.enterRetrain port.val (s.fget F.GRG_PORT_STATUS_LANES port.val)))

/-- The 1 s pre-FEC error measurement ends: lanes in use whose ratio exceeds 5 × 10⁻⁴ cause a retrain that drops them
(R421). -/
def execBerMeasurement (port : Fin 32) (bad : BitVec 4) (s : State) : Res :=
  let p := port.val
  let lanes := s.fget F.GRG_PORT_STATUS_LANES p
  need (s.portState p == 4)
    (.next (if lanes &&& bad.toNat = 0 then s else s.enterRetrain p (lanes &&& (bad.toNat ^^^ 15))))

/-- RETRAIN = 1: TRAIN_FAILS clears; an Up port retrains with every lane up to MAXW; a Failed port starts again from
Detect and asks for a slot, and RETRAIN reads 1 until that training ends; in Disabled, Detect and Hold there is nothing to retrain,
and RETRAIN stays 0 (R417, R421, R434; DESIGN CHOICE, log 87). -/
def State.portRetrain (s : State) (p : Nat) : State :=
  let s1 := s.fset F.GRG_PORT_STATUS_TRAIN_FAILS 0 p
  match s.portState p with
  | 4 => (s1.fset F.GRG_PORT_CTL_RETRAIN 1 p).enterRetrain p 15
  | 6 => ((((s1.setGport p {}).setPortState p 1).fset F.GRG_PORT_CTL_RETRAIN 1 p).emit (.present p false)).askSlot p
  | 5 => s1.fset F.GRG_PORT_CTL_RETRAIN 1 p |>.setGport p { s.gport p with cand := 15 }
  | 3 => s1.fset F.GRG_PORT_CTL_RETRAIN 1 p
  | _ => s1

/-- The lanes a retrain comes back on, no wider than a width: all four, else a whole pair, else one lane (R421). -/
def retrainLanes (widest good : Nat) : Nat :=
  if widest = 3 ∧ good = 15 then 15
  else if 2 ≤ widest ∧ good &&& 3 = 3 then 3
  else if 2 ≤ widest ∧ good &&& 12 = 12 then 12
  else if good &&& 1 = 1 then 1
  else if good &&& 2 = 2 then 2
  else if good &&& 4 = 4 then 4
  else if good &&& 8 = 8 then 8
  else 0

/-- A retrain ends: lanes that failed it are dropped; the port comes back Up, narrower only with DEGRADE = 1, and replays what was not
acknowledged, or enters Failed. A retrain by RETRAIN tries all lanes up to MAXW (R421; DESIGN CHOICE, log 87: what MAXW alone takes
away is no narrowing that DEGRADE forbids). -/
def execRetrainComplete (port : Fin 32) (failed : BitVec 4) (s : State) : Res :=
  let p := port.val
  let g := s.gport p
  let widest := if s.flag F.GRG_PORT_CTL_RETRAIN p then s.maxWidth p else 3
  let lanes := retrainLanes widest (g.cand &&& (failed.toNat ^^^ 15))
  let narrower := decide (laneWidth lanes < min widest (s.fget F.GRG_PORT_STATUS_WIDTH p))
  let up := ((s.setLanes p lanes).setPortState p 4).portCount p 1 g.unacked
  need (s.portState p == 5)
    (.next (if lanes = 0 ∨ (narrower ∧ ¬ s.flag F.GRG_PORT_CTL_DEGRADE p) then s.setPortState p 6
      else if g.unacked = 0 then up
      else up.emit (.flit p 0 ((g.acked + 1) % 4096) ((g.rxSeq + 4095) % 4096))))

/-- A message leaves on a port: its slots take whole flits' worth of sequence numbers (R419, R420). -/
def State.sendMsg (s : State) (p : Nat) (m : GMsg) : State :=
  let slots := (24 + m.payload.length + 7) / 8
  let n := (slots + 62) / 63
  let g := s.gport p
  (s.setGport p { g with txSeq := (g.txSeq + n) % 4096, unacked := min 1024 (g.unacked + n) }).emit (.griga p m)

end Sys2Proof.Machine
end

