-- ==== Sys2Proof/Machine/Egress.lean ====
section
/-! DEFINITION. Griga egress: routes, the egress tables, and the requests that wait for them (R22, R423, R425 to R430,
R434). -/

namespace Sys2Proof.Machine

/-- The opcodes of Griga messages (R423). -/
def opRd : Nat := 0x01
def opWr : Nat := 0x02
def opAt : Nat := 0x03
def opPut : Nat := 0x04
def opPutRed : Nat := 0x05
def opGet : Nat := 0x06
def opData : Nat := 0x10
def opAck : Nat := 0x11
def opNack : Nat := 0x12

/-- A package counter of Griga counts: 0 requests sent, 1 timeouts, 2 refusals at ingress, 3 responses discarded (R434). -/
def State.pkgCount (s : State) (i n : Nat) : State :=
  let v := s.fget F.GRG_PKG_CNT_COUNT i + n
  let s1 := s.fset F.GRG_PKG_CNT_COUNT (v % 2 ^ 48) i
  if 2 ^ 48 ≤ v then s1.fset F.GRG_PKG_CNT_OVF 1 i else s1

/-- The fields of a route table entry (R426). -/
def routePort (w : Nat) : Nat := bits w 1 5
def routeHops (w : Nat) : Nat := bits w 6 4

/-- Whether an entry gives a route: V set, reserved bits clear, at most 8 hops (R427). -/
def routeOk (w : Nat) : Bool := bit w 0 && bits w 10 6 == 0 && decide (routeHops w ≤ 8)

/-- The route entry of a destination: from the cache of an edge die, or read from the table and cached by the edge die
of its port; `none` where the read fails (R426, R427). A full cache of 4,096 entries loses one that the hardware
chooses. -/
def State.route (s : State) (dst : Nat) : State × Option Nat :=
  match s.grg.routes.find? (fun e => e.1 % 16384 == dst) with
  | some e => (s, some e.2.toNat)
  | none =>
    let (s1, w, c) := s.readWord (s.fget F.GRG_RT_BASE_BASE * 2 ^ 17 + 8 * dst) 8
    if c ≠ 0 then (s1, none)
    else
      let edge := routePort w / 8
      let mine := SMap.keys (SMap.keep s1.grg.routes (fun k _ => k / 16384 == edge))
      let (n, s2) := s1.pick 4096
      let kept := if 4096 ≤ mine.length then SMap.del s2.grg.routes ((mine[n]?).getD 0) else s2.grg.routes
      ({ s2 with grg := { s2.grg with routes := SMap.put kept (edge * 16384 + dst) (BitVec.ofNat 64 w) } }, some w)

/-- The smallest free index of an edge die's egress table. -/
def State.egressFree (s : State) (edge : Nat) : Option Nat :=
  (List.range 8192).find? (fun i => !SMap.has s.grg.egress (edge * 8192 + i))

/-- Whether a request to a destination and class must wait behind another: an earlier one waits, or requests are still
outstanding on another route (R425, R427). -/
def State.egressHeld (s : State) (m : GMsg) (w : Nat) : Bool :=
  s.grg.egWait.any (fun e => e.msg.dst == m.dst && e.msg.cls == m.cls) ||
  s.grg.egress.any (fun e => e.2.msg.dst == m.dst && e.2.route != w)

/-- Marks an access as accepted by egress. -/
def State.accSent (s : State) (i : Issuer) : State :=
  match i with
  | .access a => { s with cmp := { s.cmp with accs := s.cmp.accs.map (fun x => if x.id = a then { x with sent := true } else x) } }
  | _ => s

/-- A request takes an entry of the egress table and leaves on its port. -/
def State.egressTake (s : State) (index : Nat) (e : EgReq) (w : Nat) : State :=
  let raw := (SMap.get s.grg.gens 0 index + 1) % 8
  let gen := (raw + s.grg.genBase) % 8
  let m := { e.msg with tag := index % 8192 + gen * 8192, route := w / 2 ^ 16, hops := routeHops w, ptr := 0 }
  let s1 := { s with grg := { s.grg with
    egress := SMap.put s.grg.egress index { e with msg := m, port := routePort w, route := w }
    gens := SMap.put s.grg.gens index raw } }
  ((s1.accSent e.issuer).pkgCount 0 1).sendMsg (routePort w) m

/-- A request reaches egress: refused with code 0x25, sent, or left waiting while the table is full or an old route is
in use (R427, R429). -/
def State.egress (s : State) (noremote : Bool) (i : Issuer) (m : GMsg) : State × Nat :=
  if noremote || !s.flag F.GRG_RT_BASE_EN || !s.flag F.GRG_PKG_ID_V then (s, 0x25)
  else
    match s.route m.dst with
    | (s1, none) => (s1, 0x25)
    | (s1, some w) =>
      if ¬ routeOk w ∨ s1.portState (routePort w) ≠ 4 then (s1, 0x25)
      else
        let e : EgReq := { msg := { m with src := s1.pkgId }, port := routePort w, route := w, issuer := i, issued := s1.localNs }
        match s1.egressFree (routePort w / 8) with
        | some k =>
          if s1.egressHeld e.msg w then ({ s1 with grg := { s1.grg with egWait := s1.grg.egWait ++ [e] } }, 0)
          else (s1.egressTake (routePort w / 8 * 8192 + k) e w, 0)
        | none => ({ s1 with grg := { s1.grg with egWait := s1.grg.egWait ++ [e] } }, 0)

/-- The requests that wait at egress take the entries that have become free, the oldest first; the second part names
those that are refused now, because their route has gone. -/
def State.egressDrain (s : State) : State × List Issuer :=
  let waiting := s.grg.egWait
  waiting.foldl (fun (r : State × List Issuer) e =>
    let s0 := r.1
    match s0.route e.msg.dst with
    | (s1, none) => (s1, r.2 ++ [e.issuer])
    | (s1, some w) =>
      if ¬ routeOk w ∨ s1.portState (routePort w) ≠ 4 then (s1, r.2 ++ [e.issuer])
      else
        match s1.egressFree (routePort w / 8) with
        | some k =>
          if s1.egressHeld e.msg w then ({ s1 with grg := { s1.grg with egWait := s1.grg.egWait ++ [e] } }, r.2)
          else (s1.egressTake (routePort w / 8 * 8192 + k) e w, r.2)
        | none => ({ s1 with grg := { s1.grg with egWait := s1.grg.egWait ++ [e] } }, r.2))
    ({ s with grg := { s.grg with egWait := [] } }, [])

/-- An entry of the egress table becomes free. -/
def State.egressFreeEntry (s : State) (index : Nat) : State :=
  { s with grg := { s.grg with egress := SMap.del s.grg.egress index } }

/-- Whether a context's remote accesses are refused (R345, R427). -/
def State.noremote (s : State) (c : Nat) : Bool := ((s.ctx c).map (·.noremote)).getD false

end Sys2Proof.Machine
end

