-- ==== Sys2Proof/Machine/Near.lean ====
section
/-! DEFINITION. The near caches of a core (R195 to R209): lines, write-backs, invalidations and the scope actions. -/

namespace Sys2Proof.Machine

/-- Changes the near caches. -/
def State.setNear (s : State) (f : Near → Near) : State := { s with cmp := { s.cmp with near := f s.cmp.near } }

/-- Adds an access after every other. -/
def State.addAcc (s : State) (a : Access) : State :=
  { s with cmp := { s.cmp with accNo := s.cmp.accNo + 1, accs := s.cmp.accs ++ [{ a with id := s.cmp.accNo + 1 }] } }

/-- Removes an access. -/
def State.dropAcc (s : State) (id : Nat) : State :=
  { s with cmp := { s.cmp with accs := s.cmp.accs.filter (fun a => a.id != id) } }

/-- Changes an access. -/
def State.updAcc (s : State) (id : Nat) (f : Access → Access) : State :=
  { s with cmp := { s.cmp with accs := s.cmp.accs.map (fun a => if a.id = id then f a else a) } }

/-- The next number in the orders of use and allocation. -/
def State.tick1 (s : State) : Nat × State := (s.cmp.stamp, { s with cmp := { s.cmp with stamp := s.cmp.stamp + 1 } })

/-- A store of the core's own: bytes of a scalar line, or of a store whose fill does not come about (R198, R199). -/
def State.coreStore (s : State) (core ctx line attr mask : Nat) (d : Line) : State :=
  s.addAcc { core := core, slot := 32, ctx := ctx, kind := .store, line := line, attr := attr, mask := mask, data := d }

/-- Writes back the dirty bytes of a scalar line; the line stays valid and clean (R198). -/
def State.scBack (s : State) (k : Nat) : State :=
  match SMap.find s.cmp.near.sc k with
  | none => s
  | some l =>
    if l.dirty = 0 then s
    else
      (s.coreStore (k / 2 ^ 50) l.ctx l.pa l.attr l.dirty l.data).setNear (fun n =>
        { n with sc := SMap.put n.sc k { l with dirty := 0 } })

/-- The scalar lines of a core that satisfy `p` of their virtual line number. -/
def State.scKeys (s : State) (core : Nat) (p : Nat → Bool) : List Nat :=
  SMap.keys (SMap.keep s.cmp.near.sc (fun k _ => k / 2 ^ 50 == core && p (k % 2 ^ 50)))

/-- Fills in flight to lines that satisfy `p` no longer allocate; the bytes of a store that waited for one go to the
quadrant as a write of their own. -/
def State.dropFills (s : State) (core : Nat) (p : Nat → Bool) (which : Fill → Bool) : State :=
  let hit := fun (a : Access) => a.core == core && which a.fill && p (a.va / 128)
  let bytes := s.cmp.accs.filter (fun a => hit a && a.mask != 0 && a.kind == .load)
  let s1 := { s with cmp := { s.cmp with accs := s.cmp.accs.map (fun a =>
    if hit a then (if a.kind = .load then { a with fill := .none, mask := 0 } else { a with fill := .none }) else a) } }
  bytes.foldl (fun (s : State) a => s.coreStore core a.ctx a.line a.attr a.mask a.data) s1

/-- The dirty bytes of the scalar lines that satisfy `p` are written back (R204, R208). -/
def State.scWriteBack (s : State) (core : Nat) (p : Nat → Bool) : State :=
  let s1 := if s.cmp.accs.any (fun a => a.core == core && a.fill == .scalar && a.mask != 0 && p (a.va / 128))
    then s.dropFills core p (fun f => f == .scalar) else s
  (s1.scKeys core p).foldl (fun (s : State) k => s.scBack k) s1

/-- L1 lines that satisfy `p` are invalidated. -/
def State.l1Drop (s : State) (core : Nat) (p : Nat → Bool) : State :=
  (s.dropFills core p (fun f => f == .l1)).setNear (fun n =>
    { n with l1 := SMap.keep n.l1 (fun k _ => !(k / 2 ^ 50 == core && p (k % 2 ^ 50))) })

/-- Scalar and side-buffer lines that satisfy `p`: dirty bytes written back, then invalidated. -/
def State.scDrop (s : State) (core : Nat) (p : Nat → Bool) : State :=
  ((s.scWriteBack core p).dropFills core p (fun f => f == .scalar || f == .side)).setNear (fun n =>
    { n with
      sc := SMap.keep n.sc (fun k _ => !(k / 2 ^ 50 == core && p (k % 2 ^ 50)))
      side := SMap.keep n.side (fun k _ => !(k / 2 ^ 50 == core && p (k % 2 ^ 50))) })

/-- Instruction-cache lines that satisfy `p` are invalidated. -/
def State.icDrop (s : State) (core : Nat) (p : Nat → Bool) : State :=
  s.setNear (fun n => { n with ic := SMap.keep n.ic (fun k _ => !(k / 2 ^ 50 == core && p (k % 2 ^ 50))) })

/-- Every line. -/
def everyLine : Nat → Bool := fun _ => true

/-- The acquire-side action (R204). -/
def State.acquireSide (s : State) (core : Nat) : State := (s.l1Drop core everyLine).scDrop core everyLine

/-- The release-side action (R204). -/
def State.releaseSide (s : State) (core : Nat) : State := s.scWriteBack core everyLine

/-- All near caches of a core are brought up to date: at the kernel boundary (R87), before a save (R206). -/
def State.nearClean (s : State) (core : Nat) : State := (s.acquireSide core).icDrop core everyLine

/-- Puts a filled line into the L1: 128 sets of 8 ways, the victim chosen by the hardware (R195). -/
def State.l1Put (s : State) (core va : Nat) (d : Line) : State :=
  let k := ncKey core va
  let same := SMap.keys (SMap.keep s.cmp.near.l1 (fun j _ => j / 2 ^ 50 == core && j % 128 == k % 128 && j != k))
  let (n, s1) := s.pick 8
  s1.setNear (fun m =>
    let l1 := if 8 ≤ same.length then SMap.del m.l1 ((same[n]?).getD k) else m.l1
    { m with l1 := SMap.put l1 k { data := d } })

/-- A parity error of a near cache counts, with the core's error event at the first count and at saturation (R196, R199,
R203, R503). -/
def State.nearParity (s : State) (core : Nat) (cnt sat : Fld) : State :=
  s.ceEvent cnt sat core (core / 128) (128 + core % 128)

/-- A scalar or side-buffer line whose parity error was found is dropped and counted; its dirty bytes are lost (R199). -/
def State.scLost (s : State) (k : Nat) : State :=
  ((s.foundUpset .scalar (fun x => x == k)).setNear (fun n => { n with sc := SMap.del n.sc k, side := SMap.del n.side k })).nearParity
    (k / 2 ^ 50) F.CORE_NC_PARITY_SC F.CORE_NC_PARITY_SC_SAT

/-- Makes room for one line in the scalar cache: the line used longest ago leaves, its dirty bytes written back (R198). The second
part says that the eviction found a parity error on dirty bytes (R199). -/
def State.scRoom (s : State) (core : Nat) : State × Bool :=
  let mine := SMap.keep s.cmp.near.sc (fun k _ => k / 2 ^ 50 == core)
  if mine.length < 48 then (s, false)
  else
    match mine with
    | [] => (s, false)
    | e :: r =>
      let v := r.foldl (fun (x : Nat × ScLine) y => if y.2.age < x.2.age then y else x) e
      if s.struck .scalar v.1 then (s.scLost v.1, v.2.dirty != 0)
      else ((s.scBack v.1).setNear (fun n => { n with sc := SMap.del n.sc v.1 }), false)

/-- Puts a line into the scalar cache, in the place of the line itself or of one that leaves (R198); the second part is that of
`scRoom`. -/
def State.scPut (s : State) (core va : Nat) (l : ScLine) : State × Bool :=
  let (s0, lost) := if SMap.has s.cmp.near.sc (ncKey core va) then (s, false) else s.scRoom core
  let (n, s1) := s0.tick1
  (s1.setNear (fun m => { m with
    sc := SMap.put m.sc (ncKey core va) { l with age := n }
    side := SMap.del m.side (ncKey core va) }), lost)

/-- Puts a prefetched line into the side buffer: 4 lines, the oldest dropped (R195, R200). -/
def State.sidePut (s : State) (core va : Nat) (l : NcLine) : State :=
  let mine := SMap.keep s.cmp.near.side (fun k _ => k / 2 ^ 50 == core)
  let (n, s1) := s.tick1
  let old := mine.foldl (fun (x : Option (Nat × NcLine)) y =>
    match x with
    | none => some y
    | some z => if y.2.age < z.2.age then some y else some z) none
  s1.setNear (fun m =>
    let side := if 4 ≤ mine.length then (match old with
      | some o => SMap.del m.side o.1
      | none => m.side) else m.side
    { m with side := SMap.put side (ncKey core va) { l with age := n } })

/-- A vector access first writes back and drops the scalar line's dirty bytes; a store drops a clean scalar line too, so
that the two data caches stay consistent for the core's own stores (R202). -/
def State.vectorTouch (s : State) (core va : Nat) (store : Bool) : State :=
  let here := fun v => v == va / 128
  let dirty : Bool := match SMap.find s.cmp.near.sc (ncKey core va) with
    | some l => l.dirty != 0
    | none => s.cmp.accs.any (fun a => a.core == core && a.fill == .scalar && a.mask != 0 && here (a.va / 128))
  if dirty || store then s.scDrop core here else s

/-- A store of the core updates the L1 line it hits, and no fill in flight brings older bytes (R196, R238). -/
def State.l1Update (s : State) (core va mask : Nat) (d : Line) : State :=
  (s.dropFills core (fun v => v == va / 128) (fun f => f == .l1)).setNear (fun n =>
    { n with l1 := SMap.upd n.l1 (ncKey core va) (fun l => { l with data := lineMerge l.data d mask }) })

/-- A parity error of the L1 line of an address, found as it is looked up: the line is dropped and counted, and the access misses
(R196). -/
def State.l1Find (s : State) (core va : Nat) : State :=
  let k := ncKey core va
  if SMap.has s.cmp.near.l1 k && s.struck .l1 k then
    ((s.foundUpset .l1 (fun x => x == k)).setNear (fun n => { n with l1 := SMap.del n.l1 k })).nearParity core F.CORE_NC_PARITY_L1
      F.CORE_NC_PARITY_L1_SAT
  else s

end Sys2Proof.Machine
end

