-- ==== Sys2Proof/Machine/Quadrant.lean ====
section
/-! DEFINITION. What becomes of an access after its checks: the quadrant cache serves it from a line it holds or sends a
request (R211 to R216, R220, R224), egress takes it, and an answer completes it (R242 to R245). -/

namespace Sys2Proof.Machine

/-! ### Scopes -/

/-- Whether everything before an access that a release at a scope comes after is over: earlier loads of the group have
returned, earlier stores and atomics, and write-backs of the core, have been performed (R244). -/
def State.releaseDue (s : State) (core slot before scope : Nat) : Bool :=
  s.cmp.accs.all (fun b =>
    !(decide (b.id < before) && b.core == core &&
      ((b.slot == slot && (b.kind == .load || !b.performedAt scope)) ||
       (b.slot == 32 && b.kind == .store && !b.performedAt scope))))

/-! ### Completion of an access -/

/-- The scope whose fence covers an access to another package, or to memory of the own package or of the host. -/
def Access.scope (a : Access) : Nat := if a.target = 1 then 5 else 2

/-- A group takes a deferred exception of one of its accesses (R123). -/
def State.deferAccess (s : State) (a : Access) (code : Nat) : State :=
  if a.slot = 32 then s
  else s.defer (a.core * 32 + a.slot)
    { code := code, pc := a.pc, scope := a.scope, lanes := a.lanes, addr := a.va }

/-- An access leaves: an acquire at cluster scope or wider brings the acquire-side action (R204, R245). -/
def State.leaveAcc (s : State) (a : Access) : State :=
  let s1 := s.dropAcc a.id
  match a.acq with
  | some sc => if 2 ≤ sc then s1.acquireSide a.core else s1
  | none => s1

/-- A prefetch of the line after a filled scalar line into the side buffer (R200). -/
def State.scPrefetch (s : State) (core ctx va line attr : Nat) : State :=
  let va' := va / 128 * 128 + 128
  let k := ncKey core va'
  if va' % 65536 = 0 ∨ SMap.has s.cmp.near.sc k ∨ SMap.has s.cmp.near.side k ∨ ¬ s.populated ((line + 1) * 128) ∨
      s.cmp.accs.any (fun a => a.core == core && a.va / 128 == va' / 128 && a.fill != .none && a.fill != .l1) then s
  else s.addAcc { core := core, slot := 32, ctx := ctx, kind := .load, line := line + 1, attr := attr, va := va', fill := .side }

/-- The context of a group is put into the faulted state: dirty scalar bytes were lost, which its access or its fill's eviction
found (R199). -/
def State.scFault (s : State) (g pc lanes va : Nat) : State :=
  match s.grp g with
  | none => s
  | some grp => s.except g (s.excRecord g grp 0x28 pc lanes va false true false 0)

/-- A filled line goes into the near cache it was asked for (R196, R197, R200). -/
def State.fillNear (s : State) (a : Access) (d : Line) : State :=
  match a.fill with
  | .none => s
  | .l1 => s.l1Put a.core a.va d
  | .scalar =>
    let l : ScLine := { data := lineMerge d a.data a.mask, dirty := a.mask, pa := a.line, attr := a.attr, ctx := a.ctx }
    let (s1, lost) := s.scPut a.core a.va l
    let s2 := s1.scPrefetch a.core a.ctx a.va a.line a.attr
    if lost then s2.scFault (a.core * 32 + a.slot) a.pc a.lanes a.va else s2
  | .side => s.sidePut a.core a.va { data := d, pa := a.line, attr := a.attr, ctx := a.ctx }

/-- A load's data has come, or an error code: the registers of its lanes, a deferred exception, the fill (R107, R123,
R199). -/
def State.finishLoad (s : State) (a : Access) (d : Line) (code : Nat) : State :=
  let g := a.core * 32 + a.slot
  let s0 := if code = 0 then s.fillNear a d
    else if a.fill = .scalar ∧ a.mask ≠ 0 then s.coreStore a.core a.ctx a.line a.attr a.mask a.data
    else s
  let s1 := s0.leaveAcc a
  if a.slot = 32 ∨ (s1.grp g).isNone then s1
  else
    let s2 := a.reads.foldl (fun (s : State) r =>
      if code = 0 then s.putLoaded g r (lineGet d r.off r.size) else s.putFree g r) s1
    if code = 0 ∨ a.reads = [] then s2 else s2.deferAccess a code

/-- A store is performed, or has ended in an error. -/
def State.finishStore (s : State) (a : Access) (code : Nat) : State :=
  let s1 := s.leaveAcc a
  if code = 0 ∨ (s1.grp (a.core * 32 + a.slot)).isNone then s1 else s1.deferAccess a code

/-- An atomic returns the old value of each lane, or an error code (R113, R261, R278). -/
def State.finishAtomic (s : State) (a : Access) (old : List (Nat × Nat)) (code : Nat) : State :=
  let g := a.core * 32 + a.slot
  let s1 := s.leaveAcc a
  if (s1.grp g).isNone then s1
  else
    let s2 := a.reads.foldl (fun (s : State) r =>
      if code = 0 then s.putLoaded g r (((old.find? (fun x => x.1 == r.lane)).map (·.2)).getD 0) else s.putFree g r) s1
    if code = 0 then s2 else s2.deferAccess a code

/-- An access ends in an error. -/
def State.failAcc (s : State) (a : Access) (code : Nat) : State :=
  match a.kind with
  | .load => s.finishLoad a 0 code
  | .store => s.finishStore a code
  | .atomic => s.finishAtomic a [] code

/-! ### The quadrant cache -/

/-- The set of a line (R211). -/
def qset (line : Nat) : Nat := line % 8192 ^^^ (line / 8192 % 8192)

/-- Changes a line of a quadrant cache. -/
def State.setQ (s : State) (q line : Nat) (l : QLine) : State :=
  { s with cmp := { s.cmp with qlines := SMap.put s.cmp.qlines (qkey q line) l } }

/-- Removes a line from a quadrant cache. -/
def State.delQ (s : State) (q line : Nat) : State :=
  { s with cmp := { s.cmp with qlines := SMap.del s.cmp.qlines (qkey q line) } }

/-- A line of a quadrant cache. -/
def State.qline (s : State) (q line : Nat) : Option QLine := SMap.find s.cmp.qlines (qkey q line)

/-- Sends a message. -/
def State.send (s : State) (m : Msg) : State := { s with cmp := { s.cmp with net := s.cmp.net ++ [m] } }

/-- Whether a state is stable (R218). -/
def LState.stable (st : LState) : Bool :=
  match st with
  | .m | .o | .e | .s => true
  | _ => false

/-- Eviction buffers in use in a quadrant (R212). -/
def State.evbUsed (s : State) (q : Nat) : Nat :=
  SMap.count s.cmp.qlines (fun k l => k / 2 ^ 39 == q && l.st == .wb)

/-- Requests of a quadrant in flight to a home (R212). -/
def State.qInFlight (s : State) (q h : Nat) : Nat :=
  (s.cmp.accs.filter (fun a => a.target == 0 && a.sent && quadOf a.core == q && s.homeOf a.line == h)).length

/-- A quadrant cache gives a stable line up: a clean one silently, a dirty one through an eviction buffer; `none` when the
16 buffers are in use (R212, R220). -/
def State.evict (s : State) (q line : Nat) (l : QLine) : Option State :=
  if ¬ l.st.dirty then some (s.delQ q line)
  else if 16 ≤ s.evbUsed q then none
  else
    let s1 := s.setQ q line { l with st := .wb }
    some (s1.send { kind := .wbData, line := line, quad := q, data := l.data, poison := l.poison, hw := l.hw, part := l.part })

/-- A way of the line's set that a cluster's requests may fill (R216): a free one, or that of the line used longest ago
among those that are not busy, which is given up. -/
def State.allocWay (s : State) (q cluster line : Nat) : Option (Nat × State) :=
  let mask := bits (s.reg .QDC_ALLOC q).toNat (16 * (cluster % 4)) 16
  let mine := SMap.keep s.cmp.qlines (fun k l => k / 2 ^ 39 == q && qset (k % 2 ^ 39) == qset line && l.st != .wb)
  let ways := (List.range 16).filter (fun w => bit mask w)
  match ways.find? (fun w => !mine.any (fun e => e.2.way == w)) with
  | some w => some (w, s)
  | none =>
    let cand := mine.filter (fun e => ways.contains e.2.way && e.2.st.stable)
    match cand with
    | [] => none
    | e :: r =>
      let v := r.foldl (fun (x : Nat × QLine) y => if y.2.age < x.2.age then y else x) e
      (s.evict q (v.1 % 2 ^ 39) v.2).map (fun s1 => (v.2.way, s1))

/-- A request of an access goes to the home of its line (R222, R370). -/
def State.request (s : State) (a : Access) (k : MsgKind) (held : Option LState) : State :=
  let part := s.partOf a.ctx
  let m : Msg :=
    { kind := k, line := a.line, quad := quadOf a.core, stream := a.core % 32, part := part, state := held,
      acc := if k = .getS ∨ k = .getM then 0 else a.id, data := a.data, mask := a.mask, atom := a.atom }
  let n := if k = .writeInvPart then halves a.mask else 2
  ((s.updAcc a.id (fun x => { x with sent := true })).countTier a.ctx a.line n).send m

/-- A line that is filled is none of those that a running flush found when it began (R217). -/
def State.flushPast (s : State) (q line : Nat) : State :=
  { s with cmp := { s.cmp with flushing := s.cmp.flushing.map (fun f =>
      if f.quad = q then { f with lines := f.lines.filter (fun l => l != line) } else f) } }

/-- A request for a line of its own: the line enters a transient state in a way of its set (R213, R216). -/
def State.requestLine (s : State) (a : Access) (k : MsgKind) (st : LState) : Option State :=
  let q := quadOf a.core
  match s.allocWay q (clusterOf a.core) a.line with
  | none => none
  | some (w, s1) =>
    let (n, s2) := (s1.flushPast q a.line).tick1
    some ((s2.setQ q a.line { st := st, part := s.partOf a.ctx, way := w, age := n }).request a k none)

/-- The access is counted as a miss, once. -/
def State.missed (s : State) (a : Access) : State :=
  if a.tried then s
  else (s.quadCount (quadOf a.core) 1).updAcc a.id (fun x => { x with tried := true })

/-- The access is counted as a hit, unless it was counted as a miss before. -/
def State.hit (s : State) (a : Access) : State := if a.tried then s else s.quadCount (quadOf a.core) 0

/-- A line of another Partition ID that an access meets leaves the quadrant cache; the access goes on where it is gone (R212). -/
def State.foreignLine (s : State) (a : Access) (l : QLine) (go : State → Option State) : Option State :=
  match (s.missed a).evict (quadOf a.core) a.line l with
  | none => none
  | some s1 => if (s1.qline (quadOf a.core) a.line).isSome then some s1 else go s1

/-- A cacheable load of a line that its quadrant cache lacks (R213, R214). -/
def State.loadAbsent (a : Access) (s : State) : Option State :=
  if a.noAlloc then some (s.request a .readOnce none) else s.requestLine a .getS .is

/-- A store that goes to the home as a WriteInv. -/
def State.writeThrough (a : Access) (s : State) : State :=
  s.request a (if a.mask = fullMask then .writeInvFull else .writeInvPart) none

/-- A cacheable store of a line that its quadrant cache lacks (R213, R215). -/
def State.storeAbsent (a : Access) (s : State) : Option State :=
  if a.attr = 2 ∨ a.noAlloc then some (s.writeThrough a) else s.requestLine a .getM .im

/-- A load at its quadrant cache (R212 to R214). -/
def State.loadOwn (s : State) (a : Access) : Option State :=
  let q := quadOf a.core
  if a.attr = 3 then some ((s.missed a).request a .readOnce none)
  else
    match s.qline q a.line with
    | none => (s.missed a).loadAbsent a
    | some l =>
      if ¬ l.st.stable then none
      else if l.hw ∨ l.part = s.partOf a.ctx then
        let (n, s1) := (s.hit a).tick1
        some ((s1.setQ q a.line { l with age := n }).finishLoad a l.data (if l.poison then 0x28 else 0))
      else s.foreignLine a l (State.loadAbsent a)

/-- A store to a stable line of its quadrant cache (R213, R215): a line in M or E takes it, another is asked for. -/
def State.storeHit (s : State) (a : Access) (l : QLine) : State :=
  let q := quadOf a.core
  match l.st with
  | .m | .e =>
    let (n, s1) := (s.hit a).tick1
    (s1.setQ q a.line
      { l with st := .m, age := n, data := lineMerge l.data a.data a.mask,
               poison := l.poison && a.mask != fullMask }).finishStore a 0
  | .o => ((s.missed a).setQ q a.line { l with st := .om, got := none, comp := none }).request a .getM (some .o)
  | _ => ((s.missed a).setQ q a.line { l with st := .sm, got := none, comp := none }).request a .getM (some .s)

/-- A store at its quadrant cache (R212 to R216). -/
def State.storeOwn (s : State) (a : Access) : Option State :=
  if a.attr = 3 ∨ a.attr = 1 then some ((s.missed a).writeThrough a)
  else
    match s.qline (quadOf a.core) a.line with
    | none => (s.missed a).storeAbsent a
    | some l =>
      if ¬ l.st.stable then none
      else if l.hw ∨ l.part = s.partOf a.ctx then some (s.storeHit a l)
      else s.foreignLine a l (State.storeAbsent a)

/-- A quadrant cache serves an access from a line it holds, sends a request for it, or leaves it waiting: `none` (R212 to
R216, R224). -/
def State.tryOwn (s : State) (a : Access) : Option State :=
  let q := quadOf a.core
  if s.cmp.qdead.contains q then none
  else if ((s.qline q a.line).map (·.st)) = some .wb then none
  else if 64 ≤ s.qInFlight q (s.homeOf a.line) then none
  else
    match a.kind with
    | .atomic => some (s.request a .atomic none)
    | .load => s.loadOwn a
    | .store => s.storeOwn a

/-- The Griga request of a group's access (R423). -/
def accMsg (a : Access) : GMsg :=
  let dst := a.line * 128 / 2 ^ 46
  let line := a.line * 128 % 2 ^ 46
  match a.kind, a.atom with
  | .load, _ => { dst := dst, cls := 1, op := opRd, addr := line, len := 128, payload := toBytes a.mask 16 }
  | .store, _ =>
    { dst := dst, cls := 1, op := opWr, addr := line, len := 128, payload := toBytes a.mask 16 ++ lineBytes a.data }
  | .atomic, none => { dst := dst, cls := 1, op := opAt, addr := line }
  | .atomic, some t =>
    { dst := dst, cls := 1, op := opAt, addr := line + (t.lanes.map (·.off)).headD 0, len := typeBytes t.type
      x := t.op.ctorIdx % 8 + t.type * 16
      payload := t.lanes.flatMap (fun l => if t.op = .cas then toBytes l.b 8 ++ toBytes l.c 8 else toBytes l.b 8) }

/-- The granules of 64 B that an access to another package or to host memory moves (R370). -/
def Access.granules (a : Access) : Nat := if a.kind = .atomic then 2 else max 1 (halves a.mask)

/-- An access to another package reaches egress (R427). -/
def State.tryRemote (s : State) (a : Access) : State :=
  if s.grg.egWait.any (fun e => e.issuer == .access a.id) then s
  else
    let s1 := s.account a.ctx (fun c => { c with griga := c.griga + a.granules })
    let (s2, code) := s1.egress (s.noremote a.ctx) (.access a.id) (accMsg a)
    if code = 0 then s2 else s2.failAcc a code

/-- The runs of bytes that a mask covers: first byte and length. -/
def maskRuns (mask : Nat) : List (Nat × Nat) :=
  (List.range 128).foldl (fun (r : List (Nat × Nat)) i =>
    if bit mask i then
      match r.reverse with
      | (o, n) :: rest => if o + n = i then (rest.reverse ++ [(o, n + 1)]) else r ++ [(i, 1)]
      | [] => [(i, 1)]
    else r) []

/-- An access to host memory goes to the PCIe gateway, which accepts a store at once (R242, R303, R310). -/
def State.tryHost (s : State) (a : Access) : State :=
  let (f, p) := s.ctxFunc a.ctx
  let s1 := s.account a.ctx (fun c => { c with pcie := c.pcie + a.granules })
  let base := a.line * 128
  match a.kind with
  | .load =>
    let runs := maskRuns a.mask
    let lo := (runs.headD (0, 1)).1
    let hi := (runs.map (fun x => x.1 + x.2)).foldl max (lo + 1)
    let tag := SMap.fresh s1.host.reads
    let s2 := { s1 with host := { s1.host with reads := SMap.put s1.host.reads tag (.access a.id) } }
    (s2.updAcc a.id (fun x => { x with sent := true })).emit (.hostRead f (some p) tag (base + lo) (hi - lo))
  | _ =>
    ((maskRuns a.mask).foldl (fun (s : State) x =>
      s.emit (.hostWrite f (some p) (base + x.1) (((lineBytes a.data).drop x.1).take x.2))) s1).finishStore a 0

/-- An atomic of local memory whose release is due is performed (R113, R185, R244). -/
def State.tryLocal (s : State) (a : Access) : State :=
  let s1 := s.leaveAcc a
  match a.atom with
  | none => s1
  | some t => s1.localAtomic (a.core * 32 + a.slot) a.pc t a.reads a.va

/-- The deferred exception that a fence or release at a scope raises: of those it covers, the one with the lowest code,
the oldest of them (R123, R125). -/
def Grp.deferredIn (g : Grp) (scope : Nat) : Option Deferred :=
  match g.deferred.filter (fun d => decide (d.scope ≤ scope)) with
  | [] => none
  | d :: r => some (r.foldl (fun x y => if y.code < x.code then y else x) d)

/-- An uncorrectable error of a quadrant cache is logged and raises its event source (R233). -/
def State.quadError (s : State) (q set way kind : Nat) : State :=
  let s1 :=
    if s.flag F.QDC_ERRLOG_VALID q then s.fset F.QDC_ERRLOG_MULTI 1 q
    else
      ((((s.fset F.QDC_ERRLOG_VALID 1 q).fset F.QDC_ERRLOG_MULTI 0 q).fset F.QDC_ERRLOG_KIND kind q).fset
        F.QDC_ERRLOG_WAY way q).fset F.QDC_ERRLOG_SET set q
  s1.event (q / 4) (384 + q % 4)

/-- An uncorrectable tag error: the quadrant accepts no further request, and the contexts on its clusters are faulted
(R233). -/
def State.quadTagError (s : State) (q : Nat) (set way : Nat) : State :=
  let s1 := s.quadError q set way 0
  s1.retireQuadrant q

/-- The errors that the look-up of a line in a quadrant cache finds: in the tags of its set, and in the data of the line (R233). -/
def State.quadFind (s : State) (q line : Nat) : State :=
  let tag := fun (k : Nat) => k / 2 ^ 39 == q && qset (k % 2 ^ 39) == qset line && SMap.has s.cmp.qlines k
  let data := fun (k : Nat) => k == qkey q line && ((s.qline q line).map (·.st.stable)).getD false
  let s0 := (s.foundUpset .qtag tag).foundUpset .qdata data
  let s1 := (s.upsetsAt .qtag tag ++ s.upsetsAt .qdata data).foldl (fun (s : State) u =>
    match SMap.find s.cmp.qlines u.place with
    | none => s
    | some l =>
      if ¬ u.hard then s.ceEvent F.QDC_CE_COUNT F.QDC_CE_SAT q (q / 4) (384 + q % 4)
      else if u.arr = .qtag then s.quadTagError q (qset line) l.way
      else if l.st.dirty then (s.setQ q line { l with poison := true }).quadError q (qset line) l.way 2
      else (s.delQ q line).quadError q (qset line) l.way 1) s0
  s1

/-- Every access that waits is tried, the oldest first; one that cannot be served holds back those behind it for the same
line (R212); a scalar fill waits for the write-backs before it (R198); a release waits for what it comes after, and raises the deferred exceptions that have come meanwhile (R123,
R244). -/
def State.pump (s : State) : State :=
  let ids := (s.cmp.accs.filter (fun a => !a.sent)).map (·.id)
  let key := fun (a : Access) => if a.target = 0 then (quadOf a.core, a.line) else (255 + a.target, a.line)
  (ids.foldl (fun (r : State × List (Nat × Nat)) id =>
    match r.1.cmp.accs.find? (fun a => a.id == id) with
    | none => r
    | some a =>
      let busy := r.2.contains (key a) ||
        r.1.cmp.accs.any (fun b => decide (b.id < a.id) && b.sent && b.target == 0 && key b == key a && a.target == 0)
      let behind := a.fill == .scalar && r.1.cmp.accs.any (fun b => decide (b.id < a.id) && b.core == a.core && b.slot == 32 &&
        b.kind == .store)
      let held := behind || match a.rel with
        | some sc => !r.1.releaseDue a.core a.slot a.ins sc
        | none => false
      let err := match a.rel with
        | some sc => ((r.1.grp (a.core * 32 + a.slot)).bind (fun g => g.deferredIn sc))
        | none => none
      if busy || held then (r.1, key a :: r.2)
      else if let some d := err then ((r.1.dropAcc a.id).raiseDeferred (a.core * 32 + a.slot) d, r.2)
      else if a.target = 3 then (r.1.tryLocal a, r.2)
      else if a.target = 2 then (r.1.tryHost a, r.2)
      else if a.target = 1 then (r.1.tryRemote a, r.2)
      else
        match (r.1.quadFind (quadOf a.core) a.line).tryOwn a with
        | some s1 => if (s1.cmp.accs.any (fun b => b.id == id && !b.sent)) then (s1, key a :: r.2) else (s1, r.2)
        | none => (r.1, key a :: r.2)) (s, [])).1

/-- A line of a quadrant cache has become stable: the access that asked for it is served from it (R224). -/
def State.lineReady (s : State) (q line : Nat) : State :=
  { s with cmp := { s.cmp with accs := s.cmp.accs.map (fun a =>
      if a.target = 0 ∧ a.line = line ∧ quadOf a.core = q ∧ a.sent ∧ a.kind ≠ .atomic ∧ a.attr ≠ 3 ∧
          !(a.kind = .load ∧ a.noAlloc) then { a with sent := false } else a) } }

end Sys2Proof.Machine
end

