-- ==== Sys2Proof/Machine/Global.lean ====
section
/-! DEFINITION. Global memory: loads, stores, acquires and releases, scalar accesses, physical accesses, reserved loads and
conditional stores, atomics (R107 to R114, R195 to R202, R242 to R245, R263, R511). -/

namespace Sys2Proof.Machine

/-! ### Checks -/

/-- What the checks of a global access answer. -/
inductive Checked where
  | ok (l : List (Nat × Nat × Dst))
  | wait (s : State)
  | fault (code lanes addr : Nat)

/-- The checks of a global access on its lanes: alignment, translation, rights and decode, and the watchpoints (R107,
R110, R125, R304, R511). -/
def State.globalLanes (s : State) (g : Nat) (grp : Grp) (i : FmtM) (off : Int) (bytes m : Nat) (r : Right)
    (rd wr : Bool) : Checked :=
  let core := g / 32
  let addr := fun l => unsgn 64 ((s.laneBase g i true l : Int) + off)
  let lanes := lanesOf m
  let x := lanes.map (fun l => (l, s.translate (clusterOf core) grp.ctx grp.misses r (addr l)))
  let codes := x.map (fun p =>
    let a := addr p.1
    (p.1, (if a % bytes ≠ 0 then [0x20] else []) ++
      (match p.2 with
        | .fault c => [c]
        | _ => []) ++
      (if s.wpMatch grp rd wr false a bytes then [0x32] else [])))
  let low := lowestCode codes
  let open_ := x.find? (fun p => match p.2 with
    | .walk => true
    | .host _ _ => true
    | _ => false)
  let early := match low with
    | some (c, _, _) => decide (c < 0x22)
    | none => false
  match low, open_ with
  | some (c, who, first), none => .fault c who (addr first)
  | none, none => .ok (x.filterMap (fun p => match p.2 with
      | .hit d => some (p.1, addr p.1, d)
      | _ => none))
  | l, some (lane, t) =>
    match early, l with
    | true, some (c, who, first) => .fault c who (addr first)
    | _, _ =>
      match t with
      | .host f p =>
        let s1 := s.startHost (clusterOf core) grp.ctx f p (addr lane) wr
        .wait (s1.updGrp g (fun q => { q with wait := .host (addr lane / 4096) }))
      | _ => .wait (s.waitWalk g grp.ctx (addr lane))

/-- The checks of a physical access (R108, R20, R21). -/
def State.physicalLanes (s : State) (g : Nat) (i : FmtM) (off : Int) (bytes m : Nat) : Checked :=
  let addr := fun l => unsgn 64 ((s.laneBase g i true l : Int) + off)
  let codes := (lanesOf m).map (fun l =>
    let a := addr l
    (l, (if a % bytes ≠ 0 then [0x20] else []) ++
      (if 2 ^ 46 ≤ a ∨ ¬ s.populated a then [0x24] else [])))
  match lowestCode codes with
  | some (c, who, first) => .fault c who (addr first)
  | none => .ok ((lanesOf m).map (fun l => (l, addr l, ⟨0, 3, addr l⟩)))

/-- The look-ups of the virtual addresses of an access count and refresh the TLBs, once per page (R306, R321). -/
def State.useTlbs (s : State) (g : Nat) (grp : Grp) (addrs : List Nat) : State :=
  s.usePages (clusterOf (g / 32)) grp.ctx addrs

/-- Whether an acquire of a group has not returned yet (R245). -/
def State.acquiring (s : State) (g : Nat) : Bool :=
  s.cmp.accs.any (fun a => a.core * 32 + a.slot == g && a.acq.isSome)

/-- Whether a group's remote access cannot issue yet: a pre-emption is pending, or, for a load, the core has 4 remote load
instructions outstanding (R357, R360). -/
def State.remoteHeld (s : State) (g : Nat) (load : Bool) (l : List (Nat × Nat × Dst)) : Bool :=
  l.any (fun x => x.2.2.target == 1) &&
    (s.preempt g ||
      (load && decide (4 ≤ ((s.cmp.accs.filter (fun a => a.core == g / 32 && a.target == 1 && a.kind == .load)).map
        (·.ins)).eraseDups.length)))

/-- An array error in what a global access looks up: a near cache, a TLB, the quadrant-cache line of its first lane (R196,
R199, R233, R308). `none` where nothing is there that could hold the error. -/
def State.quadErr (s : State) (g : Nat) (e : ArrayErr) (d : Dst) : Option State :=
  let q := quadOf (g / 32)
  let line := d.addr / 128
  match e with
  | .correctable | .uncorrectable | .tag =>
    if d.target ≠ 0 then none
    else
      match s.qline q line with
      | none => none
      | some l =>
        if ¬ l.st.stable then none
        else
          match e with
          | .correctable => some (s.ceEvent F.QDC_CE_COUNT F.QDC_CE_SAT q (q / 4) (384 + q % 4))
          | .tag => some (s.quadTagError q (qset line) l.way)
          | _ =>
            if l.st.dirty then some ((s.setQ q line { l with poison := true }).quadError q (qset line) l.way 2)
            else some ((s.delQ q line).quadError q (qset line) l.way 1)
  | _ => some s

/-- A parity error of the TLB entry that an address hits: the entry is dropped and counted (R308). -/
def State.tlbParity (s : State) (g ctx va : Nat) : Option State :=
  match s.leaf (clusterOf (g / 32)) ctx va with
  | none => none
  | some (t, _) =>
    some (({ s with cmp := { s.cmp with tlbs := s.cmp.tlbs.filter (fun u => u != t) } }).qtlbCount (quadOf (g / 32)) 3)

/-- A parity error of the L1 line of an address: it is dropped and counted (R196). -/
def State.l1Parity (s : State) (core va : Nat) : Option State :=
  if SMap.has s.cmp.near.l1 (ncKey core va) then
    some ((s.setNear (fun n => { n with l1 := SMap.del n.l1 (ncKey core va) })).nearParity core F.CORE_NC_PARITY_L1
      F.CORE_NC_PARITY_L1_SAT)
  else none

/-- A parity error of the scalar or side-buffer line of an address: a clean line is dropped; the dirty bytes of a line are
lost (R199): the second part says so. -/
def State.scParity (s : State) (core va : Nat) : Option (State × Bool) :=
  let k := ncKey core va
  if SMap.has s.cmp.near.sc k || SMap.has s.cmp.near.side k then
    let dirty := match SMap.find s.cmp.near.sc k with
      | some l => l.dirty != 0
      | none => false
    some (s.scLost k, dirty)
  else none

/-! ### Vector accesses -/

/-- The lines that lanes address: the first lane's data address and place, and the lanes with their offsets. -/
def byLine (l : List (Nat × Nat × Dst)) : List (Nat × Dst × List (Nat × Nat)) :=
  ((l.map (fun x => x.2.1 / 128)).eraseDups).filterMap (fun v =>
    match l.filter (fun x => x.2.1 / 128 == v) with
    | [] => none
    | x :: r => some (x.2.1, x.2.2, (x :: r).map (fun y => (y.1, y.2.1 % 128))))

/-- The lanes of a line, as a mask. -/
def laneSet (l : List (Nat × Nat)) : Nat := l.foldl (fun n x => n ||| 2 ^ x.1) 0

/-- The bytes of a line that lanes address. -/
def byteSet (l : List (Nat × Nat)) (bytes : Nat) : Nat := l.foldl (fun n x => n ||| maskOf x.2 bytes) 0

/-- How a vector load or store reaches memory: its hint, and an acquire's or a release's scope. -/
structure Mode where
  hint : Nat := 0
  acq : Option Nat := none
  rel : Option Nat := none

/-- The base of an access of a group to a line. -/
def mkAcc (s : State) (g : Nat) (grp : Grp) (ins : Nat) (k : AccKind) (va : Nat) (d : Dst) (lanes : Nat) : Access :=
  { ins := ins, core := g / 32, slot := g % 32, ctx := grp.ctx, kind := k, line := d.addr / 128, target := d.target,
    attr := d.attr, va := va, pc := grp.pc, lanes := lanes, gen := ((s.grp g).map (·.gen)).getD 0 }

/-- A vector load of one line: from the L1 where it holds the line, else by an access (R196, R202, R245); on a UC page, and by
physical address, no near cache is looked up. -/
def State.loadLine (s : State) (g : Nat) (grp : Grp) (ins dst bytes : Nat) (mode : Mode)
    (x : Nat × Dst × List (Nat × Nat)) : State :=
  let core := g / 32
  let (va, d, lanes) := x
  let reads := lanes.map (fun y => (⟨y.1, y.2, bytes, false, dst⟩ : LaneRead))
  let past := match mode.acq with
    | some sc => decide (2 ≤ sc)
    | none => false
  let cached := d.target == 0 && d.attr != 3 && !past
  let s1 := if d.target = 0 ∧ d.attr ≠ 3 then (s.vectorTouch core va false).l1Find core va else s
  match if cached then SMap.find s1.cmp.near.l1 (ncKey core va) else none with
  | some l => reads.foldl (fun (s : State) r => s.putLoaded g r (lineGet l.data r.off bytes)) s1
  | none =>
    s1.addAcc { mkAcc s1 g grp ins .load va d (laneSet lanes) with
      reads := reads
      mask := if d.target = 0 then 0 else byteSet lanes bytes
      fill := if cached && mode.hint != 1 then .l1 else .none
      noAlloc := mode.hint == 2
      acq := mode.acq }

/-- A vector load (`ld.g`, `ld.acq`, `ld.p`). -/
def State.vectorLoad (s : State) (g : Nat) (grp : Grp) (dst bytes : Nat) (mode : Mode) (l : List (Nat × Nat × Dst)) : State :=
  let ins := s.cmp.accNo + 1
  ((byLine l).foldl (fun (s : State) x => s.loadLine g grp ins dst bytes mode x) s).pump

/-- A vector store of one line: the lanes' bytes, a higher-numbered lane over a lower (R181, R196). -/
def State.storeLine (s : State) (g : Nat) (grp : Grp) (ins src bytes : Nat) (mode : Mode)
    (x : Nat × Dst × List (Nat × Nat)) : State :=
  let core := g / 32
  let (va, d, lanes) := x
  let mask := byteSet lanes bytes
  let data := lanes.foldl (fun (v : Line) y => lineSet v y.2 bytes (ofBytes (s.storeBytes g src y.1 bytes))) (0 : Line)
  let s1 := if d.target = 0 ∧ d.attr ≠ 3 then ((s.vectorTouch core va true).l1Find core va).l1Update core va mask data else s
  s1.addAcc { mkAcc s1 g grp ins .store va d (laneSet lanes) with
    mask := mask
    data := data
    noAlloc := mode.hint == 2
    rel := mode.rel }

/-- A vector store (`st.g`, `st.rel`, `st.p`). -/
def State.vectorStore (s : State) (g : Nat) (grp : Grp) (src bytes : Nat) (mode : Mode) (l : List (Nat × Nat × Dst)) : State :=
  let ins := s.cmp.accNo + 1
  ((byLine l).foldl (fun (s : State) x => s.storeLine g grp ins src bytes mode x) s).pump

/-- A global access after its encoding checks, with the virtual addresses of its lanes: array errors, the checks of its lanes, waits, then `act` on the lanes'
places. `near` finds a parity error of the near cache; true where it put the context into the faulted state. -/
def State.globalAccess (s : State) (g : Nat) (grp : Grp) (m : Nat) (e : ArrayErr) (addrs : List Nat)
    (checks : State → Checked) (load : Bool) (near : State → Nat → Option (State × Bool))
    (act : State → List (Nat × Nat × Dst) → Eff) (scalar : Bool := false) : Eff :=
  if s.acquiring g then .wait s
  else if e = .registers then .raise (s.coreError (g / 32)) 0x28 m noAddr 0
  else
    match if e = .tlbParity then s.tlbParity g grp.ctx (addrs.headD 0) else some s with
    | none => .stop
    | some s' =>
      let s0 := s'.tlbSweep (clusterOf (g / 32)) grp.ctx addrs
      match checks s0 with
      | .fault c who a => .raise s0 c who a 0
      | .wait s1 => .wait s1
      | .ok l =>
        if s0.remoteHeld g load l then .wait s0
        else
          match l with
          | [] => .done s0
          | x :: _ =>
            match if e = .nearParity then near s0 x.2.1
              else if scalar && e == .none && s0.struck .scalar (ncKey (g / 32) x.2.1) then (near s0 x.2.1).or (some (s0, false))
              else (s0.quadErr g e x.2.2).map (fun y => (y, false)) with
            | none => .stop
            | some (s1, true) => .jump s1
            | some (s1, false) => if (s1.grp g).isNone then .jump s1 else act (s1.useTlbs g grp addrs) l

/-- The data addresses of the lanes. -/
def State.laneAddrs (s : State) (g : Nat) (i : FmtM) (off : Int) (m : Nat) : List Nat :=
  (lanesOf m).map (fun l => unsgn 64 ((s.laneBase g i true l : Int) + off))

/-- `ld.g` (R107, R109, R196). -/
def execLdG (w : Who) (i : FmtM) (e : ArrayErr) (s : State) : Res :=
  let n := sizeBytes i.size.val
  let f : MForm := { hint := true }
  s.issueM w i (f.reserved i) (memVecs n true false i) [] (fun t g grp m =>
    t.globalAccess g grp m e (t.laneAddrs g i (mOffset i) m)
      (fun t => t.globalLanes g grp i (mOffset i) n m .read true false) true
      (fun t va => (t.l1Parity (g / 32) va).map (fun y => (y, false)))
      (fun t l => .done (t.vectorLoad g grp i.d.val n { hint := mHint i } l)))

/-- `st.g` (R107, R109, R196). -/
def execStG (w : Who) (i : FmtM) (e : ArrayErr) (s : State) : Res :=
  let n := sizeBytes i.size.val
  let f : MForm := { hint := true }
  s.issueM w i (f.reserved i) (memVecs n true false i) [] (fun t g grp m =>
    t.globalAccess g grp m e (t.laneAddrs g i (mOffset i) m)
      (fun t => t.globalLanes g grp i (mOffset i) n m .write false true) false
      (fun t va => (t.l1Parity (g / 32) va).map (fun y => (y, false)))
      (fun t l => .done (t.vectorStore g grp i.d.val n { hint := mHint i } l)))

/-- `ld.acq` (R111, R245): at cluster scope or wider it reads past the near caches. -/
def execLdAcq (w : Who) (i : FmtM) (s : State) : Res :=
  let n := sizeBytes i.size.val
  let f : MForm := { scope := true }
  s.issueM w i (f.reserved i) (memVecs n true false i) [] (fun t g grp m =>
    t.globalAccess g grp m .none (t.laneAddrs g i (mOffset i) m)
      (fun t => t.globalLanes g grp i (mOffset i) n m .read true false) true (fun t _ => some (t, false))
      (fun t l => .done (t.vectorLoad g grp i.d.val n { acq := some i.scope.val } l)))

/-- A release of a group at a scope: a deferred exception that it covers is raised; at cluster scope or wider the
release-side action comes first (R123, R204, R244). -/
def State.releaseFirst (s : State) (g : Nat) (scope : Nat) : Eff :=
  match (s.grp g).bind (fun x => x.deferredIn scope) with
  | some d => .jump (s.raiseDeferred g d)
  | none => .done (if 2 ≤ scope then (s.releaseSide (g / 32)).pump else s)

/-- `st.rel` (R111, R244). -/
def execStRel (w : Who) (i : FmtM) (s : State) : Res :=
  let n := sizeBytes i.size.val
  let f : MForm := { scope := true }
  s.issueM w i (f.reserved i) (memVecs n true false i) [] (fun t g grp m =>
    t.globalAccess g grp m .none (t.laneAddrs g i (mOffset i) m)
      (fun t => t.globalLanes g grp i (mOffset i) n m .write false true) false (fun t _ => some (t, false))
      (fun t l =>
        match t.releaseFirst g i.scope.val with
        | .done t1 => .done (t1.vectorStore g grp i.d.val n { rel := some i.scope.val } l)
        | x => x))

/-- Whether a group runs at Service level (R122). -/
def State.serviceLevel (s : State) (grp : Grp) : Bool := ((s.ctx grp.ctx).map (·.service)).getD false

/-- `ld.p`: at Service level alone (R108, R122). It uses no near cache and, as on a UC page, no quadrant cache. -/
def execLdP (w : Who) (i : FmtM) (s : State) : Res :=
  let n := sizeBytes i.size.val
  s.issueM w i (({} : MForm).reserved i) (memVecs n true false i) [] (fun t g grp m =>
    t.globalAccess g grp m .none [] (fun t => t.physicalLanes g i (mOffset i) n m) true (fun t _ => some (t, false))
      (fun t l => .done (t.vectorLoad g grp i.d.val n {} l)))
    (fun t grp => if t.serviceLevel grp then none else some 0x03)

/-- `st.p` (R108, R122). -/
def execStP (w : Who) (i : FmtM) (s : State) : Res :=
  let n := sizeBytes i.size.val
  s.issueM w i (({} : MForm).reserved i) (memVecs n true false i) [] (fun t g grp m =>
    t.globalAccess g grp m .none [] (fun t => t.physicalLanes g i (mOffset i) n m) false (fun t _ => some (t, false))
      (fun t l => .done (t.vectorStore g grp i.d.val n {} l)))
    (fun t grp => if t.serviceLevel grp then none else some 0x03)

/-! ### Scalar accesses (R197 to R202) -/

/-- Whether a fill of a scalar line of an address is in flight: a scalar access to it waits for it. -/
def State.scFilling (s : State) (core va : Nat) : Bool :=
  s.cmp.accs.any (fun a => a.core == core && a.fill == .scalar && a.va / 128 == va / 128)

/-- The scalar line of an address: in the cache, or moved into it from the side buffer, with the prefetch of the next
line (R200). The last part says that the eviction lost dirty bytes (R199). -/
def State.scHit (s : State) (core va : Nat) : Option (State × ScLine × Bool) :=
  match SMap.find s.cmp.near.sc (ncKey core va) with
  | some l => some (s, l, false)
  | none =>
    match SMap.find s.cmp.near.side (ncKey core va) with
    | none => none
    | some l =>
      let sl : ScLine := { data := l.data, pa := l.pa, attr := l.attr, ctx := l.ctx }
      let (s1, lost) := s.scPut core va sl
      some (s1.scPrefetch core l.ctx va l.pa l.attr, sl, lost)

/-- A parity error of the scalar line of an address that its access finds: the context of the group is faulted where dirty bytes
were lost (R199). -/
def State.scFind (s : State) (g : Nat) (grp : Grp) (m va : Nat) : Option (State × Bool) :=
  match s.scParity (g / 32) va with
  | some (t1, true) => some (t1.scFault g grp.pc m va, true)
  | x => x

/-- The end of a scalar access whose eviction may have lost dirty bytes: the context of the group is then faulted (R199). -/
def scDone (lost : Bool) (g : Nat) (grp : Grp) (m va : Nat) (s : State) : Eff :=
  if lost then .jump (s.pump.scFault g grp.pc m va) else .done s.pump

/-- `ld.s` (R107, R197, R199). -/
def execLdS (w : Who) (i : FmtM) (e : ArrayErr) (s : State) : Res :=
  let n := sizeBytes i.size.val
  let f : MForm := { high := 3, scalar := true }
  s.issueM w i (f.reserved i) (memVecs n true true i) [.s i.d.val] (fun t g grp m =>
    let core := g / 32
    t.globalAccess g grp m e (t.laneAddrs g i (mOffset i) m)
      (fun t => t.globalLanes g grp i (mOffset i) n m .read true false) true
      (fun t va => t.scFind g grp m va)
      (fun t l =>
        match l with
        | [] => .done t
        | (lane, va, d) :: _ =>
          let r : LaneRead := ⟨lane, va % 128, n, true, i.d.val⟩
          let ins := t.cmp.accNo + 1
          let acc := { mkAcc t g grp ins .load va d m with reads := [r], mask := if d.target = 0 then 0 else maskOf (va % 128) n }
          if d.target ≠ 0 ∨ d.attr = 3 then .done (t.addAcc acc).pump
          else if t.scFilling core va then .wait t
          else
            match t.scHit core va with
            | some (t1, x, lost) => scDone lost g grp m va ((t1.scPut core va x).1.putLoaded g r (lineGet x.data r.off n))
            | none =>
              let (t1, lost) := t.scRoom core
              scDone lost g grp m va (t1.addAcc { acc with fill := .scalar })) true)

/-- `st.s` (R107, R197, R199, R202). -/
def execStS (w : Who) (i : FmtM) (e : ArrayErr) (s : State) : Res :=
  let n := sizeBytes i.size.val
  let f : MForm := { high := 3, scalar := true }
  s.issueM w i (f.reserved i) (memVecs n true true i) [.s i.d.val] (fun t g grp m =>
    let core := g / 32
    t.globalAccess g grp m e (t.laneAddrs g i (mOffset i) m)
      (fun t => t.globalLanes g grp i (mOffset i) n m .write false true) false
      (fun t va => t.scFind g grp m va)
      (fun t l =>
        match l with
        | [] => .done t
        | (_, va, d) :: _ =>
          let mask := maskOf (va % 128) n
          let data := lineSet 0 (va % 128) n (t.sReg g i.d.val % 2 ^ (8 * n))
          let ins := t.cmp.accNo + 1
          let acc := { mkAcc t g grp ins .store va d m with mask := mask, data := data }
          if d.target ≠ 0 then .done (t.addAcc acc).pump
          else
            let t1 := (t.l1Drop core (fun v => v == va / 128)).dropFills core (fun v => v == va / 128) (fun x => x == .side)
            if d.attr = 3 then .done (t1.addAcc acc).pump
            else if t.scFilling core va then .wait t
            else
              match t1.scHit core va with
              | some (t2, x, lost) =>
                let x' := { x with data := lineMerge x.data data mask }
                if d.attr = 1 then scDone lost g grp m va ((t2.scPut core va x').1.addAcc acc)
                else scDone lost g grp m va (t2.scPut core va { x' with dirty := x.dirty ||| mask }).1
              | none =>
                if d.attr = 0 then
                  let (t2, lost) := t1.scRoom core
                  scDone lost g grp m va (t2.addAcc { acc with kind := .load, fill := .scalar })
                else .done (t1.addAcc acc).pump) true)

/-- The near-cache lines of an address leave before a reserved access or an atomic goes to the quadrant (R201). -/
def State.atomTouch (s : State) (core va : Nat) : State :=
  let here := fun v => v == va / 128
  (s.l1Drop core here).scDrop core here

/-- `ld.rsv` (R112, R201, R263). -/
def execLdRsv (w : Who) (i : FmtM) (s : State) : Res :=
  let n := sizeBytes i.size.val
  let f : MForm := { low := 2, high := 3, scalar := true }
  s.issueM w i (f.reserved i) (memVecs n true true i) [.s i.d.val] (fun t g grp m =>
    t.globalAccess g grp m .none (t.laneAddrs g i (mOffset i) m)
      (fun t => t.globalLanes g grp i (mOffset i) n m .loadRsv true true) true (fun t _ => some (t, false))
      (fun t l =>
        match l with
        | [] => .done t
        | (lane, va, d) :: _ =>
          let t1 := t.atomTouch (g / 32) va
          .done (t1.addAcc { mkAcc t1 g grp (t1.cmp.accNo + 1) .atomic va d m with
            reads := [⟨lane, va % 128, n, true, i.d.val⟩]
            atom := some { op := .loadRsv, type := if n = 8 then 8 else 7, lanes := [⟨lane, va % 128, 0, 0⟩], owner := g } }).pump))

/-- The C field of `st.cond`, bits [22:15], and its OFFSET, bits [14:0] (R112). -/
def condSrc (i : FmtM) : Nat := bits i.low.toNat 15 8
def condOffset (i : FmtM) : Int := sgn 15 i.low.toNat

/-- Whether a `st.cond` is reserved (R92, R112). -/
def condReserved (i : FmtM) : Bool :=
  !(!i.w && (i.size == 2 || i.size == 3) && i.scope == 0 && decide (i.a.val < 64) && decide (i.d.val < 64) &&
    decide (condSrc i < 64))

/-- `st.cond` (R112, R201, R263): sD receives 1 when the store is performed and 0 when it is not. Its base is the scalar
register of A whatever its bits [22:15] say. -/
def execStCond (w : Who) (i : FmtM) (s : State) : Res :=
  let n := sizeBytes i.size.val
  let base : FmtM := { i with low := 2 ^ 22 }
  s.issueM w base (condReserved i) [] [.s i.d.val, .s (condSrc i)] (fun t g grp m =>
    t.globalAccess g grp m .none (t.laneAddrs g base (condOffset i) m)
      (fun t => t.globalLanes g grp base (condOffset i) n m .storeCond true true) true (fun t _ => some (t, false))
      (fun t l =>
        match l with
        | [] => .done t
        | (lane, va, d) :: _ =>
          let t1 := t.atomTouch (g / 32) va
          let lanes : List AtomLane := [⟨lane, va % 128, t.sReg g (condSrc i) % 2 ^ (8 * n), 0⟩]
          .done (t1.addAcc { mkAcc t1 g grp (t1.cmp.accNo + 1) .atomic va d m with
            reads := [⟨lane, va % 128, n, true, i.d.val⟩]
            atom := some { op := .storeCond, type := if n = 8 then 8 else 7, lanes := lanes, owner := g } }).pump))

/-! ### Atomics (R113, R114, R260 to R262) -/

/-- The elements that lanes name: the first lane's data address and place, and the lanes in ascending order. -/
def byElement (l : List (Nat × Nat × Dst)) : List (Nat × Dst × List Nat) :=
  ((l.map (fun x => x.2.1)).eraseDups).filterMap (fun v =>
    match l.filter (fun x => x.2.1 == v) with
    | [] => none
    | x :: r => some (v, x.2.2, (x :: r).map (·.1)))

/-- Whether an ORD has a release, an acquire (R114). -/
def ordRel (o : Nat) : Bool := o == 2 || o == 3
def ordAcq (o : Nat) : Bool := o == 1 || o == 3

/-- An atomic on global memory: one request for each distinct element, with its lanes combined (R113, R261, R423). -/
def State.atomGlobal (s : State) (o : AtomOp) (w : Who) (scalar : Bool) (i : FmtM) : Res :=
  let n := typeBytes i.size.val
  let sc := i.scope.val
  s.issueM w i (atomReserved o scalar i) (atomVecs o scalar true i) (atomRefs o scalar i) (fun t g grp m =>
    t.globalAccess g grp m .none (t.laneAddrs g i 0 m)
      (fun t => t.globalLanes g grp i 0 n m .atomic true true) false (fun t _ => some (t, false))
      (fun t l0 =>
        match if ordRel (mOrd i) then t.releaseFirst g sc else .done t with
        | .done t1 =>
          let l := if scalar then l0.take 1 else l0
          let ins := t1.cmp.accNo + 1
          .done ((byElement l).foldl (fun (s : State) x =>
            let (va, d, lanes) := x
            let s1 := if d.target = 0 then s.atomTouch (g / 32) va else s
            let parts := lanes.map (fun y => (⟨y, va % 128, t.atomOperand g scalar i.size.val (mB i) y,
              t.atomOperand g scalar i.size.val (mC i) y⟩ : AtomLane))
            s1.addAcc { mkAcc s1 g grp ins .atomic va d (if scalar then m else lanes.foldl (fun k y => k ||| 2 ^ y) 0) with
              reads := lanes.map (fun y => (⟨y, va % 128, n, scalar, i.d.val⟩ : LaneRead))
              acq := if ordAcq (mOrd i) then some sc else none
              rel := if ordRel (mOrd i) then some sc else none
              atom := some { op := o, type := i.size.val, lanes := parts } }) t1).pump
        | x => x))

/-- An atomic of the global or the local form. A local form with a release that comes after accesses which are not performed yet
waits for them as an access of its own; one with an acquire brings the acquire-side action (R204, R244, R245). -/
def State.atom (s : State) (loc : Bool) (o : AtomOp) (w : Who) (scalar : Bool) (i : FmtM) : Res :=
  let sc := i.scope.val
  let acq := if ordAcq (mOrd i) then some sc else none
  let rel := if ordRel (mOrd i) then some sc else none
  if loc then
    s.atomLocal
      (fun t g _ =>
        if ordRel (mOrd i) then
          match t.releaseFirst g sc with
          | .done t1 => (.done t1, t1.releaseDue (g / 32) (g % 32) (t1.cmp.accNo + 1) sc)
          | x => (x, true)
        else (.done t, true))
      (fun t g => if ordAcq (mOrd i) && decide (2 ≤ sc) then (t.acquireSide (g / 32)).pump else t) acq rel o w scalar i
  else s.atomGlobal o w scalar i

/-- `atom.add`. -/
def execAtomAdd (w : Who) (scalar : Bool) (i : FmtM) (s : State) : Res := s.atom false .add w scalar i
/-- `atom.min`. -/
def execAtomMin (w : Who) (scalar : Bool) (i : FmtM) (s : State) : Res := s.atom false .min w scalar i
/-- `atom.max`. -/
def execAtomMax (w : Who) (scalar : Bool) (i : FmtM) (s : State) : Res := s.atom false .max w scalar i
/-- `atom.and`. -/
def execAtomAnd (w : Who) (scalar : Bool) (i : FmtM) (s : State) : Res := s.atom false .and w scalar i
/-- `atom.or`. -/
def execAtomOr (w : Who) (scalar : Bool) (i : FmtM) (s : State) : Res := s.atom false .or w scalar i
/-- `atom.xor`. -/
def execAtomXor (w : Who) (scalar : Bool) (i : FmtM) (s : State) : Res := s.atom false .xor w scalar i
/-- `atom.swap`. -/
def execAtomSwap (w : Who) (scalar : Bool) (i : FmtM) (s : State) : Res := s.atom false .swap w scalar i
/-- `atom.cas`. -/
def execAtomCas (w : Who) (scalar : Bool) (i : FmtM) (s : State) : Res := s.atom false .cas w scalar i
/-- `atom.l.add`. -/
def execAtomLAdd (w : Who) (scalar : Bool) (i : FmtM) (s : State) : Res := s.atom true .add w scalar i
/-- `atom.l.min`. -/
def execAtomLMin (w : Who) (scalar : Bool) (i : FmtM) (s : State) : Res := s.atom true .min w scalar i
/-- `atom.l.max`. -/
def execAtomLMax (w : Who) (scalar : Bool) (i : FmtM) (s : State) : Res := s.atom true .max w scalar i
/-- `atom.l.and`. -/
def execAtomLAnd (w : Who) (scalar : Bool) (i : FmtM) (s : State) : Res := s.atom true .and w scalar i
/-- `atom.l.or`. -/
def execAtomLOr (w : Who) (scalar : Bool) (i : FmtM) (s : State) : Res := s.atom true .or w scalar i
/-- `atom.l.xor`. -/
def execAtomLXor (w : Who) (scalar : Bool) (i : FmtM) (s : State) : Res := s.atom true .xor w scalar i
/-- `atom.l.swap`. -/
def execAtomLSwap (w : Who) (scalar : Bool) (i : FmtM) (s : State) : Res := s.atom true .swap w scalar i
/-- `atom.l.cas`. -/
def execAtomLCas (w : Who) (scalar : Bool) (i : FmtM) (s : State) : Res := s.atom true .cas w scalar i

end Sys2Proof.Machine
end

