-- ==== Sys2Proof/Machine/Sync.lean ====
section
/-! DEFINITION. Fences, barriers, cache control, and the instructions of class 0x30 (R115 to R118, R120, R121, R204, R208,
R209, R250). -/

namespace Sys2Proof.Machine

/-! ### Fences -/

/-- Whether the loads and atomics of a group have all returned (R116). -/
def State.loadsBack (s : State) (g : Nat) : Bool :=
  s.cmp.accs.all (fun a => !(a.core * 32 + a.slot == g && a.kind != .store))

/-- Whether the stores and atomics of a group, and the write-backs of its core, have been performed at a scope (R116,
R242). -/
def State.storesDone (s : State) (g scope : Nat) : Bool :=
  s.cmp.accs.all (fun a =>
    !(((a.core * 32 + a.slot == g && a.kind != .load) || (a.core == g / 32 && a.slot == 32 && a.kind == .store)) &&
      !a.performedAt scope))

/-- Whether the errors of a group's earlier accesses within a scope are known: those of the own package and of host
memory at cluster scope or wider, those of other packages at stand scope (R116). -/
def State.errorsKnown (s : State) (g scope : Nat) : Bool :=
  s.cmp.accs.all (fun a => !(a.core * 32 + a.slot == g && decide (a.scope ≤ scope) && (a.kind != .store || a.target == 1)))

/-- A fence (R116, R123, R204): it is presented again until what it waits for is over; then it raises a deferred exception
that it covers, or applies its near-cache actions. -/
def State.fence (s : State) (ld st : Bool) (w : Who) (i : FmtR) : Res :=
  let sc := i.mod.val
  s.issueR w { mods := 6 } i (fun t g _ _ =>
    let t1 := if st && decide (2 ≤ sc) then (t.releaseSide (g / 32)).pump else t
    if (ld && !t1.loadsBack g) || (st && !t1.storesDone g sc) || !t1.errorsKnown g sc then .wait t1
    else
      match (t1.grp g).bind (fun x => x.deferredIn sc) with
      | some d => .jump (t1.raiseDeferred g d)
      | none => .done (if ld && decide (2 ≤ sc) then (t1.acquireSide (g / 32)).pump else t1))

/-- `fence.ld`. -/
def execFenceLd (w : Who) (i : FmtR) (s : State) : Res := s.fence true false w i
/-- `fence.st`. -/
def execFenceSt (w : Who) (i : FmtR) (s : State) : Res := s.fence false true w i
/-- `fence.full`. -/
def execFenceFull (w : Who) (i : FmtR) (s : State) : Res := s.fence true true w i

/-! ### Barriers -/

/-- A group arrives at a barrier of its block (R117): the first arrival fixes n; another n raises barrier-mismatch; a round
that is full opens before a further group arrives. -/
def State.arrive (s : State) (g : Nat) (grp : Grp) (m id n : Nat) (wait : Wait) : Eff :=
  let bk := blockKey g grp
  match s.blk bk with
  | none => .done s
  | some b =>
    let r := (SMap.find b.rounds id).getD { n := n }
    if r.n ≠ n then .raise s 0x14 m noAddr 0
    else if r.n ≠ 0 ∧ r.n ≤ r.arrived.length then .busy s
    else
      .done ((s.updBlk bk (fun b => { b with rounds := SMap.put b.rounds id { r with arrived := r.arrived ++ [g % 32] } })).updGrp g
        (fun x => { x with wait := wait }))

/-- `bar.block` (R117). -/
def execBarBlock (w : Who) (i : FmtR) (s : State) : Res :=
  let n := if i.bmode = 3 then i.imm.toNat % 2 ^ 32 else i.b.val
  s.issueR w { sec := .imm, auxs := 4 } i (fun t g grp m => t.arrive g grp m i.aux.val n (.barrier i.aux.val n))
    (decide (32 < n))

/-- `bar.cluster` (R118, R204): the release-side action at its arrival. -/
def execBarCluster (w : Who) (i : FmtR) (s : State) : Res :=
  s.issueR w {} i (fun t g grp m =>
    let t1 := (t.releaseSide (g / 32)).pump
    let bk := blockKey g grp
    let size : Nat := (((t1.blk bk).bind (fun b => SMap.find t1.cmp.bclus b.bc)).map (fun (x : BClus) => x.size)).getD 1
    if size = 1 then t1.arrive g grp m 3 0 .cluster
    else
      .done ((t1.updBlk bk (fun b => { b with arrived := b.arrived ++ [g % 32] })).updGrp g (fun x => { x with wait := .cluster })))

/-- Whether everything that groups issued before their arrival has been performed at a scope (R118). -/
def State.arrivedDone (s : State) (gs : List Nat) (scope : Nat) : Bool := gs.all (fun g => s.storesDone g scope)

/-- A group leaves a barrier (R118, R250): a `bar.cluster` brings the acquire-side action; a stepped group halts again
(R512). -/
def State.leaveBarrier (s : State) (g : Nat) : State :=
  match s.grp g with
  | none => s
  | some grp =>
    let s1 := if grp.wait = .cluster then s.acquireSide (g / 32) else s
    (s1.updGrp g (fun x => { x with wait := .none })).issued g

/-- A block of a block cluster by its number, while it has not completed: its slot may have been given to another (R118). -/
def State.blkOf (s : State) (bc bk : Nat) : Option Blk := (s.blk bk).filter (fun b => b.bc == bc)

/-- A barrier opens (R117, R118, R250). -/
def execBarrierOpen (core : Fin 8192) (block : Fin 16) (bar : Barrier) (s : State) : Res :=
  let k := core.val
  match s.blk (k * 16 + block.val) with
  | none => stop
  | some b =>
    match bar with
    | .block id =>
      match SMap.find b.rounds id.val with
      | none => stop
      | some r =>
        let gs := r.arrived.map (fun x => k * 32 + x)
        let due := if r.n = 0
          then b.groups.all (fun x => r.arrived.contains x || ((s.grp (k * 32 + x)).map (·.complete)).getD true)
          else decide (r.n ≤ r.arrived.length)
        let scope := if gs.any (fun g => ((s.grp g).map (·.wait)) == some .cluster) then 2 else 1
        need (due && !r.arrived.isEmpty && s.arrivedDone gs scope)
          (let s1 := s.updBlk (k * 16 + block.val) (fun b => { b with rounds := SMap.del b.rounds id.val })
           .next (gs.foldl (fun (s : State) g => s.leaveBarrier g) s1).pump)
    | .cluster =>
      match SMap.find s.cmp.bclus b.bc with
      | none => stop
      | some x =>
        let bks := x.blocks.map (fun p => p.1 * 16 + p.2)
        let gs := bks.flatMap (fun bk => ((s.blkOf b.bc bk).map (fun b => b.arrived.map (fun y => bk / 16 * 32 + y))).getD [])
        let due := bks.all (fun bk => match s.blkOf b.bc bk with
          | none => true
          | some b => b.groups.all (fun y => b.arrived.contains y || ((s.grp (bk / 16 * 32 + y)).map (·.complete)).getD true))
        need (due && !gs.isEmpty && decide (x.size ≠ 1) && s.arrivedDone gs 2)
          (let s1 := bks.foldl (fun (s : State) bk => s.updBlk bk (fun y => if y.bc = b.bc then { y with arrived := [] } else y)) s
           .next (gs.foldl (fun (s : State) g => s.leaveBarrier g) s1).pump)

/-! ### Cache control (R208, R209) -/

/-- A cache-control instruction on the lines of a range, or on all lines: a range as long as the cache acts as ALL, a
length of 0 does nothing (R208, R209). -/
def State.cacheOp (s : State) (size : Nat) (act : State → Nat → (Nat → Bool) → State) (w : Who) (i : FmtR) : Res :=
  let all := i.aux == 1
  s.issueR w { a := .s, sec := .scalar, auxs := 2 } i (fun t g _ _ =>
    let base := t.sReg g i.a.val % 2 ^ 57
    let len := if i.bmode = 3 then i.imm.toNat % 2 ^ 32 else t.sReg g i.b.val % 2 ^ 32
    let core := g / 32
    if all || decide (size ≤ len) then .done (act t core everyLine).pump
    else if len = 0 then .done t
    else .done (act t core (fun v => decide (base / 128 ≤ v) && decide (v ≤ (base + len - 1) / 128))).pump)
    (i.bmode == 2 || (all && !(i.a == 0 && i.b == 0 && i.bmode == 1)))

/-- `cinv.l1`. -/
def execCinvL1 (w : Who) (i : FmtR) (s : State) : Res := s.cacheOp 131072 (fun t c p => t.l1Drop c p) w i
/-- `cinv.sc`. -/
def execCinvSc (w : Who) (i : FmtR) (s : State) : Res := s.cacheOp 6144 (fun t c p => t.scDrop c p) w i
/-- `cwb.sc`. -/
def execCwbSc (w : Who) (i : FmtR) (s : State) : Res := s.cacheOp 6144 (fun t c p => t.scWriteBack c p) w i
/-- `cinv.i`. -/
def execCinvI (w : Who) (i : FmtR) (s : State) : Res := s.cacheOp 32768 (fun t c p => t.icDrop c p) w i

/-! ### Class 0x30 -/

/-- `nop` (R121). -/
def execNop (w : Who) (i : FmtR) (s : State) : Res := s.issueR w {} i (fun t _ _ _ => .done t)

/-- The group slot that issued an entry of an engine's queue. -/
def EngEntry.slot (e : EngEntry) : Nat :=
  match e with
  | .cfg n _ _ | .zero n | .mma n _ _ _ _ _ _ | .accWr n _ | .accRd n _ | .member n _ => n

/-- Whether a matrix instruction of a group has not completed (R151). -/
def State.matrixBusy (s : State) (g : Nat) : Bool :=
  s.cmp.engs.any (fun e => e.1 / 16 == g / 32 && e.2.queue.any (fun q => q.slot == g % 32))

/-- `tile.mark`: its id stands in B and C; while a pre-emption is pending the group stops at the mark once its matrix
instructions have completed (R120, R151). -/
def execTileMark (w : Who) (i : FmtR) (s : State) : Res :=
  s.issueR w { sec := .literal } { i with c := 0 } (fun t g _ _ =>
    if ¬ t.preempt g then .done t
    else if t.matrixBusy g then .busy t
    else .wait (t.updGrp g (fun x => { x with wait := .mark })))

/-- `brkpt` (R121, R509). -/
def execBrkpt (w : Who) (i : FmtR) (s : State) : Res :=
  s.issueR w {} i (fun t g _ m => .jump (t.raise g 0x30 m noAddr false 0 2))

/-- `trap` (R121): the code in INFO0. -/
def execTrap (w : Who) (i : FmtR) (s : State) : Res :=
  s.issueR w { sec := .literal } i (fun t _ _ m => .raise t 0x31 m noAddr i.b.val)

end Sys2Proof.Machine
end

