-- ==== Sys2Proof/Machine/Coherence.lean ====
section
/-! DEFINITION. The coherence protocol: requests at the home, snoops at a quadrant cache, answers at the home and at the
requester, crossings, the directory and its retry FIFOs (R217 to R233, R263 to R265, R277, R278, R293, R294). -/

namespace Sys2Proof.Machine

/-! ### Messages in flight -/

/-- Whether a kind is a request (R221). -/
def MsgKind.request (k : MsgKind) : Bool :=
  match k with
  | .getS | .getM | .readOnce | .writeInvFull | .writeInvPart | .atomic => true
  | _ => false

/-- The `k`-th message of a kind in flight, with those before it and those after it. -/
def nthMsg (kind : MsgKind) (k : Nat) (l : List Msg) : Option (List Msg × Msg × List Msg) :=
  match l with
  | [] => none
  | m :: r =>
    if m.kind = kind then
      match k with
      | 0 => some ([], m, r)
      | n + 1 => (nthMsg kind n r).map (fun x => (m :: x.1, x.2.1, x.2.2))
    else (nthMsg kind k r).map (fun x => (m :: x.1, x.2.1, x.2.2))

/-- A message other than a request arrives: it may overtake any other (R222). -/
def State.arrival (s : State) (kind : MsgKind) (k : Nat) : Option (Msg × State) :=
  (nthMsg kind k s.cmp.net).map (fun x => (x.2.1, { s with cmp := { s.cmp with net := x.1 ++ x.2.2 } }))

/-- The set of a line in its home's directory (R219). -/
def dirSet (line : Nat) : Nat := line % 2 ^ 18 ^^^ (line / 2 ^ 18 % 2 ^ 18)

/-- The number of a line's directory set among all homes' sets. -/
def State.setKey (s : State) (line : Nat) : Nat := s.homeOf line * 2 ^ 18 + dirSet line

/-! ### The directory (R219) -/

/-- The entry of a line. -/
def State.dirEntry (s : State) (line : Nat) : Option DirEntry := SMap.find s.cmp.dir line

/-- Writes the entry of a line. -/
def State.setDir (s : State) (line : Nat) (e : DirEntry) : State :=
  { s with cmp := { s.cmp with dir := SMap.put s.cmp.dir line e } }

/-- Frees the entry of a line. -/
def State.delDir (s : State) (line : Nat) : State := { s with cmp := { s.cmp with dir := SMap.del s.cmp.dir line } }

/-- The quadrants that an invalidation of the sharers goes to (R219). -/
def DirEntry.sharerQuads (e : DirEntry) : List Nat :=
  let all := if e.coarse then e.sharers.flatMap (fun d => [4 * d, 4 * d + 1, 4 * d + 2, 4 * d + 3]) else e.sharers
  all.filter (fun q => e.owned != some q)

/-- Adds a sharer; the fifth makes the entry coarse (R219). -/
def State.addSharer (s : State) (line : Nat) (e : DirEntry) (q : Nat) : State × DirEntry :=
  if e.coarse then
    (s, if e.sharers.contains (q / 4) then e else { e with sharers := e.sharers ++ [q / 4] })
  else if e.sharers.contains q then (s, e)
  else if e.sharers.length < 4 then (s, { e with sharers := e.sharers ++ [q] })
  else (s.dirCount (s.homeOf line) 3, { e with coarse := true, sharers := ((e.sharers ++ [q]).map (· / 4)).eraseDups })

/-- Removes a sharer; a die of a coarse entry stays marked. -/
def DirEntry.dropSharer (e : DirEntry) (q : Nat) : DirEntry :=
  if e.coarse then e else { e with sharers := e.sharers.filter (fun x => x != q) }

/-- Opens the transaction of a line: its entry is busy, and the snoops leave. -/
def State.openTxn (s : State) (line : Nat) (req : Option Msg) (snoops : List (MsgKind × Nat)) : State :=
  let s1 := { s with cmp := { s.cmp with
    txns := SMap.put s.cmp.txns line { req := req, wait := snoops.map (·.2) }
    dir := SMap.upd s.cmp.dir line (fun e => { e with busy := true }) } }
  snoops.foldl (fun (s : State) x =>
    s.send { kind := x.1, line := line, quad := x.2, fwd := req.map (·.quad), fwdAcc := (req.map (·.acc)).getD 0,
             part := (req.map (·.part)).getD 0 }) s1

/-- Changes an open transaction. -/
def State.updTxn (s : State) (line : Nat) (f : Txn → Txn) : State :=
  { s with cmp := { s.cmp with txns := SMap.upd s.cmp.txns line f } }

/-- Ends a transaction: its entry is no longer busy. -/
def State.endTxn (s : State) (line : Nat) : State :=
  { s with cmp := { s.cmp with
    txns := SMap.del s.cmp.txns line
    dir := SMap.upd s.cmp.dir line (fun e => { e with busy := false }) } }

/-! ### Memory at the home -/

/-- An uncorrectable directory entry is logged, raises source 131 of the home, and its set is recalled (R233). -/
def State.dirErrLog (s : State) (line : Nat) : State :=
  let h := s.homeOf line
  let (way, s0) := s.pick 16
  let s1 :=
    if s0.flag F.HOM_DIR_ERRLOG_VALID h then s0.fset F.HOM_DIR_ERRLOG_MULTI 1 h
    else
      ((((s0.fset F.HOM_DIR_ERRLOG_VALID 1 h).fset F.HOM_DIR_ERRLOG_MULTI 0 h).fset F.HOM_DIR_ERRLOG_RECALLED 0 h).fset
        F.HOM_DIR_ERRLOG_WAY way h).fset F.HOM_DIR_ERRLOG_SET (dirSet line) h
  ({ s1 with cmp := { s1.cmp with recalls := s1.cmp.recalls ++ [s1.setKey line] } }).event (64 + h) 131

/-- The errors that a home meets while it starts a request (R233, R272, R483); `none` where there is nothing that could hold
the error. An uncorrectable directory entry is handled before. -/
def State.homeErr (s : State) (line : Nat) (e : HomeErr) : Option State :=
  let h := s.homeOf line
  let reads := ((s.dirEntry line).bind (·.owned)).isNone
  match e with
  | .none => some s
  | .memCorrectable => if reads then some ((s.memCe h).countCe (s.chanAt line)) else none
  | .memUncorrectable =>
    if reads && !s.isPoisoned line then some (((s.setPoison line true).memErrLog line 0).watchUe line) else none
  | .dirCorrectable =>
    if (s.dirEntry line).isSome then some (s.ceEvent F.HOM_DIR_CE_COUNT F.HOM_DIR_CE_SAT h (64 + h) 131) else none
  | .dirUncorrectable => none
  | .table =>
    some ((s.setPoison line true).dfqWrite (64 + h)
      { cls := 0x13, addr := line * 128, info0 := (s.reg .HOM_MEM_ERRLOG h).toNat })

/-- The home reads a line of its memory for a request: the data, whether it is poisoned, and whether it is Heartwood's
(R272, R283, R287, R293, R489). -/
def State.homeRead (s : State) (line part : Nat) : State × Line × Bool × Bool :=
  let pa := line * 128
  let s0 := s.serve line part 128
  if ¬ s0.populated pa then (s0, 0, true, false)
  else if (s0.hwAt (fun r => s0.hwState r == 4) pa).isSome then (s0, 0, true, false)
  else
    match s0.hwVerified pa with
    | some (r, c) =>
      let (s1, d, p) := s0.hwRead r c line
      (s1, d, p, !p)
    | none =>
      let s1 := s0.memFind line 0
      (s1, s1.memLine line, s1.isPoisoned line, false)

/-- Data that came back from an owner goes to memory (R225, R231); a home that refuses writes to the line, or whose channel
is mapped out, drops it (R283, R294). -/
def State.backWrite (s : State) (line : Nat) (b : Option (Line × Bool)) (part : Nat) : State :=
  match b with
  | none => s
  | some (d, p) =>
    if ¬ s.populated (line * 128) ∨ (s.hwRefused (line * 128)).isSome then s
    else (s.serve line part 128).homeWrite line fullMask d p

/-! ### The end of a transaction at the home (R225 to R227, R231) -/

/-- The home sends data, which carries Comp. -/
def State.sendData (s : State) (m : Msg) (k : MsgKind) (d : Line) (poison hw : Bool) : State :=
  s.send { kind := k, line := m.line, quad := m.quad, acc := m.acc, data := d, poison := poison, hw := hw }

/-- The home sends Comp; `fwd` says that the data comes from an owner. -/
def State.sendComp (s : State) (m : Msg) (fwd : Option Nat) (code : Nat := 0) : State :=
  s.send { kind := .comp, line := m.line, quad := m.quad, acc := m.acc, fwd := fwd, code := code }

/-- The entry that a new line takes, in the order of allocation (R227). -/
def State.newEntry (s : State) (line : Nat) (e : DirEntry) : State :=
  let (n, s1) := s.tick1
  s1.setDir line { e with busy := true, age := n }

/-- The entry after the answers, without an owner that has left. -/
def Txn.entryNow (t : Txn) (e : Option DirEntry) : Option DirEntry :=
  match e with
  | none => none
  | some e =>
    if t.missed || t.wbp then
      match e.kind with
      | .x => none
      | _ => if e.sharers.isEmpty then none else some { e with kind := .s }
    else some e

/-- The end of a GetS. -/
def State.finishGetS (s : State) (m : Msg) (t : Txn) : State :=
  let line := m.line
  match t.ownerState, s.dirEntry line with
  | some st, some e =>
    let (s0, e0) := if st = .o then (s, { e with kind := .o }) else s.addSharer line { e with kind := .s } e.owner
    let (s1, e1) := s0.addSharer line e0 m.quad
    (s1.setDir line e1).sendComp m (some e.owner)
  | _, e =>
    let now := t.entryNow e
    let (s1, d, p, hw) := s.homeRead line m.part
    let shared := hw || s.cmp.rsvs.any (fun r => r.line == line)
    match now with
    | some e0 =>
      let (s2, e1) := s1.addSharer line e0 m.quad
      (s2.setDir line e1).sendData m .dataS d p hw
    | none =>
      if shared then (s1.newEntry line { kind := .s, sharers := [m.quad] }).sendData m .dataS d p hw
      else (s1.newEntry line { kind := .x, owner := m.quad }).sendData m .dataE d p hw

/-- The end of a GetM: the requester owns the line. A refused line of Heartwood answers with poison (R294). -/
def State.finishGetM (s : State) (m : Msg) (t : Txn) : State :=
  let line := m.line
  let pa := line * 128
  let old := s.dirEntry line
  let x : DirEntry := { kind := .x, owner := m.quad, coarse := (old.map (·.coarse)).getD false }
  let listed := match old with
    | some e => if e.kind = .s then !e.coarse && e.sharers.contains m.quad else e.kind == .o && e.owner == m.quad
    | none => false
  let put := fun (s : State) => match old with
    | some e => s.setDir line { x with busy := true, age := e.age }
    | none => s.newEntry line x
  if (s.hwRefused pa).isSome then ((put s).hwRefuse pa m.quad m.part).sendData m .dataM 0 true false
  else if t.ownerState.isSome then (put s).sendComp m (old.map (·.owner))
  else if listed && m.state.isSome then (put s).sendComp m none
  else
    let (s1, d, p, _) := s.homeRead line m.part
    (put s1).sendData m .dataM d p false

/-- The end of a ReadOnce: its requester sends no CompAck (R229). An owner that forwards sends the data itself. -/
def State.finishReadOnce (s : State) (m : Msg) (t : Txn) : State :=
  let line := m.line
  let s0 := match s.dirEntry line with
    | none => s
    | some e =>
      match t.entryNow (some e) with
      | none => s.delDir line
      | some e1 => s.setDir line e1
  let s1 := s0.endTxn line
  if t.ownerState.isSome then s1
  else
    let (s2, d, p, hw) := s1.homeRead line m.part
    s2.sendData m .dataOnce d p hw

/-- The end of an invalidating write: memory holds the result, and the entry is freed (R225, R229). -/
def State.finishWrite (s : State) (m : Msg) : State :=
  let line := m.line
  let pa := line * 128
  let s1 := (s.delDir line).endTxn line
  let s2 :=
    if ¬ s1.populated pa then s1
    else if (s1.hwRefused pa).isSome then s1.hwRefuse pa m.quad m.part
    else (s1.serve line m.part 128).homeWrite line m.mask m.data m.poison
  s2.sendComp m none

/-- The end of an atomic, a `ld.rsv` or a `st.cond` at the home (R230, R263, R277, R278, R294). -/
def State.finishHomeAtomic (s : State) (m : Msg) (a : Atom) : State :=
  let line := m.line
  let pa := line * 128
  let s1 := (s.delDir line).endTxn line
  let fail := fun (s : State) => s.send { kind := .atomResult, line := line, quad := m.quad, acc := m.acc, code := 0x28 }
  let s1 := s1.memFind line 0
  if ¬ s1.populated pa then fail s1
  else if (s1.hwRefused pa).isSome then fail (s1.hwRefuse pa m.quad m.part)
  else if s1.isPoisoned line then fail s1
  else
    let d := s1.memLine line
    let answer := fun (s : State) (old : List (Nat × Nat)) => s.send
      { kind := .atomResult, line := line, quad := m.quad, acc := m.acc,
        atom := some { a with lanes := old.map (fun x => ⟨x.1, 0, x.2, 0⟩) } }
    let s2 := s1.serve line m.part 128
    match a.op with
    | .loadRsv =>
      let (_, old) := a.apply d
      answer (s2.addRsv a.owner line) old
    | .storeCond =>
      let ok := a.lanes.any (fun l => l.c == 1)
      let (d', _) := a.apply d
      answer (if ok then s2.homeWrite line fullMask d' else s2) (a.lanes.map (fun l => (l.lane, nb ok)))
    | _ =>
      let (d', old) := a.apply d
      answer (s2.homeWrite line fullMask d') old

/-- The end of the open transaction of a line, once every snoop is answered and the write-back of an owner in WB is here
(R225, R231). A GetS or GetM then waits for the requester's CompAck; a back-invalidation gives its way to the request that
waits for it (R227). -/
def State.finishTxn (s : State) (line : Nat) (t : Txn) : State :=
  let owner := (s.dirEntry line).bind (·.owned)
  let part := (t.req.map (·.part)).getD 0
  let s0 := if t.wbp then
      (s.dirCount (s.homeOf line) 2).send { kind := .wbAck, line := line, quad := owner.getD 0 }
    else s
  let s1 := s0.backWrite line t.back part
  match t.req with
  | none => (s1.delDir line).endTxn line
  | some m =>
    match m.kind with
    | .getS => (s1.finishGetS m t).updTxn line (fun x => { x with answered := true, back := none, wbp := false })
    | .getM => (s1.finishGetM m t).updTxn line (fun x => { x with answered := true, back := none, wbp := false })
    | .readOnce => s1.finishReadOnce m t
    | .writeInvFull | .writeInvPart => s1.finishWrite m
    | _ =>
      match m.atom with
      | some a => s1.finishHomeAtomic m a
      | none => (s1.delDir line).endTxn line

/-- Whether everything that a transaction waits for has come. -/
def Txn.due (t : Txn) : Bool := t.wait.isEmpty && (!t.wbp || t.back.isSome) && !t.answered && t.victim.isNone

/-- The transaction of a line goes on if it can, and then the request that waits for its way. -/
def State.settle (s : State) (line : Nat) : State :=
  match SMap.find s.cmp.txns line with
  | none => s
  | some t =>
    if ¬ t.due then s
    else
      let s1 := s.finishTxn line t
      if t.req.isSome then s1
      else
        match s1.cmp.txns.find? (fun e => e.2.victim == some line) with
        | none => s1
        | some (l, v) =>
          let s2 := s1.updTxn l (fun x => { x with victim := none })
          s2.finishTxn l { v with victim := none }

/-! ### The start of a request at the home (R225, R227, R228) -/

/-- The entries of a directory set. -/
def State.dirWays (s : State) (line : Nat) : List (Nat × DirEntry) :=
  s.cmp.dir.filter (fun e => s.setKey e.1 == s.setKey line)

/-- Whether the retry FIFO of a line's set holds a request. -/
def State.fifoHeld (s : State) (line : Nat) : Bool := s.cmp.parked.any (fun m => s.setKey m.line == s.setKey line)

/-- The invalidations of every holder of an entry: SnpRecall or SnpInv to the owner, SnpInv to the sharers. -/
def DirEntry.invalidate (e : DirEntry) (recalled : Bool) : List (MsgKind × Nat) :=
  (match e.owned with
    | some o => [(if recalled then MsgKind.snpRecall else .snpInv, o)]
    | none => []) ++ e.sharerQuads.map (fun q => (MsgKind.snpInv, q))

/-- A GetS or GetM without an entry takes a way: a free one, or that of the entry allocated longest ago among those that are
not busy, whose holders are back-invalidated; `none` where every way is busy. -/
def State.takeWay (s : State) (m : Msg) : Option State :=
  let ways := s.dirWays m.line
  if ways.length < 16 then
    some ((s.openTxn m.line (some m) []).settle m.line)
  else
    match ways.filter (fun e => !e.2.busy) with
    | [] => none
    | e :: r =>
      let v := r.foldl (fun (x : Nat × DirEntry) y => if y.2.age < x.2.age then y else x) e
      let s1 := ((s.dirCount (s.homeOf m.line) 0).openTxn v.1 none (v.2.invalidate true)).openTxn m.line (some m) []
      some ((s1.updTxn m.line (fun t => { t with victim := some v.1 })).settle v.1)

/-- The verdict of a `st.cond` is decided when its home starts it (R265): it stands in its lanes. -/
def State.verdict (s : State) (m : Msg) : Msg :=
  match m.atom with
  | some a =>
    if a.op = .storeCond then
      let ok := nb (s.holdsRsv a.owner m.line)
      { m with atom := some { a with lanes := a.lanes.map (fun l => { l with c := ok }) } }
    else m
  | none => m

/-- The reservations that the start of a request cancels (R264): a `ld.rsv` cancels none of other groups, and a `st.cond`
those of others only where it is performed. -/
def State.startCancels (s : State) (m : Msg) : State :=
  match m.kind with
  | .getM | .writeInvFull | .writeInvPart => s.cancelRsvs m.line
  | .atomic =>
    match m.atom with
    | some a =>
      match a.op with
      | .loadRsv => s
      | .storeCond =>
        (if a.lanes.any (fun l => l.c == 1) then s.cancelRsvs m.line (some a.owner) else s).dropRsv a.owner
      | _ => s.cancelRsvs m.line
    | none => s
  | _ => s

/-- The home starts a request. -/
def State.beginReq (s : State) (m0 : Msg) : State :=
  let m := s.verdict m0
  let s1 := s.startCancels m
  let go := fun (l : List (MsgKind × Nat)) => (s1.openTxn m.line (some m) l).settle m.line
  match s1.dirEntry m.line with
  | none =>
    if m.kind = .getS ∨ m.kind = .getM then
      match if s1.fifoHeld m.line then none else s1.takeWay m with
      | some s2 => s2
      | none =>
        let s2 := s1.dirCount (s1.homeOf m.line) 1
        ({ s2 with cmp := { s2.cmp with parked := s2.cmp.parked ++ [m] } }).send
          { kind := .retry, line := m.line, quad := m.quad }
    else go []
  | some e =>
    let others := e.sharerQuads.filter (fun q => q != m.quad)
    match m.kind with
    | .getS => go ((e.owned.map (fun o => (MsgKind.snpShared, o))).toList)
    | .getM =>
      match e.owned with
      | none => go (others.map (fun q => (MsgKind.snpInv, q)))
      | some o =>
        if o = m.quad then go (others.map (fun q => (MsgKind.snpInv, q)))
        else go ((MsgKind.snpInvFwd, o) :: others.map (fun q => (MsgKind.snpInv, q)))
    | .readOnce => go ((e.owned.map (fun o => (MsgKind.snpOnce, o))).toList)
    | .writeInvFull => go (e.invalidate false)
    | _ => go (e.invalidate true)

/-- Whether the request at the head of a set's retry FIFO can take a way now: no other request of the set starts before it (R228). -/
def State.headFirst (s : State) (line : Nat) : Bool :=
  match s.cmp.parked.find? (fun m => s.setKey m.line == s.setKey line) with
  | none => false
  | some m =>
    !s.lineBusy m.line && ((s.dirEntry m.line).isSome || decide ((s.dirWays line).length < 16) ||
      (s.dirWays line).any (fun e => !e.2.busy))

/-- A request that its home may start is taken from the network: none of the same identifier for the same home was sent before it
(R222), its line has no open transaction (R223), its directory set is not being recalled (R233), and no request of the set's retry
FIFO comes first (R228). -/
def State.startable (s : State) (kind : MsgKind) (k : Nat) : Option (Msg × State) :=
  match nthMsg kind k s.cmp.net with
  | none => none
  | some (pre, m, post) =>
    let earlier := pre.any (fun x => x.kind.request && x.quad == m.quad && x.stream == m.stream &&
      s.homeOf x.line == s.homeOf m.line)
    if earlier || s.lineBusy m.line || s.cmp.recalls.contains (s.setKey m.line) || s.headFirst m.line then none
    else some (m, { s with cmp := { s.cmp with net := pre ++ post } })

/-- The error that a request finds in the entries of its line's directory set, or in its own entry of the request table (R233,
R483). -/
def State.dirFound (s : State) (line : Nat) : HomeErr :=
  let hit := s.upsetsAt .dir (fun l => s.setKey l == s.setKey line && (s.dirEntry l).isSome)
  if hit.any (·.hard) then .dirUncorrectable
  else if (s.upsetsAt .table (fun l => l == line)).any (·.hard) then .table
  else if ¬ hit.isEmpty ∧ (s.dirEntry line).isSome then .dirCorrectable
  else .none

/-- The errors that the look-up of a request has found are no longer latent. -/
def State.dirClear (s : State) (line : Nat) : State :=
  (s.foundUpset .dir (fun l => s.setKey l == s.setKey line)).foundUpset .table (fun l => l == line)

/-- A request at its home: with an uncorrectable directory entry it waits for the recall of its set; with an error of its entry of
the request table, what it writes is poisoned (R483). -/
def State.homeStart (s : State) (kind : MsgKind) (k : Nat) (e : HomeErr) : Res :=
  match s.startable kind k with
  | none => stop
  | some (m, s1) =>
    let e := if e = .none then s.dirFound m.line else e
    if e = .dirUncorrectable then
      if s.dirWays m.line = [] then stop else .next ((s.dirClear m.line).dirErrLog m.line)
    else
      match (s1.dirClear m.line).homeErr m.line e with
      | none => stop
      | some s2 => .next (s2.beginReq (if e = .table then { m with poison := true } else m))

/-- GetS (R225). -/
def execGets (k : Nat) (e : HomeErr) (s : State) : Res := s.homeStart .getS k e
/-- GetM (R225). -/
def execGetm (k : Nat) (e : HomeErr) (s : State) : Res := s.homeStart .getM k e
/-- ReadOnce (R225, R229). -/
def execReadonce (k : Nat) (e : HomeErr) (s : State) : Res := s.homeStart .readOnce k e
/-- WriteInvFull (R225, R229). -/
def execWriteinvfull (k : Nat) (s : State) : Res := s.homeStart .writeInvFull k .none
/-- WriteInvPart (R225, R229). -/
def execWriteinvpart (k : Nat) (e : HomeErr) (s : State) : Res := s.homeStart .writeInvPart k e
/-- Atomic (R225, R230, R263). -/
def execAtomicHome (k : Nat) (e : HomeErr) (s : State) : Res := s.homeStart .atomic k e

/-! ### Snoops at a quadrant cache (R224, R233) -/

/-- What a holder answers to a snoop: the answer, the data kind it forwards, and its state afterwards. -/
structure SnoopAns where
  rsp : MsgKind
  fwd : Option MsgKind := none
  state : Option LState := none
  /-- the state that the line has afterwards; `none`: it is gone -/
  next : Option LState

/-- The tables of R224: what a line in a state answers to a snoop. The pairs that the tables leave out follow the stable
state that the transient state holds. -/
def snoopAns (snp : MsgKind) (st : LState) : SnoopAns :=
  match st with
  | .is | .im => { rsp := .snpMiss, next := some st }
  | .wb => { rsp := .snpMissWbp, next := some .wb }
  | .m | .e =>
    match snp with
    | .snpShared => let n := if st = .m then LState.o else .s
                    { rsp := .snpRspFwd, fwd := some .dataS, state := some n, next := some n }
    | .snpInvFwd => { rsp := .snpRspFwd, fwd := some .dataM, next := none }
    | .snpOnce => { rsp := .snpRspFwd, fwd := some .dataOnce, state := some st, next := some st }
    | .snpRecall => { rsp := if st = .m then .snpRspData else .snpAck, next := none }
    | _ => { rsp := .snpAck, next := none }
  | .o =>
    match snp with
    | .snpShared => { rsp := .snpRspFwd, fwd := some .dataS, state := some .o, next := some .o }
    | .snpInvFwd => { rsp := .snpRspFwd, fwd := some .dataM, next := none }
    | .snpOnce => { rsp := .snpRspFwd, fwd := some .dataOnce, state := some .o, next := some .o }
    | .snpRecall => { rsp := .snpRspData, next := none }
    | _ => { rsp := .snpAck, next := none }
  | .om =>
    match snp with
    | .snpShared => { rsp := .snpRspFwd, fwd := some .dataS, state := some .o, next := some .om }
    | .snpInvFwd => { rsp := .snpRspFwd, fwd := some .dataM, next := some .im }
    | .snpOnce => { rsp := .snpRspFwd, fwd := some .dataOnce, state := some .o, next := some .om }
    | .snpRecall => { rsp := .snpRspData, next := some .im }
    | _ => { rsp := .snpAck, next := some .im }
  | .s =>
    match snp with
    | .snpShared | .snpOnce => { rsp := .snpAck, next := some .s }
    | _ => { rsp := .snpAck, next := none }
  | .sm =>
    match snp with
    | .snpShared | .snpOnce => { rsp := .snpAck, next := some .sm }
    | _ => { rsp := .snpAck, next := some .im }

/-- What a cache without the line answers. -/
def snoopMiss (snp : MsgKind) : MsgKind :=
  match snp with
  | .snpInv | .snpRecall => .snpAck
  | _ => .snpMiss

/-- A snoop arrives at a quadrant cache. -/
def State.snoop (s : State) (kind : MsgKind) (k : Nat) : Res :=
  match s.arrival kind k with
  | none => stop
  | some (m, s1) =>
    let q := m.quad
    let s2 := s1.quadCount q 2
    if s2.cmp.qdead.contains q then .next (s2.send { kind := .snpPoison, line := m.line, quad := q })
    else
      match s2.qline q m.line with
      | none => .next (s2.send { kind := snoopMiss kind, line := m.line, quad := q })
      | some l =>
        let a := snoopAns kind l.st
        let s3 := match a.next with
          | none => s2.delQ q m.line
          | some st => s2.setQ q m.line { l with st := st }
        let s4 := match a.fwd, m.fwd with
          | some k, some r => s3.send
              { kind := k, line := m.line, quad := r, acc := m.fwdAcc, fwd := some q, data := l.data, poison := l.poison,
                hw := l.hw }
          | _, _ => s3
        .next (s4.send { kind := a.rsp, line := m.line, quad := q, data := l.data, poison := l.poison, state := a.state })

/-- SnpShared. -/
def execSnpshared (k : Nat) (s : State) : Res := s.snoop .snpShared k
/-- SnpInvFwd. -/
def execSnpinvfwd (k : Nat) (s : State) : Res := s.snoop .snpInvFwd k
/-- SnpOnce. -/
def execSnponce (k : Nat) (s : State) : Res := s.snoop .snpOnce k
/-- SnpInv. -/
def execSnpinv (k : Nat) (s : State) : Res := s.snoop .snpInv k
/-- SnpRecall. -/
def execSnprecall (k : Nat) (s : State) : Res := s.snoop .snpRecall k

/-! ### Answers at the home -/

/-- An answer to a snoop arrives: it is no longer due, `f` takes what it says, and the transaction goes on. -/
def State.answer (s : State) (kind : MsgKind) (k : Nat) (f : State → Msg → Txn → State × Txn) : Res :=
  match s.arrival kind k with
  | none => stop
  | some (m, s1) =>
    match SMap.find s1.cmp.txns m.line with
    | none => stop
    | some t =>
      let (s2, t1) := f s1 m { t with wait := t.wait.erase m.quad }
      .next ((s2.updTxn m.line (fun _ => t1)).settle m.line)

/-- Whether a quadrant is the listed owner of a line. -/
def State.isOwner (s : State) (line q : Nat) : Bool := ((s.dirEntry line).bind (·.owned)) == some q

/-- SnpAck: the holder has no data to give; an owner that keeps a clean copy stays as a sharer. -/
def execSnpack (k : Nat) (s : State) : Res :=
  s.answer .snpAck k (fun s m t =>
    let reads := match t.req with
      | some r => r.kind == .getS || r.kind == .readOnce
      | none => false
    match s.dirEntry m.line with
    | some e =>
      if reads && s.isOwner m.line m.quad then
        let (s1, e1) := s.addSharer m.line { e with kind := .s } m.quad
        (s1.setDir m.line e1, t)
      else (s, t)
    | none => (s, t))

/-- SnpMiss: an owner had dropped the line (R226). -/
def execSnpmiss (k : Nat) (s : State) : Res :=
  s.answer .snpMiss k (fun s m t => (s, if s.isOwner m.line m.quad then { t with missed := true } else t))

/-- SnpMissWbp: the owner's data is on its way in WbData (R231). -/
def execSnpmisswbp (k : Nat) (s : State) : Res := s.answer .snpMissWbp k (fun s _ t => (s, { t with wbp := true }))

/-- SnpRspFwd: the owner has sent the data on, and says its new state. -/
def execSnprspfwd (k : Nat) (s : State) : Res :=
  s.answer .snpRspFwd k (fun s m t => (s, { t with forwarded := true, ownerState := some (m.state.getD .is) }))

/-- SnpPoison: the answer of a quadrant that a tag failure stopped (R233): its line is written as poisoned if it was the
owner, and it is a sharer no longer. -/
def execSnppoison (k : Nat) (s : State) : Res :=
  s.answer .snpPoison k (fun s m t =>
    if s.isOwner m.line m.quad then (s.setPoison m.line true, { t with missed := true })
    else
      match s.dirEntry m.line with
      | none => (s, t)
      | some e => (s.setDir m.line (e.dropSharer m.quad), t))

/-- SnpRspData: the data of a recalled owner. -/
def execSnprspdata (k : Nat) (s : State) : Res :=
  s.answer .snpRspData k (fun s m t => (s, { t with back := some (m.data, m.poison) }))

/-- WbData (R225, R231): without an open transaction, or after its answer, memory is written, the evicting owner is
acknowledged and leaves the entry; otherwise it is held with the open transaction. Its sender is always listed as the owner. -/
def execWbdata (k : Nat) (s : State) : Res :=
  match s.arrival .wbData k with
  | none => stop
  | some (m, s1) =>
    let now := fun (s : State) =>
      let s2 := (s.backWrite m.line (some (m.data, m.poison)) m.part).send { kind := .wbAck, line := m.line, quad := m.quad }
      match s2.dirEntry m.line with
      | none => s2
      | some e => if e.kind = .o ∧ e.sharers ≠ [] then s2.setDir m.line { e with kind := .s } else s2.delDir m.line
    match SMap.find s1.cmp.txns m.line with
    | none => need (s1.isOwner m.line m.quad) (.next (now s1))
    | some t =>
      if t.answered then need (s1.isOwner m.line m.quad) (.next (now s1))
      else .next ((s1.updTxn m.line (fun t => { t with back := some (m.data, m.poison) })).settle m.line)

/-- CompAck ends the transaction of a GetS or GetM (R224). -/
def execCompack (k : Nat) (s : State) : Res :=
  match s.arrival .compAck k with
  | none => stop
  | some (m, s1) =>
    match SMap.find s1.cmp.txns m.line with
    | none => stop
    | some t => need (t.answered && (t.req.map (·.quad)) == some m.quad) (.next (s1.endTxn m.line))

/-! ### Answers at the requester -/

/-- The line of a transaction at the requester becomes stable: CompAck leaves and the access is served (R224). -/
def State.stable (s : State) (q line : Nat) (l : QLine) (st : LState) : State :=
  let s1 := s.setQ q line { l with st := st, got := none, comp := none }
  ((s1.send { kind := .compAck, line := line, quad := q }).lineReady q line).pump

/-- Data with a state arrives at a requester: from the home it carries Comp; from an owner the home's Comp is awaited. -/
def State.gotData (s : State) (kind : MsgKind) (st : LState) (k : Nat) : Res :=
  match s.arrival kind k with
  | none => stop
  | some (m, s1) =>
    match s1.qline m.quad m.line with
    | none => stop
    | some l0 =>
      let l := { l0 with data := m.data, poison := m.poison, hw := m.hw }
      need (!l0.st.stable && l0.st != .wb)
        (.next (if m.fwd.isNone ∨ l.comp.isSome then s1.stable m.quad m.line l st
          else s1.setQ m.quad m.line { l with got := some st }))

/-- DataS. -/
def execDatas (k : Nat) (s : State) : Res := s.gotData .dataS .s k
/-- DataE. -/
def execDatae (k : Nat) (s : State) : Res := s.gotData .dataE .e k
/-- DataM. -/
def execDatam (k : Nat) (s : State) : Res := s.gotData .dataM .m k

/-- The access that an answer is for. -/
def State.accOf (s : State) (id : Nat) : Option Access := s.cmp.accs.find? (fun a => a.id == id)

/-- DataOnce ends the non-allocating read of an access (R213, R229). -/
def execDataonce (k : Nat) (s : State) : Res :=
  match s.arrival .dataOnce k with
  | none => stop
  | some (m, s1) =>
    match s1.accOf m.acc with
    | none => .next s1
    | some a => .next (s1.finishLoad a m.data (if m.poison then 0x28 else 0)).pump

/-- The result of an atomic returns. -/
def execAtomicResult (k : Nat) (s : State) : Res :=
  match s.arrival .atomResult k with
  | none => stop
  | some (m, s1) =>
    match s1.accOf m.acc with
    | none => .next s1
    | some a =>
      let old := ((m.atom.map (·.lanes)).getD []).map (fun l => (l.lane, l.b))
      .next (s1.finishAtomic a old m.code).pump

/-- Comp (R224): it ends an invalidating write; for a line it grants ownership without data, or says that the data of an
owner belongs to the transaction. -/
def execComp (k : Nat) (s : State) : Res :=
  match s.arrival .comp k with
  | none => stop
  | some (m, s1) =>
    if m.acc ≠ 0 then
      match s1.accOf m.acc with
      | none => .next s1
      | some a => .next (s1.finishStore a m.code).pump
    else
      match s1.qline m.quad m.line with
      | none => stop
      | some l =>
        need (!l.st.stable && l.st != .wb)
          (.next (match m.fwd, l.got with
            | none, _ => s1.stable m.quad m.line l .m
            | some _, some st => s1.stable m.quad m.line l st
            | some _, none => s1.setQ m.quad m.line { l with comp := some true }))

/-- Retry: the requester counts it and keeps waiting (R224, R228). -/
def execRetryMsg (k : Nat) (s : State) : Res :=
  match s.arrival .retry k with
  | none => stop
  | some (m, s1) => .next (s1.quadCount m.quad 3)

/-- WbAck frees the eviction buffer (R220). -/
def execWback (k : Nat) (s : State) : Res :=
  match s.arrival .wbAck k with
  | none => stop
  | some (m, s1) =>
    match s1.qline m.quad m.line with
    | none => .next s1
    | some l => .next (if l.st = .wb then (s1.delQ m.quad m.line).pump else s1)

/-! ### Retry FIFOs, flushes and recalls -/

/-- A way of a set becomes non-busy: the request at the head of the retry FIFO takes it (R228); as it starts it cancels the reservations of its line (R264). -/
def execRetryFifoGrant (home : Fin 16) (set : Fin 262144) (s : State) : Res :=
  let key := home.val * 2 ^ 18 + set.val
  match takeFirst (fun (m : Msg) => s.setKey m.line == key) s.cmp.parked with
  | none => stop
  | some (m, rest) =>
    let s1 := { s with cmp := { s.cmp with parked := rest } }
    if s1.lineBusy m.line then stop
    else
      match s1.dirEntry m.line with
      | some _ => .next (s1.beginReq m)
      | none =>
        match (s1.startCancels m).takeWay m with
        | none => stop
        | some s2 => .next s2

/-- The lines of quadrant caches that `p` covers leave them as on eviction, dirty data going to memory (R217, R233); `none` while one of
them is in a transaction or being evicted. Of a line whose request waits to be started, only the request is left. -/
def State.flushLines (s : State) (p : Nat → Nat → QLine → Bool) : Option State :=
  let hit := SMap.keep s.cmp.qlines (fun k l => p (k / 2 ^ 39) (k % 2 ^ 39) l && l.st != .is && l.st != .im)
  if hit.any (fun e => e.2.st == .wb || s.lineBusy (e.1 % 2 ^ 39)) then none
  else
    some (hit.foldl (fun (s : State) e =>
      let q := e.1 / 2 ^ 39
      let line := e.1 % 2 ^ 39
      let s0 := match e.2.gone with
        | none => s.delQ q line
        | some l => s.setQ q line l
      if s.cmp.qdead.contains q then
        if s.isOwner line q then (s0.setPoison line true).delDir line else s0
      else if e.2.st.dirty then
        let s1 := s0.backWrite line (some (e.2.data, e.2.poison)) e.2.part
        match s1.dirEntry line with
        | none => s1
        | some d => if d.kind = .o ∧ d.sharers ≠ [] then s1.setDir line { d with kind := .s } else s1.delDir line
      else s0) s)

/-- Whether a flush in a mode covers a line (R217). -/
def Flush.covers (f : Flush) (l : QLine) : Bool :=
  match f.mode with
  | 0 => !l.hw && l.part == f.part
  | 2 => l.hw
  | _ => true

/-- The flush that runs in a quadrant ends: DONE reads 1 (R217, R234). The lines that it found when it began have left; whether the walk
had passed the set of a line filled since is a free choice. -/
def execQdcFlushDone (quad : Fin 256) (s : State) : Res :=
  let q := quad.val
  match s.cmp.flushing.find? (fun f => f.quad == q) with
  | none => stop
  | some f =>
    let late := SMap.keys (SMap.keep s.cmp.qlines (fun k l => k / 2 ^ 39 == q && l.st.stable && f.covers l && !f.lines.contains (k % 2 ^ 39)))
    let (more, s0) := late.foldl (fun (r : List Nat × State) k =>
      let (n, s1) := r.2.pick 2
      (if n = 1 ∧ ¬ s1.lineBusy (k % 2 ^ 39) then k % 2 ^ 39 :: r.1 else r.1, s1)) ([], s)
    match s0.flushLines (fun k line l => k == q && f.covers l && (f.lines.contains line || more.contains line)) with
    | none => stop
    | some s1 =>
      .next (({ s1 with cmp := { s1.cmp with flushing := s1.cmp.flushing.filter (fun x => x.quad != q) } }).fset
        F.QDC_FLUSH_START 0 q |>.fset F.QDC_FLUSH_DONE 1 q)

/-- The recall of a directory set ends: every quadrant has written back and invalidated its lines of the set, and the set is
empty (R233). -/
def execDirectorySetRecallDone (home : Fin 16) (set : Fin 262144) (s : State) : Res :=
  let key := home.val * 2 ^ 18 + set.val
  if ¬ s.cmp.recalls.contains key then stop
  else
    match s.flushLines (fun _ line _ => s.setKey line == key) with
    | none => stop
    | some s1 =>
      let s2 := { s1 with cmp := { s1.cmp with
        recalls := s1.cmp.recalls.filter (fun x => x != key)
        dir := SMap.keep s1.cmp.dir (fun line _ => s1.setKey line != key) } }
      .next (if s2.flag F.HOM_DIR_ERRLOG_VALID home.val ∧ s2.fget F.HOM_DIR_ERRLOG_SET home.val = set.val then
        s2.fset F.HOM_DIR_ERRLOG_RECALLED 1 home.val else s2)

end Sys2Proof.Machine
end

