-- ==== Sys2Proof/Machine/Memory.lean ====
section
/-! DEFINITION. The memory of the home dies in service: scrub, temperature, map-out and capacity, Heartwood commands and
repair, post-package repair, the loss of a home die (R217, R272, R282 to R296, R486 to R491, R497, R498, R501). -/

namespace Sys2Proof.Machine

/-! ### Flush -/

/-- A write of `QDC_FLUSH`: START begins a flush unless one runs (R217, R234). -/
def execQdcFlush (who : Requester) (quad : Fin 256) (word : W32) (s : State) : Res :=
  let q := quad.val
  s.regAction who .QDC_FLUSH q word.toNat (fun t =>
    if word.getLsbD 15 ∧ ¬ t.cmp.flushing.any (fun f => f.quad == q) then
      let f : Flush :=
        { quad := q, mode := t.fget F.QDC_FLUSH_MODE q, part := t.fget F.QDC_FLUSH_PART q
          lines := (SMap.keys (SMap.keep t.cmp.qlines (fun k _ => k / 2 ^ 39 == q))).map (fun k => k % 2 ^ 39) }
      ({ t with cmp := { t.cmp with flushing := t.cmp.flushing ++ [f] } }).fset F.QDC_FLUSH_DONE 0 q |>.fset
        F.QDC_FLUSH_START 1 q
    else t)

/-! ### Scrub and temperature -/

/-- A line of a home that a patrol scrub writes as poisoned (R272). -/
def State.scrubPoison (s : State) (line : Nat) : State := ((s.setPoison line true).memErrLog line 1).watchUe line

/-- A sector that a scrub corrects: it lies on any of the home's units. -/
def State.scrubFix (s : State) (h : Nat) : State :=
  let (k, s1) := s.pick 65
  (s1.memCe h).countCe (if k = 64 then .port h else .pc (h * 64 + k))

/-- A patrol scrub of a home: it corrects `corrected` sectors, and the lines `failing` hold an uncorrectable sector (R272). -/
def execPatrolScrub (home : Fin 16) (corrected : Nat) (failing : List Nat) (s : State) : Res :=
  if failing.any (fun l => s.homeOf l != home.val || !s.populated (l * 128) || s.isPoisoned l) then stop
  else
    let s1 := (List.range (min corrected 65536)).foldl (fun (s : State) _ => s.scrubFix home.val) s
    .next (failing.foldl (fun (s : State) l => s.scrubPoison l) s1)

/-- The throttle level of a stack whose temperature, in 1/16 °C, is `t`: a level is left 3 °C below its threshold (R289). -/
def throttleLevel (old : Nat) (t : Int) : Nat :=
  let enter := if 105 * 16 ≤ t then 3 else if 95 * 16 ≤ t then 2 else if 85 * 16 ≤ t then 1 else 0
  let stay := if 102 * 16 < t then 3 else if 92 * 16 < t then 2 else if 82 * 16 < t then 1 else 0
  if enter ≥ old then enter else min old stay

/-- The fields of a stack's temperature. -/
def tempFld (stack : Nat) : Fld := if stack % 2 = 0 then F.HOM_TEMP_TEMP0 else F.HOM_TEMP_TEMP1
def levelFld (stack : Nat) : Fld := if stack % 2 = 0 then F.HOM_TEMP_LEVEL0 else F.HOM_TEMP_LEVEL1

/-- The share of a stack's command slots that its arbiter may use, in eighths: that of its level, and while the thermal controller of
its home die caps it no more than that of level 2 (R289, R531). -/
def State.stackShare (s : State) (stack : Nat) : Nat :=
  let share := 8 / 2 ^ s.fget (levelFld stack) (stack / 2)
  if s.duty.capped.contains (64 + stack / 2) then min 2 share else share

/-- The partitions that reserve traffic on the stacks of a home die (R286). -/
def State.reservers (s : State) (h : Nat) : List Nat :=
  (List.range 1024).filter (fun p => s.fget F.HOM_RSV_HBM_UNITS (h * 1024 + p) != 0)

/-- A reading of a stack's temperature: a change of level raises source 130 and is time-stamped; at level 3 Canopy treats the bounds of
partitions that use the stack as void (R289, R356). -/
def execStackTemperatureRead (stack : Fin 32) (temp : W16) (s : State) : Res :=
  let n := stack.val
  let h := n / 2
  let old := s.fget (levelFld n) h
  let new := throttleLevel old temp.toInt
  let s1 := (s.fset (tempFld n) temp.toNat h).fset (levelFld n) new h
  let s2 := if new = old then s1 else
    ({ s1 with health := { s1.health with throttled := SMap.put s1.health.throttled n (s1.now, s1.uFlag) } }).event (64 + h) 130
  .next (if new = 3 ∧ old ≠ 3 then (s2.reservers h).foldl (fun (s : State) p => s.boundVoid p) s2 else s2)

/-! ### Capacity and map-out -/

/-- The HBM capacity of a home in MiB: 4 GiB a pseudo-channel that is not MappedOut (R283, R285). -/
def State.hbmMib (s : State) (h : Nat) : Nat :=
  4096 * ((List.range 64).filter (fun j => s.pcState (h * 64 + j) != 2)).length

/-- The outer-tier capacity of a home in MiB (R271, R285). -/
def State.otMib (s : State) (h : Nat) : Nat :=
  if s.flag F.HOM_OT_STATUS_TIER_EN h ∧ s.fget F.HOM_OT_STATUS_STATE h < 2 then 65536 * s.fget F.HOM_OT_STATUS_SIZE h
  else 0

/-- `HOM_CAP` of every home and the count of MappedOut channels follow the states of the units (R285, R504). -/
def State.showCapacity (s : State) : State :=
  (List.range 16).foldl (fun (s : State) h =>
    let mapped := ((List.range 64).filter (fun j => s.pcState (h * 64 + j) == 2)).length
    ((s.fset F.HOM_CAP_HBM_MIB (s.hbmMib h) h).fset F.HOM_CAP_OT_MIB (s.otMib h) h).fset F.TAP_DIE_HEALTH_MAPPED mapped
      (64 + h)) s

/-- A unit becomes MappedOut (R282, R283, R501). -/
def State.mapOut (s : State) (c : Chan) : State :=
  if s.chanState c = 2 then s
  else (((s.setChan c 2).showCapacity.degrade (64 + c.home)).event (64 + c.home) 129).logEvent .mapout (64 + c.home)
    |>.capacityChanged

/-- The unit that a home's map-out target names. -/
def chanOf (h : Nat) (target : Option Nat) : Chan :=
  match target with
  | some t => .pc (h * 64 + t)
  | none => .port h

/-- A write of `HOM_PC_MAPOUT`: GO = 1 starts the map-out of the channel it names, and reads 1 until it is in effect (R284,
R296). -/
def execPcMapout (who : Requester) (home : Fin 16) (word : W32) (s : State) : Res :=
  s.regAction who .HOM_PC_MAPOUT home.val word.toNat (fun t =>
    if word.getLsbD 31 then t.fset F.HOM_PC_MAPOUT_GO 1 home.val else t)

/-- The map-out that `HOM_PC_MAPOUT` started is in effect at every requester (R284). -/
def execPcMapoutDone (home : Fin 16) (s : State) : Res :=
  let h := home.val
  let c := chanOf h (if s.flag F.HOM_PC_MAPOUT_PORT h then none else some (s.fget F.HOM_PC_MAPOUT_TARGET h))
  need (s.flag F.HOM_PC_MAPOUT_GO h) (.next ((s.fset F.HOM_PC_MAPOUT_GO 0 h).mapOut c))

/-- A pseudo-channel, or with `none` the outer-tier port, of a home stops answering in service: it is MappedOut at once
(R282). -/
def execChannelStopsAnswering (home : Fin 16) (target : Option (Fin 64)) (s : State) : Res :=
  let c := chanOf home.val (target.map (·.val))
  need (decide (s.chanState c < 2)) (.next (s.mapOut c))

/-! ### Heartwood commands (R292, R295) -/

/-- A command that the entry's state does not allow: it sets ERR and has no effect. -/
def State.hwDeny (s : State) (r : Nat) : State := s.fset F.HOM_HW_CTL_ERR 1 r

/-- A command starts where the entry's state allows it and no other command runs; otherwise it is not allowed. -/
def State.hwStart (t : State) (r cmd : Nat) (ok : Bool) (act : State → State) : State :=
  if t.fget F.HOM_HW_CTL_CMD r = 0 ∧ ok then act (t.fset F.HOM_HW_CTL_CMD cmd r) else t.hwDeny r

/-- The first block of a region whose copy fails its check, primary before replica at each block. -/
def State.hwFirstBad (s : State) (r : Nat) : Option (Nat × Nat) :=
  (List.range (s.fget F.HOM_HW_LEN_LEN r * 32)).findSome? (fun b =>
    if ¬ (s.hwBlockGood r 0 b).1 then some (b, 0) else if ¬ (s.hwBlockGood r 1 b).1 then some (b, 1) else none)

/-- The end of a Seal (R295): with every block good the region is Sealed and leaves the quarantine filter (R489); otherwise
it stays Loading, with ERR and the first failing block and copy. The homes check what their memory holds. -/
def execHwSealDone (region : Fin 64) (s : State) : Res :=
  let r := region.val
  let s0 := s.fset F.HOM_HW_CTL_CMD 0 r
  need (s.fget F.HOM_HW_CTL_CMD r == 1)
    (.next (match s.hwFirstBad r with
      | some (b, c) =>
        ((s0.fset F.HOM_HW_CTL_ERR 1 r).fset F.HOM_HW_CTL_FAIL_BLOCK b r).fset F.HOM_HW_CTL_FAIL_COPY c r
      | none =>
        let s1 := s0.fset F.HOM_HW_CTL_STATE 2 r
        { s1 with cmp := { s1.cmp with qfilter := s1.cmp.qfilter.filter (fun x => x != r) } }))

/-- The lines of a region's extents. -/
def State.hwLine (s : State) (r line : Nat) : Bool := (s.hwAt (fun x => x == r) (line * 128)).isSome

/-- The home dies walk their directory sets: they send SnpInv to every holder of an entry that `p` covers and that is not busy
(R295). -/
def State.releaseWalk (s : State) (p : Nat → Bool) : State :=
  (SMap.keep s.cmp.dir (fun l e => p l && !e.busy)).foldl (fun (s : State) e =>
    (s.openTxn e.1 none (e.2.invalidate false)).settle e.1) s

/-- A Release: from its start the extents are ordinary memory, and the region leaves the quarantine filter (R295, R489). -/
def State.hwReleaseStart (t : State) (r : Nat) : State :=
  let t1 := ((t.fset F.HOM_HW_CTL_STATE 0 r).setReg .HOM_HW_CNT r 0).dropVerified r
  ({ t1 with cmp := { t1.cmp with qfilter := t1.cmp.qfilter.filter (fun x => x != r) } }).releaseWalk (t1.hwLine r)

/-- A write of `HOM_HW_CTL` of a region (R292, R295): ERR is W1C, and CMD starts Seal, which is allowed in Loading; Release, which
is allowed in any state but Free; or Reload, which makes a Quarantined entry Loading with the same bases and length (R490). While a
command runs, another is not allowed. A reserved CMD leaves ERR undefined (R6). -/
def State.hwCommand (s : State) (who : Requester) (r word : Nat) : Res :=
  s.regAction who .HOM_HW_CTL r word (fun t =>
    match bits word 4 3 with
    | 0 => t
    | 1 => t.hwStart r 1 (t.hwState r == 1) id
    | 2 => t.hwStart r 2 (t.hwState r != 0) (fun t => t.hwReleaseStart r)
    | 3 => t.hwStart r 3 (t.hwState r == 4) (fun t => (t.fset F.HOM_HW_CTL_STATE 1 r).fset F.HOM_HW_CTL_CMD 0 r)
    | _ =>
      let (x, t1) := t.take 1
      t1.fset F.HOM_HW_CTL_ERR x.toNat r)

/-- CMD Seal. A write whose CMD is another acts by its own. -/
def execHwSeal (who : Requester) (region : Fin 64) (word : W64) (s : State) : Res := s.hwCommand who region.val word.toNat

/-- CMD Release. A write whose CMD is another acts by its own. -/
def execHwRelease (who : Requester) (region : Fin 64) (word : W64) (s : State) : Res := s.hwCommand who region.val word.toNat

/-- CMD Reload. A write whose CMD is another acts by its own. -/
def execHwReload (who : Requester) (region : Fin 64) (word : W64) (s : State) : Res := s.hwCommand who region.val word.toNat

/-- The walk of a Release has come to its end with every snoop answered: it turns to the entries that were busy when it met them and
whose line a quadrant cache still holds with HW = 1; where there is none, the command ends (R295). -/
def execHwReleaseDone (region : Fin 64) (s : State) : Res :=
  let r := region.val
  let busy := (SMap.keys s.cmp.txns).any (fun l => s.hwLine r l)
  let left := (SMap.keys (SMap.keep s.cmp.qlines (fun k l => l.hw && s.hwLine r (k % 2 ^ 39)))).map (fun k => k % 2 ^ 39)
  let coming := s.cmp.net.any (fun m => m.hw && s.hwLine r m.line)
  need (s.fget F.HOM_HW_CTL_CMD r == 2 && !busy && !coming)
    (.next (if left.isEmpty then s.fset F.HOM_HW_CTL_CMD 0 r else s.releaseWalk (fun l => left.contains l)))

/-! ### Heartwood repair (R487, R488, R491) -/

/-- Taproot starts the repair of a region after a fallback. -/
def execRepairStart (region : Fin 64) (s : State) : Res :=
  let r := region.val
  need (s.hwState r == 2 && s.fget F.HOM_HW_CNT_FALLBACKS r != 0)
    (.next (((s.fset F.HOM_HW_CTL_STATE 3 r).hwEvent r 0 0 4 false).logEvent .repair edge0))

/-- Copies a block and its check value from one copy of a region over the other. -/
def State.hwCopyBlock (s : State) (r src block : Nat) : State :=
  let a := s.hwBase r src
  let b := s.hwBase r (1 - src)
  let len := s.fget F.HOM_HW_LEN_LEN r * 65536
  let s1 := (List.range 16).foldl (fun (s : State) i =>
    s.homeWrite ((b + block * 2048) / 128 + i) fullMask (s.memLine ((a + block * 2048) / 128 + i))) s
  let chk := (List.range 4).map (fun i => s1.memByte (a + len + 4 * block + i))
  let s2 := (chk.zipIdx).foldl (fun (s : State) x => s.setMemByte (b + len + 4 * block + x.2) x.1) s1
  s2.setPoison ((b + len + 4 * block) / 128) false

/-- One block of the walk: nothing for two good copies, the failing copy rewritten, an unrepairable copy's channel Failing, or
the region quarantined; the second part says that the walk ended. A copy of a block lies on the channel of its data and on that of its
check value (R487, R488). -/
def State.repairBlock (s : State) (r block : Nat) : State × Bool :=
  let (g0, p0) := s.hwBlockGood r 0 block
  let (g1, p1) := s.hwBlockGood r 1 block
  if g0 && g1 then (s, false)
  else if !g0 && !g1 then (s.hwQuarantine r block (p0 || p1), true)
  else
    let bad := if g0 then 1 else 0
    let pois := if g0 then p1 else p0
    let base := s.hwBase r bad
    let cs := [s.chanAt ((base + block * 2048) / 128), s.chanAt ((base + s.fget F.HOM_HW_LEN_LEN r * 65536 + 4 * block) / 128)].eraseDups
    if cs.any (fun c => s.chanState c == 2) then (s.hwEvent r block bad 2 pois, false)
    else
      let s1 := s.hwCopyBlock r (1 - bad) block
      if (s1.hwBlockGood r bad block).1 then (s1.hwEvent r block bad 1 pois, false)
      else ((cs.foldl (fun (s : State) c => s.failing c) s1).hwEvent r block bad 2 pois, false)

/-- Taproot's walk over the blocks of a region ends: Sealed again with REPAIRS one higher, or Quarantined. -/
def execRepairEnd (region : Fin 64) (s : State) : Res :=
  let r := region.val
  let walk := (List.range (s.fget F.HOM_HW_LEN_LEN r * 32)).foldl (fun (x : State × Bool) b =>
    if x.2 then x else x.1.repairBlock r b) (s, false)
  need (s.hwState r == 3)
    (.next (if walk.2 then walk.1
      else (((walk.1.fset F.HOM_HW_CTL_STATE 2 r).fsat F.HOM_HW_CNT_REPAIRS 1 r).hwEvent r 0 0 5 false).logEvent .repair edge0))

/-! ### Channels (R497, R498) -/

/-- Hard post-package repair of a row of a pseudo-channel (R497): its lines are read and written back, and those that could
not be corrected are written as poisoned. With no spare row, `lines` is empty and the channel becomes Failing. -/
def execPostPackageRepair (pc : Fin 1024) (lines : List Nat) (lost : List Nat) (s : State) : Res :=
  if (lines ++ lost).any (fun l => s.chanAt l != .pc pc.val) then stop
  else if lines.isEmpty then need (s.pcState pc.val == 0) (.next (s.failing (.pc pc.val)))
  else
    let s1 := lost.foldl (fun (s : State) l => s.setPoison l true) s
    let s2 := { s1 with health := { s1.health with
      repairs := SMap.put s1.health.repairs pc.val (SMap.get s1.health.repairs 0 pc.val + 1) } }
    .next (((s2.reservers (pc.val / 64)).foldl (fun (s : State) p => s.boundVoid p) s2).logEvent .repair (64 + pc.val / 64))

/-- A home die is retired (R498): its units are MappedOut, quadrant caches drop its lines and their dirty data is lost, and its
reservations lapse. Open transactions of its lines end: reads and atomics with poisoned data, writes dropped (R283). -/
def State.homeLost (s : State) (h cause : Nat) : State :=
  let mine := fun (line : Nat) => s.homeOf line == h
  let dropped := s.cmp.accs.filter (fun a => a.target == 0 && a.sent && mine a.line)
  let s1 := { s with cmp := { s.cmp with
    qlines := SMap.keep s.cmp.qlines (fun k _ => !mine (k % 2 ^ 39))
    dir := SMap.keep s.cmp.dir (fun l _ => !mine l)
    txns := SMap.keep s.cmp.txns (fun l _ => !mine l)
    parked := s.cmp.parked.filter (fun m => !mine m.line)
    net := s.cmp.net.filter (fun m => !mine m.line)
    rsvs := s.cmp.rsvs.filter (fun r => !mine r.line)
    recalls := s.cmp.recalls.filter (fun k => k / 2 ^ 18 != h) } }
  let s2 := dropped.foldl (fun (s : State) a => s.failAcc a (if a.kind = .store then 0 else 0x28)) s1
  let units := (List.range 64).map (fun j => Chan.pc (h * 64 + j)) ++ [Chan.port h]
  let s3 := units.foldl (fun (s : State) c => if s.chanState c = 3 then s else s.setChan c 2) s2
  let s4 := s3.resetRegs (fun r i => r == .HOM_RSV && i / 1024 == h)
  let s5 := (s4.showCapacity.fset F.TAP_DIE_HEALTH_STATE 2 (64 + h)).fset F.TAP_DIE_HEALTH_CAUSE cause (64 + h)
  ((s5.logEvent .retirement (64 + h)).capacityChanged).pump

/-- A home die stops answering (R498). -/
def execHomeDieLoss (home : Fin 16) (s : State) : Res :=
  need (s.fget F.TAP_DIE_HEALTH_STATE (64 + home.val) != 2) (.next (s.homeLost home.val 7))

end Sys2Proof.Machine
end

