-- ==== Sys2Proof/Machine/Walks.lean ====
section
/-! DEFINITION. Walks, host translations, fault resumption and the invalidation queue (R297 to R321). -/

namespace Sys2Proof.Machine

/-! ### Page tables (R298 to R302, R305) -/

/-- What a walk finds. -/
inductive Found where
  | leaf (word level : Nat)
  | fault (code : Nat)
  /-- a decode error with its WALK record: the entry's address and the level -/
  | bad (pa level : Nat)

/-- The index of a table entry of a level (R300). -/
def ptIndex (level va : Nat) : Nat :=
  match level with
  | 4 => bits va 48 9
  | 3 => bits va 39 9
  | 2 => bits va 30 9
  | 1 => bits va 21 9
  | _ => bits va 16 5

/-- What an entry of a level spans (R300). -/
def ptSpan (level : Nat) : Nat :=
  match level with
  | 4 => 2 ^ 48
  | 3 => 2 ^ 39
  | 2 => 2 ^ 30
  | 1 => 2 ^ 21
  | _ => 2 ^ 16

/-- Whether a valid entry is malformed (R302); `host` is the context's HOST bit. -/
def pteMalformed (host : Bool) (level w : Nat) : Bool :=
  if bit w 1 then
    let oa := bits w 16 44
    bit w 7 || bits w 10 6 != 0 || bits w 60 4 != 0 || decide (3 ≤ level) ||
      (level == 1 && bits w 16 5 != 0) || (level == 2 && bits w 16 14 != 0) ||
      (match bits w 8 2 with
        | 0 => bits w 46 14 != 0
        | 1 => false
        | 2 => oa != 0 || bits w 5 2 != 3 || !host
        | _ => true)
  else
    bits w 2 6 != 0 || bits w 46 18 != 0 || level == 0 || (decide (2 ≤ level) && bits w 8 4 != 0)

/-- Whether a valid context translation entry is malformed (R298, R302). -/
def cttMalformed (w : Nat) : Bool := bits w 2 10 != 0 || bits w 46 18 != 0 || bits w 92 36 != 0

/-- An entry enters a walk cache: 1,024 entries, least recently used (R306). -/
def State.wcFill (s : State) (e : WalkEnt) : State :=
  if 256 ≤ e.quad then s else
  let same := fun (x : WalkEnt) => x.quad == e.quad && x.ctx == e.ctx && x.level == e.level && x.index == e.index
  let rest := s.cmp.wcache.filter (fun x => !same x)
  let mine := rest.filter (fun x => x.quad == e.quad)
  let rest' := if 1024 ≤ mine.length then
      match mine.getLast? with
      | some v => rest.filter (fun x => x != v)
      | none => rest
    else rest
  { s with cmp := { s.cmp with wcache := e :: rest' } }

/-- An entry of a walk cache. -/
def State.wcFind (s : State) (q ctx level index : Nat) : Option Nat :=
  (s.cmp.wcache.find? (fun x => x.quad == q && x.ctx == ctx && x.level == level && x.index == index)).map (·.word)

/-- A parity error of the walk-cache entry that a walk looks up: it is dropped and counted (R308). An error lies in the entries of its
place's index (log 85). -/
def State.wcCheck (s : State) (q ctx level index : Nat) : State :=
  let hit := fun (x : WalkEnt) => x.quad == q && x.ctx == ctx && x.level == level && x.index == index
  if s.cmp.wcache.any hit && s.struck .walk index then
    (({ s with cmp := { s.cmp with wcache := s.cmp.wcache.filter (fun x => !hit x) } }).foundUpset .walk (fun k => k == index)).qtlbCount q 3
  else s

/-- A walk of quadrant `q` reads a word of a table, with its context's Partition ID (R287, R307); 256 is an agent without a walk cache. -/
def State.walkRead (s : State) (q ctx pa : Nat) (read : State → State × Nat × Nat) : State × Nat × Nat :=
  read (if q < 256 then s.serve (pa / 128) (s.partOf ctx) 128 else s)

/-- One entry of a walk (R305, R306, R308): from the walk cache, which holds those of L2 and above, or read from its table. -/
def State.walkEntry (s : State) (q ctx va level pa : Nat) (read : State → State × Nat × Nat) : State × Nat × Nat :=
  if level < 2 then s.walkRead q ctx pa read
  else
    let s0 := s.wcCheck q ctx level (va / ptSpan level)
    match s0.wcFind q ctx level (va / ptSpan level) with
    | some w => (s0, w, 0)
    | none => s0.walkRead q ctx pa read

/-- The walk below a table, from a level down (R300, R305): pointer entries of L4 to L2 come from the walk cache or fill it. -/
def State.walkDown (s : State) (q ctx va : Nat) (host : Bool) (table : Nat) (level : Nat) : State × Found :=
  let pa := table + 8 * ptIndex level va
  let r := s.walkEntry q ctx va level pa (fun s => s.readWord pa 8)
  let w := r.2.1
  if r.2.2 ≠ 0 then (r.1, .bad pa level)
  else if ¬ bit w 0 then (r.1, .fault 0x22)
  else if pteMalformed host level w then (r.1, .bad pa level)
  else if bit w 1 then (r.1, .leaf w level)
  else
    let s2 := if 2 ≤ level then r.1.wcFill { quad := q, ctx := ctx, level := level, index := va / ptSpan level, word := w } else r.1
    match level with
    | 0 => (s2, .bad pa level)
    | n + 1 => s2.walkDown q ctx va host (bits w 8 38 * 256) n

/-- A walk of an address (R305): the context translation entry, then one entry per level. -/
def State.walk (s : State) (q ctx va : Nat) : State × Found :=
  let pa := s.cttAddr ctx
  let r := s.walkEntry q ctx 0 5 pa (fun s => s.cttRead ctx)
  let w := r.2.1
  if r.2.2 ≠ 0 ∨ ¬ bit w 0 ∨ cttMalformed w then (r.1, .bad pa 5)
  else
    ((r.1.cttLoad ctx).wcFill { quad := q, ctx := ctx, level := 5, index := 0, word := w }).walkDown q ctx va (bit w 1)
      (bits w 12 34 * 4096) 4

/-- The WALK record of a decode error of a walk, at the device fault queue of a die (R305, R386). -/
def State.walkRecord (s : State) (die ctx va pa level : Nat) : State :=
  s.dfqWrite die { cls := 0x11, context := ctx, partition := s.partOf ctx, addr := va, info0 := pa, info1 := level }

/-- The walk of an agent that belongs to no quadrant: it uses no walk cache, and its WALK record goes to edge die 0, where the gateway
and Canopy are (R305, log 88). -/
def State.agentWalk (s : State) (ctx va : Nat) : State :=
  if 2 ^ 57 ≤ va ∨ ¬ s.flag F.XLT_CTT_BASE_EN then s
  else
    match s.walk 256 ctx va with
    | (s1, .bad pa level) => s1.walkRecord edge0 ctx va pa level
    | (s1, _) => s1

/-- A walk ends (R305 to R307): its leaf fills the TLBs of its quadrant and of the requesting cluster, or its outcome goes to
what waits for the page; a walk that an invalidation overlapped starts again (R318). -/
def execWalkComplete (k : Nat) (s : State) : Res :=
  match s.cmp.walks[k]? with
  | none => stop
  | some w =>
    if w.again then
      .next { s with cmp := { s.cmp with walks := s.cmp.walks.set k { w with again := false } } }
    else
      let va := w.page * 65536
      let s0 := { s with cmp := { s.cmp with walks := s.cmp.walks.eraseIdx k } }
      let (s1, f) := s0.walk w.quad w.ctx va
      let here := fun (c : Nat) => c / 4 == w.quad
      let miss := fun (code : Nat) => some (⟨va, 65536, code⟩ : Miss)
      match f with
      | .fault code => .next (s1.wake w.ctx here (.walk w.page) (miss code))
      | .bad pa level =>
        .next ((s1.walkRecord (w.quad / 4) w.ctx va pa level).wake w.ctx here (.walk w.page) (miss 0x24))
      | .leaf e level =>
        let size := ptSpan level
        let t : Tlb :=
          { quad := true, unit := w.quad, ctx := w.ctx, base := va / size * size, size := size, rd := bit e 2, wr := bit e 3,
            at' := bit e 4, attr := bits e 5 2, target := bits e 8 2, out := bits e 16 44 * 65536 }
        .next (((s1.tlbFill t).tlbFill { t with quad := false, unit := w.cluster }).wake w.ctx here (.walk w.page) none)

/-! ### ATS and PRI (R310, R311) -/

/-- What waits on a cluster for a page of host memory takes an outcome. -/
def State.wakeHost (s : State) (h : HostXlt) (miss : Option Miss) : State :=
  s.wake h.ctx (fun c => c == h.cluster) (.host h.page) miss

/-- An access that the host will not translate raises translation-not-present. -/
def State.hostFail (s : State) (h : HostXlt) : State := s.wakeHost h (some ⟨h.page * 4096, 4096, 0x22⟩)

/-- The `k`-th of the host translations that `p` holds of, and the list without it. -/
def State.hostNth (s : State) (p : HostXlt → Bool) (k : Nat) : Option (HostXlt × State) :=
  match (s.cmp.hostXlt.filter p)[k]? with
  | none => none
  | some h => some (h, { s with cmp := { s.cmp with hostXlt := s.cmp.hostXlt.erase h } })

/-- Puts a host translation back. -/
def State.hostPut (s : State) (h : HostXlt) : State := { s with cmp := { s.cmp with hostXlt := s.cmp.hostXlt ++ [h] } }

/-- The requester number, in place of a cluster, of the queue pairs and of Canopy at the PCIe gateway: they make no Page Request
(R408). -/
def hostAgent : Nat := 1024

/-- An ATS Translation Request completes (R310). A denial of a request of the gateway's own stays on record. A denial before a Page
Request sends one, unless the function has had a Response Failure; with 512 Page Requests of the function outstanding the translation
is requested again. The completion of a request that a function-level reset has abandoned is discarded (R313). -/
def execAtsCompletion (k : Nat) (res : AtsResult) (s : State) : Res :=
  match s.hostNth (fun h => h.phase != 1 && h.phase != 3) k with
  | none => .next s
  | some (h, s1) =>
    let deny : State :=
      if h.cluster = hostAgent then s1.hostPut { h with phase := 3 }
      else if h.phase = 2 ∨ s.cmp.priFailed.contains h.func then s1.hostFail h
      else if 512 ≤ (s.cmp.hostXlt.filter (fun x => x.func == h.func && x.phase == 1)).length then
        (s1.hostPut h).emit (.atsRequest h.func h.pasid (h.page * 4096) h.write)
      else
        let (n, s2) := s1.pick 512
        (s2.hostPut { h with phase := 1 }).emit (.pageRequest h.func h.pasid n (h.page * 4096) h.write)
    match res with
    | .granted r w log addr =>
      if (if h.write then w else r) then
        let bytes := 4096 * 2 ^ log.val
        let base := h.page * 4096 / bytes * bytes
        let t : Tlb := { quad := true, unit := h.cluster / 4, ctx := h.ctx, base := base, size := bytes, host := true, rd := r,
                         wr := w, attr := 3, target := 2, out := addr.toNat / bytes * bytes }
        .next (((s1.tlbFill t).tlbFill { t with quad := false, unit := h.cluster }).wakeHost h none)
      else .next deny
    | .denied => .next deny
    | .error => .next deny

/-- A PRG Response arrives (R311); that of a Page Request that a function-level reset has abandoned is discarded (R313). -/
def execPrgResponse (k : Nat) (res : PrgResult) (s : State) : Res :=
  match s.hostNth (fun h => h.phase == 1) k with
  | none => .next s
  | some (h, s1) =>
    match res with
    | .success => .next ((s1.hostPut { h with phase := 2 }).emit (.atsRequest h.func h.pasid (h.page * 4096) h.write))
    | .invalid => .next (s1.hostFail h)
    | .failure =>
      let all := s.cmp.hostXlt.filter (fun x => x.func == h.func)
      let s2 := { s1 with cmp := { s1.cmp with
        hostXlt := s1.cmp.hostXlt.filter (fun x => x.func != h.func)
        priFailed := h.func :: s1.cmp.priFailed.filter (fun f => f != h.func) } }
      let s3 := all.foldl (fun (s : State) x => s.hostFail x) s2
      .next ((s3.fset F.XLT_PRI_STATUS_RF 1).fset F.XLT_PRI_STATUS_RF_FUNC h.func)

/-! ### Resumption (R314) -/

/-- Whether a wait is on a translation-not-present record that `seq` covers (R314, R317). -/
def Wait.covered (w : Wait) (seq : Nat) : Bool :=
  match w with
  | .fault (some q) => q == seq || seqBefore q seq
  | _ => false

/-- A write of `XLT_RESUME` acts on every group and transfer of the context that waits on a covered record. -/
def State.resume (s : State) (ctx seq : Nat) (action : Bool) : State :=
  let gs := SMap.keys (SMap.keep s.cmp.groups (fun _ g => g.ctx == ctx && g.wait.covered seq))
  let hit := fun (x : Xfer) => x.ctx == ctx && x.wait.covered seq
  let any := s.cmp.steqs.any (fun e => e.2.xfers.any hit)
  if action then
    let s1 := gs.foldl (fun (s : State) g =>
      match s.grp g with
      | none => s
      | some grp => (s.updGrp g (fun x => { x with wait := .none })).outcome g
          (s.excRecord g grp 0x22 grp.pc grp.active 0 false false false 0) 0) s
    if any then s1.ctxFault ctx else s1
  else
    { s with cmp := { s.cmp with
      groups := SMap.mapVals s.cmp.groups (fun k g => if gs.contains k then { g with wait := .none, misses := [], settling := true } else g)
      steqs := SMap.mapVals s.cmp.steqs (fun _ q =>
        { q with xfers := q.xfers.map (fun x => if hit x then { x with wait := .none, misses := [] } else x) }) } }

/-- A write of `XLT_RESUME` by a requester: it acts by the ACTION of its word (R314). -/
def State.resumeWrite (s : State) (who : Requester) (word : Nat) : Res :=
  s.regAction who .XLT_RESUME 0 word (fun t =>
    ({ t with cmp := { t.cmp with resumeLow := t.cmp.resumeLow.filter (fun e => e.1 != who) } }).resume (bits word 0 16)
      (bits word 32 32) (bit word 16))

/-- A write of `XLT_RESUME`: the command of ACTION 0. -/
def execResumeRetranslate (who : Requester) (word : W64) (s : State) : Res := s.resumeWrite who word.toNat
/-- A write of `XLT_RESUME`: the command of ACTION 1. -/
def execResumeUnresolvable (who : Requester) (word : W64) (s : State) : Res := s.resumeWrite who word.toNat

/-- A 32-bit write of the low half of `XLT_RESUME` is held for its requester (R314). -/
def execXltResumeLowHalf (who : Requester) (word : W32) (s : State) : Res :=
  s.regAction who .XLT_RESUME 0 0 (fun t =>
    { t with cmp := { t.cmp with resumeLow := (who, word) :: t.cmp.resumeLow.filter (fun e => e.1 != who) } })

/-! ### Invalidation (R312, R316 to R320) -/

/-- A write of `XLT_IQ_TAIL` (R315, R321). -/
def execIqTailWrite (who : Requester) (word : W32) (s : State) : Res := s.regAction who .XLT_IQ_TAIL 0 word.toNat id

/-- A write of `XLT_IQ_BASE`: BASE and SIZE are ignored while EN = 1; EN from 0 to 1 sets HEAD and TAIL to 0 (R321). -/
def State.iqBaseWrite (s : State) (who : Requester) (word mask : Nat) : Res :=
  let on := s.flag F.XLT_IQ_BASE_EN
  if ¬ reachOk Reg.XLT_IQ_BASE.spec.wr who then
    .next (s.reachRecord (Reg.XLT_IQ_BASE.die 0) who (Reg.XLT_IQ_BASE.addr 0) true)
  else if ¬ s.regOpen who .XLT_IQ_BASE 0 then .next s
  else
    let s1 := s.writeReg .XLT_IQ_BASE 0 word (if on then mask &&& 2 ^ 63 else mask)
    .next (if ¬ on ∧ s1.flag F.XLT_IQ_BASE_EN then (s1.fset F.XLT_IQ_HEAD_HEAD 0).fset F.XLT_IQ_TAIL_TAIL 0 else s1)

/-- A write of `XLT_IQ_BASE`. -/
def execIqEnable (who : Requester) (word : W64) (s : State) : Res := s.iqBaseWrite who word.toNat Reg.XLT_IQ_BASE.full

/-- Whether an invalidation covers a context and a range of addresses: RANGE by overlap, CONTEXT and ALL wholly, SYNC
nothing. -/
def Inv.covers (i : Inv) (ctx base size : Nat) : Bool :=
  match i.op with
  | 1 => i.ctxs.contains ctx && decide (base < i.va + i.len) && decide (i.va < base + size)
  | 2 => i.ctxs.contains ctx
  | 3 => true
  | _ => false

/-- Whether an invalidation has to do with a context. -/
def Inv.touches (i : Inv) (ctx : Nat) : Bool := i.op == 3 || (i.op != 4 && i.ctxs.contains ctx)

/-- The pairs whose remote or host access is outstanding (R320). -/
def State.pairsOut (s : State) : List Nat :=
  let pair := fun (i : Issuer) => match i with
    | .pair q => some q
    | _ => none
  s.grg.egress.filterMap (fun e => pair e.2.issuer) ++ s.grg.egWait.filterMap (fun e => pair e.issuer) ++
    s.host.reads.filterMap (fun e => match e.2 with
      | .waitWord q => some q
      | _ => none)

/-- Step 2 of R318: every TLB and walk cache drops the covered entries, and walks that overlap start again; the accesses and
chunks in flight that passed their checks with such an entry are noted, and the pairs of the contexts whose access is on its way. -/
def State.invStart (s : State) (i : Inv) : State :=
  let accs := (s.cmp.accs.filter (fun a => i.covers a.ctx (a.va / 128 * 128) 128)).map (·.id)
  let chunks := SMap.keys (SMap.keep s.cmp.chunks (fun _ c => i.covers c.ctx c.va 65536 || (i.op == 1 && i.ctxs.contains c.ctx)))
  { s with cmp := { s.cmp with
    tlbs := s.cmp.tlbs.filter (fun t => !i.covers t.ctx t.base t.size)
    wcache := s.cmp.wcache.filter (fun w =>
      if w.level = 5 then !(i.op != 1 && i.covers w.ctx 0 0)
      else !i.covers w.ctx (w.index * ptSpan w.level) (ptSpan w.level))
    walks := s.cmp.walks.map (fun w => if i.covers w.ctx (w.page * 65536) 65536 then { w with again := true } else w)
    ctxs := if i.tag.isSome ∨ i.op = 1 then s.cmp.ctxs
      else SMap.mapVals s.cmp.ctxs (fun c x => if i.covers c 0 0 then { x with ctt := none } else x)
    invs := s.cmp.invs ++ [{ i with accs := accs, chunks := chunks
                                    pairs := s.pairsOut.filter (fun q => i.touches (s.fget F.CNP_QP_CFG_CONTEXT q)) }] } }

/-- Whether step 3 of R318 is over: what used a dropped entry has completed. -/
def State.invDue (s : State) (i : Inv) : Bool :=
  i.accs.all (fun a => !s.cmp.accs.any (fun x => x.id == a)) && i.chunks.all (fun c => !SMap.has s.cmp.chunks c) &&
    i.pairs.all (fun q => !s.pairsOut.contains q)

/-- The cores that hold blocks of an affected context. -/
def State.invCores (s : State) (i : Inv) : List Nat :=
  if i.op = 4 then []
  else ((if i.op = 3 then SMap.keys s.cmp.ctxs else i.ctxs).flatMap (fun c => s.coresOf c)).eraseDups

/-- Step 5: the cores that hold blocks of an affected context act on the range, or on the whole context (R207, R318). -/
def State.invNear (s : State) (i : Inv) : State :=
  let p := fun (v : Nat) => i.op != 1 || (decide (v * 128 < i.va + i.len) && decide (i.va < v * 128 + 128))
  ((s.invCores i).foldl (fun (s : State) core => ((s.l1Drop core p).scDrop core p).icDrop core p) s).pump

/-- The write-backs of the affected cores that are still to be performed. -/
def State.invBacks (s : State) (i : Inv) : List Nat :=
  (s.cmp.accs.filter (fun a => a.slot == 32 && a.kind == .store && (s.invCores i).contains a.core)).map (·.id)

/-- An invalidation goes on once its step 3 is over: the near caches act, and once their write-backs are performed it is done, with
`done` (R318, R320). -/
def State.invGo (s : State) (i : Inv) (done : State → State) : Res :=
  let out := fun (s : State) (l : List Nat) => l.any (fun a => s.cmp.accs.any (fun x => x.id == a))
  let put := fun (s : State) (l : List Inv) => { s with cmp := { s.cmp with invs := l } }
  match i.backs with
  | some l => need (!out s l) (.next (done (put s (s.cmp.invs.erase i))))
  | none =>
    need (s.invDue i)
      (let s1 := s.invNear i
       let l := s1.invBacks i
       .next (if out s1 l then put s1 (s1.cmp.invs.map (fun x => if x = i then { x with backs := some l } else x))
         else done (put s1 (s1.cmp.invs.erase i))))

/-- The descriptor at the head of the queue: its bytes, and whether the read met an error. -/
def State.iqHead (s : State) : State × List Byte × Nat :=
  s.readBytes (s.fget F.XLT_IQ_BASE_BASE * 4096 + s.fget F.XLT_IQ_HEAD_HEAD * 32) 32

/-- The invalidation that a descriptor's four words ask for; `none` where it breaks a rule of R316. -/
def invOf (w0 w1 w2 w3 : Nat) : Option Inv :=
  let op := bits w0 0 4
  let ctx := bits w0 16 16
  let fields := bits w0 5 11 == 0 && bits w0 32 32 == 0 && w3 == 0
  let range := w1 % 4096 == 0 && decide (w1 < 2 ^ 57) && decide (1 ≤ w2) && decide (w2 ≤ 2 ^ 45)
  let i : Inv := { op := op, ctxs := if op ≤ 2 then [ctx] else [], irq := bit w0 4 }
  if !fields || op = 0 || 4 < op then none
  else if op = 1 then (if range then some { i with va := w1, len := w2 * 4096 } else none)
  else some i

/-- The device consumes the descriptor at the head (R316, R318): one that breaks a rule, or whose read failed, is carried out
as ALL. Each of the four rows is the consumption of a descriptor that is carried out as its kind. -/
def State.consume (s : State) (op : Nat) : Res :=
  let size := 2 ^ s.fget F.XLT_IQ_BASE_SIZE
  let head := s.fget F.XLT_IQ_HEAD_HEAD
  if ¬ s.flag F.XLT_IQ_BASE_EN ∨ head % size = s.fget F.XLT_IQ_TAIL_TAIL % size then stop
  else
    let (s1, b, c) := s.iqHead
    let w := fun (k : Nat) => ofBytes ((b.drop (8 * k)).take 8)
    let parsed := if c ≠ 0 then none else invOf (w 0) (w 1) (w 2) (w 3)
    let i := parsed.getD { op := 3, irq := c == 0 && bit (w 0) 4 }
    if i.op ≠ op then stop
    else
      let s2 := if parsed.isNone then s1.fset F.XLT_IQ_STATUS_BADDESC 1 else s1
      let n := (s2.cmp.invNo + 1) % 2 ^ 32
      let s3 := ({ s2 with cmp := { s2.cmp with invNo := n } }).fset F.XLT_IQ_HEAD_HEAD ((head + 1) % size) |>.fset
        F.XLT_IQ_STATUS_BUSY 1
      .next (s3.invStart { i with seq := n })

/-- A RANGE descriptor. -/
def execInvRange (s : State) : Res := s.consume 1
/-- A CONTEXT descriptor. -/
def execInvContext (s : State) : Res := s.consume 2
/-- An ALL descriptor, or one that is carried out as ALL. -/
def execInvAll (s : State) : Res := s.consume 3
/-- A SYNC descriptor. -/
def execInvSync (s : State) : Res := s.consume 4

/-- Step 6: DONE and the completion word take the descriptor's number, and its IRQ raises source 136 (R317, R318). -/
def State.invDone (s : State) (i : Inv) : State :=
  let s2 := s.fset F.XLT_IQ_DONE_SEQ i.seq
  let s3 := if s2.flag F.XLT_IQ_DONE_ADDR_EN then
      (s2.writeBytes (s2.fget F.XLT_IQ_DONE_ADDR_ADDR * 4) (toBytes i.seq 4)).1 else s2
  let s4 := if i.irq then s3.event edge0 136 else s3
  if s4.cmp.invs.any (fun x => x.tag.isNone) then s4 else s4.fset F.XLT_IQ_STATUS_BUSY 0

/-- The oldest descriptor completes (R317, R318): the near caches act, and, once their write-backs are performed, step 6 follows; while
some are outstanding the descriptor completes at a later time. -/
def execInvDescriptorComplete (s : State) : Res :=
  match s.cmp.invs.find? (fun i => i.tag.isNone) with
  | none => stop
  | some i => s.invGo i (fun s => s.invDone i)

/-- An ATS Invalidate Request (R312): of the pages of a range for the contexts of a function and PASID, or of every context of the
function. -/
def execAtsInvalidateRequest (func : Fin 256) (tag : Fin 32) (pasid : Option (BitVec 20)) (va : W64) (bytes : Nat) (s : State) :
    Res :=
  let busy := s.cmp.invs.any (fun i => i.tag == some (func.val, tag.val))
  let mine := (SMap.keys s.cmp.ctxs).filter (fun c =>
    let x := s.ctxFunc c
    x.1 == func.val && (match pasid with
      | some p => x.2 == p.toNat
      | none => true))
  let first := va.toNat / 4096 * 4096
  need (s.funcExists func.val && !busy)
    (.next (s.invStart { op := if pasid.isSome then 1 else 2, ctxs := mine, va := first
                         len := (va.toNat + bytes + 4095) / 4096 * 4096 - first
                         tag := some (func.val, tag.val) }))

/-- The device sends an Invalidate Completion, or its near caches have first to write back (R312, R318). -/
def execInvalidateCompletion (func : Fin 256) (tag : Fin 32) (s : State) : Res :=
  match s.cmp.invs.find? (fun i => i.tag == some (func.val, tag.val)) with
  | none => stop
  | some i => s.invGo i (fun s => s.emit (.invalidateCompletion func.val tag.val))

end Sys2Proof.Machine
end

