-- ==== Sys2Proof/Machine/Stream.lean ====
section
/-! DEFINITION. The stream engines (R253 to R255, R279 to R281, R322 to R337): descriptors and their checks, chunks, transfers,
and the instructions of class 0x24. -/

namespace Sys2Proof.Machine

/-! ### Descriptors (R328) -/

/-- A descriptor, field by field. -/
structure Desc where
  op : Nat
  srcL : Bool
  dstL : Bool
  chkS : Bool
  chkD : Bool
  soft : Bool
  idx64 : Bool
  doneEn : Bool
  red : Nat
  etype : Nat
  esize : Nat
  src : Nat
  dst : Nat
  rowlen : Nat
  rows : Nat
  ss : Int
  ds : Int
  x1 : Nat
  x2 : Nat
  doneAt : Nat
  /-- a bit that the table reserves is set -/
  reserved : Bool

/-- The fields of 64 bytes. -/
def Desc.of (l : List Byte) : Desc :=
  let w := fun (i : Nat) => ofBytes ((l.drop (8 * i)).take 8)
  { op := bits (w 0) 0 4, srcL := bit (w 0) 4, dstL := bit (w 0) 5, chkS := bit (w 0) 6, chkD := bit (w 0) 7,
    soft := bit (w 0) 8, idx64 := bit (w 0) 9, doneEn := bit (w 0) 10, red := bits (w 0) 11 3, etype := bits (w 0) 14 3,
    esize := bits (w 0) 17 2, src := w 1, dst := w 2, rowlen := bits (w 3) 0 32, rows := bits (w 3) 32 32,
    ss := sgn 32 (w 4), ds := sgn 32 (w 4 / 2 ^ 32), x1 := w 5, x2 := w 6, doneAt := bits (w 7) 0 24,
    reserved := bits (w 0) 19 45 != 0 || bits (w 7) 24 40 != 0 }

/-- TOKB in bytes, FIRST, SLOTS, CREDIT and PROD (R328). -/
def Desc.tokb (d : Desc) : Nat := (if bits d.x2 24 12 = 0 then 4096 else bits d.x2 24 12) * 16
def Desc.first (d : Desc) : Nat := bits d.x2 0 24
def Desc.slots (d : Desc) : Nat := bits d.x2 0 16
def Desc.creditAt (d : Desc) : Nat := bits d.x2 16 24
def Desc.prodAt (d : Desc) : Nat := bits d.x2 40 24

/-- Bytes of `n` elements of ESIZE. -/
def Desc.elems (d : Desc) (n : Nat) : Nat := n * 2 ^ d.esize / 2

/-- Whether a descriptor breaks a rule of the table other than an alignment rule (R328, R335, R337). -/
def Desc.illegal (d : Desc) : Bool :=
  let ring := fun (a : Nat) => decide ((d.dst : Int) < a + 4) &&
    decide ((a : Int) < d.dst + (d.slots - 1) * d.ds + d.rowlen)
  d.reserved || decide (5 < d.op) || d.rowlen == 0 || d.rows == 0 ||
  (d.srcL && (d.op == 4 || d.op == 5)) || (!d.dstL && d.op == 4) ||
  (d.chkS && (d.op != 0 || d.rows != 1 || d.srcL)) ||
  (d.chkD && (d.op != 0 || d.rows != 1 || d.dstL || d.red != 0)) ||
  (d.idx64 && d.op != 1 && d.op != 2) || d.etype == 7 ||
  (d.red != 0 && (decide (3 < d.red) || (d.op != 0 && d.op != 2) || d.dstL ||
    (d.red != 1 && d.etype != 0 && d.etype != 3 && d.etype != 4))) ||
  (d.doneAt != 0 && !d.doneEn) ||
  (d.x1 != 0 && !(d.chkS || d.op == 1 || d.op == 2 || d.op == 5)) ||
  (d.x2 != 0 && !(d.chkD || d.op == 4 || d.op == 5)) ||
  (d.op == 5 && (bits d.x2 36 28 != 0 || decide (d.tokb < d.src + d.rowlen) || decide (2 ^ 24 < d.first + d.rows))) ||
  (d.op == 4 && (d.slots == 0 || decide (d.ds < d.rowlen) || ring d.creditAt || ring d.prodAt)) ||
  (d.op == 3 && d.esize == 0 && (d.rows % 2 == 1 || d.rowlen % 2 == 1))

/-- Whether an alignment rule of the table is broken (R328, R329, R335). -/
def Desc.misaligned (d : Desc) : Bool :=
  let e := etypeBytes d.etype
  (d.op == 3 && (d.src % 16 != 0 || d.dst % 16 != 0 || d.ss % 16 != 0 || d.ds % 16 != 0)) ||
  (d.op == 4 && (d.ds % 16 != 0 || d.creditAt % 4 != 0 || d.prodAt % 4 != 0)) ||
  (d.red != 0 && (d.dst % e != 0 || d.rowlen % e != 0 || d.ds % (e : Int) != 0)) ||
  (d.chkS && d.x1 % 4 != 0) || (d.chkD && d.x2 % 4 != 0) || (d.op == 5 && d.x1 % 8 != 0) ||
  (d.doneEn && d.doneAt % 8 != 0)

/-- Whether a local extent lies wholly in what a block may reach (R76). -/
def State.lmExtent (s : State) (bk : Nat) (a : Int) (n : Nat) : Bool :=
  decide (0 ≤ a) && decide (a + n ≤ 2 ^ 24) &&
    (List.range ((a.toNat % 32768 + n + 32767) / 32768)).all (fun k =>
      (s.blkPlace bk ((a.toNat / 32768 + k) * 32768)).isSome)

/-- Whether the rows of a local side lie wholly in what a block may reach. -/
def State.lmRows (s : State) (bk : Nat) (a stride : Int) (rows n : Nat) : Bool :=
  (List.range (if stride = 0 then 1 else min rows (2 ^ 24 + 1))).all (fun r => s.lmExtent bk (a + r * stride) n)

/-- Whether a local extent of a transfer that is known at issue breaks R76 (R326, R329). -/
def State.descLocalBad (s : State) (bk : Nat) (d : Desc) : Bool :=
  (d.srcL && (d.op == 0 || d.op == 2) && !s.lmRows bk d.src d.ss d.rows d.rowlen) ||
  (d.dstL && (d.op == 0 || d.op == 1 || d.op == 5) && !s.lmRows bk d.dst d.ds d.rows d.rowlen) ||
  (d.op == 3 && d.srcL && !s.lmRows bk d.src d.ss d.rows (d.elems d.rowlen)) ||
  (d.op == 3 && d.dstL && !s.lmRows bk d.dst d.ds d.rowlen (d.elems d.rows)) ||
  (d.op == 4 && (!s.lmRows bk d.dst d.ds (min d.slots d.rows) d.rowlen || !s.lmExtent bk d.creditAt 4 ||
    !s.lmExtent bk d.prodAt 4)) ||
  ((d.op == 1 || d.op == 2) && !s.lmExtent bk d.x1 ((if d.idx64 then 8 else 4) * d.rows)) ||
  (d.doneEn && !s.lmExtent bk d.doneAt 8)

/-- Whether a global address of a descriptor has bits above its 57 (R326). -/
def Desc.beyond (d : Desc) : Bool :=
  let out := fun (a : Nat) => decide (2 ^ 57 ≤ a)
  (!d.srcL && d.op != 5 && out d.src) || (!d.dstL && out d.dst) || ((d.chkS || d.op == 5) && out d.x1) ||
    (d.chkD && out d.x2)

/-- The exception that a descriptor raises at `ste.sub`, by the lowest code (R125, R326). -/
def State.descFault (s : State) (bk : Nat) (d : Desc) : Option Nat :=
  if d.illegal then some 0x02
  else if d.misaligned then some 0x20
  else if s.descLocalBad bk d then some 0x21
  else if d.beyond then some 0x24
  else none

/-! ### Local memory as the engines see it -/

/-- Bytes of local memory by their local addresses, and whether one lies in a poisoned granule, which is logged (R188, R210);
`none` outside what the block may reach. -/
def State.lmFetch (s : State) (bk a n : Nat) (req : Nat := 4) : Option (State × List Byte × Bool) :=
  let at_ := (List.range n).map (fun k => s.blkPlace bk (a + k))
  if at_.any (·.isNone) then none
  else
    let l := at_.filterMap id
    let s := s.lmFind l
    let bad := s.poisonedOf (l.map (fun p => (0, p)))
    some (bad.foldl (fun (s : State) p => s.lmErrLog p req) s, l.map (fun p => s.lmByte p), !bad.isEmpty)

/-- An engine writes bytes at a physical place of local memory; a granule that it writes in part is read first (R181). -/
def State.lmStore (s : State) (a : Nat) (b : List Byte) : State :=
  let part := lmPartial [(a, b.length)]
  let s := s.lmFind part
  ((part.filter (fun p => s.lmPoisoned p)).foldl (fun (s : State) p => s.lmErrLog p 6) s).lmWrite [(a, b)]

/-- An engine writes a word at a local address of a block. -/
def State.lmWord (s : State) (bk a v n : Nat) : State :=
  match s.blkPlace bk a with
  | none => s
  | some p => s.lmStore p (toBytes v n)

/-! ### Queues -/

/-- A stream queue: block × 2 + engine, or 2^20 + context for an export. -/
def State.steq (s : State) (k : Nat) : SteQ := SMap.get s.cmp.steqs {} k

/-- Changes a stream queue. -/
def State.updSteq (s : State) (k : Nat) (f : SteQ → SteQ) : State :=
  { s with cmp := { s.cmp with steqs := SMap.set s.cmp.steqs {} k (f (s.steq k)) } }

/-- Changes the transfer at the head of a queue. -/
def State.updHead (s : State) (k : Nat) (f : Xfer → Xfer) : State :=
  s.updSteq k (fun q => { q with xfers := match q.xfers with
    | [] => []
    | x :: r => f x :: r })

/-- The chunks of a queue in flight. -/
def State.inFlight (s : State) (k : Nat) : List (Nat × Chunk) := s.cmp.chunks.filter (fun c => c.2.queue == k)

/-- The ticket of a transfer (R327). -/
def ticketOf (k seq : Nat) : Nat := k % 2 * 2 ^ 32 + seq

/-- The status word (R327). -/
def steStatus (code index : Nat) : Nat := 1 + nb (code != 0) * 2 + code * 2 ^ 8 + index % 2 ^ 32 * 2 ^ 32

/-- The transfer at the head of a queue ends (R327, R332 to R334): its status is held and written to DONE, and an error is a
deferred exception of the issuing group unless SOFT holds it back. -/
def State.xferEnd (s : State) (k : Nat) : State :=
  match (s.steq k).xfers with
  | [] => s
  | x :: _ =>
    let d := Desc.of x.desc
    let (code, index, addr) := x.err.getD (0, 0, 0)
    let word := steStatus code index
    let s1 := s.updSteq k (fun q => { q with
      xfers := q.xfers.tail
      held := ((x.seq, BitVec.ofNat 64 word) :: q.held).take 16 })
    let s2 := if d.doneEn then s1.lmWord (k / 2) d.doneAt word 8 else s1
    if code = 0 ∨ (d.soft ∧ (code = 0x28 ∨ code = 0x29)) then s2
    else s2.defer (x.core * 32 + x.slot)
      { code := code, pc := ticketOf k x.seq, scope := 3, addr := addr, ticket := true, info := word }

/-- An export's transfer ends: one that failed stops the export and the context is Killed with END 5 (R368). -/
def State.exportEnd (s : State) (k : Nat) : State :=
  match (s.steq k).xfers with
  | [] => s
  | x :: _ =>
    if x.err.isSome then
      ({ s with cmp := { s.cmp with steqs := SMap.del s.cmp.steqs k } }).ctxEnd x.ctx .killed 5 5 0
    else s.updSteq k (fun q => { q with xfers := q.xfers.tail })

/-- The transfer at the head of a queue ends once its chunks are over and it has failed or has none left (R322, R333). -/
def State.xferSettle (s : State) (k : Nat) : State :=
  match (s.steq k).xfers with
  | [] => s
  | x :: _ =>
    if (s.inFlight k).isEmpty ∧ (x.err.isSome ∨ (Desc.of x.desc).rows ≤ x.row) then
      if 2 ^ 20 ≤ k then s.exportEnd k else s.xferEnd k
    else s

/-- The transfer at the head of a queue meets an error (R332). -/
def State.xferFail (s : State) (k code index addr : Nat) : State :=
  (s.updHead k (fun x => { x with err := x.err.or (some (code, index, addr)) })).xferSettle k

/-! ### The bytes of a chunk (R324, R329, R331, R337) -/

/-- An extent cut at multiples of `k`. -/
def cutAt (k a n : Nat) : List (Nat × Nat) :=
  (List.range ((a % k + n + k - 1) / k)).map (fun i =>
    let lo := if i = 0 then a else (a / k + i) * k
    (lo, min (a + n) ((a / k + i + 1) * k) - lo))

/-- Source extents and destination extents that belong together. -/
structure Seg where
  srcs : List (Nat × Nat)
  dsts : List (Nat × Nat)
  deriving DecidableEq, Repr

/-- Whether a segment stays in the pages of another; a page size of 0 stands for a local side. -/
def Seg.same (ps pd : Nat) (a b : Seg) : Bool :=
  a.srcs.map (fun x => x.1 / ps) == b.srcs.map (fun x => x.1 / ps) &&
    a.dsts.map (fun x => x.1 / pd) == b.dsts.map (fun x => x.1 / pd)

/-- A segment of one extent on each side, up to the end of its pages. -/
def Seg.cut (ps pd : Nat) (g : Seg) : Seg :=
  match g.srcs, g.dsts with
  | [(a, n)], [(b, _)] =>
    let m := min (if ps = 0 then n else min n (ps - a % ps)) (if pd = 0 then n else pd - b % pd)
    ⟨[(a, m)], [(b, m)]⟩
  | _, _ => g

/-- The segments of a chunk: as many as stay in the pages of the first. -/
def takeRun (ps pd : Nat) (first : Seg) (l : List Seg) : List Seg :=
  match l with
  | [] => []
  | g :: r =>
    if ¬ first.same ps pd g then []
    else if g.cut ps pd = g then g :: takeRun ps pd first r
    else [g.cut ps pd]

/-- The bytes of a list of extents. -/
def extentSum (l : List (Nat × Nat)) : Nat := l.foldl (fun n x => n + x.2) 0

/-- A chunk before its addresses are translated: its extents, and where the next chunk begins. -/
structure Plan where
  srcs : List (Nat × Nat)
  dsts : List (Nat × Nat)
  row : Nat
  pos : Nat
  nib : Bool := false

/-- The index of a row (R329): its value, or the code and address of its error. -/
def State.rowIndex (s : State) (bk : Nat) (d : Desc) (r : Nat) : Except (Nat × Nat) (State × Nat) :=
  let n := if d.idx64 then 8 else 4
  let a := (d.x1 + r * n) % 2 ^ 64
  match s.lmFetch bk a n with
  | none => .error (0x21, a)
  | some (s1, b, bad) => if bad then .error (0x28, a) else .ok (s1, ofBytes b)

/-- The plan of a run of segments; `units` is what a position counts of it. -/
def planRun (d : Desc) (x : Xfer) (ps pd : Nat) (l : List Seg) (units : List Seg → Nat) (step : Nat) (nib : Bool) : Plan :=
  match l with
  | [] => { srcs := [], dsts := [], row := x.row + step, pos := 0 }
  | g :: _ =>
    let run := takeRun ps pd g l
    let p := x.pos + units run
    { srcs := run.flatMap (·.srcs), dsts := run.flatMap (·.dsts), row := x.row + p / d.rowlen * step, pos := p % d.rowlen,
      nib := nib }

/-- The next chunk of a transfer. `ps` and `pd` are the page sizes of its sides, functions of their first addresses; `page` is
the page of a block table (R336). -/
def State.plan (s : State) (bk : Nat) (ps pd : Nat → Nat) (x : Xfer) (page : Nat) : Except (Nat × Nat) (State × Plan) :=
  let d := Desc.of x.desc
  let w := fun (i : Int) => unsgn 64 i
  let sized := fun (l : List Seg) (units : List Seg → Nat) (step : Nat) (nib : Bool) =>
    let a := ((l.head?.bind (fun g => g.srcs.head?)).map (·.1)).getD 0
    let b := ((l.head?.bind (fun g => g.dsts.head?)).map (·.1)).getD 0
    planRun d x (ps a) (pd b) l units step nib
  let bytes := fun (r : List Seg) => extentSum (r.flatMap (·.srcs))
  match d.op with
  | 3 =>
    let rowS := fun (i : Nat) => (d.src : Int) + i * d.ss
    let col := fun (j : Nat) => (d.dst : Int) + j * d.ds + d.elems x.row
    let left := d.rowlen - x.pos
    if d.esize = 0 then
      let l := (List.range (left / 2)).map (fun k =>
        let j := x.pos + 2 * k
        (⟨[(w (rowS x.row + j / 2), 1), (w (rowS (x.row + 1) + j / 2), 1)], [(w (col j), 1), (w (col (j + 1)), 1)]⟩ : Seg))
      .ok (s, sized l (fun r => 2 * r.length) 2 true)
    else
      let e := d.elems 1
      let l := (List.range left).map (fun k =>
        let j := x.pos + k
        (⟨[(w (rowS x.row + j * e), e)], [(w (col j), e)]⟩ : Seg))
      .ok (s, sized l (fun r => r.length) 1 false)
  | 5 =>
    let tpp := 65536 / d.tokb
    let p0 := d.first + x.row
    let n := min (d.rows - x.row) (tpp - p0 % tpp)
    let l := (List.range n).map (fun k =>
      let off := if k = 0 then x.pos else 0
      (⟨[(page + (p0 + k) % tpp * d.tokb + d.src + off, d.rowlen - off)],
        [(w ((d.dst : Int) + (x.row + k) * d.ds + off), d.rowlen - off)]⟩ : Seg))
    .ok (s, sized l bytes 1 false)
  | _ =>
    let go := fun (s : State) (si di : Int) =>
      let a := w ((d.src : Int) + si * d.ss + x.pos)
      let b := w ((d.dst : Int) + di * d.ds + x.pos)
      (s, sized [⟨[(a, d.rowlen - x.pos)], [(b, d.rowlen - x.pos)]⟩] bytes 1 false)
    match d.op with
    | 1 => (s.rowIndex bk d x.row).map (fun y => go y.1 y.2 x.row)
    | 2 => (s.rowIndex bk d x.row).map (fun y => go y.1 x.row y.2)
    | 4 => .ok (go s x.row (x.row % d.slots))
    | _ => .ok (go s x.row x.row)

/-! ### Places -/

/-- What finding the places of a chunk's bytes answers. -/
inductive Places where
  | ok (l : List (Dest × Nat))
  | walk (va : Nat)
  | host (func pasid va : Nat)
  | fault (code va : Nat)

/-- The places of several extents, each found by `f`. -/
def placesOf (f : Nat → Nat → Places) (l : List (Nat × Nat)) : Places :=
  match l with
  | [] => .ok []
  | (a, n) :: r =>
    match f a n with
    | .ok p =>
      match placesOf f r with
      | .ok q => .ok (p ++ q)
      | e => e
    | e => e

/-- The places of a local extent. -/
def State.localExtent (s : State) (bk a n : Nat) : Places :=
  placesOf (fun b m => match s.blkPlace bk b with
    | none => .fault 0x21 b
    | some p => .ok [(.lm p, m)]) (cutAt 32768 a n)

/-- The places of a global extent within one page (R304, R324, R329). -/
def State.globalExtent (s : State) (cluster : Nat) (x : Xfer) (r : Right) (a n : Nat) : Places :=
  if 2 ^ 57 ≤ a then .fault 0x24 a
  else
    match s.translate cluster x.ctx x.misses r a with
    | .fault c => .fault c a
    | .walk => .walk a
    | .host f p => .host f p a
    | .hit d =>
      .ok [(if d.target = 0 then .pa d.addr else if d.target = 1 then .stand d.addr
        else .host (s.ctxFunc x.ctx).1 (s.ctxFunc x.ctx).2 d.addr, n)]

/-- The places of an export's destination (R367): a stand address, or host memory under R310. -/
def State.exportExtent (s : State) (cluster : Nat) (x : Xfer) (a n : Nat) : Places :=
  if x.dstKind = 1 then .ok [(if s.ownStand a then .pa (a % 2 ^ 46) else .stand a, n)]
  else
    let (f, p) := s.ctxFunc x.ctx
    if 2 ^ 57 ≤ a ∨ ¬ (s.func f).atsEnable ∨ ¬ (s.func f).priEnable then .fault 0x24 a
    else
      match x.misses.find? (fun m => decide (m.base ≤ a) && decide (a < m.base + m.size)), s.hostLeaf cluster x.ctx a with
      | some m, _ => .fault m.code a
      | none, some h => if h.wr then .ok [(.host f p (h.out + (a - h.base)), n)] else .host f p a
      | none, none => .host f p a

/-- The places of one side of a chunk. -/
def State.sidePlaces (s : State) (bk cluster : Nat) (x : Xfer) (src : Bool) (l : List (Nat × Nat)) : Places :=
  let d := Desc.of x.desc
  let fine := l.flatMap (fun e => cutAt 4096 e.1 e.2)
  if src then
    if d.srcL then placesOf (s.localExtent bk) l
    else if x.srcPa then .ok (fine.map (fun e => (.pa e.1, e.2)))
    else placesOf (s.globalExtent cluster x .read) fine
  else if d.dstL then placesOf (s.localExtent bk) l
  else if x.dstKind ≠ 0 then placesOf (s.exportExtent cluster x) fine
  else placesOf (s.globalExtent cluster x (if d.red = 0 then .write else .reduce)) fine

/-- The size of the page that a global address lies in, as to where chunks end: 4 KiB for host memory (R324). -/
def State.pageSize (s : State) (cluster : Nat) (x : Xfer) (a : Nat) : Nat :=
  match s.leaf cluster x.ctx a with
  | some (t, _) => if t.target = 2 then 4096 else 65536
  | none => 65536

/-! ### Reading and writing -/

/-- The 64 B granules that an extent touches (R370). -/
def granules (a n : Nat) : Nat := (a % 64 + n + 63) / 64

/-- Bytes of package memory move for a context, one line request a line (R287, R370). -/
def State.moved (s : State) (ctx a n : Nat) : State :=
  (cutAt 128 a n).foldl (fun (s : State) e =>
    (s.countTier ctx (e.1 / 128) (granules e.1 e.2)).serve (e.1 / 128) (s.partOf ctx) 128) s

/-- A piece of a chunk's source is read, or requested (R423); `heart` for a checked load of Heartwood. -/
def State.readPiece (s : State) (id ctx piece : Nat) (heart : Bool) (e : Dest × Nat) : State × Option (List Byte) × Nat :=
  match e.1 with
  | .lm a =>
    let s := s.lmFind ((List.range e.2).map (fun k => a + k))
    let bad := s.poisonedOf ((List.range e.2).map (fun k => (0, a + k)))
    (bad.foldl (fun (s : State) p => s.lmErrLog p 4) s, some ((List.range e.2).map (fun k => s.lmByte (a + k))),
      if bad.isEmpty then 0 else 0x28)
  | .pa a =>
    let (s1, b, c) := if heart then s.hwPiece (cutAt 2048 a e.2) else s.readBytes a e.2
    (s1.moved ctx a e.2, some b, c)
  | .host f p a =>
    let tag := SMap.fresh s.host.reads
    let s1 := { s with host := { s.host with reads := SMap.put s.host.reads tag (.chunk id piece) } }
    ((s1.account ctx (fun c => { c with pcie := c.pcie + granules a e.2 })).emit (.hostRead f (some p) tag a e.2), none, 0)
  | .stand a =>
    let s1 := s.account ctx (fun c => { c with griga := c.griga + granules a e.2 })
    let (s2, c) := s1.egress (s.noremote ctx) (.chunk id piece)
      { dst := a / 2 ^ 46, cls := 0, op := opGet, addr := a % 2 ^ 46, len := e.2 }
    if c = 0 then (s2, none, 0) else (s2, some (List.replicate e.2 0), c)

/-- The source bytes of a chunk, without check values. -/
def Chunk.body (c : Chunk) : List Byte := (c.srcs.flatMap (fun p => p.getD [])).take c.cover

/-- The bytes of the `j`-th block that a checked chunk reads. -/
def Chunk.block (c : Chunk) (j : Nat) : List Byte := (c.body.drop (2048 * j)).take 2048

/-- The blocks of a checked chunk, from its first, that end in it (R331). -/
def Chunk.ends (c : Chunk) : List Nat :=
  (List.range ((c.cover + 2047) / 2048)).filter (fun j => decide (min c.cover (2048 * (j + 1)) ≤ c.lead + c.len))

/-- The bytes that a chunk writes: the source's, with 4-bit elements transposed (R329), and after them the check values of a checked
store for the blocks that end in it (R331). -/
def Chunk.bytes (c : Chunk) : List Byte :=
  let body := (c.body.drop c.lead).take c.len
  let out := if c.nib then
      (List.range (body.length / 2)).flatMap (fun k =>
        let p := ((body[2 * k]?).getD 0).toNat
        let q := ((body[2 * k + 1]?).getD 0).toNat
        [BitVec.ofNat 8 (p % 16 + q % 16 * 16), BitVec.ofNat 8 (p / 16 + q / 16 * 16)])
    else body
  if c.chkD then out ++ c.ends.flatMap (fun j => toBytes (crc32c (c.block j)).toNat 4) else out

/-- The destination pieces with their bytes. -/
def pair (l : List (Dest × Nat)) (b : List Byte) : List (Dest × List Byte) :=
  match l with
  | [] => []
  | (d, n) :: r => (d, b.take n) :: pair r (b.drop n)

/-- The first byte of a source piece among the source bytes. -/
def Chunk.offset (c : Chunk) (piece : Nat) : Nat := (c.pieces.take piece).foldl (fun n p => n + p.1) 0

/-- The block, from the chunk's first, that a source piece belongs to: its data, or its check value. -/
def Chunk.blockOf (c : Chunk) (piece : Nat) : Nat :=
  let o := c.offset piece
  if o < c.cover then o / 2048 else (o - c.cover) / 4

/-- The first block of a checked load that fails (R280, R281): one read as poisoned, with its check value, or a mismatch. Heartwood is
verified as it is read, whatever X1 names (R293, R331). -/
def Chunk.mismatch (c : Chunk) : Option Nat :=
  let all := c.srcs.flatMap (fun p => p.getD [])
  if ¬ c.chkS then none
  else
    ((List.range ((c.cover + 2047) / 2048)).find? (fun j =>
      c.bad.any (fun p => c.blockOf p == j) ||
        (!c.heart && (crc32c (c.block j)).toNat != ofBytes ((all.drop (c.cover + 4 * j)).take 4)))).map (fun j => c.first + j)

/-- A reduction's requests to one destination extent: one per line (R277, R330). -/
def reduceLines (red etype a : Nat) (b : List Byte) : List (Nat × Atom) :=
  let n := etypeBytes etype
  let op : AtomOp := if red = 1 then .add else if red = 2 then .min else .max
  (cutAt 128 a b.length).map (fun e =>
    (e.1 / 128, { op := op, type := etype, reduce := true
                  lanes := (List.range (e.2 / n)).map (fun k =>
                    ⟨k, e.1 % 128 + k * n, ofBytes ((b.drop (e.1 - a + k * n)).take n), 0⟩) }))

/-- The number of an engine in the counters: die × 32 + n (R339). -/
def engineNo (e : Nat) : Nat := e / 2 / 16 * 32 + e % 32

/-- A chunk's piece is written: the state and the code of an error (R330, R333). -/
def State.writePiece (s : State) (c : Chunk) (e : Dest × List Byte) : State × Nat :=
  match e.1 with
  | .lm a => (s.lmStore a e.2, 0)
  | .pa a =>
    let s0 := s.moved c.ctx a e.2.length
    let by_ := (256 + engineNo c.engine, s.partOf c.ctx)
    if c.red = 0 then s0.writeBytes a e.2 by_
    else
      (reduceLines c.red c.etype a e.2).foldl (fun (r : State × Nat) x =>
        let (s1, _, code) := r.1.atomLine x.1 x.2 by_
        (s1, if r.2 = 0 then code else r.2)) (s0, 0)
  | .host f p a => ((s.account c.ctx (fun x => { x with pcie := x.pcie + granules a e.2.length })).emit
      (.hostWrite f (some p) a e.2), 0)
  | .stand _ => (s, 0)

/-- Changes a chunk. -/
def State.updChunk (s : State) (id : Nat) (f : Chunk → Chunk) : State :=
  { s with cmp := { s.cmp with chunks := SMap.upd s.cmp.chunks id f } }

/-- Removes a chunk. -/
def State.delChunk (s : State) (id : Nat) : State :=
  { s with cmp := { s.cmp with chunks := SMap.del s.cmp.chunks id } }

/-- The block-table entry of a KVGATHER has come: it is kept for its page's chunks (R336, R337). -/
def State.tableGot (s : State) (id : Nat) (c : Chunk) (entry : Nat) : State :=
  let s1 := s.delChunk id
  match c.err with
  | some code => s1.xferFail c.queue code c.index c.va
  | none =>
    let w := ofBytes (c.srcs.flatMap (fun p => p.getD []))
    if ¬ bit w 0 ∨ bits w 1 15 ≠ 0 ∨ bits w 57 7 ≠ 0 then s1.xferFail c.queue 0x24 c.index c.va
    else s1.updHead c.queue (fun x => { x with entry := some (entry, w) })

/-- The destination pieces of a chunk with their bytes and their numbers: the data, or the check values. -/
def Chunk.parts (c : Chunk) (checks : Bool) : List ((Dest × List Byte) × Nat) :=
  let all := (pair c.dsts c.bytes).zipIdx
  let n := c.dsts.length - c.checks
  if checks then all.drop n else all.take n

/-- The pieces of a chunk that go to another package are sent. -/
def State.chunkPut (s : State) (id : Nat) (c : Chunk) (l : List ((Dest × List Byte) × Nat)) : State :=
  l.foldl (fun (s : State) e =>
    match e.1.1 with
    | .stand a =>
      let s1 := s.account c.ctx (fun x => { x with griga := x.griga + granules a e.1.2.length })
      let (s2, code) := s1.egress (s.noremote c.ctx) (.chunk id e.2)
        { dst := a / 2 ^ 46, cls := 0, op := if c.red = 0 then opPut else opPutRed, x := if c.red = 0 then 0 else c.red + c.etype * 8,
          addr := a % 2 ^ 46, len := e.1.2.length, payload := e.1.2 }
      if code = 0 then s2.updChunk id (fun x => { x with due := x.due + 1, puts := x.puts ++ [e.2] })
      else s2.updChunk id (fun x => { x with err := x.err.or (some code) })
    | _ => s) s

/-- The pieces of a chunk that stay in the package or go to the host are written, and the code of an error. -/
def State.chunkWrite (s : State) (c : Chunk) (l : List ((Dest × List Byte) × Nat)) : State × Nat :=
  l.foldl (fun (r : State × Nat) e =>
    let (t, k) := r.1.writePiece c e.1
    (t, if r.2 = 0 then k else r.2)) (s, 0)

/-- A chunk's source bytes may have come: a checked load is verified, and the data that goes to another package is sent (R331, R423). -/
def State.chunkGot (s : State) (id : Nat) : State :=
  match SMap.find s.cmp.chunks id with
  | none => s
  | some c =>
    if c.due ≠ 0 ∨ c.putting then s
    else
      match c.table with
      | some e => s.tableGot id c e
      | none =>
        let s1 := s.updChunk id (fun x => { x with
          err := if c.err.isNone && c.mismatch.isSome then some 0x29 else c.err
          putting := true })
        if c.err.isSome ∨ c.mismatch.isSome then s1 else s1.chunkPut id c (c.parts false)

/-- What reading a piece says of its chunk: nothing, an error, or poison that a checked load takes as a mismatch (R280). -/
def Chunk.told (c : Chunk) (piece code : Nat) : Chunk :=
  if code = 0 then c
  else if c.chkS ∧ code = 0x28 then { c with bad := c.bad ++ [piece] }
  else { c with err := c.err.or (some code) }

/-- A response to a chunk's read arrives: the piece's bytes, or an error code. -/
def State.chunkData (s : State) (id piece : Nat) (b : List Byte) (code : Nat) : State :=
  (s.updChunk id (fun c => ({ c with
    srcs := c.srcs.set piece (some (if code = 0 then b else List.replicate ((c.pieces.getD piece (0, 0)).1) 0))
    due := c.due - 1 }).told piece code)).chunkGot id

/-- A response to a chunk's put arrives. -/
def State.chunkAck (s : State) (id piece code : Nat) : State :=
  s.updChunk id (fun c => { c with
    due := c.due - 1
    puts := c.puts.erase piece
    err := if code = 0 then c.err else c.err.or (some code) })

/-! ### Issue (R322 to R324, R357) -/

/-- Whether an engine has a chunk slot and line requests left for a chunk: 64 stream identifiers, and 512 requests (R323). -/
def State.engineRoom (s : State) (c : Chunk) : Bool :=
  let mine := s.engineChunks c.engine
  let busy := mine.foldl (fun n x => n + x.lines) 0
  decide (mine.length < 64) && (c.lines == 0 || busy == 0 || decide (busy + c.lines ≤ 512))

/-- The stream identifier of the next chunk of an engine (R323). -/
def State.nextStream (s : State) (e : Nat) : Nat :=
  0x40 + ((List.range 64).find? (fun k => !(s.engineChunks e).any (fun c => c.stream == 0x40 + k))).getD 0

/-- A chunk with its places starts: its sources are read or requested. -/
def State.chunkStart (s : State) (c0 : Chunk) (srcs : List (Dest × Nat)) : State :=
  let id := s.cmp.accNo + 1
  let c := { c0 with stream := s.nextStream c0.engine }
  let r : State × List (Option (List Byte)) × List Nat := srcs.zipIdx.foldl (fun r e =>
    let (s', b, k) := r.1.readPiece id c.ctx e.2 c.heart e.1
    (s', r.2.1 ++ [b], r.2.2 ++ [k])) ({ s with cmp := { s.cmp with accNo := id } }, [], [])
  let c1 := r.2.2.zipIdx.foldl (fun (c : Chunk) k => c.told k.2 k.1) c
  let c2 : Chunk := { c1 with srcs := r.2.1, due := (r.2.1.filter Option.isNone).length }
  let s1 : State := { r.1 with cmp := { r.1.cmp with
    chunks := SMap.put r.1.cmp.chunks id c2
    steLast := SMap.put r.1.cmp.steLast c.engine c.ctx } }
  s1.steCount (engineNo c.engine) 0 (srcs.foldl (fun (n : Nat) (x : Dest × Nat) => n + x.2) 0)

/-- The identifier the next chunk receives. -/
def State.nextChunk (s : State) : Nat := s.cmp.accNo + 1

/-- A transfer's chunk meets a translation that is not there, or a fault (R304, R307, R310, R332). `none` where nothing can
start; `wr` says whether the access writes. -/
def State.placeMiss (s : State) (k cluster : Nat) (x : Xfer) (wr : Bool) (p : Places) : Option State :=
  match p with
  | .ok _ => some s
  | .walk va =>
    let s1 := s.startWalk cluster x.ctx va
    if s1.cmp.walks.any (fun w => w.quad == cluster / 4 && w.ctx == x.ctx && w.page == va / 65536) then
      some (s1.updHead k (fun y => { y with wait := .walk (va / 65536) }))
    else none
  | .host f pa va =>
    some ((s.startHost cluster x.ctx f pa va wr).updHead k (fun y => { y with wait := .host (va / 4096) }))
  | .fault code va =>
    if code = 0x22 ∧ k < 2 ^ 20 then
      let r : FaultRec :=
        { cls := 3, code := 0x22, u := s.uFlag, ticket := true, time := s.now, context := x.ctx, partition := s.partOf x.ctx,
          core := x.core, slot := x.slot, die := dieOf x.core, instr := ticketOf k x.seq, addr := va }
      some ((s.sendRecord r).updHead k (fun y => { y with wait := .fault none, misses := [] }))
    else some (s.xferFail k code x.next va)

/-- A chunk of a transfer without rows, as the identity of its queue and place. -/
def Xfer.chunk (x : Xfer) (k engine va : Nat) : Chunk :=
  let d := Desc.of x.desc
  { queue := k, engine := engine, index := x.next, ctx := x.ctx, row := x.row,
    pos := x.pos, va := va, red := d.red, etype := d.etype, chkS := d.chkS, chkD := d.chkD }

/-- Whether a place is in another package. -/
def Dest.remote (d : Dest) : Bool :=
  match d with
  | .stand _ => true
  | _ => false

/-- Whether a block's stream queues may issue: its block cluster runs on its cores (R73, R338). -/
def State.streamReady (s : State) (bk : Nat) : Bool :=
  match (s.blk bk).bind (fun b => SMap.find s.cmp.bclus b.bc) with
  | none => false
  | some x => !x.restoring && (let st := (s.cluster (bk / 16 / 8)).state; st == .running || st == .stopping)

/-- Whether a chunk that touches another package is held back: a pre-emption of the block's cluster is pending (R357). -/
def State.streamHeld (s : State) (k : Nat) (l : List (Dest × Nat)) : Bool :=
  decide (k < 2 ^ 20) && (s.cluster (k / 32 / 8)).grace.isSome && l.any (fun e => e.1.remote)

/-- The read of a block-table entry starts (R337). -/
def State.tableStart (s : State) (k cluster engine : Nat) (x : Xfer) (entry : Nat) : Option State :=
  let d := Desc.of x.desc
  let va := (d.x1 + 8 * entry) % 2 ^ 64
  let s := s.tlbSweep cluster x.ctx [va]
  match s.globalExtent cluster x .read va 8 with
  | .ok l =>
    let c := { x.chunk k (cluster * 2 + engine) va with
      table := some entry, red := 0, cover := 8, len := 8, pieces := l.map (fun e => (e.2, e.1.requests e.2)) }
    if s.streamHeld k l || !s.engineRoom c then none
    else some (((s.usePages cluster x.ctx [va]).chunkStart c l).chunkGot s.nextChunk)
  | p => s.placeMiss k cluster x false p

/-- What a chunk reads and which check values it uses (R331): the source bytes from `lo` to `hi` of the row, whole blocks for a checked
load, and the addresses of the check values that it reads and writes. -/
structure CheckPlan where
  lo : Nat
  hi : Nat
  reads : List (Nat × Nat)
  writes : List (Nat × Nat)

/-- The checked part of a chunk that moves the `n` bytes of the row from `pos`. -/
def Desc.checked (d : Desc) (pos n : Nat) : CheckPlan :=
  let lo := if d.chkS || d.chkD then pos / 2048 * 2048 else pos
  let hi := if d.chkS then min d.rowlen ((pos + n + 2047) / 2048 * 2048) else pos + n
  let blocks := (List.range ((hi - lo + 2047) / 2048)).map (fun j => lo / 2048 + j)
  let ended := blocks.filter (fun b => decide (min d.rowlen (2048 * (b + 1)) ≤ pos + n))
  { lo := lo, hi := hi
    reads := if d.chkS then blocks.map (fun b => ((d.x1 + 4 * b) % 2 ^ 64, 4)) else []
    writes := if d.chkD then ended.map (fun b => ((d.x2 + 4 * b) % 2 ^ 64, 4)) else [] }

/-- The next chunk of a transfer is issued, or a wait of it begins. -/
def State.chunkGo (s : State) (k cluster engine : Nat) (x : Xfer) (page : Nat) : Option State :=
  let d := Desc.of x.desc
  let bk := k / 2
  let ps := fun (a : Nat) => if d.srcL then 0 else if x.srcPa then 65536 else s.pageSize cluster x a
  let pd := fun (b : Nat) => if d.dstL then 0 else if x.dstKind = 2 then 4096 else if x.dstKind = 1 then 65536
    else s.pageSize cluster x b
  match s.plan bk ps pd x page with
  | .error (code, a) => some (s.xferFail k code x.next a)
  | .ok (s', p) =>
    let n := extentSum p.srcs
    let ck := d.checked x.pos n
    let from_ := if d.chkS ∨ d.chkD then
        (cutAt 2048 ck.lo (ck.hi - ck.lo)).map (fun e => (unsgn 64 ((d.src : Int) + e.1), e.2))
      else p.srcs
    let looked := ((if d.srcL ∨ x.srcPa then [] else from_) ++ (if d.dstL ∨ x.dstKind ≠ 0 then [] else p.dsts) ++ ck.reads ++
      ck.writes).map (·.1)
    let s0 := s'.tlbSweep cluster x.ctx looked
    match s0.sidePlaces bk cluster x true from_, s0.sidePlaces bk cluster x false p.dsts with
    | .ok src, .ok dst =>
      let heart := d.chkS && src.all (fun e => match e.1 with
        | .pa a => s0.hwData a
        | _ => false)
      match (if heart then .ok [] else placesOf (s0.globalExtent cluster x .read) ck.reads),
        placesOf (s0.globalExtent cluster x .write) ck.writes with
      | .ok cs, .ok cd =>
        let va := if d.srcL then (p.dsts.headD (0, 0)).1 else (p.srcs.headD (0, 0)).1
        let c := { x.chunk k (cluster * 2 + engine) va with
          dsts := dst ++ cd
          nib := p.nib
          rowEnd := p.pos == 0
          heart := heart
          first := ck.lo / 2048
          lead := if d.chkS ∨ d.chkD then x.pos - ck.lo else 0
          len := n
          cover := extentSum from_
          checks := cd.length
          pieces := (src ++ cs).map (fun e => (e.2, e.1.requests e.2))
          remote := (src ++ dst ++ cs ++ cd).any (fun e => e.1.remote) }
        if s0.streamHeld k (src ++ dst ++ cs ++ cd) || !s0.engineRoom c then none
        else
          let s1 := (s0.usePages cluster x.ctx looked).updHead k (fun y => { y with
            next := y.next + 1, row := p.row, pos := p.pos, misses := [] })
          some ((s1.chunkStart c (src ++ cs)).chunkGot s1.nextChunk)
      | .ok _, e => s0.placeMiss k cluster x true e
      | e, _ => s0.placeMiss k cluster x false e
    | .ok _, e => s0.placeMiss k cluster x true e
    | e, _ => s0.placeMiss k cluster x false e

/-- Whether a PREFETCH may start its row, by CREDIT in local memory (R335): the state with a poisoned read logged, and `none`
where the word is poisoned. -/
def State.creditOk (s : State) (bk : Nat) (d : Desc) (row : Nat) : State × Option Bool :=
  match s.lmFetch bk d.creditAt 4 with
  | none => (s, none)
  | some (s1, b, bad) =>
    (s1, if bad then none else some (decide ((row + 2 ^ 32 - ofBytes b) % 2 ^ 32 < d.slots)))

/-- A queue's turn: its next chunk is issued, or its transfer begins to wait; `none` where it has nothing to issue. -/
def State.queueGo (s : State) (k cluster engine : Nat) : Option State :=
  match (s.steq k).xfers with
  | [] => none
  | x :: _ =>
    let d := Desc.of x.desc
    if x.wait ≠ .none ∨ x.err.isSome ∨ x.full ∨ d.rows ≤ x.row ∨ (s.inFlight k).any (fun c => c.2.table.isSome) ∨
        (k < 2 ^ 20 ∧ ¬ s.streamReady (k / 2)) then none
    else if d.op = 4 ∧ x.pos = 0 then
      match s.creditOk (k / 2) d x.row with
      | (s1, none) => some (s1.xferFail k 0x28 x.next d.creditAt)
      | (s1, some true) => s1.chunkGo k cluster engine x 0
      | (s1, some false) => some (s1.updHead k (fun y => { y with full := true }))
    else if d.op = 5 then
      let entry := (d.first + x.row) / (65536 / d.tokb)
      match x.entry with
      | some (e, w) =>
        if e = entry then s.chunkGo k cluster engine x (bits w 16 41 * 65536) else s.tableStart k cluster engine x entry
      | none => s.tableStart k cluster engine x entry
    else s.chunkGo k cluster engine x 0

/-- Whether a partition has a Guaranteed context's blocks on a cluster: no export runs there (R367). -/
def State.guaranteedHolds (s : State) (cluster : Nat) : Bool :=
  match (s.cluster cluster).holder with
  | none => false
  | some p => s.cmp.ctxs.any (fun e => e.2.cls == 0 && e.2.partition == p)

/-- The queues an engine may serve, in the order of its rotation: those of the cluster's blocks after the one served last, and
then exports (R323, R367). -/
def State.rotationOf (s : State) (cluster engine : Nat) : List Nat :=
  let keys := SMap.keys s.cmp.steqs
  let mine := keys.filter (fun k => decide (k < 2 ^ 20) && k / 32 / 8 == cluster && k % 2 == engine)
  let last := SMap.get s.cmp.rotation 0 (cluster * 2 + engine)
  mine.filter (fun k => decide (last < k + 1)) ++ mine.filter (fun k => decide (k + 1 ≤ last)) ++
    (if s.guaranteedHolds cluster then [] else keys.filter (fun k =>
      decide (2 ^ 20 ≤ k) && ((s.ctx (k - 2 ^ 20)).map (fun x => x.state == .pruning)).getD false))

/-- An engine issues the next chunk, from the first queue in its rotation that has one to issue (R323). -/
def execSteChunkIssue (cluster : Fin 1024) (engine : Fin 2) (s : State) : Res :=
  let c := cluster.val
  let e := engine.val
  match (s.rotationOf c e).findSome? (fun k => (s.queueGo k c e).map (fun t => (k, t))) with
  | none => stop
  | some (k, t) =>
    .next (if 2 ^ 20 ≤ k then t
      else { t with cmp := { t.cmp with rotation := SMap.put t.cmp.rotation (c * 2 + e) (k + 1) } })

/-- CREDIT of a PREFETCH whose ring was full is read again (R335). -/
def execPrefetchCreditPoll (core : Fin 8192) (block : Fin 16) (engine : Fin 2) (s : State) : Res :=
  let k := (core.val * 16 + block.val) * 2 + engine.val
  match (s.steq k).xfers with
  | [] => stop
  | x :: _ =>
    let d := Desc.of x.desc
    need (x.full && x.err.isNone && s.streamReady (k / 2))
      (match s.creditOk (k / 2) d x.row with
       | (s1, none) => .next (s1.xferFail k 0x28 x.next d.creditAt)
       | (s1, some ok) => .next (s1.updHead k (fun y => { y with full := !ok })))

/-! ### Completion (R333 to R335) -/

/-- A failed chunk of an export is tried once more (R368): the export goes back to where it began. -/
def State.exportRetry (s : State) (c : Chunk) (code : Nat) : State :=
  let again := (s.inFlight c.queue).any (fun e => decide (e.2.index ≤ c.index))
  match (s.steq c.queue).xfers with
  | [] => s
  | x :: _ =>
    if x.entry = some (c.index, 0) ∨ again then s.xferFail c.queue code c.index c.va
    else s.updHead c.queue (fun y => { y with next := c.index, row := c.row, pos := c.pos, misses := [], entry := some (c.index, 0) })

/-- A chunk is over, with an error code or 0. -/
def State.chunkOver (s : State) (c : Chunk) (code : Nat) : State :=
  let d := ((s.steq c.queue).xfers.head?).map (fun x => Desc.of x.desc)
  if code ≠ 0 then
    let index := if code = 0x29 then c.mismatch.getD c.first else c.index
    if 2 ^ 20 ≤ c.queue then s.exportRetry c code else s.xferFail c.queue code index c.va
  else
    let s1 := s.steCount (engineNo c.engine) 2 1
    let s2 := if c.chkS ∨ c.chkD then s1.steCount (engineNo c.engine) 3 c.ends.length else s1
    let s3 := match d with
      | some d => if d.op = 4 ∧ c.rowEnd then s2.lmWord (c.queue / 2) d.prodAt ((c.row + 1) % 2 ^ 32) 4 else s2
      | none => s2
    s3.xferSettle c.queue

/-- Whether check values of a chunk that go to another package have still to be sent: they follow the data (R331). -/
def Chunk.checksDue (c : Chunk) : Bool := !c.checked && (c.parts true).any (fun e => e.1.1.remote)

/-- A chunk completes (R254, R333): its writes are performed, or acknowledged; check values that go to another package leave once
its data is performed, and the chunk completes when they are acknowledged (R331). The rows of a PREFETCH complete in order
(R335), as do the chunks of a checked store in whose blocks others begin. `k` counts the chunks in flight in the order of their numbers. -/
def execSteChunkComplete (chunk : Nat) (s : State) : Res :=
  match s.cmp.chunks[chunk]? with
  | none => stop
  | some (id, c) =>
    let d := ((s.steq c.queue).xfers.head?).map (fun x => Desc.of x.desc)
    let first := (s.inFlight c.queue).all (fun e => decide (c.index ≤ e.2.index))
    need (c.due == 0 && c.putting && (first || ((d.map (·.op)) != some 4 && !(c.chkD && c.lead != 0))))
      (match c.err with
       | some code => .next ((s.delChunk id).chunkOver c code)
       | none =>
         if c.checksDue then
           let (s1, code) := s.chunkWrite c (c.parts false ++ c.parts true)
           if code ≠ 0 then .next ((s1.delChunk id).chunkOver c code)
           else .next ((s1.updChunk id (fun x => { x with checked := true })).chunkPut id c (c.parts true))
         else
           let (s1, code) := if c.checked then (s, 0) else s.chunkWrite c (c.parts false ++ c.parts true)
           let s2 := s1.steCount (engineNo c.engine) 1 (c.dsts.foldl (fun n x => n + x.2) 0)
           .next ((s2.delChunk id).chunkOver c code))

/-! ### Instructions (R325 to R327) -/

/-- What a stream instruction waits for first (R253): earlier stores and atomics performed at die scope, with the release-side
action. -/
def State.steFirst (s : State) (g : Nat) : State × Bool :=
  let s1 := (s.releaseSide (g / 32)).pump
  (s1, s1.storesDone g 3)

/-- The status that a ticket reads: `none` while its transfer has not completed (R327). -/
def State.ticketStatus (s : State) (bk ticket : Nat) : Option Nat :=
  let q := s.steq (bk * 2 + bits ticket 32 1)
  let seq := bits ticket 0 32
  if ¬ (seq = q.seq ∨ seqBefore seq q.seq) then some 1
  else
    match q.held.find? (fun h => h.1 == seq) with
    | some h => some h.2.toNat
    | none => if q.xfers.any (fun x => x.seq == seq) then none else some 5

/-- The deferred exception of a transfer that a wait covers (R332). -/
def Grp.streamError (g : Grp) (p : Nat → Bool) : Option Deferred := g.deferred.find? (fun d => d.ticket && p d.pc)

/-- `ste.sub` (R326). -/
def execSteSub (w : Who) (i : FmtR) (s : State) : Res :=
  s.issueR w { d := .s, a := .s, auxs := 2, noGuard := true } i (fun t g grp m =>
    let bk := blockKey g grp
    let k := bk * 2 + i.aux.val
    let a := t.sReg g i.a.val
    let (t1, ready) := t.steFirst g
    if 8 ≤ (t1.steq k).xfers.length ∨ ¬ ready then .busy t1
    else if a % 64 ≠ 0 then .raise t1 0x20 m a 0
    else if 2 ^ 23 ≤ a then .raise t1 0x21 m a 0
    else
      match t1.lmFetch bk a 64 with
      | none => .raise t1 0x21 m a 0
      | some (t2, _, true) => .raise t2 0x28 m a 0
      | some (t2, b, false) =>
        match t2.descFault bk (Desc.of b) with
        | some c => .raise t2 c m a 0
        | none =>
          let seq := ((t2.steq k).seq + 1) % 2 ^ 32
          let x : Xfer := { desc := b, seq := seq, ctx := grp.ctx, core := g / 32, slot := g % 32 }
          .done ((t2.updSteq k (fun q => { q with seq := seq, xfers := q.xfers ++ [x] })).setS g i.d.val (ticketOf k seq)))

/-- `ste.wait`. -/
def execSteWait (w : Who) (i : FmtR) (s : State) : Res :=
  s.issueR w { d := .s, a := .s, noGuard := true } i (fun t g grp _ =>
    let ticket := t.sReg g i.a.val % 2 ^ 33
    let (t1, ready) := t.steFirst g
    if ¬ ready then .busy t1
    else
      match grp.streamError (fun p => p == ticket), t1.ticketStatus (blockKey g grp) ticket with
      | some d, _ => .jump (t1.raiseDeferred g d)
      | none, some v => .done (t1.setS g i.d.val v)
      | none, none => .busy t1)

/-- `ste.test`. -/
def execSteTest (w : Who) (i : FmtR) (s : State) : Res :=
  s.issueR w { d := .s, a := .s, noGuard := true } i (fun t g grp _ =>
    let (t1, ready) := t.steFirst g
    if ¬ ready then .busy t1
    else .done (t1.setS g i.d.val ((t1.ticketStatus (blockKey g grp) (t.sReg g i.a.val % 2 ^ 33)).getD 0)))

/-- `ste.wait.all`. -/
def execSteWaitAll (w : Who) (i : FmtR) (s : State) : Res :=
  s.issueR w { auxs := 4, noGuard := true } i (fun t g grp _ =>
    let es := if 2 ≤ i.aux.val then [0, 1] else [i.aux.val]
    let (t1, ready) := t.steFirst g
    if ¬ ready then .busy t1
    else
      match grp.streamError (fun p => es.contains (p / 2 ^ 32)) with
      | some d => .jump (t1.raiseDeferred g d)
      | none =>
        if es.all (fun e => (t1.steq (blockKey g grp * 2 + e)).xfers.isEmpty) then .done t1 else .busy t1)

end Sys2Proof.Machine
end

