-- ==== Sys2Proof/Machine/Matrix.lean ====
section
/-! DEFINITION. The matrix engines (R128 to R153, R158 to R167, R361): operand panels, chunks, the accumulation of a cell, the
queues, and the instructions of class 0x20. -/

namespace Sys2Proof.Machine

/-! ### Formats (R136, R142, R162) -/

/-- An operand format of the engines: the conversion code of its elements (R171), their width, whether they carry an MX scale,
and the exponent that MXINT8 adds. -/
structure ElemFmt where
  code : Nat
  width : Nat
  mx : Bool := false
  shift : Int := 0

/-- The activation formats by AFMT. -/
def actFmt (n : Nat) : Option ElemFmt :=
  match n with
  | 0 => some ⟨3, 8, false, 0⟩
  | 1 => some ⟨4, 8, false, 0⟩
  | 2 => some ⟨1, 16, false, 0⟩
  | 3 => some ⟨2, 16, false, 0⟩
  | 4 => some ⟨10, 8, false, 0⟩
  | 5 => some ⟨3, 8, true, 0⟩
  | 6 => some ⟨4, 8, true, 0⟩
  | 7 => some ⟨5, 6, true, 0⟩
  | 8 => some ⟨6, 6, true, 0⟩
  | 9 => some ⟨7, 4, true, 0⟩
  | 10 => some ⟨10, 8, true, -6⟩
  | 11 => some ⟨0, 32, false, 0⟩
  | _ => none

/-- The weight formats by WFMT, with their digits per weight (R162); Grain stands apart. -/
def wgtFmt (n : Nat) : Option (ElemFmt × Nat) :=
  match n with
  | 0 => some (⟨7, 4, false, 0⟩, 1)
  | 1 => some (⟨7, 4, true, 0⟩, 1)
  | 2 => some (⟨5, 6, false, 0⟩, 2)
  | 3 => some (⟨6, 6, false, 0⟩, 2)
  | 4 => some (⟨5, 6, true, 0⟩, 2)
  | 5 => some (⟨6, 6, true, 0⟩, 2)
  | 6 => some (⟨3, 8, false, 0⟩, 2)
  | 7 => some (⟨4, 8, false, 0⟩, 2)
  | 8 => some (⟨3, 8, true, 0⟩, 2)
  | 9 => some (⟨4, 8, true, 0⟩, 2)
  | 10 => some (⟨2, 16, false, 0⟩, 4)
  | 11 => some (⟨1, 16, false, 0⟩, 6)
  | 12 => some (⟨0, 32, false, 0⟩, 12)
  | 13 => some (⟨10, 8, false, 0⟩, 4)
  | 14 => some (⟨10, 8, true, -6⟩, 4)
  | 15 => some (⟨11, 4, false, 0⟩, 2)
  | 16 => some (⟨12, 2, false, 0⟩, 1)
  | 17 => some (⟨13, 2, false, 0⟩, 1)
  | 18 => some (⟨14, 1, false, 0⟩, 1)
  | 19 => some (⟨0, 0, false, 0⟩, 0)
  | _ => none

/-- The fields of a configuration word (R142). -/
def cfgMode (w : Nat) : Nat := bits w 0 2
def cfgSize (w : Nat) : Nat := 2 ^ bits w 2 3
def cfgSkip (w : Nat) : Bool := bit w 5
def cfgW (w : Nat) : Nat := bits w 8 5
def cfgA (w : Nat) : Nat := bits w 16 4
def cfgDepth (w : Nat) : Nat := bits w 20 3 + 1

/-- Whether a weight format takes two k-steps per cycle (R129). -/
def halfCycle (wfmt : Nat) : Bool := wfmt == 16 || wfmt == 17 || wfmt == 18

/-- Whether a configuration word is reserved (R142, R143). -/
def cfgReserved (w : Nat) : Bool :=
  bits w 23 41 != 0 || bits w 13 3 != 0 || bits w 6 2 != 0 || decide (1 < cfgMode w) || decide (4 < bits w 2 3) ||
  (actFmt (cfgA w)).isNone || (wgtFmt (cfgW w)).isNone || (cfgSkip w && cfgMode w == 1) ||
  (cfgW w == 12 && cfgA w != 11) || (cfgA w == 11 && halfCycle (cfgW w))

/-- Activation passes (R134, R163). -/
def cfgPasses (w : Nat) : Nat := if cfgA w = 11 then 2 else 1

/-- Bytes of a chunk of a panel: A_CH or W_CH (R136). -/
def ElemFmt.chunk (f : ElemFmt) : Nat := 64 * f.width + (if f.mx then 16 else 0)

/-- Bytes of an activation chunk, and of a weight chunk, under a configuration word; 0 for Grain. -/
def cfgAch (w : Nat) : Nat := ((actFmt (cfgA w)).map ElemFmt.chunk).getD 0
def cfgWch (w : Nat) : Nat := ((wgtFmt (cfgW w)).map (fun f => f.1.chunk)).getD 0

/-! ### The operands of a tile -/

/-- The operands of a `mx.mma` (R144). -/
structure Tile where
  abase : Nat
  wbase : Nat
  wstride : Nat
  wlen : Nat
  kch : Nat

/-- An element with its scale: NaN under a scale of 0xFF (R156, R158). -/
def ElemFmt.num (f : ElemFmt) (scale n : Nat) : Num :=
  if f.mx ∧ scale = 255 then .nan
  else
    match cvtSource f.code n with
    | .fin s m e => .fin s m (e + f.shift + (if f.mx then (scale : Int) - 127 else 0))
    | v => v

/-- The planes of a weight of `nd` digits whose digit is not 0, as a mask; a NaN or an infinity counts in each of the `top`
planes of its k-step (R134, R162). -/
def planeMask (code nd top : Nat) (v : Num) : Nat :=
  match v with
  | .fin s m _ =>
    let n := if code ≤ 7 then m else unsgn (2 * nd) (if s then -(m : Int) else m)
    (List.range nd).foldl (fun k t => if n / 4 ^ t % 4 ≠ 0 then k ||| 2 ^ t else k) 0
  | _ => 2 ^ top - 1

/-- Bytes of local memory as an engine reads them, as a number. -/
def State.lmNum (s : State) (bk a n : Nat) : Nat :=
  ofBytes ((List.range n).map (fun k => match s.blkPlace bk (a + k) with
    | none => 0
    | some p => s.lmByte p))

/-- The activations of a chunk's image: 16 rows of 32 (R136). -/
def actRows (f : ElemFmt) (img : Nat) : List (List Num) :=
  let body := if f.mx then img / 2 ^ 128 else img
  (List.range 16).map (fun i => (List.range 32).map (fun k => f.num (bits img (8 * i) 8) (bits body (f.width * (16 * k + i)) f.width)))

/-- The weights of the image of a chunk that is not Grain: 16 columns of 32 (R136). -/
def wgtCols (f : ElemFmt) (img : Nat) : List (List Num) :=
  let body := if f.mx then img / 2 ^ 128 else img
  (List.range 16).map (fun j => (List.range 32).map (fun k => f.num (bits img (8 * j) 8) (bits body (f.width * (32 * j + k)) f.width)))

/-- The 16 Grain blocks of a chunk that begins at byte `pos` of a panel: their images and depths, and where the next chunk
begins; bytes beyond WLEN read as 0 (R136, R144, R159). -/
def State.grainChunk (s : State) (bk base wlen pos : Nat) : List (Nat × Nat) × Nat :=
  let get := fun (p n : Nat) => s.lmNum bk (base + p) (min n (wlen - p))
  (List.range 16).foldl (fun (r : List (Nat × Nat) × Nat) _ =>
    let d := bits (get r.2 2) 8 3 + 1
    (r.1 ++ [(get r.2 (2 + 8 * d), d)], r.2 + 2 + 8 * d)) ([], pos)

/-- Where chunk `q` of a Grain panel begins, by the headers before it. -/
def State.grainPos (s : State) (bk base wlen q : Nat) : Nat :=
  (List.range q).foldl (fun p _ => (s.grainChunk bk base wlen p).2) 0

/-- The format of the activations, and of weights that are not Grain, under a configuration word; FP32 where the word has
none. -/
def cfgAct (w : Nat) : ElemFmt := (actFmt (cfgA w)).getD ⟨0, 32, false, 0⟩
def cfgWgt (w : Nat) : ElemFmt × Nat := (wgtFmt (cfgW w)).getD (⟨0, 32, false, 0⟩, 12)

/-- The start of chunk `q` of the activation panel, and of member `m`'s weight panel that is not Grain (R136). -/
def Tile.actAt (t : Tile) (w q : Nat) : Nat := t.abase + q * (cfgAct w).chunk
def Tile.wgtAt (t : Tile) (w m q : Nat) : Nat := t.wbase + m * t.wstride + q * (cfgWgt w).1.chunk

/-- An engine reads the operand data of chunk `q` of a tile for a gang of `size`, each byte once; `pos` are the places of the
chunk in the Grain panels of the members (R136, R149). -/
def State.feed (s : State) (bk w size : Nat) (t : Tile) (q : Nat) (pos : List Nat) : Feed :=
  let act := s.lmNum bk (t.actAt w q) (cfgAct w).chunk
  if cfgW w = 19 then
    let ms := (List.range size).map (fun m => s.grainChunk bk (t.wbase + m * t.wstride) t.wlen (pos.getD m 0))
    { act := act, wgt := ms.map (·.1), spans := ms.zipIdx.map (fun m => (pos.getD m.2 0, m.1.2)) }
  else
    { act := act
      wgt := (List.range size).map (fun m => [(s.lmNum bk (t.wgtAt w m q) (cfgWgt w).1.chunk, 0)])
      spans := [] }

/-- Where the next chunk begins in each member's Grain panel. -/
def Feed.next (f : Feed) : List Nat := f.spans.map (·.2)

/-- What the cells make of a chunk: the weights of each member, cycles of its 32 k-steps without and with plane skipping,
the extents it lies in, and whether a Grain panel ran over WLEN or has an odd sum of depths, or a block exceeds DMAX + 1. -/
structure ChunkIn where
  acts : List (List Num)
  members : List (List (List Num))
  full : Nat
  fed : Nat
  extents : List (Nat × Nat)
  overrun : Bool := false
  uneven : Bool := false
  deep : Bool := false

/-- Cycles of 32 k-steps with the planes skipped whose digit is 0 in every weight (R134): `cols` holds the planes of each weight
whose digit is not 0. -/
def fedCycles (passes nd : Nat) (cols : List (List Nat)) : Nat :=
  (List.range 32).foldl (fun n k =>
    let m := cols.foldl (fun x col => x ||| col.getD k (2 ^ nd - 1)) 0
    n + max 1 (passes * ((List.range nd).filter (fun t => bit m t)).length)) 0

/-- A chunk that was read, under a configuration word (R129, R131, R133 to R136). The extent of a Grain chunk ends at WLEN: the
bytes beyond it, which the engine reads as 0, are no granules of L (the model's choice, log 84). -/
def Feed.chunk (f : Feed) (w : Nat) (t : Tile) (q : Nat) : ChunkIn :=
  let acts := actRows (cfgAct w) f.act
  let p := cfgPasses w
  let here := (t.actAt w q, (cfgAct w).chunk)
  if cfgW w = 19 then
    let depths := f.wgt.map (fun m => m.map (·.2))
    let top := depths.foldl (fun x l => l.foldl max x) 1
    let col := fun (b : Nat × Nat) => (List.range 32).map (fun k => grainWeight b.1 k)
    { acts := acts
      members := f.wgt.map (fun m => m.map col)
      full := 32 * p * (if cfgMode w = 1 then max top (cfgDepth w) else top)
      fed := fedCycles p top (f.wgt.flatMap (fun m => m.map (fun b => (col b).map (planeMask 8 b.2 top))))
      extents := here :: f.spans.zipIdx.map (fun x => (t.wbase + x.2 * t.wstride + x.1.1, min x.1.2 t.wlen - x.1.1))
      overrun := f.spans.any (fun x => decide (t.wlen < x.2))
      uneven := depths.any (fun l => l.foldl (· + ·) 0 % 2 == 1)
      deep := decide (cfgDepth w < top) }
  else
    let (wf, nd) := cfgWgt w
    let members := f.wgt.map (fun m => wgtCols wf ((m.head?).map (·.1)|>.getD 0))
    let full := if halfCycle (cfgW w) then 16 else 32 * nd * p
    { acts := acts
      members := members
      full := full
      fed := if halfCycle (cfgW w) then 16 else fedCycles p nd (members.flatMap (fun m => m.map (fun c => c.map (planeMask wf.code nd nd))))
      extents := here :: (List.range f.wgt.length).map (fun m => (t.wgtAt w m q, wf.chunk)) }

/-- L of a chunk: the fetch of its operand data by a gang of `size` (R133). A granule in which panels overlap is counted once (the
model's choice, log 84). -/
def ChunkIn.fetch (c : ChunkIn) (size : Nat) : Nat :=
  let grans := (c.extents.flatMap (fun e => (List.range ((e.1 % 16 + e.2 + 15) / 16)).map (fun k => e.1 / 16 + k))).eraseDups
  let m := (List.range 32).foldl (fun x b => max x (grans.filter (fun k => k % 32 == b)).length) 0
  16 * ((m + size - 1) / size)

/-! ### A cell (R163 to R167) -/

/-- The passes of an activation: an FP32 significand in two parts (R163). -/
def actPasses (two : Bool) (m : Nat) : List Nat := if two then [m / 4096 * 4096, m % 4096] else [m]

/-- The product of two elements in units of 2^lsb, rounded toward −∞ (R164). -/
def floorAt (v : Int) (e lsb : Int) : Int := if lsb ≤ e then v * 2 ^ (e - lsb).toNat else v / 2 ^ (lsb - e).toNat

/-- A chunk closes into an accumulator (R164 to R167): a sum with a window that is not 0 which is or rounds to zero is +0. -/
def cellClose (two : Bool) (row col : List Num) (acc : W32) : W32 :=
  let ps := (row.zip col).map (fun x => (x.1, x.2, (x.1.mul x.2).1))
  let nan := ps.any (fun p => p.2.2 == .nan)
  let pinf := ps.any (fun p => p.2.2 == .inf false)
  let ninf := ps.any (fun p => p.2.2 == .inf true)
  let e : Option Int := ps.foldl (fun (t : Option Int) p =>
    match p.2.2 with
    | .fin _ m x => if m = 0 then t else
        let b := x + (Nat.log2 m : Int) + 1
        some (match t with
          | none => b
          | some y => max y b)
    | _ => t) none
  let lsb := e.getD 0 - 58
  let win : Int := ps.foldl (fun (v : Int) p =>
    match p.1, p.2.1 with
    | .fin n1 m1 e1, .fin n2 m2 e2 =>
      (actPasses two m1).foldl (fun (v : Int) m =>
        v + floorAt (if n1 != n2 then -((m * m2 : Nat) : Int) else ((m * m2 : Nat) : Int)) (e1 + e2) lsb) v
    | _, _ => v) 0
  let c := fp32.decode acc.toNat
  let canon : W32 := 0x7FC00000
  if c = .nan ∨ nan ∨ (pinf ∧ ninf) ∨ (pinf ∧ c = .inf true) ∨ (ninf ∧ c = .inf false) then canon
  else if pinf then 0x7F800000
  else if ninf then 0xFF800000
  else if win = 0 then acc
  else
    let r := (fp32.ofNum 0 (c.add 0 (.fin (decide (win < 0)) win.natAbs lsb)).1).1
    if r % 2 ^ 31 = 0 then 0 else BitVec.ofNat 32 r

/-- The accumulators of a member after a chunk. -/
def accClose (two : Bool) (acts cols : List (List Num)) (acc : SMap W32) : SMap W32 :=
  (List.range 256).foldl (fun (m : SMap W32) k =>
    SMap.set m 0 k (cellClose two ((acts[k / 16]?).getD []) ((cols[k % 16]?).getD []) (SMap.get acc 0 k))) acc

/-! ### Engines of a block -/

/-- An engine, by core × 16 + physical engine. -/
def State.eng (s : State) (k : Nat) : Option Eng := SMap.find s.cmp.engs k

/-- Changes an engine. -/
def State.updEng (s : State) (k : Nat) (f : Eng → Eng) : State :=
  { s with cmp := { s.cmp with engs := SMap.upd s.cmp.engs k f } }

/-- The engine of a handle of a block. -/
def Blk.engKey (b : Blk) (core h : Nat) : Option Nat := (b.engines[h]?).map (fun p => core * 16 + p)

/-- The engines of the handles `n` to `n` + `size` − 1. -/
def Blk.gangKeys (b : Blk) (core n size : Nat) : List Nat := (List.range size).filterMap (fun i => b.engKey core (n + i))

/-- The configuration of the engines of a block after a `mx.cfg` of some of them: handles of an earlier gang that it does not
name become gangs of 1 (R142). -/
def State.regang (s : State) (get : Eng → GangCfg) (set : Eng → GangCfg → Eng) (keys : List Nat) (word : Nat) : State :=
  match keys.head?.bind s.eng with
  | none => s
  | some first =>
    let core := (keys.headD 0) / 16
    let named := keys.filterMap (fun k => (s.eng k).map (fun e => (get e).leader))
    { s with cmp := { s.cmp with engs := SMap.mapVals s.cmp.engs (fun k e =>
        if k / 16 ≠ core ∨ e.block ≠ first.block then e
        else if keys.contains k then set e { word := word, leader := first.handle, size := keys.length }
        else if named.contains (get e).leader then
          set e { word := setBits (get e).word 2 3 0, leader := e.handle, size := 1 }
        else e) } }

/-- Puts an entry at the end of an engine's queue. -/
def State.mxPush (s : State) (k : Nat) (q : EngEntry) : State := s.updEng k (fun e => { e with queue := e.queue ++ [q] })

/-- The entry at the front of an engine's queue is over: groups at `mx.wait` count it (R147). -/
def State.mxPop (s : State) (k : Nat) : State :=
  let s1 := s.updEng k (fun e => { e with queue := e.queue.tail, running := false })
  { s1 with cmp := { s1.cmp with groups := SMap.mapVals s1.cmp.groups (fun g x =>
      if g / 32 = k / 16 then { x with engines := x.engines.map (fun w => if w.1 = k then (w.1, w.2 - 1) else w) } else x) } }

/-- Adds to a counter of an engine: 0 busy, 1 skipped, 2 stalled (R154); busy cycles count for the context (R370). -/
def State.mxCount (s : State) (k kind n : Nat) : State :=
  let (c, o) := match kind with
    | 0 => (F.MXE_CNT_BUSY_COUNT, F.MXE_CNT_OVF_BUSY_OVF)
    | 1 => (F.MXE_CNT_SKIP_COUNT, F.MXE_CNT_OVF_SKIP_OVF)
    | _ => (F.MXE_CNT_STALL_COUNT, F.MXE_CNT_OVF_STALL_OVF)
  let core := k / 16
  let v := s.fget c k + n
  let ctx := (((s.eng k).bind (fun e => s.blk (core * 16 + e.block))).bind (fun b => SMap.find s.cmp.bclus b.bc)).map (·.ctx)
  let s0 := if kind = 0 then s.account (ctx.getD 0) (fun a => { a with engineU := a.engineU + n * 100000 }) else s
  let s1 := s0.fset c (v % 2 ^ 48) k
  if 2 ^ 48 ≤ v then (s1.fset o (s1.fget o core ||| 2 ^ (k % 16)) core).event (dieOf core) (256 + core % 128) else s1

/-- Whether plane skipping is in effect on an engine (R134). -/
def State.skipping (s : State) (k : Nat) (e : Eng) : Bool :=
  cfgSkip e.act.word && cfgMode e.act.word == 0 && s.flag F.MXE_CTL_SKIP_ALLOW (k / 16)

/-- Accumulators with unspecified contents: free values (log 1). -/
def State.accFree (s : State) (k : Nat) : State :=
  let seed := s.free
  let acc := (List.range 256).foldl (fun (m : SMap W32) i => SMap.set m 0 i (Config.residue seed i)) []
  { (s.updEng k (fun e => { e with acc := acc })) with free := seed + 1 }

/-! ### Events of the engines -/

/-- Whether the engines of a core run: its cluster is neither being saved nor restored (R151, R359). -/
def State.enginesRun (s : State) (core : Nat) : Bool :=
  let st := (s.cluster (core / 8)).state
  st == .running || st == .stopping

/-- A `mx.cfg` that every named engine has reached takes effect in all of them at once (R142). -/
def execMxCfgTakeEffect (core : Fin 8192) (engine : Fin 16) (s : State) : Res :=
  match (s.eng (core.val * 16 + engine.val)).bind (fun e => e.queue.head?) with
  | some (.cfg n word gang) =>
    need (s.enginesRun core.val && gang.all (fun k => ((s.eng k).bind (fun e => e.queue.head?)) == some (.cfg n word gang)))
      (let s1 := s.regang (·.act) (fun e c => { e with act := c }) gang word
       .next (gang.foldl (fun (s : State) k => (s.mxPop k).mxCount k 0 1) s1))
  | _ => stop

/-- The deferred exception of an engine feed that an instruction of a group covers (R150). -/
def Grp.feedError (g : Grp) (mask : Nat) : Option Deferred := g.deferred.find? (fun d => d.engines &&& mask != 0)

/-- An engine executes an entry that is neither a configuration nor a tile (R145, R146, R150). -/
def execMxQueueEntry (core : Fin 8192) (engine : Fin 16) (s : State) : Res :=
  let k := core.val * 16 + engine.val
  match if s.enginesRun core.val then s.eng k else none with
  | none => stop
  | some e =>
    match e.queue with
    | .zero _ :: _ => .next (((s.updEng k (fun x => { x with acc := [] })).mxPop k).mxCount k 0 1)
    | .accWr _ data :: _ =>
      let acc := data.zipIdx.foldl (fun (m : SMap W32) v => SMap.set m 0 v.2 v.1) []
      .next (((s.updEng k (fun x => { x with acc := acc })).mxPop k).mxCount k 0 8)
    | .accRd slot dst :: _ =>
      let g := core.val * 32 + slot
      let s1 := (s.mxPop k).mxCount k 0 8
      match s.grp g with
      | none => .next s1
      | some grp =>
        let s2 := (List.range 256).foldl (fun (s : State) i =>
          s.setV g (dst + i / 32) (i % 32) (SMap.get e.acc 0 i).toNat) s1
        match grp.feedError (2 ^ e.handle) with
        | some d => .next (s2.raiseDeferred g d)
        | none => .next s2
    | _ => stop

/-- The gang of a tile at the front of its leader's queue: the members' engines. -/
def State.gangOf (s : State) (k : Nat) (e : Eng) : List Nat :=
  match s.blk (k / 16 * 16 + e.block) with
  | none => [k]
  | some b => b.gangKeys (k / 16) e.act.leader e.act.size

/-- The tile at the front of an engine's queue. -/
def Eng.tile (e : Eng) : Option (Nat × Nat × Tile) :=
  match e.queue with
  | .mma slot a w ws wl n pc :: _ => some (slot, pc, ⟨a, w, ws, wl, n⟩)
  | _ => none

/-- The operand data of chunk `q` of the tile of a leader `k` is read: a granule with an uncorrectable error is logged and spoils
the tile (R150). -/
def State.fetchChunk (s : State) (k : Nat) (e : Eng) (t : Tile) (q : Nat) (pos : List Nat) : State × Feed :=
  let bk := k / 16 * 16 + e.block
  let w := e.act.word
  let f := s.feed bk w e.act.size t q pos
  let places := (f.chunk w t q).extents.flatMap (fun x => (List.range x.2).filterMap (fun i => (s.blkPlace bk (x.1 + i)).map (fun p => (0, p))))
  let s0 := s.lmFind (places.map (·.2))
  let bad := s0.poisonedOf places
  let s1 := bad.foldl (fun (s : State) p => s.lmErrLog p (if cfgMode w = 1 then 3 else 2)) s0
  (if bad.isEmpty then s1 else s1.updEng k (fun x => { x with poison := true }), f)

/-- Adds to a counter of every member of a gang. -/
def State.gangCount (s : State) (gang : List Nat) (kind n : Nat) : State := gang.foldl (fun (s : State) m => s.mxCount m kind n) s

/-- A tile starts on its gang (R131, R133, R135): in broadcast mode after the fetch of its first chunk, which is that of its next one
after a restore (R151). -/
def State.startTile (s : State) (k : Nat) (e : Eng) (t : Tile) : State :=
  let gang := s.gangOf k e
  let bk := k / 16 * 16 + e.block
  let w := e.act.word
  let pos := if cfgW w = 19 then (List.range e.act.size).map (fun m => s.grainPos bk (t.wbase + m * t.wstride) t.wlen e.chunk) else []
  let s1 := gang.foldl (fun (s : State) m => s.updEng m (fun x => { x with running := true })) s
  if cfgMode w = 1 then
    let (s2, f) := s1.fetchChunk k e t e.chunk pos
    let l := (f.chunk w t e.chunk).fetch e.act.size
    (s2.updEng k (fun x => { x with cycles := 3, pos := f.next, buffer := some f, ahead := 0 })).gangCount gang 0 (l - min l e.ahead + 3)
  else (s1.updEng k (fun x => { x with cycles := 15, pos := pos, ahead := 0 })).gangCount gang 0 15

/-- The start of a tile; `mx.mma` entries of the members have come to the front of their queues (R131, R133, R135). -/
def execMxTileStart (core : Fin 8192) (engine : Fin 16) (s : State) : Res :=
  let k := core.val * 16 + engine.val
  match s.eng k with
  | none => stop
  | some e =>
    match e.tile with
    | none => stop
    | some (_, _, t) =>
      need (s.enginesRun core.val && !e.running && (s.gangOf k e).all (fun m => m == k ||
          (match (s.eng m).bind (fun x => x.queue.head?) with
          | some (.member _ lead) => lead == k
          | _ => false)))
        (.next (s.startTile k e t))

/-- The next chunk of the tile of a leader closes into the accumulators of every member; in broadcast mode the chunk after it has
been fetched meanwhile (R128, R133 to R135, R150, R154, R164 to R167). -/
def State.closeChunk (s : State) (k : Nat) (e : Eng) (t : Tile) : State :=
  let w := e.act.word
  let gang := s.gangOf k e
  let bc := cfgMode w == 1
  let (s1, f) := match e.buffer with
    | some f => (s, f)
    | none => s.fetchChunk k e t e.chunk e.pos
  let c := f.chunk w t e.chunk
  let more := bc && decide (e.chunk + 1 < t.kch)
  let (s2, buf) := if more then
      let r := s1.fetchChunk k e t (e.chunk + 1) f.next
      (r.1, some r.2)
    else (s1, none)
  let next := (buf.map (fun b => (b.chunk w t (e.chunk + 1)).fetch e.act.size)).getD 0
  let fed := if s.skipping k e then min c.full c.fed else c.full
  let n := if bc then max c.full next else fed
  let s3 := gang.zipIdx.foldl (fun (s : State) m => s.updEng m.1 (fun x => { x with
    acc := accClose (cfgA w == 11) c.acts ((c.members[m.2]?).getD []) x.acc
    depthOvr := x.depthOvr || (bc && c.deep)
    grainOvr := x.grainOvr || c.overrun })) s2
  (((s3.updEng k (fun x => { x with
    chunk := x.chunk + 1
    cycles := x.cycles + n
    pos := ((buf.map Feed.next).getD f.next)
    buffer := buf
    ahead := if bc then c.full else 0
    bad := x.bad || c.overrun || c.uneven })).gangCount gang 0 n).gangCount gang 1 (c.full - fed)).gangCount gang 2 (n - fed)

/-- A chunk closes into the accumulators of every member. -/
def execMxChunkClose (core : Fin 8192) (engine : Fin 16) (s : State) : Res :=
  let k := core.val * 16 + engine.val
  match s.eng k with
  | none => stop
  | some e =>
    match e.tile with
    | none => stop
    | some (_, _, t) =>
      need (s.enginesRun core.val && e.running && decide (e.chunk < t.kch)) (.next (s.closeChunk k e t))

/-- A tile ends (R131, R133, R135, R144, R147, R150, R154, R161); `held` are the cycles that a feeder held a skewed tile. ADDR of the
record of a poisoned feed is ABASE (the model's choice, log 84). -/
def State.endTile (s : State) (k : Nat) (e : Eng) (slot pc : Nat) (t : Tile) (held : Nat) : State :=
  let gang := s.gangOf k e
  let bc := cfgMode e.act.word == 1
  let tail := held + (if bc then 0 else 15)
  let total := e.cycles + tail
  let g := k / 16 * 32 + slot
  let s0 := if e.bad || e.poison then gang.foldl (fun (s : State) m => s.accFree m) s else s
  let s1 := ((gang.foldl (fun (s : State) m =>
    (s.updEng m (fun x => { x with lastT := min (2 ^ 32 - 1) total })).mxPop m) s0).gangCount gang 0 tail).gangCount gang 2 held
  let mask := gang.foldl (fun (n : Nat) m => n ||| 2 ^ (((s.eng m).map (·.handle)).getD 0)) 0
  let s2 := if e.poison then s1.defer g { code := 0x28, pc := pc, scope := 1, addr := t.abase, engines := mask } else s1
  let behind := ((s2.eng k).bind Eng.tile).isSome
  s2.updEng k (fun x => { x with
    chunk := 0, cycles := 0, pos := [], buffer := none, ahead := if behind then x.ahead else 0, bad := false, poison := false })

/-- The end of a tile. -/
def execMxTileEnd (core : Fin 8192) (engine : Fin 16) (held : Nat) (s : State) : Res :=
  let k := core.val * 16 + engine.val
  match s.eng k with
  | none => stop
  | some e =>
    match e.tile with
    | none => stop
    | some (slot, pc, t) =>
      if cfgMode e.act.word == 1 ∧ held ≠ 0 then stop
      else need (s.enginesRun core.val && e.running && decide (t.kch ≤ e.chunk)) (.next (s.endTile k e slot pc t held))

/-- A forced save stops an engine at its next chunk boundary: the chunk in progress runs to its close, in skewed mode with the drain
of its last cells, and a tile whose last chunk it is ends (R151). -/
def State.stopTile (s : State) (k : Nat) : State :=
  match s.eng k with
  | none => s
  | some e =>
    match e.tile with
    | none => s
    | some (slot, pc, t) =>
      if ¬ e.running then s
      else
        let s1 := if e.chunk < t.kch then s.closeChunk k e t else s
        let e1 := (s1.eng k).getD e
        if t.kch ≤ e1.chunk then s1.endTile k e1 slot pc t 0
        else if cfgMode e.act.word = 1 then s1
        else s1.gangCount (s1.gangOf k e1) 0 15

/-! ### Instructions (R139 to R148) -/

/-- A matrix instruction: it takes no guard, and AUX[4] is used only where `flag` says so (R139). The body has the block, the
handle and the flag. -/
def State.matrix (s : State) (w : Who) (f : Form) (i : FmtR) (flag : Bool) (vecs : List (Nat × Bool))
    (body : State → Nat → Grp → Nat → Blk → Nat → Bool → Eff) : Res :=
  s.issueR w { f with noGuard := true, auxs := 32 } i (fun t g grp m =>
    match t.blk (blockKey g grp) with
    | none => .done t
    | some b => body t g grp m b (i.aux.val % 16) (decide (16 ≤ i.aux.val)))
    (!flag && decide (16 ≤ i.aux.val)) vecs

/-- The exception of the first check that fails (R148). -/
def firstFault (l : List (Bool × Nat)) : Option Nat := (l.find? (·.1)).map (·.2)

/-- An instruction enters the queues of some engines, unless one of them is full (R141); `more` holds it back too. -/
def State.enter (s : State) (keys : List Nat) (more : Bool) (act : State → State) : Eff :=
  if more || keys.any (fun k => ((s.eng k).map (fun e => decide (4 ≤ e.queue.length))).getD false) then .busy s else .done (act s)

/-- Whether the group may not issue a group-wide instruction (R140). -/
def Grp.diverged (g : Grp) : Bool := g.active != g.live

/-- `mx.cfg` (R142, R143). -/
def execMxCfg (w : Who) (i : FmtR) (s : State) : Res :=
  s.matrix w { a := .s } i false [] (fun t g grp m b n _ =>
    let core := g / 32
    let raw := t.sReg g i.a.val
    let word := if t.flag F.MXE_CTL_SKIP_ALLOW core then raw else setBits raw 5 1 0
    let size := cfgSize raw
    match firstFault [(cfgReserved raw || (cfgMode raw == 0 && t.flag F.MXE_CTL_BCAST_ONLY core), 0x02),
        (n % size != 0 || decide (b.engines.length < n + size), 0x06), (grp.diverged, 0x13)] with
    | some c => .raise t c m noAddr 0
    | none =>
      let keys := b.gangKeys core n size
      t.enter keys false (fun t =>
        let t1 := t.regang (·.pend) (fun e c => { e with pend := c }) keys word
        keys.foldl (fun (s : State) k => s.mxPush k (.cfg (g % 32) word keys)) t1))

/-- `mx.zero` (R145). -/
def execMxZero (w : Who) (i : FmtR) (s : State) : Res :=
  s.matrix w {} i true [] (fun t g grp m b n all =>
    let core := g / 32
    let e := (b.engKey core n).bind t.eng
    match firstFault [(e.isNone || (all && (e.map (fun x => x.pend.leader)) != some n), 0x06), (grp.diverged, 0x13)] with
    | some c => .raise t c m noAddr 0
    | none =>
      let keys := b.gangKeys core n (if all then (e.map (fun x => x.pend.size)).getD 1 else 1)
      t.enter keys false (fun t => keys.foldl (fun (s : State) k => s.mxPush k (.zero (g % 32))) t))

/-- `mx.mma` (R144). The record of a misaligned or local address has ABASE as its ADDR, whichever operand it is for (the model's
choice, log 84). -/
def execMxMma (w : Who) (i : FmtR) (s : State) : Res :=
  s.matrix w { a := .s, sec := .sOnly, c := .s } i false [] (fun t g grp m b n _ =>
    let core := g / 32
    let sa := t.sReg g i.a.val
    let sb := t.sReg g i.b.val
    let sc := t.sReg g i.c.val
    let x : Tile := ⟨bits sa 0 24, bits sb 0 24, bits sb 24 24, bits sc 16 24, bits sc 0 16⟩
    let e := (b.engKey core n).bind t.eng
    let word := (e.map (fun x => x.pend.word)).getD 0
    let size := (e.map (fun x => x.pend.size)).getD 1
    let grain := cfgW word == 19
    let limit := b.units.length * 32768
    let ends := (x.abase + x.kch * cfgAch word) :: (List.range size).map (fun k =>
      x.wbase + k * (if size = 1 then 0 else x.wstride) + (if grain then x.wlen else x.kch * cfgWch word))
    let skewed := e.isSome && cfgMode word == 0 && t.flag F.MXE_CTL_BCAST_ONLY core
    match firstFault [
        (bits sa 24 40 != 0 || bits sb 48 16 != 0 || bits sc 40 24 != 0 || x.kch == 0 ||
          (e.isSome && (if grain then decide (x.wlen < 16) else x.wlen != 0)) || skewed, 0x02),
        ((e.map (fun y => y.pend.leader)) != some n, 0x06),
        (grp.diverged, 0x13),
        (x.abase % 16 != 0 || x.wbase % 16 != 0 || (decide (1 < size) && x.wstride % 16 != 0), 0x20),
        (bit x.abase 23 || bit x.wbase 23 || ends.any (fun v => decide (limit < v)), 0x21)] with
    | some c => .raise t c m (if c = 0x20 ∨ c = 0x21 then x.abase else noAddr) 0
    | none =>
      let keys := b.gangKeys core n size
      let lead := (keys.headD 0)
      t.enter keys false (fun t => keys.foldl (fun (s : State) k =>
        s.mxPush k (if k = lead then .mma (g % 32) x.abase x.wbase x.wstride x.wlen x.kch grp.pc else .member (g % 32) lead)) t))

/-- The checks of `mx.acc.rd` and `mx.acc.wr` beside their registers' range (R148). -/
def accFault (reg n : Nat) (b : Blk) (grp : Grp) : Option Nat :=
  firstFault [(reg % 8 != 0, 0x05), (decide (b.engines.length ≤ n), 0x06), (grp.diverged, 0x13)]

/-- The eight registers from one. -/
def eight (n : Nat) : List (Nat × Bool) := (List.range 8).map (fun k => (n + k, false))

/-- `mx.acc.rd` (R146, R150). -/
def execMxAccRd (w : Who) (i : FmtR) (s : State) : Res :=
  s.matrix w { d := .v } i false (eight i.d.val) (fun t g grp m b n _ =>
    match accFault i.d.val n b grp with
    | some c => .raise t c m noAddr 0
    | none =>
      match grp.feedError (2 ^ n) with
      | some d => .jump (t.raiseDeferred g d)
      | none =>
        let keys := b.gangKeys (g / 32) n 1
        t.enter keys false (fun t => keys.foldl (fun (s : State) k => s.mxPush k (.accRd (g % 32) i.d.val)) t))

/-- Entries of `mx.acc.wr` of a core that have not started (R361). -/
def State.accWrites (s : State) (core : Nat) : Nat :=
  (s.cmp.engs.filter (fun e => e.1 / 16 == core)).foldl (fun n e => n + (e.2.queue.filter (fun q => match q with
    | .accWr _ _ => true
    | _ => false)).length) 0

/-- `mx.acc.wr` (R138, R145, R361). -/
def execMxAccWr (w : Who) (i : FmtR) (s : State) : Res :=
  s.matrix w { a := .v } i false (eight i.a.val) (fun t g grp m b n _ =>
    match accFault i.a.val n b grp with
    | some c => .raise t c m noAddr 0
    | none =>
      let keys := b.gangKeys (g / 32) n 1
      let data := (List.range 256).map (fun k => BitVec.ofNat 32 (t.vReg g (i.a.val + k / 32) (k % 32)))
      t.enter keys (decide (2 ≤ t.accWrites (g / 32))) (fun t =>
        keys.foldl (fun (s : State) k => s.mxPush k (.accWr (g % 32) data)) t))

/-- `mx.wait` (R147, R150): it waits for the entries that the queues hold when it is first presented. -/
def execMxWait (w : Who) (i : FmtR) (s : State) : Res :=
  s.matrix w {} i true [] (fun t g grp m b n all =>
    match firstFault [(decide (b.engines.length ≤ n), 0x06), (grp.diverged, 0x13)] with
    | some c => .raise t c m noAddr 0
    | none =>
      let hs := if all then List.range b.engines.length else [n]
      match grp.feedError (hs.foldl (fun k h => k ||| 2 ^ h) 0) with
      | some d => .jump (t.raiseDeferred g { d with })
      | none =>
        let now := hs.filterMap (fun h => (b.engKey (g / 32) h).bind (fun k => (t.eng k).map (fun e => (k, e.queue.length))))
        let left := if grp.engines.isEmpty then now else grp.engines
        if left.all (fun x => x.2 == 0) then .done (t.updGrp g (fun x => { x with engines := [] }))
        else .busy (t.updGrp g (fun x => { x with engines := left })))

/-- `mx.stat` (R147). -/
def execMxStat (w : Who) (i : FmtR) (s : State) : Res :=
  s.matrix w { d := .s } i true [] (fun t g grp m b n clear =>
    match firstFault [(decide (b.engines.length ≤ n), 0x06), (grp.diverged, 0x13)] with
    | some c => .raise t c m noAddr 0
    | none =>
      match b.engKey (g / 32) n with
      | none => .done t
      | some k =>
        match t.eng k with
        | none => .done t
        | some e =>
          let word := nb e.running + nb (e.act.leader == n) * 2 + e.queue.length * 4 + nb (t.skipping k e) * 2 ^ 5 +
            nb e.grainOvr * 2 ^ 6 + nb e.depthOvr * 2 ^ 7 + e.lastT * 2 ^ 16
          let t1 := t.setS g i.d.val word
          .done (if clear then t1.updEng k (fun x => { x with grainOvr := false, depthOvr := false }) else t1))

end Sys2Proof.Machine
end

