-- ==== Sys2Proof/Machine/Canopy.lean ====
section
/-! DEFINITION. Placement and completion of block clusters, blocks and kernels (R71 to R89, R340 to R350, R355, R508). -/

namespace Sys2Proof.Machine

/-! ### The resources of a core (R79) -/

/-- The group slots in use on a core. -/
def State.groupsUsed (s : State) (core : Nat) : List Nat :=
  (SMap.keys (SMap.keep s.cmp.groups (fun k _ => k / 32 == core))).map (fun k => k % 32)

/-- The block slots in use on a core. -/
def State.slotsUsedOn (s : State) (core : Nat) : List Nat :=
  (SMap.keys (SMap.keep s.cmp.blocks (fun k _ => k / 16 == core))).map (fun k => k % 16)

/-- The vector register units allocated on a core. -/
def State.vunitsUsed (s : State) (core : Nat) : List Nat :=
  (SMap.vals (SMap.keep s.cmp.groups (fun k _ => k / 32 == core))).flatMap (·.vunits)

/-- The matrix engines granted on a core. -/
def State.enginesUsed (s : State) (core : Nat) : List Nat :=
  (SMap.vals (SMap.keep s.cmp.blocks (fun k _ => k / 16 == core))).flatMap (·.engines)

/-- The numbers below `n` that a list does not hold. -/
def freeOf (n : Nat) (used : List Nat) : List Nat := (List.range n).filter (fun k => !used.contains k)

/-- What one block of a kernel takes of its core (R79). -/
structure Needs where
  groups : Nat
  vunits : Nat
  lmUnits : Nat
  engines : Nat

/-- The needs of a kernel's blocks. -/
def Kernel.needs (k : Kernel) : Needs := ⟨k.groups, k.vunits, k.lmUnits, k.engines⟩

/-- Whether a core can take blocks: it is in service, and neither a bank test nor a zero-fill runs in it (R184). -/
def State.coreOpen (s : State) (core : Nat) : Bool :=
  !s.health.retiredCores.contains core && !s.health.failing.contains core && !s.pwr.diesOff.contains (dieOf core) &&
    !(s.core core).testing && s.fget F.CORE_LM_ZERO_UNITS core == 0

/-- Whether a core's free resources cover a block (R79). -/
def State.coreFits (s : State) (core : Nat) (n : Needs) : Bool :=
  s.coreOpen core &&
    decide (n.groups ≤ 32 - (s.groupsUsed core).length) && decide (1 ≤ 16 - (s.slotsUsedOn core).length) &&
    decide (n.groups * n.vunits ≤ 256 - (s.vunitsUsed core).length) &&
    decide (n.lmUnits ≤ 32 - (s.unitsUsed core).length) && decide (n.engines ≤ 16 - (s.enginesUsed core).length)

/-- The cores of a hardware cluster. -/
def coresOfCluster (k : Nat) : List Nat := (List.range 8).map (fun i => k * 8 + i)

/-- A list turned by a choice of the hardware (log 1): which free cores, slots and units are taken is open (R72, R75). -/
def State.turn (s : State) (l : List Nat) : State × List Nat :=
  let (n, s1) := s.pick l.length
  (s1, l.drop n ++ l.take n)

/-- Numbers in rising order. -/
def sortNat (l : List Nat) : List Nat := l.foldl (fun r n => insertNat n r) []

/-! ### Power states of cores and what contains them (R11, R13, R89, R193) -/

/-- A core is in Run, and so are its cluster, its quadrant and its die (R13). -/
def State.wakeCore (s : State) (core : Nat) : State :=
  let s1 := s.updCore core (fun c => { c with gated := false, retain := false })
  { s1 with pwr := { s1.pwr with
    retainClus := s1.pwr.retainClus.filter (fun k => k != core / 8)
    retainQuad := s1.pwr.retainQuad.filter (fun q => q != core / 32)
    retainDie := s1.pwr.retainDie.filter (fun d => d != dieOf core) } }

/-- Whether an instance of a register is lost with a cluster in Retain: those of its cores, its stream engines and its
micro-TLB (R13). Repair slots stay, as the arrays they select stay, and so do the power states of the units (log 82). -/
def lostWithCluster (k : Nat) (r : Reg) (i : Nat) : Bool :=
  let n := i / r.spec.c2
  ([Reg.MXE_CTL, .MXE_CNT_BUSY, .MXE_CNT_SKIP, .MXE_CNT_STALL, .MXE_CNT_OVF, .CORE_LM_STATUS, .CORE_LM_ERRLOG, .CORE_LM_TEST,
      .CORE_NC_PARITY, .CORE_LM_CE, .CORE_LM_TEST_RESULT].contains r && n / 8 == k) ||
    (r == .STE_CNT && n / 2 == k) || (r == .XLT_UTLB_CNT && n == k)

/-- Whether an instance of a register is lost with a quadrant in Retain (R13). -/
def lostWithQuad (q : Nat) (r : Reg) (i : Nat) : Bool :=
  [Reg.QDC_ALLOC, .QDC_ALLOC_COMMIT, .QDC_CE, .QDC_ERRLOG, .QDC_CNT, .XLT_QTLB_CNT].contains r && i / r.spec.c2 == q

/-- Whether a partition has a Guaranteed context: the steward keeps every local-memory unit of its cores On (R193). -/
def State.guaranteedAt (s : State) (k : Nat) : Bool :=
  s.flag F.CNP_CLUSTER_OWNED k &&
    s.cmp.ctxs.any (fun e => e.2.cls == 0 && e.2.state != .free && e.2.partition == s.fget F.CNP_CLUSTER_OWNER k)

/-- Whether a cluster may enter Retain: all its cores are Gated, Canopy holds it Idle or Retired, and nothing unsaved is in it: no
access, no dirty byte of a scalar cache, no chunk, no test or zero-fill (R13). -/
def State.mayRetain (s : State) (k : Nat) : Bool :=
  let t := s.cluster k
  (t.state == .idle || t.state == .retired) && !s.guaranteedAt k && !s.pwr.retainClus.contains k &&
    (coresOfCluster k).all (fun c => (s.core c).gated && !(s.core c).testing && s.fget F.CORE_LM_ZERO_UNITS c == 0) &&
    !s.cmp.accs.any (fun a => a.core / 8 == k) && !s.cmp.chunks.any (fun c => c.2.engine / 2 == k) &&
    !s.cmp.near.sc.any (fun e => e.1 / 2 ^ 50 / 8 == k && e.2.dirty != 0)

/-- A cluster enters Retain with its cores: registers are lost, near caches and local memory stay, units that were On are in
Retain (R13, R193). -/
def State.retainCluster (s : State) (k : Nat) : State :=
  let s1 := s.resetRegs (lostWithCluster k)
  let s2 := (coresOfCluster k).foldl (fun (s : State) c =>
    (List.range 32).foldl (fun (s : State) u => if s.unitPower c u = 0 then s.setUnitPower c u 1 else s)
      (s.updCore c (fun x => { x with retain := true, waking := [] }))) s1
  { s2 with pwr := { s2.pwr with retainClus := s2.pwr.retainClus ++ [k] } }

/-- Whether a quadrant may enter Retain: its four clusters have, its cache holds no line, nothing is on its way to it, and no walk
or flush runs in it. -/
def State.mayRetainQuad (s : State) (q : Nat) : Bool :=
  (List.range 4).all (fun i => s.pwr.retainClus.contains (4 * q + i)) && !s.pwr.retainQuad.contains q &&
    !s.cmp.qlines.any (fun e => e.1 / 2 ^ 39 == q) && !s.cmp.net.any (fun m => m.quad == q) &&
    !s.cmp.walks.any (fun w => w.quad == q) && !s.cmp.flushing.any (fun f => f.quad == q)

/-- A quadrant enters Retain: its registers are lost, and its TLB and walk cache are empty. -/
def State.retainQuadrant (s : State) (q : Nat) : State :=
  let s1 := s.resetRegs (lostWithQuad q)
  { s1 with
    pwr := { s1.pwr with retainQuad := s1.pwr.retainQuad ++ [q] }
    cmp := { s1.cmp with
      tlbs := s1.cmp.tlbs.filter (fun t => !(if t.quad then t.unit == q else t.unit / 4 == q))
      wcache := s1.cmp.wcache.filter (fun e => e.quad != q) } }

/-- A compute die enters Retain once its four quadrants have: the clock of its control domain stops (R384). -/
def State.retainDie (s : State) (d : Nat) : State :=
  { s with
    pwr := { s.pwr with retainDie := s.pwr.retainDie ++ [d] }
    evc := { s.evc with stopped := if s.evc.stopped.contains d then s.evc.stopped else s.evc.stopped ++ [d] } }

/-- What a steward does with a Gated core: nothing, or its cluster enters Retain, and further its quadrant and its die, where
they may; which, is its choice (R13; log 1, log 82). -/
def State.retainFrom (s : State) (core : Nat) : State :=
  let (n, s0) := s.pick 4
  let k := core / 8
  let q := core / 32
  let d := dieOf core
  let s1 := if 1 ≤ n ∧ s0.mayRetain k then s0.retainCluster k else s0
  let s2 := if 2 ≤ n ∧ s1.mayRetainQuad q then s1.retainQuadrant q else s1
  if 3 ≤ n ∧ (List.range 4).all (fun i => s2.pwr.retainQuad.contains (4 * d + i)) ∧ ¬ s2.pwr.retainDie.contains d then
    s2.retainDie d
  else s2

/-! ### Placing a block -/

/-- Before a core takes a block: local memory and the vector registers are zero-filled when it last held another context or a
repair slot changed (R74, R190); the near caches are brought up to date for a kernel they were not refreshed for (R87); the
core is in Run again, with what contains it (R13, R89); a Guaranteed context sets `BCAST_ONLY` (R350). Answers whether registers and local memory were
zero-filled. -/
def State.coreReady (s : State) (core ctx kernel cls : Nat) : State × Bool :=
  let old := s.core core
  let zero := old.last != some ctx || old.refill
  let s1 := if zero then s.coreZero core else s
  let s2 := if old.fresh = some kernel then s1 else s1.nearClean core
  let s3 := (s2.wakeCore core).updCore core (fun c => { c with last := some ctx, fresh := some kernel, refill := false })
  if cls = 0 ∧ old.bcastWas.isNone then
    ((s3.updCore core (fun c => { c with bcastWas := some (s.fget F.MXE_CTL_BCAST_ONLY core) })).fset F.MXE_CTL_BCAST_ONLY 1
      core, zero)
  else (s3, zero)

/-- Local-memory units are allocated: each is On, and within one context its contents are unspecified (R74, R193, log 4). -/
def State.allocUnits (s : State) (core : Nat) (units : List Nat) (zero : Bool) : State :=
  units.foldl (fun (s : State) u =>
    let off := s.unitPower core u == 2
    let s1 := (s.setUnitPower core u 0).updCore core (fun c => { c with waking := c.waking.filter (fun v => v != u) })
    if zero ∨ off then s1
    else
      { s1 with
        free := s1.free + 1
        cmp := { s1.cmp with
          lm := SMap.keep s1.cmp.lm (fun a _ => a / 2 ^ 15 != core * 32 + u)
          lmSeed := SMap.put s1.cmp.lmSeed (core * 32 + u) s1.free } }) s

/-- Vector register units by group: `n` for each of `g` groups. -/
def shareOut (l : List Nat) (n g : Nat) : List (List Nat) := (List.range g).map (fun i => (l.drop (i * n)).take n)

/-- An engine at block start (R142). -/
def Eng.fresh (block handle word : Nat) : Eng :=
  { block := block, handle := handle, act := { word := word, leader := handle }, pend := { word := word, leader := handle } }

/-- Places a block with its groups and engines on a core: the state and the block slot (R79, R142). The group slots are in the
order of the groups. -/
def State.placeBlock (s : State) (core ctx kernel cls bc rank : Nat) (n : Needs) : State × Nat :=
  let (s1, zero) := s.coreReady core ctx kernel cls
  let (s2, slots) := s1.turn (freeOf 16 (s.slotsUsedOn core))
  let slot := slots.headD 0
  let (s3, gs) := s2.turn (freeOf 32 (s.groupsUsed core))
  let groups := sortNat (gs.take n.groups)
  let (s4, vs) := s3.turn (freeOf 256 (s.vunitsUsed core))
  let (s5, us) := s4.turn (freeOf 32 (s.unitsUsed core))
  let units := us.take n.lmUnits
  let (s6, es) := s5.turn (freeOf 16 (s.enginesUsed core))
  let engines := es.take n.engines
  let s7 := s6.allocUnits core units zero
  let word := s7.fget F.MXE_CTL_BCAST_ONLY core
  let blk : Blk := { bc := bc, rank := rank, groups := groups, vunits := n.vunits, units := units, engines := engines }
  let s8 := { s7 with
    free := s7.free + 1
    cmp := { s7.cmp with
      blocks := SMap.put s7.cmp.blocks (core * 16 + slot) blk
      groups := (groups.zip (shareOut vs n.vunits n.groups)).zipIdx.foldl (fun (m : SMap Grp) e =>
        SMap.put m (core * 32 + e.1.1)
          { ctx := ctx, block := slot, index := e.2, vunits := e.1.2, seed := if zero then none else some s7.free }) s7.cmp.groups
      engs := engines.zipIdx.foldl (fun (m : SMap Eng) e => SMap.put m (core * 16 + e.1) (Eng.fresh slot e.2 word)) s7.cmp.engs } }
  (groups.foldl (fun (s : State) g => s.clearRegs (core * 32 + g)) s8, slot)

/-- The initial state of a group (R84). -/
def State.groupStart (s : State) (g args index c rank i entry : Nat) : State :=
  let s1 := ((((s.setS g 0 args).setS g 1 index).setS g 2 c).setS g 3 rank).setS g 4 i
  let s2 := (List.range 32).foldl (fun (s : State) l => s.setV g 0 l (i * 32 + l)) s1
  s2.updGrp g (fun x => { x with pc := entry })

/-! ### Where a context may run (R340, R342, R344, R349) -/

/-- The owner partition of a cluster. -/
def State.owner (s : State) (k : Nat) : Option Nat :=
  if s.flag F.CNP_CLUSTER_OWNED k then some (s.fget F.CNP_CLUSTER_OWNER k) else none

/-- Whether a context waits for clusters: it may run, and has block clusters to place or saved ones to restore. -/
def Ctx.waits (x : Ctx) : Bool :=
  !x.suspended && (x.state == .queued || x.state == .running || x.state == .saved || x.state == .restoring) &&
    (!x.slots.isEmpty || match x.launches with
      | k :: _ => decide (k.next < k.gridX * k.gridY * k.gridZ)
      | [] => false)

/-- The clusters that a context holds. -/
def State.clustersOf (s : State) (c : Nat) : List Nat :=
  SMap.keys (SMap.keep s.cmp.clus (fun _ k => k.ctx == c && k.state != .idle && k.state != .retired && k.state != .cleaning))

/-- Whether a context of the owner, other than a Borrowed one, needs a cluster (R342, R349): it waits for one, and holds fewer than
its SAVE_CLUSTERS, so that it may take one more (R346). -/
def State.ownerNeeds (s : State) (p : Nat) : Bool :=
  s.cmp.ctxs.any (fun e => e.2.partition == p && decide (e.2.cls < 2) && e.2.waits &&
    decide ((s.clustersOf e.1).length < e.2.saveClusters))

/-- Whether the class of a context lets it use a cluster (R342, R344). -/
def State.mayUse (s : State) (x : Ctx) (k : Nat) : Bool :=
  match s.owner k with
  | none => false
  | some p =>
    if x.cls < 2 then x.partition == p
    else
      !s.ownerNeeds p &&
        (s.flag F.CNP_PART_LEND p && (!s.flag F.CNP_PART_LEND_NOREMOTE p || x.noremote) &&
            decide (x.grace ≤ s.fget F.CNP_PART_LEND_GRACE p))

/-- Whether a context may take a cluster that it does not hold: idle, unheld or held by its own partition (R340, R343), within
SAVE_CLUSTERS (R346), and Canopy places work (R374). -/
def State.mayTake (s : State) (c : Nat) (x : Ctx) (k : Nat) : Bool :=
  let t := s.cluster k
  s.canopyActs k && s.clusterSound k && t.state == .idle && (t.holder.isNone || t.holder == some x.partition) && s.mayUse x k &&
    decide ((s.clustersOf c).length < x.saveClusters)

/-- A save slot of a context that no cluster it holds and no saved set uses (R364). -/
def State.freeSlot (s : State) (c : Nat) (x : Ctx) : Nat :=
  let used := x.slots ++ (s.clustersOf c).map (fun k => (s.cluster k).slot)
  (freeOf x.saveClusters used).headD 0

/-- A context takes a cluster (R340, R352, R364). -/
def State.takeCluster (s : State) (c : Nat) (x : Ctx) (k slot : Nat) (st : ClState) : State :=
  (s.updCluster k (fun t => { t with
    state := st, ctx := c, holder := some x.partition, slot := slot, grace := none, placed := s.slotNo, saved := false })).dutyMoved s

/-- The groups of a block on a core halt before their first instruction under HALT_NEW (R508). -/
def State.haltNew (s : State) (c : Nat) (gs : List Nat) : State :=
  match s.attOf c with
  | none => s
  | some a => if s.flag F.DBG_ATT_HALT_NEW a then gs.foldl (fun (s : State) g => s.haltOne a g 0xF1 0) s else s

/-- Canopy places the next block cluster of a context on a hardware cluster that it holds or takes (R73, R79, R83, R84, R342,
R347, R349). The device may start block clusters in any order (R83): the model's is the rising order of c (log 43). -/
def execBlockClusterPlace (ctx : BitVec 16) (cluster : Fin 1024) (s : State) : Res :=
  let c := ctx.toNat
  let k := cluster.val
  match s.ctx c with
  | none => stop
  | some x =>
    match x.launches with
    | [] => stop
    | kern :: rest =>
      let t := s.cluster k
      let mine := t.state == .running && t.ctx == c && t.grace.isNone && s.canopyActs k && s.clusterSound k
      let fits := (coresOfCluster k).filter (fun core => s.coreFits core kern.needs)
      let st := x.state == .queued || x.state == .running || x.state == .restoring || (x.state == .saved && x.slots.isEmpty)
      need (st && !x.suspended && decide (kern.next < kern.gridX * kern.gridY * kern.gridZ) &&
          (mine || s.mayTake c x k) && decide (kern.cluster ≤ fits.length))
        (let s1 := if mine then s else s.takeCluster c x k (s.freeSlot c x) .running
         let (s2, turned) := s1.turn fits
         let cores := turned.take kern.cluster
         let bc := SMap.fresh s2.cmp.bclus
         let number := kern.next
         let r := cores.zipIdx.foldl (fun (r : State × List (Nat × Nat)) e =>
           let (s', slot) := r.1.placeBlock e.1 c kern.number x.cls bc e.2 kern.needs
           (s', r.2 ++ [(e.1, slot)])) (s2, [])
         let bclus : BClus :=
           { ctx := c, kernel := kern.number, number := number, cluster := k, desc := kern.desc, args := kern.args,
             size := kern.cluster, grid := (kern.gridX, kern.gridY, kern.gridZ), blocks := r.2 }
         let s3 : State := { r.1 with cmp := { r.1.cmp with bclus := SMap.put r.1.cmp.bclus bc bclus } }
         let s4 := r.2.zipIdx.foldl (fun (s : State) b =>
           let gs := ((s.blk (b.1.1 * 16 + b.1.2)).map (·.groups)).getD []
           let keys := gs.map (fun g => b.1.1 * 32 + g)
           (keys.zipIdx.foldl (fun (s : State) g =>
             s.groupStart g.1 kern.args (number * kern.cluster + b.2) number b.2 g.2 kern.entry) s).haltNew c keys) s3
         .next (s4.updCtx c (fun y => { y with
           state := if y.state = .queued ∨ y.state = .saved then .running else y.state
           held := true
           launches := { kern with next := number + 1 } :: rest })).pump)

/-! ### Completion (R78, R85, R153, R251, R347) -/

/-- The groups of a block, by number. -/
def Blk.groupKeys (b : Blk) (core : Nat) : List Nat := b.groups.map (fun g => core * 32 + g)

/-- A cluster whose last block cluster has left is idle, or its save ends when block clusters of it were saved; its partition
still holds it until it is cleaned (R343). -/
def State.clusterLeft (s : State) (k : Nat) : State :=
  if s.cmp.bclus.any (fun e => e.2.cluster == k) then s
  else
    let t := s.cluster k
    if t.state = .running ∨ t.state = .stopping ∨ t.state = .saving then
      s.updCluster k (fun t => if t.saved then { t with state := .saving, grace := none }
        else { t with state := .idle, ctx := 0, grace := none })
    else s

/-- A context whose clusters have all stopped: Stopping ends in Saved, or in Pruning when the stop was for a prune order; a
Running context with only saved block clusters is Saved (R347). -/
def State.ctxStopped (s : State) (c : Nat) : State :=
  match s.ctx c with
  | none => s
  | some x =>
    if ¬ (s.clustersOf c).isEmpty then s
    else if x.state = .stopping then
      s.updCtx c (fun y => { y with state := if y.pruning then .pruning else .saved, pruning := false })
    else if x.state = .running ∧ ¬ x.slots.isEmpty then s.updCtx c (fun y => { y with state := .saved })
    else s

/-- A deferred exception that a group of a block still holds at block completion (R123, R150, R332). -/
def State.blockDeferred (s : State) (gs : List Nat) : Option (Nat × Deferred) :=
  gs.findSome? (fun g => ((s.grp g).bind (fun x => x.deferred.head?)).map (fun d => (g, d)))

/-- The block leaves its core: its slots, registers and engines are free; its local memory stays until its block cluster has
completed (R78). -/
def State.blockLeaves (s : State) (k slot : Nat) (b : Blk) (x : BClus) : State :=
  let gs := b.groupKeys k
  let s1 := gs.foldl (fun (s : State) g => (s.clearRegs g).dropRsv g) s
  let bc := { x with held := SMap.put x.held b.rank b.units }
  let last := decide (x.size ≤ bc.held.length)
  let s2 := { s1 with cmp := { s1.cmp with
    groups := SMap.keep s1.cmp.groups (fun g _ => !gs.contains g)
    blocks := SMap.del s1.cmp.blocks (k * 16 + slot)
    engs := SMap.keep s1.cmp.engs (fun e v => !(e / 16 == k && v.block == slot))
    steqs := SMap.keep s1.cmp.steqs (fun q _ => q / 2 != k * 16 + slot)
    bclus := if last then SMap.del s1.cmp.bclus b.bc else SMap.put s1.cmp.bclus b.bc bc } }
  let s3 := if s2.cmp.blocks.any (fun e => e.1 / 16 == k) then s2 else s2.bcastBack k
  (s3.clusterLeft x.cluster).ctxStopped x.ctx

/-- The write-backs of a core's scalar bytes that no quadrant or home has taken yet (R85). -/
def State.sideWrites (s : State) (core : Nat) : List Nat :=
  (s.cmp.accs.filter (fun a => a.core == core && a.slot == 32 && a.kind != .load)).map (·.id)

/-- A block completes: its groups have exited, their stores and atomics are performed, and its engines and streams have
finished. A deferred exception that a group holds is raised instead (R85, R123). The dirty bytes of the scalar cache are
written back first, and the command is presented again until those write-backs have been taken (log 17). -/
def execBlockComplete (core : Fin 8192) (block : Fin 16) (s : State) : Res :=
  let k := core.val
  let bk := k * 16 + block.val
  match s.blk bk with
  | none => stop
  | some b =>
    match SMap.find s.cmp.bclus b.bc with
    | none => stop
    | some x =>
      let gs := b.groupKeys k
      let done := gs.all (fun g => ((s.grp g).map (fun y => y.complete && !y.halted)).getD true)
      let open_ := s.cmp.accs.any (fun a => gs.contains (a.core * 32 + a.slot))
      let busy := s.cmp.engs.any (fun e => e.1 / 16 == k && e.2.block == block.val && !e.2.queue.isEmpty)
      let moving := [0, 1].any (fun e => !(s.steq (bk * 2 + e)).xfers.isEmpty)
      need (done && !x.restoring && !open_ && !busy && !moving)
        (match s.blockDeferred gs with
         | some (g, d) => .next (s.raiseDeferred g d)
         | none =>
           let s0 := if b.draining.isNone then (s.releaseSide k).pump else s
           let left := match b.draining with
             | none => s0.sideWrites k
             | some ids => ids.filter (fun n => (s.sideWrites k).contains n)
           .next (if left.isEmpty then s0.blockLeaves k block.val b x
             else s0.updBlk bk (fun y => { y with draining := some left })))

/-- The completion of a context's first launch is posted: every block has completed, and its writes are performed at package
scope or acknowledged (R85, R86, R251, R347). -/
def execKernelComplete (ctx : BitVec 16) (s : State) : Res :=
  let c := ctx.toNat
  match s.ctx c with
  | none => stop
  | some x =>
    match x.launches with
    | [] => stop
    | k :: rest =>
      let live := s.cmp.bclus.any (fun e => e.2.ctx == c && e.2.kernel == k.number)
      let writes := s.cmp.accs.any (fun a => a.ctx == c && a.kind != .load)
      let st := x.state == .queued || x.state == .running || x.state == .saved || x.state == .restoring || x.state == .stopping ||
        x.state == .pruning
      need (st && decide (k.gridX * k.gridY * k.gridZ ≤ k.next) && !live && x.slots.isEmpty && !writes)
        (let s1 := s.qpComplete k.qp k.cid 0 k.late k.startSlot
         .next (s1.updCtx c (fun y => { y with
           launches := rest
           state := if rest.isEmpty ∧ (y.state = .running ∨ y.state = .queued ∨ y.state = .saved ∨ y.state = .restoring)
             then .idle else y.state
           acct := if k.late then { y.acct with late := min (2 ^ 32 - 1) (y.acct.late + 1) } else y.acct })))

/-- The deadline of a Guaranteed kernel passes while it runs: it completes LATE (R49, R355). -/
def execKernelDeadline (ctx : BitVec 16) (s : State) : Res :=
  let c := ctx.toNat
  match s.ctx c with
  | none => stop
  | some x =>
    match x.launches.find? (fun k => !k.late) with
    | none => stop
    | some k =>
      need (x.cls == 0)
        (.next (((s.reach k.deadline).updCtx c (fun y => { y with
          launches := y.launches.map (fun j => if j.number = k.number then { j with late := true } else j) })).fset
            F.CNP_CTX_STATE_LATE 1 c))

/-- The steward gates a core without a resident group (R89); from a core that is Gated already it may go on to Retain (R13). -/
def execCoreGate (core : Fin 8192) (s : State) : Res :=
  need ((s.groupsUsed core.val).isEmpty && !s.health.retiredCores.contains core.val && !s.pwr.diesOff.contains (dieOf core.val))
    (.next (if (s.core core.val).gated then s.retainFrom core.val
      else s.updCore core.val (fun c => { c with gated := true })))

end Sys2Proof.Machine
end

