-- ==== Sys2Proof/Machine/Agent.lean ====
section
/-! DEFINITION. Reads and writes of a context's virtual memory by agents that are no group: the queue pairs, Canopy and the
windows of BAR4 (R305, R402, R408). They translate by the tables, keep nothing in a TLB, make no Page Request and write no record to a
context's fault ring. -/

namespace Sys2Proof.Machine

/-- The leaf of an address by the tables of a context, or the code of a fault. The walk belongs to no quadrant, so no walk
cache answers it. -/
def State.agentLeaf (s : State) (c va : Nat) : Except Nat (Nat × Nat) :=
  if 2 ^ 57 ≤ va ∨ ¬ s.flag F.XLT_CTT_BASE_EN then .error 0x24
  else
    match (s.walk 256 c va).2 with
    | .leaf w level => .ok (w, level)
    | .fault code => .error code
    | .bad _ _ => .error 0x24

/-- Where an address of a context leads an agent that reads or, with `wr`, writes it (R303, R304, R310). -/
def State.agentXlt (s : State) (c va : Nat) (wr : Bool) : Xlt :=
  match s.agentLeaf c va with
  | .error code => .fault code
  | .ok (w, level) =>
    let service := ((s.ctx c).map (·.service)).getD false
    let attr := bits w 5 2
    let out := bits w 16 44 * 65536 + va % ptSpan level
    if ¬ (if wr then bit w 3 else bit w 2) then .fault 0x23
    else
      match bits w 8 2 with
      | 0 => s.physical service attr out
      | 1 => if s.ownStand out then s.physical service 0 (out % 2 ^ 46) else .hit ⟨1, attr, out⟩
      | _ =>
        let (f, p) := s.ctxFunc c
        if ¬ (s.func f).atsEnable ∨ ¬ (s.func f).priEnable then .fault 0x24
        else
          match s.hostLeaf hostAgent c va with
          | some h => if (if wr then h.wr else h.rd) then .hit ⟨2, 3, h.out + (va - h.base)⟩ else .host f p
          | none => .host f p

/-- How an access of a pair stands: its bytes are here, it has failed, or it is not over. -/
inductive Got where
  | bytes (b : List Byte)
  | bad
  | later

/-- The request for a host translation that an agent needs: sent once; a denial on record is its failure (R310, R408). -/
def State.agentHost (s : State) (c f p va : Nat) (wr : Bool) : State × Got :=
  let mine := fun (h : HostXlt) => h.cluster == hostAgent && h.ctx == c && h.page == va / 4096
  match s.cmp.hostXlt.find? (fun h => mine h && h.phase == 3) with
  | some h => ({ s with cmp := { s.cmp with hostXlt := s.cmp.hostXlt.erase h } }, .bad)
  | none =>
    let s1 := s.startHost hostAgent c f p va wr
    ({ s1 with cmp := { s1.cmp with hostXlt := s1.cmp.hostXlt.map (fun h => if mine h then { h with phase := 2 } else h) } }, .later)

/-- What an access of a pair left behind: consumed when it is over. -/
def State.pairAux (s : State) (q : Nat) : Option (State × Got) :=
  match (s.qp q).aux with
  | .none => none
  | .due => some (s, .later)
  | .got b => some (s.updQp q (fun p => { p with aux := .none }), .bytes b)
  | .failed => some (s.updQp q (fun p => { p with aux := .none }), .bad)

/-- A pair's access is on its way. -/
def State.pairDue (s : State) (q : Nat) : State := s.updQp q (fun p => { p with aux := .due })

/-- A pair's access is over. -/
def State.pairGot (s : State) (q : Nat) (b : List Byte) (ok : Bool) : State :=
  s.updQp q (fun p => if p.aux = .due then { p with aux := if ok then .got b else .failed } else p)

/-- A pair reads bytes, within one line, at a virtual address of a context (R408). -/
def State.pairRead (s : State) (q c va len : Nat) : State × Got :=
  match s.pairAux q with
  | some r => r
  | none =>
    let s := s.agentWalk c va
    match s.agentXlt c va false with
    | .fault _ => (s, .bad)
    | .walk => (s, .bad)
    | .host f p => s.agentHost c f p va false
    | .hit d =>
      match d.target with
      | 0 =>
        let (s1, b, code) := s.readBytes d.addr len
        (s1, if code = 0 then .bytes b else .bad)
      | 1 =>
        let (s1, code) := s.egress (s.noremote c) (.pair q)
          { dst := d.addr / 2 ^ 46, cls := 1, op := opRd, addr := d.addr % 2 ^ 46 / 128 * 128, len := 128
            payload := toBytes (maskOf (d.addr % 128) len) 16 }
        if code = 0 then (s1.pairDue q, .later) else (s1, .bad)
      | _ =>
        let (f, p) := s.ctxFunc c
        let tag := SMap.fresh s.host.reads
        let s1 : State := { s with host := { s.host with reads := SMap.put s.host.reads tag (.waitWord q) } }
        ((s1.pairDue q).emit (.hostRead f (some p) tag d.addr len), .later)

/-- A pair writes bytes, within one line, at a virtual address of a context; `bytes []` is its success (R408). -/
def State.pairWrite (s : State) (q c va : Nat) (b : List Byte) : State × Got :=
  match s.pairAux q with
  | some r => r
  | none =>
    let s := s.agentWalk c va
    match s.agentXlt c va true with
    | .fault _ => (s, .bad)
    | .walk => (s, .bad)
    | .host f p => s.agentHost c f p va true
    | .hit d =>
      match d.target with
      | 0 =>
        let (s1, code) := s.writeBytes d.addr b
        (s1, if code = 0 then .bytes [] else .bad)
      | 1 =>
        let o := d.addr % 128
        let (s1, code) := s.egress (s.noremote c) (.pair q)
          { dst := d.addr / 2 ^ 46, cls := 1, op := opWr, addr := d.addr % 2 ^ 46 / 128 * 128, len := 128
            payload := toBytes (maskOf o b.length) 16 ++ lineBytes (lineOf (List.replicate o 0 ++ b)) }
        if code = 0 then (s1.pairDue q, .later) else (s1, .bad)
      | _ =>
        let (f, p) := s.ctxFunc c
        (s.emit (.hostWrite f (some p) d.addr b), .bytes [])

end Sys2Proof.Machine
end

