-- ==== Sys2Proof/Machine/Queue.lean ====
section
/-! DEFINITION. Queue pairs (R403 to R410): doorbells, the fetch of commands, SIGNAL and WAIT, completion entries and their
messages. -/

namespace Sys2Proof.Machine

/-! ### Rings and doorbells -/

/-- The entries of a pair's submission and completion rings. -/
def State.sqSize (s : State) (q : Nat) : Nat := 2 ^ s.fget F.CNP_QP_CFG_SQ_SIZE q
def State.cqSize (s : State) (q : Nat) : Nat := 2 ^ s.fget F.CNP_QP_CFG_CQ_SIZE q

/-- A pair enters Error (R406). -/
def State.qpError (s : State) (q code : Nat) : State :=
  if s.fget F.CNP_QP_STATUS_ERR q ≠ 0 then s else (s.fset F.CNP_QP_STATUS_ERR code q).event edge0 517

/-- Whether a function decodes its BARs: it exists, it is in D0, and no reset of it runs (R394, R399). -/
def State.decodes (s : State) (f : Nat) : Bool :=
  s.funcExists f && !(s.func f).d3hot && !(s.func f).inFlr && s.host.served && s.pwr.inReset.isNone

/-- The enabled pair that a doorbell page belongs to (R400). -/
def State.pagePair (s : State) (page : DoorPage) : Option Nat :=
  match page with
  | .pf q => if s.decodes 0 ∧ s.flag F.CNP_QP_CFG_EN q.val then some q.val else none
  | .vf v i =>
    if v.val ≠ 0 ∧ s.decodes v.val then
      (List.range 4096).find? (fun q => s.flag F.CNP_QP_CFG_EN q && s.fget F.CNP_QP_CFG_FUNC q == v.val &&
        s.fget F.CNP_QP_CFG_VFIDX q == i.val)
    else none

/-- A write of SQ_TAIL (R404). -/
def execDoorbellSqTail (page : DoorPage) (value : W32) (s : State) : Res :=
  match s.pagePair page with
  | none => .next s
  | some q =>
    if s.sqSize q ≤ value.toNat then .next (s.qpError q 3)
    else .next (s.updQp q (fun p => { p with sqTail := value.toNat }))

/-- A write of CQ_HEAD (R404): it may not pass the device's tail. -/
def execDoorbellCqHead (page : DoorPage) (value : W32) (s : State) : Res :=
  match s.pagePair page with
  | none => .next s
  | some q =>
    let n := s.cqSize q
    let old := (s.qp q).cqHead
    let step := fun (a : Nat) => (a + n - old) % n
    if n ≤ value.toNat ∨ step (s.fget F.CNP_QP_STATUS_CQ_TAIL q) < step value.toNat then .next (s.qpError q 4)
    else .next (s.updQp q (fun p => { p with cqHead := value.toNat }))

/-! ### Command packets (R405, R407) -/

/-- A command packet, field by field. -/
structure Packet where
  op : Nat
  cid : Nat
  addr : Nat
  value : Nat
  d : Nat
  ot : Bool
  v : Nat
  reserved : Bool

/-- The fields of 64 bytes. -/
def Packet.of (l : List Byte) : Packet :=
  let w := fun (i : Nat) => ofBytes ((l.drop (8 * i)).take 8)
  { op := bits (w 0) 0 8
    cid := bits (w 0) 16 16
    addr := w 1
    value := w 2
    d := bits (w 3) 0 5
    ot := bit (w 3) 5
    v := bits (w 3) 32 32
    reserved := bits (w 0) 8 8 != 0 || bits (w 0) 32 32 != 0 || bits (w 3) 6 26 != 0 || w 4 != 0 || w 5 != 0 || w 6 != 0 ||
      w 7 != 0 }

/-- Whether a packet is malformed whatever its context is (R407). -/
def Packet.bad (p : Packet) : Bool :=
  p.reserved || decide (4 ≤ p.op) || (p.op == 1 && p.addr % 64 != 0) || ((p.op == 2 || p.op == 3) && p.addr % 8 != 0) ||
    (p.op != 1 && (p.d != 0 || p.ot)) || ((p.op == 0 || p.op == 2) && p.v != 0)

/-- Whether a LAUNCH is malformed for a context of a class (R407). -/
def Packet.badLaunch (p : Packet) (cls : Nat) : Bool :=
  p.op == 1 && (if cls = 0 then !(decide (1 ≤ p.d) && decide (p.d ≤ 16)) else p.d != 0 || p.ot || p.v != 0)

/-- Whether one more completion finds the CQ full (R410). -/
def State.cqFull (s : State) (q : Nat) : Bool :=
  (s.fget F.CNP_QP_STATUS_CQ_TAIL q + 1) % s.cqSize q == (s.qp q).cqHead % s.cqSize q

/-- Whether a pair may start its next command: it is enabled and not stopping, not in Error, holds no SIGNAL or WAIT, no
completion of it waits on a full CQ, and its queue is not empty (R404 to R406, R408, R410). -/
def State.qpReady (s : State) (q : Nat) : Bool :=
  let p := s.qp q
  s.flag F.CNP_QP_CFG_EN q && !p.stopping && s.fget F.CNP_QP_STATUS_ERR q == 0 && p.held.isNone &&
    (p.waiting.isEmpty || !s.cqFull q) && s.fget F.CNP_QP_STATUS_SQ_HEAD q != p.sqTail

/-- The packet at the head of a pair's queue: `none` where the pair may start no command; without bytes where a read of host
memory is on its way, or the read failed (R403, R406). -/
def State.fetchCmd (s : State) (q : Nat) : Option (State × Option (List Byte)) :=
  if ¬ s.qpReady q then none
  else
    let p := s.qp q
    match p.fetched with
    | some b => some (s, some b)
    | none =>
      if p.fetching then some (s, none)
      else
        let a := s.fget F.CNP_QP_SQ_ADDR q * 4096 + s.fget F.CNP_QP_STATUS_SQ_HEAD q * 64
        if s.flag F.CNP_QP_SQ_HOST q then
          let tag := SMap.fresh s.host.reads
          let s1 : State := { s with host := { s.host with reads := SMap.put s.host.reads tag (.sqEntry q) } }
          some ((s1.updQp q (fun p => { p with fetching := true })).emit
            (.hostRead (s.fget F.CNP_QP_CFG_FUNC q) none tag a 64), none)
        else
          let (s1, b, code) := s.readBytes a 64
          if code = 0 then some (s1, some b) else some (s1.qpError q 1, none)

/-- The head of a pair's queue moves on. -/
def State.popCmd (s : State) (q : Nat) : State :=
  (s.fset F.CNP_QP_STATUS_SQ_HEAD ((s.fget F.CNP_QP_STATUS_SQ_HEAD q + 1) % s.sqSize q) q).updQp q
    (fun p => { p with fetched := none })

/-- Whether a pair's context is registered and belongs to the pair's function (R408). -/
def State.pairAllowed (s : State) (q : Nat) : Bool :=
  let c := s.fget F.CNP_QP_CFG_CONTEXT q
  (s.ctx c).isSome && (s.ctxFunc c).1 == s.fget F.CNP_QP_CFG_FUNC q

/-- A pair starts its next command, which must be one that `mine` names: a malformed packet completes with BAD_COMMAND, and one
that is not allowed with NOT_ALLOWED (R407, R408); otherwise `act` runs it. -/
def State.withCmd (s : State) (q : Nat) (mine : Nat → Bool) (act : State → Packet → Res) : Res :=
  match s.fetchCmd q with
  | none => stop
  | some (s1, none) => .next s1
  | some (s1, some b) =>
    let p := Packet.of b
    if ¬ mine p.op then stop
    else if p.bad then .next ((s1.popCmd q).qpPost q p.cid 8)
    else if ¬ s1.pairAllowed q then .next ((s1.popCmd q).qpPost q p.cid 7)
    else act s1 p

/-- A NOP completes at once (R408); a packet with a reserved OP is taken by this row as well (R407). -/
def execQueueNop (q : Fin 4096) (s : State) : Res :=
  s.withCmd q.val (fun op => op == 0 || decide (4 ≤ op)) (fun s p => .next ((s.popCmd q.val).qpPost q.val p.cid 0))

/-! ### SIGNAL and WAIT (R408) -/

/-- The held command of a pair completes. -/
def State.heldDone (s : State) (q status : Nat) : State :=
  match (s.qp q).held with
  | none => s
  | some c => (s.updQp q (fun p => { p with held := none })).qpPost q c.cid status

/-- A SIGNAL holds the pair. -/
def execQueueSignal (q : Fin 4096) (s : State) : Res :=
  s.withCmd q.val (fun op => op == 2) (fun s p =>
    .next ((s.popCmd q.val).updQp q.val (fun x => { x with held := some { cid := p.cid, op := 2, addr := p.addr, value := p.value } })))

/-- Once every earlier command of the pair has completed, the held SIGNAL writes VALUE as a release at stand scope and completes. -/
def execSignalWrite (q : Fin 4096) (s : State) : Res :=
  let k := q.val
  match (s.qp k).held with
  | none => stop
  | some c =>
    need (c.op == 2 && (s.qp k).started.isEmpty)
      (match s.pairWrite k (s.fget F.CNP_QP_CFG_CONTEXT k) c.addr (toBytes c.value 8) with
       | (s1, .later) => .next s1
       | (s1, .bytes _) => .next (s1.heldDone k 0)
       | (s1, .bad) => .next (s1.heldDone k 9))

/-- The held WAIT reads its word, and completes when it is at least VALUE. -/
def State.waitRead (s : State) (q : Nat) (c : QCmd) : State :=
  match s.pairRead q (s.fget F.CNP_QP_CFG_CONTEXT q) c.addr 8 with
  | (s1, .later) => s1
  | (s1, .bytes b) => if c.value ≤ ofBytes b then s1.heldDone q 0 else s1
  | (s1, .bad) => s1.heldDone q 9

/-- A WAIT holds the pair and reads its word for the first time. -/
def execQueueWait (q : Fin 4096) (s : State) : Res :=
  s.withCmd q.val (fun op => op == 3) (fun s p =>
    let c : QCmd :=
      { cid := p.cid, op := 3, addr := p.addr, value := p.value, timeout := p.v, due := s.localNs + p.v * 1000 }
    .next (((s.popCmd q.val).updQp q.val (fun x => { x with held := some c })).waitRead q.val c))

/-- Every 2 µs the held WAIT reads its word again. -/
def execWaitPoll (q : Fin 4096) (s : State) : Res :=
  match (s.qp q.val).held with
  | none => stop
  | some c => need (c.op == 3) (.next (s.waitRead q.val c))

/-- What a pair reads is no longer wanted: a late answer finds nobody. -/
def State.pairForget (s : State) (q : Nat) : State :=
  let s1 := s.updQp q (fun p => { p with aux := .none })
  { s1 with
    host := { s1.host with reads := SMap.keep s1.host.reads (fun _ w => w != .waitWord q) }
    grg := { s1.grg with
      egress := SMap.mapVals s1.grg.egress (fun _ e => if e.issuer = .pair q then { e with issuer := .taproot } else e)
      egWait := s1.grg.egWait.filter (fun e => e.issuer != .pair q) } }

/-- The timeout of the held WAIT passes: it completes with WAIT_TIMEOUT, and the pair continues. -/
def execWaitTimeout (q : Fin 4096) (s : State) : Res :=
  match (s.qp q.val).held with
  | none => stop
  | some c =>
    need (c.op == 3 && c.timeout != 0) (.next (((s.reachLocal c.due).pairForget q.val).heldDone q.val 10))

/-! ### Completion entries (R409, R410) -/

/-- The bytes of a completion entry. -/
def Cqe.bytes (e : Cqe) (phase : Bool) (head : Nat) : List Byte :=
  toBytes (e.cid + e.status * 2 ^ 16 + nb e.late * 2 ^ 24 + nb e.u * 2 ^ 25 + nb phase * 2 ^ 31 + head * 2 ^ 32) 8 ++
    toBytes e.time 8 ++ toBytes e.info 8 ++ List.replicate 8 0

/-- A pair's message after an entry: at once, or covered by the running interval (R410). -/
def State.qpMessage (s : State) (q : Nat) : State :=
  if ¬ s.flag F.CNP_QP_CFG_IRQ_EN q then s
  else if (s.qp q).interval then s.updQp q (fun p => { p with covered := true })
  else
    (s.msixSend (s.fget F.CNP_QP_CFG_FUNC q) (s.fget F.CNP_QP_CFG_VECTOR q)).updQp q
      (fun p => { p with interval := s.fget F.CNP_QP_CFG_AGG q != 0 })

/-- A killed or faulted context has stores in the own package that are accepted and not complete: no completion or fault record
of it is written before (R268). -/
def State.storesOut (s : State) (c : Nat) : Bool :=
  (match s.ctx c with
    | some x => x.state == .killed || x.state == .faulted
    | none => true) &&
  s.cmp.accs.any (fun a => a.ctx == c && a.target == 0 && a.kind != .load)

/-- The first completion that waits is written once the CQ has room: the entry is performed before its message (R409, R410), and
after the accepted stores of a killed context (R268). A failed write to package memory puts the pair into Error (R406). -/
def execCompletionEntryWrite (q : Fin 4096) (s : State) : Res :=
  let k := q.val
  match (s.qp k).waiting with
  | [] => stop
  | e :: rest =>
    if s.storesOut (s.fget F.CNP_QP_CFG_CONTEXT k) then stop
    else if ¬ s.flag F.CNP_QP_CFG_EN k ∨ s.cqFull k then .next s
    else
      let tail := s.fget F.CNP_QP_STATUS_CQ_TAIL k
      let n := (tail + 1) % s.cqSize k
      let a := s.fget F.CNP_QP_CQ_ADDR k * 4096 + tail * 32
      let b := e.bytes (s.qp k).phase (s.fget F.CNP_QP_STATUS_SQ_HEAD k)
      let s1 := (s.fset F.CNP_QP_STATUS_CQ_TAIL n k).updQp k (fun p =>
        { p with waiting := rest, phase := if n = 0 then !p.phase else p.phase })
      if s.flag F.CNP_QP_CQ_HOST k then
        .next ((s1.emit (.hostWrite (s.fget F.CNP_QP_CFG_FUNC k) none a b)).qpMessage k)
      else
        let (s2, code) := s1.writeBytes a b
        .next (if code = 0 then s2.qpMessage k else s2.qpError k 2)

/-- The AGG interval of a pair ends: the entries that it covers are announced, which begins another (R410). -/
def execQpIrqInterval (q : Fin 4096) (s : State) : Res :=
  let k := q.val
  need (s.qp k).interval
    (.next (if (s.qp k).covered then
        (s.msixSend (s.fget F.CNP_QP_CFG_FUNC k) (s.fget F.CNP_QP_CFG_VECTOR k)).updQp k (fun p => { p with covered := false })
      else s.updQp k (fun p => { p with interval := false })))

end Sys2Proof.Machine
end

