-- ==== Sys2Proof/Machine/Save.lean ====
section
/-! DEFINITION. Pre-emption, save and restore of block clusters, and the bytes of a save area (R151, R206, R267, R338, R343,
R357 to R365, R514). -/

namespace Sys2Proof.Machine

/-! ### Places in a save area (R364) -/

/-- The bytes of one save slot. -/
def slotBytes : Nat := 0xA99800

/-- The address of core record `i` of a save slot. -/
def Ctx.record (x : Ctx) (slot i : Nat) : Nat := x.saveBase * 4096 + slot * slotBytes + i * 0x153300

/-- The places inside a core record. -/
def atUnit (r u : Nat) : Nat := r + u * 32768
def atVunit (r u : Nat) : Nat := r + 0x100000 + u * 1024
def atHeader (r : Nat) : Nat := r + 0x140000
def atGroup (r g : Nat) : Nat := r + 0x140200 + g * 1024
def atAcc (r e : Nat) : Nat := r + 0x14DE00 + e * 1024
def atEngine (r e : Nat) : Nat := r + 0x151E00 + e * 80
def atPayload (r k : Nat) : Nat := r + 0x152300 + k * 1024
def atRemote (r k : Nat) : Nat := r + 0x152B00 + k * 272

/-- A block record; a completed block whose memory its peers still reach stands in a free place: one of the 16, or one of 15 of
64 B in the reserved bytes of the record. -/
def atBlock (r b : Nat) : Nat := if b < 16 then r + 0x148200 + b * 1472 else r + 0x152F40 + (b - 16) * 64

/-- Writes bytes of a save area. -/
def State.put (s : State) (pa : Nat) (l : List Byte) : State := (s.writeBytes pa l).1

/-- A word of a save area. -/
def State.word (s : State) (pa n : Nat) : Nat := (s.readWord pa n).2.1

/-! ### Records (R364) -/

/-- The code of a kind of stack entry. -/
def StackKind.code (k : StackKind) : Nat :=
  match k with
  | .join => 0
  | .pending => 1
  | .loop => 2

/-- The kind of a code. -/
def stackKind (n : Nat) : StackKind := if n = 1 then .pending else if n = 2 then .loop else .join

/-- The group record of a group, with a generation. The kind of a stack entry stands in bits [59:57] of its first word, beside
its address. -/
def State.groupRecord (s : State) (g : Nat) (grp : Grp) (gen : Nat) : List Byte :=
  let (kind, id, n) := match grp.wait with
    | .barrier id n => (1, id, n)
    | .cluster => (2, 0, 0)
    | _ => (0, 0, 0)
  let seq : Option Nat := match grp.wait with
    | .fault x => x
    | _ => none
  let lost := grp.deferred.any (fun d => d.code == 0x26)
  (List.range 64).flatMap (fun k => toBytes (s.sReg g k) 8) ++
  (List.range 16).flatMap (fun k => toBytes (s.pReg g k) 4) ++
  toBytes grp.pc 8 ++ toBytes (grp.active + grp.exited * 2 ^ 32) 8 ++
  toBytes (grp.flags % 32 + grp.stack.length * 2 ^ 5 + kind * 2 ^ 11 + id * 2 ^ 13 + n * 2 ^ 15 + gen * 2 ^ 21 +
    nb lost * 2 ^ 23 + nb seq.isSome * 2 ^ 24 + grp.block * 2 ^ 25 + nb grp.halted * 2 ^ 32 + nb grp.stepping * 2 ^ 33) 8 ++
  toBytes (seq.getD 0) 8 ++
  (List.range 32).flatMap (fun k => match grp.stack.reverse[k]? with
    | some e => toBytes (e.addr + e.kind.code * 2 ^ 57) 8 ++ toBytes e.mask 4
    | none => toBytes 0 12) ++
  (List.range 32).map (fun k => BitVec.ofNat 8 (grp.vunits.getD k 0))

/-- A transfer in a block record: its descriptor, its sequence number and its first chunk not completed. -/
def Xfer.record (x : Xfer) : List Byte := x.desc ++ toBytes x.seq 4 ++ toBytes x.next 4

/-- A stream queue in a block record. -/
def SteQ.record (q : SteQ) : List Byte :=
  (List.range 8).flatMap (fun k => match q.xfers[k]? with
    | some x => x.record
    | none => List.replicate 72 0) ++
  (List.range 16).flatMap (fun k => toBytes ((q.held[k]?).map (fun h => h.2.toNat)|>.getD 0) 8)

/-- The first 64 bytes of a block record. -/
def blockHead (x : BClus) (rank groups vunits engines seq0 seq1 : Nat) (units : List Nat) : List Byte :=
  toBytes (x.number * x.size + rank) 8 ++ toBytes x.desc 8 ++
  toBytes (groups + vunits * 2 ^ 8 + units.length * 2 ^ 16 + engines * 2 ^ 24 + rank * 2 ^ 32 + x.size * 2 ^ 40) 8 ++
  toBytes seq0 4 ++ toBytes seq1 4 ++ (List.range 32).map (fun k => BitVec.ofNat 8 (units.getD k 0))

/-- The block record of a resident block. -/
def State.blockRecord (s : State) (bk : Nat) (b : Blk) (x : BClus) : List Byte :=
  let q0 := s.steq (bk * 2)
  let q1 := s.steq (bk * 2 + 1)
  blockHead x b.rank b.groups.length b.vunits b.engines.length q0.seq q1.seq b.units ++ q0.record ++ q1.record

/-- An engine queue's entry in 16 bytes: its kind, the issuing group slot, and its operands; a payload stands under its number
(the layout is the model's, log 40). -/
def EngEntry.code (q : EngEntry) (handle : Nat → Nat) (payload : Nat) : Nat :=
  match q with
  | .cfg n w gang => 1 + n * 16 + w * 2 ^ 9 + handle (gang.headD 0) * 2 ^ 40
  | .zero n => 2 + n * 16
  | .mma n a w ws wl k _ => 3 + n * 16 + a * 2 ^ 9 + w * 2 ^ 33 + ws * 2 ^ 57 + wl * 2 ^ 81 + k * 2 ^ 105
  | .accWr n _ => 4 + n * 16 + payload * 2 ^ 9
  | .accRd n d => 5 + n * 16 + d * 2 ^ 9
  | .member n l => 6 + n * 16 + handle l * 2 ^ 9

/-- The state of an engine in 80 bytes: the configuration word with the duration of its last tile, the next chunk, flags, and its
queue with the numbers of its payloads from `first`. -/
def State.engineRecord (s : State) (e : Eng) (forced : Bool) (first : Nat) : List Byte :=
  let handle := fun (k : Nat) => ((s.eng k).map (·.handle)).getD 0
  let flags := 1 + nb e.bad * 4 + nb e.poison * 8 + nb e.depthOvr * 16 + nb e.grainOvr * 32 + e.block * 2 ^ 6 + e.handle * 2 ^ 10 +
    e.act.leader * 2 ^ 14 + nb forced * 2 ^ 18
  let isWr := fun (q : EngEntry) => match q with
    | .accWr _ _ => true
    | _ => false
  toBytes (e.act.word + e.lastT * 2 ^ 32) 8 ++ toBytes e.chunk 4 ++ toBytes flags 4 ++
  (List.range 4).flatMap (fun k => match e.queue[k]? with
    | some q => toBytes (q.code handle (first + ((e.queue.take k).filter isWr).length)) 16
    | none => List.replicate 16 0)

/-- The payloads of unstarted `mx.acc.wr` entries of an engine (R361). -/
def Eng.payloads (e : Eng) : List (List W32) :=
  e.queue.filterMap (fun q => match q with
    | .accWr _ d => some d
    | _ => none)

/-- An abandoned remote load in the remote-load table: the address of each lane, then 16 B of its lanes, size, destination, flags
(valid, scalar), group slot and instruction (the layout of the 16 B is the model's, log 40). -/
def remoteRecord (l : List Access) : List Byte :=
  let reads := l.flatMap (fun a => a.reads.map (fun r => (a.line * 128 + r.off, r)))
  let lane := fun (k : Nat) => ((reads.find? (fun x => x.2.lane == k)).map (·.1)).getD 0
  let mask := reads.foldl (fun n x => n ||| 2 ^ x.2.lane) 0
  let r := ((reads.head?).map (·.2)).getD ⟨0, 0, 0, false, 0⟩
  let a := l.head?
  (List.range 32).flatMap (fun k => toBytes (lane k) 8) ++
  toBytes (mask + r.size * 2 ^ 32 + r.dst * 2 ^ 40 +
    (1 + nb r.scalar * 2) * 2 ^ 48 + ((a.map (·.slot)).getD 0) * 2 ^ 56) 8 ++
  toBytes ((a.map (·.pc)).getD 0) 8

/-! ### The drain before a save (R206, R267, R338, R360) -/

/-- The groups of a block cluster that are resident. -/
def State.groupsOfBc (s : State) (bc : Nat) : List Nat :=
  s.cmp.blocks.flatMap (fun e => if e.2.bc = bc then e.2.groupKeys (e.1 / 16) else [])

/-- The resident blocks of a block cluster. -/
def State.blocksOfBc (s : State) (bc : Nat) : List Nat := SMap.keys (SMap.keep s.cmp.blocks (fun _ b => b.bc == bc))

/-- Whether an access is a remote load, which a save abandons (R360). -/
def Access.abandoned (a : Access) : Bool := a.target == 1 && a.kind == .load

/-- Whether a chunk is a remote get whose data has not come, which a save abandons (R360). -/
def Chunk.abandoned (c : Chunk) : Bool := c.remote && !c.putting && decide (c.due ≠ 0)

/-- Whether everything that a save waits for is over: the stores of the groups and the write-backs of their cores are performed,
their loads but the remote ones have returned, and their chunks but remote gets have completed. -/
def State.drained (s : State) (bc : Nat) : Bool :=
  let gs := s.groupsOfBc bc
  let bks := s.blocksOfBc bc
  let cores := bks.map (fun b => b / 16)
  s.cmp.accs.all (fun a =>
    !((gs.contains (a.core * 32 + a.slot) && !a.abandoned) || (cores.contains a.core && a.slot == 32 && a.kind == .store))) &&
  s.cmp.chunks.all (fun e => !(decide (e.2.queue < 2 ^ 20) && bks.contains (e.2.queue / 2) && !e.2.abandoned))

/-- The near caches of a block cluster's cores are written back and invalidated (R206). -/
def State.cleanForSave (s : State) (bc : Nat) : State :=
  (((s.blocksOfBc bc).map (fun b => b / 16)).eraseDups.foldl (fun (s : State) k => s.nearClean k) s).pump

/-- The remote gets of a queue are given up: its transfer goes back to the first chunk that has not completed (R338, R360), or ends where
an earlier error ends it. -/
def State.rewind (s : State) (k : Nat) : State :=
  let mine := (s.inFlight k).filter (fun e => e.2.abandoned)
  match mine with
  | [] => s
  | e :: r =>
    let low := r.foldl (fun (a : Nat × Chunk) b => if b.2.index < a.2.index then b else a) e
    let s1 := (SMap.keys mine).foldl (fun (s : State) id => s.delChunk id) s
    if low.2.table.isSome then s1.xferSettle k
    else (s1.updHead k (fun x => { x with next := low.2.index, row := low.2.row, pos := low.2.pos })).xferSettle k

/-! ### Writing (R364) -/

/-- Sets bits of the core header of a record. -/
def State.orWord (s : State) (pa n v : Nat) : State := s.put pa (toBytes (s.word pa n ||| v) n)

/-- The first save to a slot since its cluster was taken: no record of it is valid. -/
def State.clearSlot (s : State) (x : Ctx) (slot : Nat) : State :=
  (List.range 8).foldl (fun (s : State) i =>
    let r := x.record slot i
    let s1 := s.put (atHeader r) (List.replicate 512 0)
    let s2 := s1.put (atEngine r 0) (List.replicate 1280 0)
    (s2.put (atRemote r 0) (List.replicate 1088 0)).put (atBlock r 16) (List.replicate 960 0)) s

/-- Writes the image of a local-memory unit: poisoned granules make poisoned lines; a poisoned granule that the save reads is
logged (R188, R364). -/
def State.saveUnit (s : State) (core u r : Nat) : State :=
  let base := core * 2 ^ 20 + u * 2 ^ 15
  let s0 := s.lmFind ((List.range 2048).map (fun k => base + 16 * k))
  let s1 := (List.range 256).foldl (fun (s : State) i =>
    let a := base + i * 128
    let bad := (List.range 8).any (fun k => s.lmPoisoned (a + 16 * k))
    let d := lineOf ((List.range 128).map (fun k => s.lmByte (a + k)))
    (s.putLine ((atUnit r u + i * 128) / 128) fullMask d bad).1) s0
  let s2 := s1.orWord (atHeader r + 8) 4 (2 ^ u)
  (s2.cmp.lmPoison.filter (fun g => g / 2 ^ 11 == core * 32 + u)).foldl (fun (s : State) g => s.lmErrLog (g * 16) 5) s2

/-- Writes the image of the vector register units of a group. -/
def State.saveRegs (s : State) (g : Nat) (grp : Grp) (r : Nat) : State :=
  grp.vunits.zipIdx.foldl (fun (s : State) u =>
    let l := (List.range 8).flatMap (fun k => (List.range 32).flatMap (fun lane => toBytes (s.vReg g (u.2 * 8 + k) lane) 4))
    (s.put (atVunit r u.1) l).orWord (atHeader r + 0x10 + u.1 / 64 * 8) 8 (2 ^ (u.1 % 64))) s

/-- Writes the record of a group; its generation rises, and a record that waits for ring space is dropped (R360, R390). -/
def State.saveGroup (s : State) (c slot i g r : Nat) : State :=
  match s.grp g with
  | none => s
  | some grp =>
    let s1 := (s.put (atGroup r (g % 32)) (s.groupRecord g grp ((grp.gen + 1) % 4))).orWord (atHeader r + 4) 4 (2 ^ (g % 32))
    let s2 := s1.saveRegs g grp r
    let kept : Kept := { deferred := grp.deferred, trapped := grp.trapped, cause := grp.cause }
    let key := (slot * 8 + i) * 32 + g % 32
    let s3 := s2.updCtx c (fun x => { x with
      kept := x.kept.filter (fun e => e.1 != key) ++ (if kept = {} then [] else [(key, kept)]) })
    if grp.wait = .ring then
      { s3 with evc := { s3.evc with waiting := s3.evc.waiting.filter (fun q => !(q.core == g / 32 && q.slot == g % 32 && !q.ticket)) } }
    else s3

/-- Writes the state of the engines of a block; accumulators only when forced (R151, R361, R364). -/
def State.saveEngines (s : State) (core slot r : Nat) (forced : Bool) : State :=
  (SMap.keep s.cmp.engs (fun k e => k / 16 == core && e.block == slot)).foldl (fun (s : State) e =>
    let first := (SMap.keep s.cmp.engs (fun k _ => k / 16 == core && decide (k < e.1))).foldl
      (fun (n : Nat) o => n + o.2.payloads.length) 0
    let s1 := s.put (atEngine r (e.1 % 16)) (s.engineRecord e.2 forced first)
    let s2 := e.2.payloads.zipIdx.foldl (fun (s : State) p => s.put (atPayload r (first + p.2)) (p.1.flatMap (fun w => toBytes w.toNat 4))) s1
    if forced then s2.put (atAcc r (e.1 % 16)) ((List.range 256).flatMap (fun i => toBytes (SMap.get e.2.acc 0 i).toNat 4)) else s2) s

/-- Writes the remote loads of a block's groups into free entries of the remote-load table (R360). -/
def State.saveRemote (s : State) (gs : List Nat) (r : Nat) : State :=
  let mine := s.cmp.accs.filter (fun a => gs.contains (a.core * 32 + a.slot) && a.abandoned && !a.reads.isEmpty)
  ((mine.map (·.ins)).eraseDups).foldl (fun (s : State) n =>
    let free := (List.range 4).find? (fun k => s.word (atRemote r k + 256) 8 == 0)
    s.put (atRemote r (free.getD 3)) (remoteRecord (mine.filter (fun a => a.ins == n)))) s

/-- The number under which a transfer of a block's queue is kept with its context. -/
def keptKey (slot i queue seq : Nat) : Nat := ((slot * 8 + i) * 32 + queue % 32) * 2 ^ 32 + seq

/-- What the records of a block's transfers have no place for is kept with the context. -/
def State.saveXfers (s : State) (c slot bk : Nat) : State :=
  let i := bk / 16 % 8
  let mine := [bk * 2, bk * 2 + 1].flatMap (fun k =>
    (s.steq k).xfers.map (fun x => (keptKey slot i k x.seq, (⟨x.slot, x.row, x.pos⟩ : KeptXfer))))
  s.updCtx c (fun x => { x with
    keptXfers := x.keptXfers.filter (fun e => e.1 / 2 ^ 33 != keptKey slot i (bk * 2) 0 / 2 ^ 33) ++ mine })

/-- Writes the record of one block of a block cluster, with its groups, its units and its engines. -/
def State.saveBlock (s : State) (c : Nat) (ctx : Ctx) (slot bk : Nat) (b : Blk) (x : BClus) (forced : Bool) : State :=
  let i := bk / 16 % 8
  let r := ctx.record slot i
  let s0 := [0, 1].foldl (fun (s : State) e => s.rewind (bk * 2 + e)) s
  let s1 := s0.put (atBlock r (bk % 16)) (s0.blockRecord bk b x)
  let s2 := s1.put (atHeader r) (toBytes (1 + 2 ^ 8 + nb (forced || bit (s1.word (atHeader r) 8) 9) * 2 ^ 9) 2)
  let s3 := (s2.orWord (atHeader r + 2) 2 (2 ^ (bk % 16))).put (atHeader r + 12) (toBytes b.rank 1)
  let s4 := b.units.foldl (fun (s : State) u => s.saveUnit (bk / 16) u r) s3
  let s5 := (b.groupKeys (bk / 16)).foldl (fun (s : State) g => s.saveGroup c slot i g r) (s4.saveXfers c slot bk)
  (s5.saveEngines (bk / 16) (bk % 16) r forced).saveRemote (b.groupKeys (bk / 16)) r

/-- Writes what a completed block of a block cluster still holds: its local memory, for its peers (R78). -/
def State.saveHeld (s : State) (ctx : Ctx) (slot rank : Nat) (units : List Nat) (x : BClus) : State :=
  match x.blocks[rank]? with
  | none => s
  | some (core, _) =>
    let r := ctx.record slot (core % 8)
    let used := s.slotsUsedOn core
    let bitsInUse := s.word (atHeader r + 2) 2
    let place := ((List.range 31).find? (fun j =>
      if j < 16 then !used.contains j && !bit bitsInUse j else s.word (atBlock r j + 16) 8 == 0)).getD 30
    let s1 := s.put (atBlock r place) (blockHead x rank 0 0 0 0 0 units)
    let s2 := s1.put (atHeader r) (toBytes (1 + 2 ^ 8 + nb (bit (s1.word (atHeader r) 8) 9) * 2 ^ 9) 2)
    let s3 := if place < 16 then s2.orWord (atHeader r + 2) 2 (2 ^ place) else s2
    units.foldl (fun (s : State) u => s.saveUnit core u r) s3

/-- A block cluster is written to the save slot of its cluster (R364). -/
def State.writeBc (s : State) (bc : Nat) (forced : Bool) : State :=
  match SMap.find s.cmp.bclus bc with
  | none => s
  | some x =>
    match s.ctx x.ctx with
    | none => s
    | some ctx =>
      let t := s.cluster x.cluster
      let s0 := if t.saved then s else (s.clearSlot ctx t.slot).updCluster x.cluster (fun y => { y with saved := true })
      let s1 := (s.blocksOfBc bc).foldl (fun (s : State) bk => match s.blk bk with
        | none => s
        | some b => s.saveBlock x.ctx ctx t.slot bk b x forced) s0
      let s2 := x.held.foldl (fun (s : State) e => s.saveHeld ctx t.slot e.1 e.2 x) s1
      s2.account x.ctx (fun a =>
        if forced then { a with forced := min (2 ^ 32 - 1) (a.forced + 1) } else { a with saves := min (2 ^ 32 - 1) (a.saves + 1) })

/-- A block cluster leaves its cores (R343, R350, R360): its remote loads are abandoned, its reservations cancelled. -/
def State.removeBc (s : State) (bc : Nat) : State :=
  let gs := s.groupsOfBc bc
  let bks := s.blocksOfBc bc
  let cores := (bks.map (fun b => b / 16)).eraseDups
  let s1 := gs.foldl (fun (s : State) g => (s.clearRegs g).dropRsv g) s
  let s2 := { s1 with
    halts := s1.halts.filter (fun h => !gs.contains (h.core * 32 + h.slot))
    cmp := { s1.cmp with
      groups := SMap.keep s1.cmp.groups (fun g _ => !gs.contains g)
      blocks := SMap.keep s1.cmp.blocks (fun b _ => !bks.contains b)
      engs := SMap.keep s1.cmp.engs (fun k e => !bks.contains (k / 16 * 16 + e.block))
      steqs := SMap.keep s1.cmp.steqs (fun q _ => !(decide (q < 2 ^ 20) && bks.contains (q / 2)))
      accs := s1.cmp.accs.filter (fun a => !(gs.contains (a.core * 32 + a.slot) && a.abandoned))
      bclus := SMap.del s1.cmp.bclus bc } }
  cores.foldl (fun (s : State) k => if s.cmp.blocks.any (fun e => e.1 / 16 == k) then s else s.bcastBack k) s2

/-! ### Pre-emption (R357 to R359) -/

/-- What a restore to a cluster had placed is given back: its slot stays saved (R347). -/
def State.unrestore (s : State) (k : Nat) : State :=
  let t := s.cluster k
  let bcs := SMap.keys (SMap.keep s.cmp.bclus (fun _ x => x.cluster == k))
  let s1 := bcs.foldl (fun (s : State) b => s.removeBc b) s
  ((s1.updCtx t.ctx (fun x => { x with slots := x.slots ++ [t.slot] })).updCluster k (fun y =>
    { y with state := .idle, ctx := 0, grace := none })).dutyMoved s

/-- A pre-emption of a cluster is requested: PREEMPT is pending for its groups and the grace interval runs (R357). -/
def State.preemptCluster (s : State) (k : Nat) : State :=
  let t := s.cluster k
  if t.state = .running then
    let grace := ((s.ctx t.ctx).map (·.grace)).getD 0
    s.updCluster k (fun y => { y with state := .stopping, grace := some (s.discNs + grace * 1000) })
  else if t.state = .restoring then s.unrestore k
  else s

/-- A block cluster whose groups all wait at tile marks, or are complete, is saved (R151, R358): first its near caches are written
back and its stores performed, and nothing else uses the banks of its cores (R184). -/
def execTileMarkSave (clus : Nat) (s : State) : Res :=
  match SMap.find s.cmp.bclus clus with
  | none => stop
  | some x =>
    let t := s.cluster x.cluster
    let gs := s.groupsOfBc clus
    let marks := gs.all (fun g => match s.grp g with
      | none => true
      | some grp => !grp.halted && !grp.stepping && grp.trapped.isNone && (grp.complete || grp.wait == .mark))
    let idle := ((s.blocksOfBc clus).map (fun b => b / 16)).all (fun k => s.lmQuiet k [])
    need ((t.state == .stopping || t.state == .saving) && t.grace.isSome && marks && idle)
      (let s1 := s.cleanForSave clus
       if ¬ s1.drained clus then .next s1
       else
         let s2 := (s1.writeBc clus false).removeBc clus
         .next (s2.clusterLeft x.cluster))

/-- The grace interval of a cluster ends (R359): its groups issue nothing further; once everything that they issued is over, each
block cluster that is left is saved by force, its engines stopped at their next chunk boundaries (R151). -/
def execGraceExpiry (cluster : Fin 1024) (s : State) : Res :=
  let k := cluster.val
  let t := s.cluster k
  match t.grace with
  | none => stop
  | some g =>
    need (t.state == .stopping || t.state == .saving)
      (let bcs := SMap.keys (SMap.keep s.cmp.bclus (fun _ x => x.cluster == k))
       let s0 := (s.reachDisc g).updCluster k (fun y => { y with state := .saving })
       let s1 := bcs.foldl (fun (s : State) b => s.cleanForSave b) s0
       if ¬ bcs.all (fun b => s1.drained b) then .next s1
       else
         let mine := SMap.keys (SMap.keep s1.cmp.engs (fun e _ => e / 128 == k))
         let s2 := bcs.foldl (fun (s : State) b => s.writeBc b true) (mine.foldl (fun (s : State) e => s.stopTile e) s1)
         let s3 := bcs.foldl (fun (s : State) b => s.removeBc b) s2
         .next (s3.clusterLeft k))

/-- The save of a cluster ends (R343, R347, R362): its slot waits for a cluster; a lent cluster is cleaned for its owner. -/
def execSaveComplete (cluster : Fin 1024) (s : State) : Res :=
  let k := cluster.val
  let t := s.cluster k
  need (t.state == .saving && t.saved && !s.cmp.bclus.any (fun e => e.2.cluster == k))
    (let s1 := s.updCtx t.ctx (fun x => { x with slots := x.slots ++ [t.slot] })
     let st : ClState := if s.owner k = t.holder then .idle else .cleaning
     .next (((s1.updCluster k (fun y => { y with state := st, ctx := 0, grace := none, saved := false })).dutyMoved s).ctxStopped t.ctx))

/-- The cleaning of a cluster ends: the lines of the partition that held it have left its quadrant, its cores are zero-filled, and
no partition holds it (R74, R343). -/
def execClusterCleanComplete (cluster : Fin 1024) (s : State) : Res :=
  let k := cluster.val
  let t := s.cluster k
  match t.holder with
  | none => stop
  | some p =>
    if ¬ (t.state == .cleaning || t.state == .idle) then stop
    else
      match s.flushLines (fun q _ l => q == k / 4 && !l.hw && l.part == p) with
      | none => stop
      | some s1 =>
        let s2 := (coresOfCluster k).foldl (fun (s : State) core =>
          (((s.nearClean core).coreZero core).updCore core (fun c => { c with last := none, fresh := none }))) s1
        .next (s2.pump.updCluster k (fun y => { y with state := .idle, ctx := 0, holder := none }))

/-! ### Reading a record back (R365) -/

/-- The bytes of a save area. -/
def State.bytesAt (s : State) (pa n : Nat) : List Byte := (s.readBytes pa n).2.1

/-- A word of a byte string. -/
def wordAt (l : List Byte) (off n : Nat) : Nat := ofBytes ((l.drop off).take n)

/-- A local-memory unit takes its image; a poisoned line poisons its granules (R188). -/
def State.loadUnit (s : State) (core u r : Nat) : State :=
  (List.range 256).foldl (fun (s : State) i =>
    let (s1, d, c) := s.readLine ((atUnit r u + i * 128) / 128)
    let a := core * 2 ^ 20 + u * 2 ^ 15 + i * 128
    (List.range 8).foldl (fun (s : State) k => s.setLmPoison (a + 16 * k) (c != 0)) (s1.lmPut a (lineBytes d))) s

/-- The registers of a group take the values of its record and of its vector register units. -/
def State.loadRegs (s : State) (g : Nat) (rec_ : List Byte) (units : List Nat) (r : Nat) : State :=
  let s1 := (List.range 64).foldl (fun (s : State) k => s.setS g k (wordAt rec_ (8 * k) 8)) s
  let s2 := (List.range 16).foldl (fun (s : State) k => s.setP g k (wordAt rec_ (0x200 + 4 * k) 4)) s1
  units.zipIdx.foldl (fun (s : State) u =>
    let l := s.bytesAt (atVunit r u.1) 1024
    (List.range 8).foldl (fun (s : State) k => (List.range 32).foldl (fun (s : State) lane =>
      s.setV g (u.2 * 8 + k) lane (wordAt l (k * 128 + lane * 4) 4)) s) s) s2

/-- The group of a record, as the member `index` of a block of a slot. A group that waited on a translation fault issues the faulting
instruction again (R126). -/
def groupOf_ (rec_ : List Byte) (ctx block index vunits : Nat) (kept : Kept) : Grp :=
  let w := wordAt rec_ 0x250 8
  let am := wordAt rec_ 0x248 8
  let depth := bits w 5 6
  let unknown := bit w 23 && !kept.deferred.any (fun d => d.code == 0x26)
  { ctx := ctx
    block := block
    index := index
    pc := wordAt rec_ 0x240 8
    active := am % 2 ^ 32
    exited := am / 2 ^ 32
    stack := ((List.range depth).map (fun k =>
      let e := wordAt rec_ (0x260 + 12 * k) 8
      (⟨stackKind (bits e 57 3), e % 2 ^ 57, wordAt rec_ (0x268 + 12 * k) 4⟩ : StackEntry))).reverse
    flags := w % 32
    gen := bits w 21 2
    wait := if bits w 11 2 = 1 then .barrier (bits w 13 2) (bits w 15 6) else if bits w 11 2 = 2 then .cluster else .none
    complete := am / 2 ^ 32 == 0xFFFFFFFF
    stepping := bit w 33
    cause := kept.cause
    noMatch := !bit w 32 && kept.cause == 1
    trapped := kept.trapped
    deferred := kept.deferred ++ (if unknown then [{ code := 0x26, pc := wordAt rec_ 0x240 8, scope := 5 }] else [])
    vunits := (List.range vunits).map (fun k => wordAt rec_ (0x3E0 + k) 1) }

/-- The entry of an engine's queue that 16 bytes hold. The instruction address of a tile is not recorded: it is a free value. -/
def entryOf (n : Nat) (b : Blk) (core : Nat) (payload : Nat → List W32) (pc : Nat) : Option EngEntry :=
  let slot := bits n 4 5
  match n % 16 with
  | 1 => some (.cfg slot (bits n 9 31) (b.gangKeys core (bits n 40 5) (cfgSize (bits n 9 31))))
  | 2 => some (.zero slot)
  | 3 => some (.mma slot (bits n 9 24) (bits n 33 24) (bits n 57 24) (bits n 81 24) (bits n 105 16) pc)
  | 4 => some (.accWr slot (payload (bits n 9 8)))
  | 5 => some (.accRd slot (bits n 9 8))
  | 6 => some (.member slot ((b.engKey core (bits n 9 5)).getD 0))
  | _ => none

/-- The `mx.cfg` entries of the queues of a block's engines, each engine's in order, are gone through again, so that each engine has
the configuration it will have after all of them (R144); `n` bounds their number. An entry comes next once it stands first for
every engine of its gang; the order of entries that name no common engine does not matter. -/
def State.replayCfgs : Nat → List (Nat × List (Nat × List Nat)) → State → State
  | 0, _, s => s
  | n + 1, qs, s =>
    match qs.findSome? (fun e => (e.2.head?).bind (fun c =>
        if c.2.all (fun k => (List.lookup k qs).bind List.head? == some c) then some c else none)) with
    | none => s
    | some c => State.replayCfgs n (qs.map (fun e => if c.2.contains e.1 then (e.1, e.2.tail) else e))
        (s.regang (·.pend) (fun e g => { e with pend := g }) c.2 c.1)

/-- The `mx.cfg` entries of an engine's queue: the word and the gang. -/
def Eng.cfgs (e : Eng) : List (Nat × List Nat) :=
  e.queue.filterMap (fun q => match q with
    | .cfg _ w gang => some (w, gang)
    | _ => none)

/-- The engines of a block come back: accumulators from the record after a forced save, +0 after a save at tile marks (R151,
R365). -/
def State.loadEngines (s : State) (core slot r : Nat) (b0 : Blk) : State :=
  let heads := (List.range 16).map (fun p => (p, s.bytesAt (atEngine r p) 80))
  let mine := heads.filter (fun e => let f := wordAt e.2 12 4; bit f 0 && bits f 6 4 == slot)
  let handleOf := fun (l : List Byte) => bits (wordAt l 12 4) 10 4
  let engines := (List.range mine.length).filterMap (fun h => (mine.find? (fun e => handleOf e.2 == h)).map (·.1))
  let b := { b0 with engines := engines }
  let s1 := s.updBlk (core * 16 + slot) (fun _ => b)
  let s2 := mine.foldl (fun (s : State) e =>
    let f := wordAt e.2 12 4
    let cw := wordAt e.2 0 8
    let (pc, s') := s.take 57
    let payload := fun (k : Nat) => (List.range 256).map (fun i => BitVec.ofNat 32 (s.word (atPayload r k + 4 * i) 4))
    let queue := (List.range 4).filterMap (fun k => entryOf (wordAt e.2 (16 + 16 * k) 16) b core payload pc.toNat)
    let act : GangCfg := ⟨cw % 2 ^ 32, bits f 14 4, cfgSize (cw % 2 ^ 32)⟩
    let acc := if bit f 18 then (List.range 256).foldl (fun (m : SMap W32) i =>
      SMap.set m 0 i (BitVec.ofNat 32 (s.word (atAcc r e.1 + 4 * i) 4))) [] else []
    let v : Eng :=
      { block := slot, handle := handleOf e.2, act := act, pend := act, acc := acc, queue := queue, chunk := wordAt e.2 8 4,
        bad := bit f 2, poison := bit f 3, depthOvr := bit f 4, grainOvr := bit f 5, lastT := cw / 2 ^ 32 }
    { s' with cmp := { s'.cmp with engs := SMap.put s'.cmp.engs (core * 16 + e.1) v } }) s1
  let held := SMap.keep s2.cmp.engs (fun k e => k / 16 == core && e.block == slot)
  s2.replayCfgs 64 (held.map (fun e => (e.1, e.2.cfgs)))

/-- The size of the page that a global address of a context lies in, by its tables (R324). -/
def State.tableSize (s : State) (q ctx a : Nat) : Nat :=
  match (s.walk q ctx a).2 with
  | .leaf w _ => if bits w 8 2 = 2 then 4096 else 65536
  | _ => 65536

/-- The page of the block-table entry that a KVGATHER's next chunk needs, by the context's tables (R336). -/
def State.tablePage (s : State) (quad : Nat) (x : Xfer) : Nat :=
  let d := Desc.of x.desc
  let va := (d.x1 + 8 * ((d.first + x.row) / (65536 / d.tokb))) % 2 ^ 64
  match (s.walk quad x.ctx va).2 with
  | .leaf w level =>
    if bits w 8 2 = 0 then bits (wordAt (s.bytesAt (bits w 16 44 * 65536 + va % ptSpan level) 8) 0 8) 16 41 * 65536 else 0
  | _ => 0

/-- The place of a transfer after its first `n` chunks (R338): its pages are those of the context's tables. -/
def State.advance (s : State) (bk quad : Nat) (x : Xfer) (n : Nat) : Xfer :=
  let d := Desc.of x.desc
  let ps := fun (a : Nat) => if d.srcL then 0 else s.tableSize quad x.ctx a
  let pd := fun (a : Nat) => if d.dstL then 0 else s.tableSize quad x.ctx a
  (List.range n).foldl (fun (x : Xfer) _ =>
    match s.plan bk ps pd x (if d.op = 5 then s.tablePage quad x else 0) with
    | .ok (_, p) => { x with next := x.next + 1, row := p.row, pos := p.pos }
    | .error _ => { x with next := x.next + 1 }) x

/-- A stream queue comes back from a block record (R338): each transfer continues from its recorded chunk. The record has no place for
the group slot that issued it and for where that chunk begins: they are kept with the context; of an image that comes from another
package the slot is a free value, and the place follows from the chunks before (log 40). -/
def State.loadSteq (s : State) (k ctx core seq slot i : Nat) (l : List Byte) : State :=
  let recs := (List.range 8).filter (fun i => wordAt l (72 * i) 8 != 0 || wordAt l (72 * i + 64) 4 != 0)
  let (free, s1) := s.take 5
  let first := recs.length
  let kept := ((s.ctx ctx).map (·.keptXfers)).getD []
  let held := (List.range 16).filterMap (fun i =>
    let v := wordAt l (576 + 8 * i) 8
    if v = 0 then none else some ((seq + 2 ^ 32 - first - i) % 2 ^ 32, BitVec.ofNat 64 v))
  let xs := recs.map (fun n =>
    let x : Xfer := { desc := (l.drop (72 * n)).take 64, seq := wordAt l (72 * n + 64) 4, ctx := ctx, core := core, slot := free.toNat }
    let next := wordAt l (72 * n + 68) 4
    match kept.find? (fun e => e.1 == keptKey slot i k x.seq) with
    | some e => { x with slot := e.2.slot, next := next, row := e.2.row, pos := e.2.pos }
    | none => s1.advance (k / 2) (core / 32) x next)
  s1.updSteq k (fun _ => { seq := seq, xfers := xs, held := held })

/-- The rank, size and block-cluster number that the first bytes of a block record give. -/
def recordRank (l : List Byte) : Nat := wordAt l 20 1
def recordSize (l : List Byte) : Nat := max 1 (wordAt l 21 1)
def recordNumber (l : List Byte) : Nat := wordAt l 0 8 / recordSize l

/-- A block comes back on a core under the number of its block cluster. -/
def State.loadBlock (s : State) (c : Nat) (x : Ctx) (slot i core j bc : Nat) (l : List Byte) : State :=
  let r := x.record slot i
  let hdr := s.bytesAt (atHeader r) 512
  let groups := (List.range 32).filter (fun g => bit (wordAt hdr 4 4) g && bits (s.word (atGroup r g + 0x250) 8) 25 7 == j)
  let units := (List.range (wordAt l 18 1)).map (fun k => wordAt l (32 + k) 1)
  let vunits := wordAt l 17 1
  let blk : Blk := { bc := bc, rank := recordRank l, groups := groups, vunits := vunits, units := units }
  let s1 : State := { s with cmp := { s.cmp with blocks := SMap.put s.cmp.blocks (core * 16 + j) blk } }
  let s2 := units.foldl (fun (s : State) u => (s.setUnitPower core u 0).loadUnit core u r) s1
  let s3 := groups.zipIdx.foldl (fun (s : State) g =>
    let rec_ := s.bytesAt (atGroup r g.1) 1024
    let kept := ((x.kept.find? (fun e => e.1 == (slot * 8 + i) * 32 + g.1)).map (·.2)).getD {}
    let grp := groupOf_ rec_ c j g.2 vunits kept
    let key := core * 32 + g.1
    let s' : State := { s with cmp := { s.cmp with groups := SMap.put s.cmp.groups key grp } }
    (s'.clearRegs key).loadRegs key rec_ grp.vunits r) s2
  let s4 := s3.loadEngines core j r blk
  let full := s4.bytesAt (atBlock r j) 1472
  let k := (core * 16 + j) * 2
  (s4.loadSteq k c core (wordAt full 24 4) slot i ((full.drop 0x40).take 704)).loadSteq (k + 1) c core (wordAt full 28 4) slot i
    ((full.drop 0x300).take 704)

/-- A group that waits at a barrier has arrived at it again (R117, R118). -/
def State.rearrive (s : State) (g : Nat) (grp : Grp) : State :=
  let bk := blockKey g grp
  let join := fun (b : Blk) (id n : Nat) =>
    let r := (SMap.find b.rounds id).getD { n := n }
    { b with rounds := SMap.put b.rounds id { r with arrived := r.arrived ++ [g % 32] } }
  match grp.wait with
  | .barrier id n => s.updBlk bk (fun b => join b id n)
  | .cluster =>
    let size : Nat := (((s.blk bk).bind (fun b => SMap.find s.cmp.bclus b.bc)).map (fun (x : BClus) => x.size)).getD 1
    s.updBlk bk (fun b => if size = 1 then join b 3 0 else { b with arrived := b.arrived ++ [g % 32] })
  | _ => s

/-- An abandoned remote load is issued again for its group: one access per line (R360). Its addresses are stand addresses. The save has
cancelled an acquire that it was (R269). -/
def State.reissue (s : State) (c core : Nat) (l : List Byte) : State :=
  let w := wordAt l 256 8
  if ¬ bit w 48 then s
  else
    let g := core * 32 + bits w 56 5
    match s.grp g with
    | none => s
    | some grp =>
      let size := bits w 32 8
      let lanes := (lanesOf (w % 2 ^ 32)).map (fun k => (k, wordAt l (8 * k) 8))
      let lines := (lanes.map (fun x => x.2 / 128)).eraseDups
      let (ins, s1) := s.tick1
      lines.foldl (fun (s : State) line =>
        let mine := lanes.filter (fun x => x.2 / 128 == line)
        s.addAcc
          { ins := ins, core := core, slot := g % 32, ctx := c, kind := .load, line := line, target := 1
            va := ((mine.head?).map (·.2)).getD 0, pc := wordAt l 264 8, lanes := mine.foldl (fun n x => n ||| 2 ^ x.1) 0
            reads := mine.map (fun x => ⟨x.1, x.2 % 128, size, bit w 49, bits w 40 8⟩)
            gen := grp.gen }) s1

/-- The valid core records of a save slot: the record's number with the record of each block in it, and those of completed blocks. -/
def State.slotBlocks (s : State) (x : Ctx) (slot : Nat) : List (Nat × List (Nat × List Byte)) :=
  (List.range 8).filterMap (fun i =>
    let r := x.record slot i
    let h := s.word (atHeader r) 8
    if ¬ bit h 8 then none
    else
      let js := (List.range 16).filter (fun j => bit h (16 + j)) ++
        ((List.range 15).map (fun j => j + 16)).filter (fun j => s.word (atBlock r j + 16) 8 != 0)
      some (i, js.map (fun j => (j, s.bytesAt (atBlock r j) 64))))

/-- The block clusters of a saved slot are placed on a cluster: each valid core record on one of its open cores (R72, R365). -/
def State.restoreSlot (s : State) (c : Nat) (x : Ctx) (slot k kernel : Nat) (grid : Nat × Nat × Nat) (args : Nat)
    (recs : List (Nat × List (Nat × List Byte))) (cores : List Nat) : State :=
  let place := recs.zip cores
  let numbers := (recs.flatMap (fun e => e.2.map (fun b => recordNumber b.2))).eraseDups
  let base := SMap.fresh s.cmp.bclus
  let bcOf := fun (n : Nat) => base + (numbers.findIdx (fun m => m == n))
  let s1 := place.foldl (fun (s : State) p =>
    (s.coreReady p.2 c kernel x.cls).1) s
  let s2 := numbers.foldl (fun (s : State) n =>
    let mine := place.flatMap (fun p => (p.1.2.filter (fun b => recordNumber b.2 == n)).map (fun b => (p.2, b)))
    let size := ((mine.head?).map (fun m => recordSize m.2.2)).getD 1
    let blocks := (List.range size).map (fun r =>
      ((mine.find? (fun m => recordRank m.2.2 == r)).map (fun m => (m.1, m.2.1))).getD (0, 0))
    let done := mine.filter (fun m => wordAt m.2.2 16 1 == 0)
    let missing := (List.range size).filter (fun r => !mine.any (fun m => recordRank m.2.2 == r))
    let bc : BClus :=
      { ctx := c, kernel := kernel, number := n, cluster := k, desc := ((mine.head?).map (fun m => wordAt m.2.2 8 8)).getD 0
        args := args, size := size, grid := grid, blocks := blocks, restoring := true
        held := missing.foldl (fun (h : SMap (List Nat)) r => SMap.put h r [])
          (done.foldl (fun (h : SMap (List Nat)) m => SMap.put h (recordRank m.2.2)
            ((List.range (wordAt m.2.2 18 1)).map (fun u => wordAt m.2.2 (32 + u) 1))) []) }
    { s with cmp := { s.cmp with bclus := SMap.put s.cmp.bclus (bcOf n) bc } }) s1
  let s3 := place.foldl (fun (s : State) p => p.1.2.foldl (fun (s : State) b =>
    if wordAt b.2 16 1 = 0 then
      ((List.range (wordAt b.2 18 1)).map (fun u => wordAt b.2 (32 + u) 1)).foldl (fun (s : State) u =>
        (s.setUnitPower p.2 u 0).loadUnit p.2 u (x.record slot p.1.1)) s
    else s.loadBlock c x slot p.1.1 p.2 b.1 (bcOf (recordNumber b.2)) b.2) s) s2
  let gs := place.flatMap (fun p => (SMap.keys (SMap.keep s3.cmp.groups (fun g _ => g / 32 == p.2))))
  let s4 := gs.foldl (fun (s : State) g => match s.grp g with
    | none => s
    | some grp => s.rearrive g grp) s3
  let s5 := place.foldl (fun (s : State) p => (List.range 4).foldl (fun (s : State) j =>
    s.reissue c p.2 (s.bytesAt (atRemote (x.record slot p.1.1) j) 272)) s) s4
  let halted := place.flatMap (fun p => ((List.range 32).filter (fun g =>
    bit (s.word (atHeader (x.record slot p.1.1) + 4) 4) g && bit (s.word (atGroup (x.record slot p.1.1) g + 0x250) 8) 32)).map
      (fun g => p.2 * 32 + g))
  match s5.attOf c with
  | none => halted.foldl (fun (s : State) g => s.updGrp g (fun y => { y with stepping := false })) s5
  | some a => halted.foldl (fun (s : State) g =>
      let cause := ((s.grp g).map (·.cause)).getD 0
      s.haltOne a g 0xF1 cause) s5

end Sys2Proof.Machine
end

