-- ==== Sys2Proof/Machine/Contexts.lean ====
section
/-! DEFINITION. Contexts (R345 to R348, R366 to R369), launches and their admission (R351 to R355), restores (R365), the end of
exports, and accounting (R370 to R373). -/

namespace Sys2Proof.Machine

/-! ### Commands (R348) -/

/-- A command of Canopy: a write of `CNP_CMD` with GO. It is ignored while another is being accepted; `act` answers RESULT. -/
def State.cnpCmd (s : State) (who : Requester) (op ctx : Nat) (act : State → State × Nat) : Res :=
  s.regAction who .CNP_CMD 0 (op + ctx * 16 + 2 ^ 63) (fun s =>
    if s.flag F.CNP_CMD_STATUS_BUSY then s.fset F.CNP_CMD_STATUS_OVERRUN 1
    else
      let (s1, r) := act s
      s1.fset F.CNP_CMD_STATUS_RESULT r)

/-- A command other than PRUNE for a context in one of some states: RESULT 1 in another state, 2 where ARG0 is not 0. -/
def State.cnpAllowed (s : State) (ctx : Nat) (p : Ctx → Bool) (act : State → Ctx → State) : State × Nat :=
  match s.ctx ctx with
  | none => (s, 1)
  | some x =>
    if ¬ p x then (s, 1)
    else if s.fget F.CNP_CMD_ARG0_ARG0 ≠ 0 then (s, 2)
    else (act s x, 0)

/-! ### REGISTER (R345, R346, R369, R387) -/

/-- The context that an entry of the context table describes. -/
def entryCtx (l : List Byte) (defGrace : Nat) : Ctx :=
  let a := wordAt l 0 8
  let b := wordAt l 8 8
  let r := wordAt l 16 8
  let v := wordAt l 24 8
  { cls := bits a 0 2
    service := bit a 2
    noremote := bit a 3
    partition := bits a 8 10
    grace := if bits a 18 10 = 0 then defGrace else bits a 18 10
    minSlots := bits a 28 8
    saveClusters := bits b 0 11
    saveBase := bits b 12 34
    ringSize := bits r 0 5
    ringBase := bits r 12 34
    ringCtrl := bits v 6 40
    vector := bits v 46 11
    irqEn := bit v 57 }

/-- Whether an entry sets a reserved bit or a field lies outside its range (R345, R346, R387). -/
def entryBad (l : List Byte) : Bool :=
  let a := wordAt l 0 8
  let b := wordAt l 8 8
  let r := wordAt l 16 8
  let v := wordAt l 24 8
  let grace := bits a 18 10
  bits a 0 2 == 3 || bits a 5 3 != 0 || bits a 36 28 != 0 || (grace != 0 && (decide (grace < 10) || decide (1000 < grace))) ||
    bits b 0 11 == 0 || decide (1024 < bits b 0 11) || bit b 11 || bits b 46 18 != 0 ||
    decide (bits r 0 5 < 6) || decide (16 < bits r 0 5) || bits r 5 7 != 0 || bits r 46 18 != 0 ||
    bits v 0 6 != 0 || bits v 58 6 != 0 || ((l.drop 32).take 32).any (fun x => x != 0)

/-- The bytes of a context's save area (R364). -/
def Ctx.saveLen (x : Ctx) : Nat := x.saveClusters * slotBytes

/-- Whether two ranges of addresses overlap. -/
def overlap (a n b m : Nat) : Bool := decide (a < b + m) && decide (b < a + n)

/-- Whether the save area of a context is not as R346 asks. -/
def State.saveAreaBad (s : State) (x : Ctx) : Bool :=
  !s.populatedRange (x.saveBase * 4096) x.saveLen || s.hwOverlap (x.saveBase * 4096) x.saveLen

/-- Whether the fault ring of a context is not as R387 asks. -/
def State.faultRingBad (s : State) (c : Nat) (x : Ctx) : Bool :=
  let part := fun (a n : Nat) => !s.populatedRange a n || s.hwOverlap a n || overlap a n (x.saveBase * 4096) x.saveLen
  (x.irqEn && decide (vectorCount (s.ctxFunc c).1 ≤ x.vector)) || part (x.ringBase * 4096) (2 ^ x.ringSize * 64) ||
    part (x.ringCtrl * 64) 64

/-- The save slots of a context that hold a valid core record, each with its valid headers (R364, R369). -/
def State.savedSlots (s : State) (x : Ctx) : List (Nat × List (Nat × Nat)) :=
  ((List.range x.saveClusters).map (fun k =>
    (k, ((List.range 8).map (fun i => (i, s.word (atHeader (x.record k i)) 8))).filter (fun h => bit h.2 8)))).filter
      (fun e => !e.2.isEmpty)

/-- The kernel of an imported context: it was launched on another package, and every block cluster that is here was saved. -/
def importKernel (number desc : Nat) : Kernel :=
  { number := number, qp := 4096, cid := 0, desc := desc, entry := 0, gridX := 1, gridY := 1, gridZ := 1, groups := 1, cluster := 1,
    vunits := 1, lmUnits := 0, engines := 0, timed := false, args := 0, wcet := 0, next := 1 }

/-- The descriptor's address that the saved blocks of a context name (R364). -/
def State.savedDesc (s : State) (x : Ctx) (slots : List (Nat × List (Nat × Nat))) : Option Nat :=
  slots.findSome? (fun e => e.2.findSome? (fun h =>
    ((List.range 16).find? (fun j => bit h.2 (16 + j))).map (fun j => s.word (atBlock (x.record e.1 h.1) j + 8) 8)))

/-- Registers a context. -/
def State.putCtx (s : State) (c : Nat) (x : Ctx) : State :=
  { s with cmp := { s.cmp with ctxs := SMap.put s.cmp.ctxs c x } }

/-- REGISTER of a Free context: the new state and RESULT. A context of a VF is at Tenant level whatever its entry says (R122). -/
def State.register (s : State) (c : Nat) : State × Nat :=
  let (s1, l, code) := s.readBytes (2 ^ 22 * s.fget F.CNP_CTX_BASE_BASE + 64 * c) 64
  let e := entryCtx l (s.fget F.CNP_CTL_DEF_GRACE)
  let x := { e with service := e.service && (s1.ctxFunc c).1 == 0 }
  if code ≠ 0 ∨ entryBad l then (s1, 2)
  else if ¬ s1.flag F.CNP_PART_EN x.partition then (s1, 3)
  else if s1.saveAreaBad x then (s1, 4)
  else if s1.faultRingBad c x then (s1, 2)
  else
    if ¬ bit (wordAt l 0 8) 4 then ((s1.putCtx c { x with state := .idle }).cttLoad c, 0)
    else
      let slots := s1.savedSlots x
      if slots.any (fun e => e.2.any (fun h => bits h.2 0 8 != 1)) then (s1, 5)
      else
        let k := (s1.savedDesc x slots).map (importKernel s1.cmp.launchNo)
        let s2 := { s1 with cmp := { s1.cmp with launchNo := s1.cmp.launchNo + 1 } }
        ((s2.putCtx c { x with state := .saved, slots := slots.map (·.1), launches := k.toList }).cttLoad c, 0)

/-- REGISTER reads the entry of a Free context. -/
def execRegisterCtx (who : Requester) (ctx : BitVec 16) (s : State) : Res :=
  let c := ctx.toNat
  s.cnpCmd who 1 c (fun s =>
    if (s.ctx c).isSome then (s, 1)
    else if s.fget F.CNP_CMD_ARG0_ARG0 ≠ 0 then (s, 2)
    else s.register c)

/-! ### UNREGISTER, SUSPEND, RESUME, KILL -/

/-- A context that has written its final records is Free. -/
def State.unregister (s : State) (c : Nat) : State :=
  match s.ctx c with
  | none => s
  | some x =>
    if ¬ x.finalWait.isEmpty then s.updCtx c (fun y => { y with leaving := true })
    else
      let s1 := match s.attOf c with
        | some a => s.attEnd a
        | none => s
      { s1 with cmp := { s1.cmp with ctxs := SMap.del s1.cmp.ctxs c } }

/-- UNREGISTER writes the final accounting record and frees the Context ID (R348, R372, R373). -/
def execUnregisterCtx (who : Requester) (ctx : BitVec 16) (s : State) : Res :=
  let c := ctx.toNat
  s.cnpCmd who 2 c (fun s =>
    s.cnpAllowed c (fun x => !x.leaving &&
      (x.state == .idle || x.state == .faulted || x.state == .exported || x.state == .killed))
      (fun s _ => (s.acctFinal c 1).unregister c))

/-- The resident block clusters of a context are pre-empted, and it goes through Stopping (R347, R357). -/
def State.stopCtx (s : State) (c : Nat) : State :=
  let s1 := (s.clustersOf c).foldl (fun (s : State) k => s.preemptCluster k) s
  (s1.updCtx c (fun y => { y with state := .stopping })).ctxStopped c

/-- SUSPEND (R347, R348). -/
def execSuspendCtx (who : Requester) (ctx : BitVec 16) (s : State) : Res :=
  let c := ctx.toNat
  s.cnpCmd who 3 c (fun s =>
    s.cnpAllowed c (fun x => x.state == .queued || x.state == .running || x.state == .saved || x.state == .restoring)
      (fun s x =>
        let s1 := s.updCtx c (fun y => { y with suspended := true })
        if x.state = .running ∨ x.state = .restoring then s1.stopCtx c else s1))

/-- RESUME clears SUSPENDED. -/
def execResumeCtx (who : Requester) (ctx : BitVec 16) (s : State) : Res :=
  let c := ctx.toNat
  s.cnpCmd who 4 c (fun s =>
    s.cnpAllowed c (fun x => x.suspended) (fun s _ => s.updCtx c (fun y => { y with suspended := false })))

/-- KILL (R88, R267, R347). -/
def execKillCtx (who : Requester) (ctx : BitVec 16) (s : State) : Res :=
  let c := ctx.toNat
  s.cnpCmd who 5 c (fun s => s.cnpAllowed c (fun _ => true) (fun s _ => s.ctxEnd c .killed 5 3 0))

/-! ### PRUNE and export (R366 to R368) -/

/-- Whether an entry of an export list is malformed (R367). -/
def exportBad (l : List Byte) : Bool :=
  let w := wordAt l 24 8
  let len := bits (wordAt l 8 8) 0 48
  bits w 2 62 != 0 || (!bit w 1 && (len == 0 || len % 65536 != 0))

/-- The transfer of an entry: a copy in rows of 64 KiB. -/
def Ctx.exportXfer (x : Ctx) (c i : Nat) (l : List Byte) : Xfer :=
  let w := wordAt l 24 8
  let save := bit w 1
  let len := if save then x.saveLen else bits (wordAt l 8 8) 0 48
  let src := if save then x.saveBase * 4096 else bits (wordAt l 0 8) 0 57
  let whole := decide (len % 65536 = 0)
  let row := if whole then 65536 else slotBytes
  { desc := toBytes 0 8 ++ toBytes src 8 ++ toBytes (wordAt l 16 8) 8 ++ toBytes (row + len / row * 2 ^ 32) 8 ++
      toBytes (row + row * 2 ^ 32) 8 ++ toBytes 0 24
    seq := i
    ctx := c
    core := 0
    slot := 0
    srcPa := save
    dstKind := if bit w 0 then 2 else 1 }

/-- The launches of a context that have not begun: all but the kernel of which a block cluster has been placed. -/
def Ctx.unbegun (x : Ctx) : List Kernel := x.launches.filter (fun k => k.next == 0)

/-- PRUNE of a Borrowed context: the list is read, queued launches complete with PRUNED, resident block clusters are pre-empted,
and the export begins once every one is saved. -/
def State.prune (s : State) (c : Nat) (x : Ctx) : State × Nat :=
  let n := s.fget F.CNP_CMD_ARG1_ENTRIES
  let (s1, l, code) := s.readBytes (s.fget F.CNP_CMD_ARG1_LIST * 32) (n * 32)
  let es := (List.range n).map (fun i => (l.drop (32 * i)).take 32)
  if n = 0 ∨ code ≠ 0 ∨ es.any exportBad then (s1, 2)
  else
    let arg := s1.fget F.CNP_CMD_ARG0_ARG0
    let due := if arg = 0 then s1.now + s1.fget F.CNP_CTL_PRUNE_DEFAULT * 1000000000 else arg
    let s2 := x.unbegun.foldl (fun (s : State) k => s.qpComplete k.qp k.cid 6) s1
    let xs := es.zipIdx.map (fun e => x.exportXfer c e.2 e.1)
    let s3 : State := s2.updSteq (2 ^ 20 + c) (fun _ => { seq := n, xfers := xs })
    let s4 := s3.updCtx c (fun y => { y with
      launches := y.launches.filter (fun k => k.next != 0), deadline := due, exportList := es, pruning := true })
    if x.state = .running ∨ x.state = .restoring then (s4.stopCtx c, 0)
    else (s4.updCtx c (fun y => { y with state := .pruning, pruning := false }), 0)

/-- PRUNE (R366). -/
def execPruneCtx (who : Requester) (ctx : BitVec 16) (s : State) : Res :=
  let c := ctx.toNat
  s.cnpCmd who 6 c (fun s =>
    match s.ctx c with
    | none => (s, 1)
    | some x =>
      if x.cls ≠ 2 ∨ ¬ (x.state == .idle || x.state == .queued || x.state == .running || x.state == .saved || x.state == .restoring)
      then (s, 1)
      else s.prune c x)

/-- Every transfer of an export has completed (R368). -/
def execExportComplete (ctx : BitVec 16) (s : State) : Res :=
  let c := ctx.toNat
  match s.ctx c with
  | none => stop
  | some x =>
    need (x.state == .pruning && (s.steq (2 ^ 20 + c)).xfers.isEmpty) (.next (s.ctxEnd c .exported 6 2 0))

/-- The prune deadline passes first (R368); of several that are due, the earliest falls due first (R49). -/
def execPruneDeadline (ctx : BitVec 16) (s : State) : Res :=
  let c := ctx.toNat
  match s.ctx c with
  | none => stop
  | some x =>
    let first := s.cmp.ctxs.all (fun e => !(e.2.state == .pruning) || decide (x.deadline ≤ e.2.deadline))
    need (x.state == .pruning && first) (.next ((s.reach x.deadline).ctxEnd c .killed 5 4 0))

/-! ### Launches (R82, R347, R351 to R355, R407, R408) -/

/-- The first rule of R82 that a descriptor breaks, or 0. -/
def descRule (l : List Byte) (cls : Nat) : Nat :=
  let entry := wordAt l 0 8
  let g := wordAt l 8 8
  let r := wordAt l 16 8
  let t := wordAt l 32 8
  let x := bits g 0 32
  let y := bits g 32 16
  let z := bits g 48 16
  let groups := bits r 0 6
  let clus := bits r 6 4
  let vu := bits r 16 6
  let lm := bits r 22 6
  let en := bits r 28 5
  let timed := bit r 33
  let gap := bits t 32 32
  if bits entry 0 3 ≠ 0 ∨ 2 ^ 57 ≤ entry ∨ x = 0 ∨ y = 0 ∨ z = 0 ∨ groups = 0 ∨ 32 < groups ∨ clus = 0 ∨ 8 < clus ∨ vu = 0 ∨
      32 < vu ∨ 32 < lm ∨ 16 < en then 1
  else if bits r 10 6 ≠ 0 ∨ bits r 34 30 ≠ 0 ∨ ((l.drop 40).take 24).any (fun b => b != 0) then 2
  else if 2048 < groups * vu * 8 then 3
  else if ¬ timed ∧ cls = 0 then 4
  else if timed ∧ (gap = 0 ∨ 27500 < gap) then 5
  else if 2 ^ 64 < x * y * z * clus then 6
  else 0

/-- The kernel that a descriptor describes. -/
def descKernel (l : List Byte) (number qp cid desc : Nat) : Kernel :=
  let g := wordAt l 8 8
  let r := wordAt l 16 8
  { number := number
    qp := qp
    cid := cid
    desc := desc
    entry := wordAt l 0 8
    gridX := bits g 0 32
    gridY := bits g 32 16
    gridZ := bits g 48 16
    groups := bits r 0 6
    cluster := bits r 6 4
    vunits := bits r 16 6
    lmUnits := bits r 22 6
    engines := bits r 28 5
    timed := bit r 33
    args := wordAt l 24 8
    wcet := bits (wordAt l 32 8) 0 32
    next := 0 }

/-- The block clusters of a kernel. -/
def Kernel.total (k : Kernel) : Nat := k.gridX * k.gridY * k.gridZ

/-- How many block clusters of a kernel an empty hardware cluster holds (R79). -/
def Kernel.perCluster (k : Kernel) : Nat :=
  let cap := fun (n d : Nat) => if d = 0 then 16 else n / d
  let n := min 16 (min (cap 32 k.groups) (min (cap 256 (k.groups * k.vunits)) (min (cap 32 k.lmUnits) (cap 16 k.engines))))
  8 * n / max 1 k.cluster

/-- The clusters of a partition. -/
def State.ownedBy (s : State) (p : Nat) : List Nat := (List.range 1024).filter (fun k => s.owner k == some p)

/-- ⌈a / b⌉. -/
def ceilDiv (a b : Nat) : Nat := (a + b - 1) / b

/-- The entry bound E of a partition, in cycles (R354). -/
def State.entryBound (s : State) (p : Nat) : Nat :=
  let lend := s.flag F.CNP_PART_LEND p
  let elastic := (SMap.vals s.cmp.ctxs).filter (fun x => x.partition == p && x.cls == 1)
  if ¬ lend ∧ elastic.isEmpty then 0
  else
    let g := elastic.foldl (fun n x => max n x.grace) (if lend then s.fget F.CNP_PART_LEND_GRACE p else 0)
    let quiet := elastic.all (·.noremote) && (!lend || s.flag F.CNP_PART_LEND_NOREMOTE p)
    let owned := s.ownedBy p
    let q := (List.range 256).foldl (fun n u => max n (owned.filter (fun k => k / 4 == u)).length) 0
    1100 * (max g (if quiet then 0 else 100) + 45 * ceilDiv q 2 + 5)

/-- The worst case T of a kernel on its partition, in cycles (R354); `none` where the partition's clusters hold no block cluster
of it at all. -/
def State.worstCase (s : State) (p : Nat) (k : Kernel) : Option Nat :=
  let c := (s.ownedBy p).length * k.perCluster
  if c = 0 then none else some (ceilDiv k.total c * (2200 + k.wcet) + s.entryBound p + 3300)

/-- Whether a volume exceeds what a partition has reserved on a home die (R286, R354). -/
def State.overVolume (s : State) (p v : Nat) (ot : Bool) : Bool :=
  (List.range 16).any (fun h =>
    decide (s.fget F.HOM_RSV_HBM_UNITS (h * 1024 + p) < v) || (ot && decide (s.fget F.HOM_RSV_OT_UNITS (h * 1024 + p) < v)))

/-- The allocated local-memory units of a cluster. -/
def State.unitsOn (s : State) (k : Nat) : Nat := ((coresOfCluster k).map (fun c => (s.unitsUsed c).length)).sum

/-- The order in which clusters are victims: the fewest allocated units first, then the lowest ID (R351). -/
def State.victimOrder (s : State) (l : List Nat) : List Nat :=
  (sortNat (l.map (fun k => s.unitsOn k * 1024 + k))).map (fun n => n % 1024)

/-- The clusters of a partition that an arriving kernel may have back, in order (R351). -/
def State.victims (s : State) (p cls : Nat) : List Nat :=
  let held := fun (b : Nat) => (s.ownedBy p).filter (fun k =>
    (s.cluster k).state == .running && ((s.ctx (s.cluster k).ctx).map (fun y => y.cls == b)).getD false)
  s.victimOrder (held 2) ++ (if cls = 0 then s.victimOrder (held 1) else [])

/-- How many clusters the first wave of a kernel needs. -/
def State.firstWave (s : State) (x : Ctx) (k : Kernel) : Nat :=
  let per := k.perCluster
  if per = 0 then 0 else min (ceilDiv k.total per) (min x.saveClusters (s.ownedBy x.partition).length)

/-- Victims of an arriving kernel are pre-empted, just enough for its first wave beside the clusters that are free or becoming
free, and those the context holds; an Elastic kernel takes some only where none is free (R351). -/
def State.takeVictims (s : State) (c : Nat) (x : Ctx) (k : Kernel) : State :=
  let owned := s.ownedBy x.partition
  let free := owned.filter (fun j => s.mayTake c x j)
  let coming := owned.filter (fun j =>
    let t := s.cluster j
    (t.state == .stopping || t.state == .saving || t.state == .cleaning) || (t.state == .running && t.ctx == c))
  if x.cls = 1 ∧ ¬ free.isEmpty then s
  else
    let n := s.firstWave x k - (free.length + coming.length)
    (((s.victims x.partition x.cls).filter (fun j => s.canopyActs j)).take n).foldl (fun (s : State) j => s.preemptCluster j) s

/-- A launch that its context accepts: it is queued behind the earlier ones (R347, R348). -/
def State.enqueue (s : State) (q c : Nat) (k : Kernel) : State :=
  let s1 := s.updCtx c (fun y => { y with
    launches := y.launches ++ [k], state := if y.state = .idle then .queued else y.state })
  let s2 : State := { s1 with cmp := { s1.cmp with launchNo := s1.cmp.launchNo + 1 } }
  s2.updQp q (fun p => { p with started := p.started ++ [{ cid := k.cid, op := 1, addr := k.desc, launch := k.number }] })

/-- The admission of a Guaranteed launch (R353 to R355): rejected for its time or its volume, the one it is where both fail being
the hardware's choice; or given a start slot and a deadline. -/
def State.admitted (s : State) (q c : Nat) (x : Ctx) (p : Packet) (k : Kernel) : State :=
  let t := s.worstCase x.partition k
  let slow : Bool := match t with
    | some n => decide (p.d * 274958 < n)
    | none => true
  let big := s.overVolume x.partition p.v p.ot
  let late : State → State := fun s => match t with
    | some n => s.qpPost q p.cid 1 false n
    | none =>
      let (n, s1) := s.take 64
      s1.qpPost q p.cid 1 false n.toNat
  if slow ∧ big then
    let (n, s1) := s.pick 2
    if n = 0 then late s1 else s1.qpPost q p.cid 2
  else if slow then late s
  else if big then s.qpPost q p.cid 2
  else
    let from_ := max s.now (SMap.get s.cmp.guarEnds 0 x.partition)
    let slot := ceilDiv from_ 250000
    let k1 := { k with startSlot := slot, deadline := (slot + p.d) * 250000 }
    let ends := slot * 250000 + ceilDiv (t.getD 0 * 10) 11
    let s1 : State := { s with cmp := { s.cmp with guarEnds := SMap.put s.cmp.guarEnds x.partition ends } }
    (s1.enqueue q c k1).takeVictims c x k1

/-- The launch-fault record of an invalid descriptor (R82, R386). -/
def State.launchFault (s : State) (c : Nat) (x : Ctx) (desc rule : Nat) : State :=
  s.sendRecord
    { cls := 2, u := s.uFlag, time := s.now, context := c, partition := x.partition, die := edge0, addr := desc, info0 := rule }

/-- A LAUNCH whose descriptor has been read. -/
def State.launch (s : State) (q c : Nat) (x : Ctx) (p : Packet) (l : List Byte) : State :=
  let rule := descRule l x.cls
  if rule ≠ 0 then (s.launchFault c x p.addr rule).qpPost q p.cid 3 false rule
  else
    let k := descKernel l s.cmp.launchNo q p.cid p.addr
    if x.cls = 0 then s.admitted q c x p k
    else if x.cls = 1 then (s.enqueue q c k).takeVictims c x k
    else s.enqueue q c k

/-- A LAUNCH hands a kernel to Canopy (R408). A pair with 64 launches outstanding waits. A context that will run no further
launch completes it with the status of its state. A descriptor that cannot be read completes it with INVALID or ADDR_FAULT, which
of the two is a free value: the spec gives no status (log 70). -/
def execLaunchKernel (q : Fin 4096) (s : State) : Res :=
  let k := q.val
  s.withCmd k (fun op => op == 1) (fun s p =>
    let c := s.fget F.CNP_QP_CFG_CONTEXT k
    match s.ctx c with
    | none => .next ((s.popCmd k).qpPost k p.cid 7)
    | some x =>
      if p.badLaunch x.cls then .next ((s.popCmd k).qpPost k p.cid 8)
      else if 64 ≤ (s.qp k).started.length then .next s
      else if x.state = .faulted then .next ((s.popCmd k).qpPost k p.cid 4)
      else if x.state = .killed then .next ((s.popCmd k).qpPost k p.cid 5)
      else if x.state = .exported ∨ x.state = .pruning ∨ x.pruning then .next ((s.popCmd k).qpPost k p.cid 6)
      else
        match s.pairRead k c p.addr 64 with
        | (s1, .later) => .next s1
        | (s1, .bad) =>
          let (n, s2) := s1.pick 2
          .next ((s2.popCmd k).qpPost k p.cid (if n = 0 then 3 else 9))
        | (s1, .bytes l) => .next ((s1.popCmd k).launch k c x p l))

/-! ### Restores (R347, R365) -/

/-- The bytes of a kernel descriptor in memory of the package, where they can be read. -/
def State.readDesc (s : State) (c desc : Nat) : Option (State × List Byte) :=
  match s.agentXlt c desc false with
  | .hit d =>
    if d.target = 0 then
      let (s1, l, code) := s.readBytes d.addr 64
      if code = 0 then some (s1, l) else none
    else none
  | _ => none

/-- The kernel of a restore: that of the saved blocks. The grid and the argument block of an imported one are read from its
descriptor; where it cannot be read they are free values. -/
def State.restoreKernel (s : State) (c : Nat) (x : Ctx) : State × Kernel :=
  match x.launches with
  | [] => (s, importKernel s.cmp.launchNo 0)
  | k :: _ =>
    if k.qp ≠ 4096 ∨ k.groups ≠ 1 ∨ k.entry ≠ 0 then (s, k)
    else
      let s := s.agentWalk c k.desc
      match s.readDesc c k.desc with
      | some (s1, l) =>
        let k1 := descKernel l k.number 4096 0 k.desc
        (s1, { k1 with next := k1.total })
      | none =>
        let (gx, s1) := s.take 32
        let (gy, s2) := s1.take 16
        let (gz, s3) := s2.take 16
        let (a, s4) := s3.take 64
        (s4, { k with gridX := gx.toNat, gridY := gy.toNat, gridZ := gz.toNat, args := a.toNat,
                      next := gx.toNat * gy.toNat * gz.toNat })

/-- A saved cluster of a context is granted a cluster and its restore begins. -/
def execRestoreStart (ctx : BitVec 16) (slot : Fin 1024) (cluster : Fin 1024) (s : State) : Res :=
  let c := ctx.toNat
  let k := cluster.val
  match s.ctx c with
  | none => stop
  | some x =>
    let st := x.state == .saved || x.state == .running || x.state == .restoring
    let recs := s.slotBlocks x slot.val
    let open_ := (coresOfCluster k).filter (fun core => s.coreOpen core)
    need (st && !x.suspended && x.slots.contains slot.val && s.mayTake c x k && decide (recs.length ≤ open_.length))
      (let (s1, kern) := s.restoreKernel c x
       let (s2, cores) := s1.turn open_
       let s3 := s2.takeCluster c x k slot.val .restoring
       let s4 := s3.restoreSlot c x slot.val k kern.number (kern.gridX, kern.gridY, kern.gridZ) kern.args recs
         (cores.take recs.length)
       .next (s4.updCtx c (fun y => { y with
         state := if y.state = .saved then .restoring else y.state
         slots := y.slots.filter (fun i => i != slot.val)
         launches := (match y.launches with
           | [] => []
           | j :: rest => (if j.qp = 4096 then kern else j) :: rest)
         held := true
         kept := y.kept.filter (fun e => e.1 / 256 != slot.val)
         keptXfers := y.keptXfers.filter (fun e => e.1 / 2 ^ 40 != slot.val) })))

/-- A restore ends, and its block clusters issue: abandoned loads have been issued again before (R360, R365). -/
def execRestoreComplete (cluster : Fin 1024) (s : State) : Res :=
  let k := cluster.val
  let t := s.cluster k
  need (t.state == .restoring)
    (let s1 := s.updCluster k (fun y => { y with state := .running })
     let s2 : State := { s1 with cmp := { s1.cmp with
       bclus := SMap.mapVals s1.cmp.bclus (fun _ b => if b.cluster = k then { b with restoring := false } else b) } }
     .next (s2.updCtx t.ctx (fun y => { y with state := if y.state = .restoring then .running else y.state })))

/-! ### Accounting (R371, R373) -/

/-- Once per second Taproot rescales the energy estimates of that second to the measured input energy: each context accrues its
share, in microjoules, and records no longer carry ESTIMATED (R371). -/
def execEnergyCalibration (shares : List (BitVec 16 × Nat)) (s : State) : Res :=
  let s1 := shares.foldl (fun (s : State) e =>
    s.updCtx e.1.toNat (fun x => { x with acct := { x.acct with energy := x.acct.energy + e.2 } })) s
  .next (({ s1 with cmp := { s1.cmp with calibrated := true } }).fset F.CNP_STATUS_UNCAL 0)

/-- A final record that waits is written once the ring has room; UNREGISTER completes after its last (R373). -/
def execAcctFinalRecord (ctx : BitVec 16) (s : State) : Res :=
  let c := ctx.toNat
  match s.ctx c with
  | none => stop
  | some x =>
    match x.finalWait with
    | [] => stop
    | e :: rest =>
      match s.acctWrite c true e with
      | none => .next s
      | some s1 =>
        let s2 := s1.updCtx c (fun y => { y with finalWait := rest })
        let more := s2.cmp.ctxs.any (fun y => !y.2.finalWait.isEmpty)
        let s3 := if more then s2 else s2.fset F.CNP_STATUS_ACCT_FULL 0
        .next (if x.leaving ∧ rest.isEmpty then s3.unregister c else s3)

end Sys2Proof.Machine
end

