-- ==== Sys2Proof/Machine/Sideband.lean ====
section
/-! DEFINITION. The sideband: I3C, MCTP, PLDM, and the SPDM responder (R443, R461, R462, R475 to R477). -/

namespace Sys2Proof.Machine

/-- The I3C target takes part in dynamic address assignment once fuses are loaded, from 25 ms after T0 (R443, R461). -/
def execEntdaa (addr : Fin 128) (s : State) : Res :=
  .next (if s.pwr.fusesLoaded ∨ 25000000 ≤ s.localNs then
    { s with tap := { s.tap with i3cAddr := some addr.val } } else s)

/-- A private transfer reaches the sideband: it is served once MCTP = 1 and the target has its address; otherwise the
target does not acknowledge it (R443). -/
def State.sideband (s : State) (r : State) : Res :=
  if s.flag F.TAP_READY_MCTP ∧ s.tap.i3cAddr.isSome ∧ ¬ s.pwr.edge0Failed then .next r else .next (s.emit .i3cNack)

/-- MCTP Set Endpoint ID, by the bus owner: an EID of 0 or 255 is refused as DSP0236 lays down. -/
def execSetEndpointId (eid : Fin 256) (s : State) : Res :=
  s.sideband (if eid.val = 0 ∨ eid.val = 255 then s.emit (.mctp 1 [2])
    else ({ s with tap := { s.tap with eid := eid.val } }).emit (.mctp 1 [0, BitVec.ofNat 8 eid.val]))

/-- MCTP Get Endpoint ID. -/
def execGetEndpointId (s : State) : Res := s.sideband (s.emit (.mctp 2 [0, BitVec.ofNat 8 s.tap.eid]))

/-- MCTP Get MCTP Version Support: version 1.3 of the base, and the types supported (R461). -/
def execGetMctpVersionSupport (msgType : Fin 256) (s : State) : Res :=
  s.sideband (s.emit (.mctp 4 (0 :: Config.standardBody 0 4 [BitVec.ofNat 8 msgType.val])))

/-- MCTP Get Message Type Support: PLDM (1) and SPDM (5) (R461). -/
def execGetMessageTypeSupport (s : State) : Res := s.sideband (s.emit (.mctp 5 [0, 2, 1, 5]))

/-- A PLDM response. -/
def State.pldmRsp (s : State) (typ code completion : Nat) (body : List Byte) : State :=
  s.emit (.pldm typ code completion body)

/-- PLDM GetTID. -/
def execGetTid (s : State) : Res := s.sideband (s.pldmRsp 0 2 0 [BitVec.ofNat 8 s.tap.tid])

/-- PLDM SetTID; the values 0 and 255 are reserved by DSP0240. -/
def execSetTid (tid : Fin 256) (s : State) : Res :=
  s.sideband (if tid.val = 0 ∨ tid.val = 255 then s.pldmRsp 0 1 2 []
    else ({ s with tap := { s.tap with tid := tid.val } }).pldmRsp 0 1 0 [])

/-- PLDM GetPLDMVersion of a supported type: 0, 2 or 5 (R461). -/
def execGetPldmVersion (pldmType : Fin 64) (s : State) : Res :=
  s.sideband (if pldmType.val = 0 ∨ pldmType.val = 2 ∨ pldmType.val = 5 then
    s.pldmRsp 0 3 0 (Config.standardBody 1 3 [BitVec.ofNat 8 pldmType.val]) else s.pldmRsp 0 3 0x83 [])

/-- PLDM GetPLDMTypes: types 0, 2 and 5 (R461). -/
def execGetPldmTypes (s : State) : Res := s.sideband (s.pldmRsp 0 4 0 [0x25, 0, 0, 0, 0, 0, 0, 0])

/-- The 32-byte bit map of a list of command codes. -/
def codeMap (l : List Nat) : List Byte := toBytes (l.foldl (fun n c => n + 2 ^ c) 0) 32

/-- PLDM GetPLDMCommands: the commands that R461 supports for a type, by the codes of DSP0240, DSP0248 and DSP0267. -/
def execGetPldmCommands (pldmType : Fin 64) (s : State) : Res :=
  s.sideband (match pldmType.val with
    | 0 => s.pldmRsp 0 5 0 (codeMap [1, 2, 3, 4, 5])
    | 2 => s.pldmRsp 0 5 0 (codeMap [0x0B, 0x11, 0x21, 0x39, 0x51])
    | 5 => s.pldmRsp 0 5 0 (Config.standardBody 1 5 [5])
    | _ => s.pldmRsp 0 5 0x83 [])

/-- PLDM GetPDR (log 12). -/
def execGetPdr (handle : W32) (s : State) : Res := s.sideband (s.pldmRsp 2 0x51 0 (Config.pdr handle.toNat))

/-- The highest temperature of the sensors of a die that have been sampled (R462). -/
def State.dieTemp (s : State) (die : Nat) : Option Int :=
  (List.range 8).foldl (fun a i =>
    if s.flag F.TAP_TEMP_VALID (die * 8 + i) then
      let t := sgn 16 (s.fget F.TAP_TEMP_TEMP (die * 8 + i))
      some (match a with | none => t | some b => max b t)
    else a) none

/-- The reading of a numeric sensor by its identifier (R462). -/
def State.sensor (s : State) (id : Nat) : Option Int :=
  if 0x100 ≤ id ∧ id < 0x100 + 84 then some ((s.dieTemp (id - 0x100)).getD 0)
  else if 0x200 ≤ id ∧ id < 0x220 then
    let n := id - 0x200
    some (sgn 16 (s.fget (if n % 2 = 0 then F.HOM_TEMP_TEMP0 else F.HOM_TEMP_TEMP1) (n / 2)))
  else if id = 0x300 then some (s.fget F.TAP_POWER_VIN)
  else if id = 0x301 then some (s.fget F.TAP_POWER_IIN)
  else if id = 0x302 then some (s.fget F.TAP_POWER_PIN)
  else if id = 0x303 then some ((s.reg .TAP_ENERGY 0).toNat)
  else if 0x310 ≤ id ∧ id < 0x310 + 84 then some (Int.ofNat (SMap.get s.tap.rails 0 (id - 0x310)))
  else if id = 0x401 then some s.capacity.1
  else if id = 0x402 then some s.capacity.2
  else if id = 0x403 then some s.clustersLeft
  else none

/-- PLDM GetSensorReading (R462). -/
def execGetSensorReading (id : W16) (s : State) : Res :=
  s.sideband (match s.sensor id.toNat with
    | some v => s.pldmRsp 2 0x11 0 (toBytes (unsgn 64 v) 8)
    | none => s.pldmRsp 2 0x11 0x80 [])

/-- PLDM GetStateSensorReadings: state sensor 0x400 gives `TAP_READY.STATE` (R462). -/
def execGetStateSensorReadings (id : W16) (s : State) : Res :=
  s.sideband (if id.toNat = 0x400 then s.pldmRsp 2 0x21 0 [BitVec.ofNat 8 (s.fget F.TAP_READY_STATE)]
    else s.pldmRsp 2 0x21 0x80 [])

/-- PLDM PollForPlatformEventMessage: hands over the oldest waiting event (R461). -/
def execPollForPlatformEventMessage (s : State) : Res :=
  s.sideband (match s.tap.platformEvents with
    | [] => s.pldmRsp 2 0x0B 0 []
    | e :: r => ({ s with tap := { s.tap with platformEvents := r } }).pldmRsp 2 0x0B 0 (toBytes e 2))

/-- A PLDM type 5 firmware update of the whole image, in Ready and in Recovery: the image is written to flash as the
mailbox path writes it, and committed; a busy update answers so (R461, R466, R467, R469). -/
def execPldmFirmwareUpdate (image : List Byte) (s : State) : Res :=
  let st := s.fget F.TAP_READY_STATE
  if (¬ s.flag F.TAP_READY_MCTP ∧ st ≠ 1) ∨ s.tap.i3cAddr.isNone ∨ s.pwr.edge0Failed then .next (s.emit .i3cNack)
  else if (st ≠ 3 ∧ st ≠ 1) ∨ s.imageBusy true then .next (s.pldmRsp 5 0x10 0x81 [])
  else
    let s0 := ({ s with tap := { s.tap with imageUpd := {} } }).sessionUse true true
    let r := s0.imageWrite false 0 image
    if r.1 ≠ 0 then .next (s0.pldmRsp 5 0x10 0x02 [])
    else
      let c := r.2.imageCommit image.length false
      .next (c.2.pldmRsp 5 0x10 (if c.1 = 0 then 0 else 1) [])

/-! ### Attestation -/

/-- The bytes of an Ed25519 signature with the alias key in use (R473, R477). -/
def State.signEd25519 (s : State) (m : List Byte) : List Byte := toBytes (Config.ed25519Sign s.tap.aliasSeeds.1 m).toNat 64

/-- The bytes of an ML-DSA-65 signature with the alias key in use (R473, R477). -/
def State.signMlDsa (s : State) (m : List Byte) : List Byte := toBytes (Config.mlDsaSign s.tap.aliasSeeds.2 m).toNat 3309

/-- Measurement `i` of 1 to 6 (R475). -/
def State.measurement (s : State) (i : Nat) : BitVec 384 :=
  match i with
  | 1 => Config.bootRomMeasurement
  | 2 => Config.fuseMeasurement s.tap.fuses.svnMin
  | 3 => s.tap.runMeas
  | 4 => s.tap.stewardMeas
  | 5 => Config.sha384 (flashRead s.tap.boardRead boardBase 0x10000)
  | _ => Config.sha384 (flashRead s.tap.board 0x810000 0x10000)

/-- SPDM is served over DOE once configuration space is, and over MCTP once the sideband is (R398, R443, R476). -/
def State.spdm (s : State) (path : SpdmPath) (r : State) : Res :=
  match path with
  | .doe => .next (if s.host.served then r.event edge0 519 else s.emit (.config 0 none))
  | .mctp => s.sideband r

/-- SPDM GET_VERSION: versions 1.2 and 1.3 (R476). -/
def execGetVersion (path : SpdmPath) (s : State) : Res :=
  s.spdm path (s.emit (.spdm path 0x04 [0, 2, 0, 0x12, 0, 0x13]))

/-- SPDM GET_CAPABILITIES: certificates, challenge and measurements, and nothing that R476 rules out. -/
def execGetCapabilities (path : SpdmPath) (request : List Byte) (s : State) : Res :=
  s.spdm path (s.emit (.spdm path 0x61 (Config.standardBody 2 0x61 request)))

/-- SPDM NEGOTIATE_ALGORITHMS: TPM_ALG_SHA_384 and EdDSA Ed25519 only (R476). -/
def execNegotiateAlgorithms (path : SpdmPath) (request : List Byte) (s : State) : Res :=
  s.spdm path (s.emit (.spdm path 0x63 (Config.standardBody 2 0x63 request)))

/-- SPDM GET_DIGESTS: the digest of slot 0, the Ed25519 chain (R476). -/
def execGetDigests (path : SpdmPath) (s : State) : Res :=
  s.spdm path (s.emit (.spdm path 0x01 (1 :: measBytes (Config.sha384 (s.certChain 0)))))

/-- SPDM GET_CERTIFICATE of slot 0 (R476): the portion of the chain asked for, and what remains; another slot is an
error. -/
def execGetCertificate (path : SpdmPath) (slot : Fin 8) (offset : W16) (length : W16) (s : State) : Res :=
  let c := s.certChain 0
  let part := (c.drop offset.toNat).take length.toNat
  s.spdm path (if slot.val = 0 ∧ offset.toNat ≤ c.length then
      s.emit (.spdm path 0x02 (toBytes part.length 2 ++ toBytes (c.length - offset.toNat - part.length) 2 ++ part))
    else s.emit (.spdm path 0x7F [1]))

/-- SPDM CHALLENGE of slot 0: signed with the Ed25519 alias key (R473, R476). -/
def execChallenge (path : SpdmPath) (slot : Fin 8) (nonce : BitVec 256) (s : State) : Res :=
  let body := measBytes (Config.sha384 (s.certChain 0)) ++ toBytes nonce.toNat 32
  s.spdm path (if slot.val = 0 then
      s.emit (.spdm path 0x03 (body ++
        s.signEd25519 body))
    else s.emit (.spdm path 0x7F [1]))

/-- SPDM GET_MEASUREMENTS: index 0 the number, 0xFF all, 1 to 6 one (R475, R476). -/
def execGetMeasurements (path : SpdmPath) (index : Fin 256) (nonce : BitVec 256) (s : State) : Res :=
  let one := fun i => BitVec.ofNat 8 i :: measBytes (s.measurement i)
  let body := toBytes nonce.toNat 32 ++
    (if index.val = 255 then (List.range 6).flatMap (fun i => one (i + 1)) else one index.val)
  s.spdm path (if index.val = 0 then s.emit (.spdm path 0x60 [6])
    else if index.val ≤ 6 ∨ index.val = 255 then
      s.emit (.spdm path 0x60 (body ++
        s.signEd25519 body))
    else s.emit (.spdm path 0x7F [1]))

/-- The measurement report for a nonce (R477). -/
def State.report (s : State) (nonce : List Byte) : List Byte :=
  let svn := s.fget F.TAP_FW_STATUS_RUN_SVN
  let body := toBytes 1 4 ++ nonce ++ toBytes (s.reg .TAP_SERIAL 0).toNat 8 ++ toBytes s.now 8 ++
    toBytes (nb s.uFlag + s.fget F.TAP_STATUS_ACTIVE * 2 + svn * 2 ^ 8) 8 ++
    (List.range 6).flatMap (fun i => measBytes (s.measurement (i + 1))) ++
    toBytes s.capacity.1 4 ++ toBytes s.capacity.2 4 ++ toBytes s.clustersLeft 4
  let h := measBytes (Config.sha384 body)
  body ++ s.signEd25519 h ++ s.signMlDsa h

/-- SPDM VENDOR_DEFINED_REQUEST: StandardID 3, vendor 0x1F3B and a payload of 0x01 and a 32-byte nonce return the
measurement report; any other is an error (R477). -/
def execVendorDefinedRequest (path : SpdmPath) (standard : W16) (vendor : W16) (payload : List Byte) (s : State) : Res :=
  s.spdm path (if standard = 3 ∧ vendor = 0x1F3B ∧ payload.head? = some 1 ∧ 33 ≤ payload.length then
      s.emit (.spdm path 0x7E (s.report ((payload.drop 1).take 32)))
    else s.emit (.spdm path 0x7F [7]))

end Sys2Proof.Machine
end

