-- ==== Sys2Proof/Machine/Griga.lean ====
section
/-! DEFINITION. Griga: requests at ingress and their answers, responses and timeouts at egress, management messages, the route
cache, and the control register of a port (R421 to R430, R434, R478). -/

namespace Sys2Proof.Machine

/-! ### The control register of a port (R417, R421, R434) -/

/-- After a write of `GRG_PORT_CTL`: a port is enabled or disabled, and RETRAIN retrains an enabled one. -/
def State.portCtl (s : State) (p : Nat) (was : Bool) (word : Nat) : State :=
  let on := s.flag F.GRG_PORT_CTL_EN p
  let s1 := if on ∧ ¬ was then s.portEnable p else if was ∧ ¬ on then s.portDisable p else s
  if bit word 1 ∧ on then s1.portRetrain p else s1

/-- A write of `GRG_PORT_CTL` with RETRAIN = 1. -/
def execRetrain (who : Requester) (port : Fin 32) (word : W32) (s : State) : Res :=
  s.regAction who .GRG_PORT_CTL port.val word.toNat (fun t => t.portCtl port.val (s.flag F.GRG_PORT_CTL_EN port.val) (word.toNat ||| 2))

/-! ### Ingress (R428) -/

/-- The answer to a request: it carries the rewritten ROUTE with PTR 0 (R426). -/
def State.reply (s : State) (p : Nat) (m : GMsg) (op x : Nat) (payload : List Byte) : State :=
  s.sendMsg p
    { dst := m.src, src := s.pkgId, cls := 2, op := op, tag := m.tag, x := x, addr := m.addr, len := m.len, route := m.route
      hops := m.hops, ptr := 0, payload := payload }

/-- Whether every byte of a request lies in one enabled window, which satisfies `p`. -/
def State.windowed (s : State) (m : GMsg) (p : Nat → Bool) : Bool :=
  (List.range 64).any (fun w =>
    s.flag F.GRG_WIN_BASE_EN w && decide (s.fget F.GRG_WIN_BASE_BASE w * 65536 ≤ m.addr) &&
      decide (m.addr + m.len ≤ s.fget F.GRG_WIN_LIMIT_LIMIT w * 65536 + 65536) && p w)

/-- Whether a window grants what a request needs (R428). -/
def State.windowGrants (s : State) (op w : Nat) : Bool :=
  if op = opRd ∨ op = opGet then s.flag F.GRG_WIN_BASE_RD w
  else if op = opWr ∨ op = opPut then s.flag F.GRG_WIN_BASE_WR w
  else if op = opAt then s.flag F.GRG_WIN_BASE_AT w
  else s.flag F.GRG_WIN_BASE_WR w && s.flag F.GRG_WIN_BASE_AT w

/-- The lines that a request touches. -/
def msgLines (m : GMsg) : List Nat := (List.range ((m.addr % 128 + m.len + 127) / 128)).map (fun i => m.addr / 128 + i)

/-- The reason for which ingress refuses a request: the first check that fails (R428). -/
def State.ingressReason (s : State) (m : GMsg) : Option Nat :=
  if ¬ (s.flag F.GRG_PKG_ID_V ∧ m.dst = s.pkgId) then some 1
  else if regBase < m.addr + m.len ∧ m.addr < regBase + regSize then some 2
  else if ¬ s.windowed m (fun _ => true) then some 3
  else if ¬ s.windowed m (fun w => s.windowGrants m.op w) then some 4
  else if (msgLines m).any (fun l => !s.populated (l * 128)) then some 5
  else none

/-- The partition that an accepted request carries; its bytes count against it (R287, R428). -/
def State.ingressServe (s : State) (m : GMsg) : State :=
  let part := if m.cls = 0 then (if s.flag F.GRG_INGRESS_BULK_EN then some (s.fget F.GRG_INGRESS_PART_BULK) else none)
    else if s.flag F.GRG_INGRESS_ACC_EN then some (s.fget F.GRG_INGRESS_PART_ACC) else none
  match part with
  | some p => (msgLines m).foldl (fun (s : State) l => s.serve l p 128) s
  | none => s

/-- A request is refused: NACK, an INGRESS record, the count, and event 6 of its port of arrival (R386, R428, R433). -/
def State.ingressRefuse (s : State) (p : Nat) (m : GMsg) (reason : Nat) : State :=
  let r : FaultRec :=
    { cls := 0x14, addr := m.dst * 2 ^ 46 + m.addr, info0 := reason + m.op * 2 ^ 8 + m.cls * 2 ^ 16 + p * 2 ^ 18,
      info1 := m.src + m.len * 2 ^ 16 }
  (((s.reply p m opNack reason []).dfqWrite (portDie p) r).pkgCount 2 1).portEvent p 6

/-- Whether a message has the header of a request: its opcode and class, 1 to 4,096 bytes, and fields of their widths (R422,
R423). -/
def reqHeader (m : GMsg) (op cls : Nat) : Bool :=
  m.op == op && m.cls == cls && decide (1 ≤ m.len) && decide (m.len ≤ 4096) && decide (m.addr < 2 ^ 46) &&
    decide (m.dst < 2 ^ 14) && decide (m.src < 2 ^ 14)

/-- Whether a message is a remote load of one line. -/
def rdFormed (m : GMsg) : Bool := reqHeader m opRd 1 && m.addr % 128 == 0 && m.len == 128 && m.payload.length == 16

/-- Whether a message is a GET. -/
def getFormed (m : GMsg) : Bool := reqHeader m opGet 0 && m.payload.isEmpty

/-- Whether a message is a remote store to one line: its mask, then its data. -/
def wrFormed (m : GMsg) : Bool := reqHeader m opWr 1 && m.addr % 128 == 0 && m.len == 128 && m.payload.length == 144

/-- Whether a message is a PUT or a reducing PUT of its opcode: its bytes do not cross 4 KiB. -/
def putForm (m : GMsg) (op : Nat) : Bool := reqHeader m op 0 && m.payload.length == m.len && decide (m.addr % 4096 + m.len ≤ 4096)

/-- A message as it arrives under an opcode: the opcode and its class (R423), and the other fields of the header at their widths
(R422). -/
def arrivedAs (m : GMsg) (op cls : Nat) : GMsg :=
  { m with
    op := op
    cls := cls
    dst := m.dst % 2 ^ 14
    src := m.src % 2 ^ 14
    tag := m.tag % 2 ^ 16
    x := m.x % 2 ^ 8
    addr := m.addr % 2 ^ 46
    len := m.len % 2 ^ 13
    route := m.route % 2 ^ 48
    hops := m.hops % 16
    ptr := m.ptr % 16 }

/-- A request arrives: `act` performs it at the home and answers. A request that lacks the form of its opcode is carried out as its
fields say (log 89). -/
def State.ingress (s : State) (p : Nat) (m : GMsg) (act : State → State) : Res :=
  need (s.portState p == 4)
    (match s.ingressReason m with
     | some r => .next (s.ingressRefuse p m r)
     | none => .next (act (s.ingressServe m)))

/-- An answer with data: poisoned data carries STATUS 1, and is unspecified. -/
def State.answerData (s : State) (p : Nat) (m : GMsg) (b : List Byte) (poison : Bool) : State :=
  if poison then
    let (x, s1) := s.take (8 * b.length)
    s1.reply p m opData 1 (toBytes x.toNat b.length)
  else s.reply p m opData 0 b

/-- RD and GET read the bytes of the request. -/
def State.ingressRead (s : State) (p : Nat) (m : GMsg) : State :=
  let (s1, b, code) := s.readBytes m.addr m.len
  s1.answerData p m b (code != 0)

/-- A remote load of one line arrives. -/
def execRdReq (port : Fin 32) (msg : GMsg) (s : State) : Res :=
  let m := arrivedAs msg opRd 1
  s.ingress port.val m (fun s => s.ingressRead port.val m)

/-- A GET arrives. -/
def execGetReq (port : Fin 32) (msg : GMsg) (s : State) : Res :=
  let m := arrivedAs msg opGet 0
  s.ingress port.val m (fun s => s.ingressRead port.val m)

/-- A remote store to one line arrives: its mask, then its data. -/
def execWrReq (port : Fin 32) (msg : GMsg) (s : State) : Res :=
  let m := arrivedAs msg opWr 1
  s.ingress port.val m (fun s =>
    ((s.putLine (m.addr / 128) (ofBytes (m.payload.take 16)) (lineOf (m.payload.drop 16))).1).reply port.val m opAck 0 [])

/-- The operation of an atomic's number (R113). -/
def atomOpOf (n : Nat) : AtomOp :=
  match n with
  | 0 => .add
  | 1 => .min
  | 2 => .max
  | 3 => .and
  | 4 => .or
  | 5 => .xor
  | 6 => .swap
  | _ => .cas

/-- The lanes that a remote atomic carries (R423). -/
def msgAtom (m : GMsg) : Atom :=
  let op := atomOpOf (bits m.x 0 3)
  let n := if op = .cas then 16 else 8
  { op := op
    type := bits m.x 4 4
    lanes := (List.range (m.payload.length / n)).map (fun k =>
      ⟨k, m.addr % 128, ofBytes ((m.payload.drop (n * k)).take 8), ofBytes ((m.payload.drop (n * k + 8)).take (n - 8))⟩) }

/-- Whether a message is a remote atomic on one element: 1 to 32 lanes. -/
def atFormed (m : GMsg) : Bool :=
  let a := msgAtom m
  let n := if a.op = .cas then 16 else 8
  reqHeader m opAt 1 && m.len == typeBytes a.type && m.addr % m.len == 0 && !m.payload.isEmpty && m.payload.length % n == 0 &&
    decide (m.payload.length ≤ 32 * n)

/-- A remote atomic on one element arrives: the home applies its lanes in order (R261). -/
def execAtReq (port : Fin 32) (msg : GMsg) (s : State) : Res :=
  let m := arrivedAs msg opAt 1
  let a := msgAtom m
  s.ingress port.val m (fun s =>
    let (s1, old, code) := s.atomLine (m.addr / 128) a
    let b := a.lanes.flatMap (fun l => toBytes (((old.find? (fun x => x.1 == l.lane)).map (·.2)).getD 0) 8)
    s1.answerData port.val m b (code != 0))

/-- A PUT arrives. -/
def execPutReq (port : Fin 32) (msg : GMsg) (s : State) : Res :=
  let m := arrivedAs msg opPut 0
  s.ingress port.val m (fun s => ((s.writeBytes m.addr (m.payload.take m.len)).1).reply port.val m opAck 0 [])

/-- Whether a message is a reducing PUT: whole elements, and a reduction. -/
def putRedFormed (m : GMsg) : Bool :=
  let red := bits m.x 0 3
  let etype := bits m.x 3 3
  putForm m opPutRed && decide (1 ≤ red) && decide (red ≤ 3) && m.addr % etypeBytes etype == 0 && m.len % etypeBytes etype == 0

/-- A reducing PUT arrives; one that meets a poisoned line is acknowledged with STATUS 1 (R278, R428). -/
def execPutRedReq (port : Fin 32) (msg : GMsg) (s : State) : Res :=
  let m := arrivedAs msg opPutRed 0
  s.ingress port.val m (fun s =>
    let (s1, code) := (reduceLines (bits m.x 0 3) (bits m.x 3 3) m.addr (m.payload.take m.len)).foldl (fun (r : State × Nat) l =>
      let (s', _, c) := r.1.atomLine l.1 l.2
      (s', if r.2 = 0 then c else r.2)) (s, 0)
    s1.reply port.val m opAck (nb (code != 0)) [])

/-! ### Responses and timeouts at egress (R429, R430) -/

/-- A request ends at its issuer in a refusal or a timeout. -/
def State.issuerFail (s : State) (i : Issuer) (op code : Nat) : State :=
  match i with
  | .access id =>
    match s.cmp.accs.find? (fun a => a.id == id) with
    | some a => (s.failAcc a code).pump
    | none => s
  | .chunk id piece => if op = opGet then s.chunkData id piece [] 0x25 else s.chunkAck id piece 0x25
  | .pair q => s.pairGot q [] false
  | .taproot => s

/-- What waits at egress takes the entries that are free; what has lost its route is refused (R427). -/
def State.egressNext (s : State) : State :=
  let ops := s.grg.egWait.map (fun e => (e.issuer, e.msg.op))
  let (s1, bad) := s.egressDrain
  bad.foldl (fun (s : State) i => s.issuerFail i (((ops.find? (fun e => e.1 == i)).map (·.2)).getD 0) 0x25) s1

/-- Whether a message is a response of its opcode (R422, R424). -/
def rspFormed (m : GMsg) (op : Nat) : Bool := m.op == op && m.cls == 2

/-- A response arrives: one whose generation does not match is discarded and counted; otherwise its entry is free (R429). -/
def State.response (s : State) (p : Nat) (msg : GMsg) (op : Nat) (act : State → EgReq → State) : Res :=
  let m := arrivedAs msg op 2
  need (s.portState p == 4)
    (let index := p / 8 * 8192 + m.tag % 8192
     match SMap.find s.grg.egress index with
     | none => .next (s.pkgCount 3 1)
     | some e =>
       if e.msg.tag ≠ m.tag then .next (s.pkgCount 3 1)
       else .next ((act (s.egressFreeEntry index) e).egressNext))

/-- The bytes of a list whose bit in a mask is set. -/
def maskedBytes (mask : Nat) (b : List Byte) : List Byte := (b.zipIdx.filter (fun e => bit mask e.2)).map (·.1)

/-- A DATA response arrives: a line for a load, the old values for an atomic, the bytes of a GET; with STATUS 1 it is poisoned. -/
def execDataRsp (port : Fin 32) (msg : GMsg) (s : State) : Res :=
  s.response port.val msg opData (fun s e =>
    let code := if bit msg.x 0 then 0x28 else 0
    match e.issuer with
    | .access id =>
      match s.cmp.accs.find? (fun a => a.id == id) with
      | none => s
      | some a =>
        match a.kind with
        | .atomic =>
          let lanes := (a.atom.map (·.lanes)).getD []
          let old := lanes.zipIdx.map (fun l => (l.1.lane, ofBytes ((msg.payload.drop (8 * l.2)).take 8)))
          (s.finishAtomic a old code).pump
        | _ => (s.finishLoad a (lineOf msg.payload) code).pump
    | .chunk id piece => s.chunkData id piece msg.payload code
    | .pair q => s.pairGot q (maskedBytes (ofBytes (e.msg.payload.take 16)) msg.payload) (code == 0)
    | .taproot => s)

/-- An ACK response arrives: a store or a put is performed; with STATUS 1 a reduction met a poisoned line. -/
def execAckRsp (port : Fin 32) (msg : GMsg) (s : State) : Res :=
  s.response port.val msg opAck (fun s e =>
    let code := if bit msg.x 0 then 0x28 else 0
    match e.issuer with
    | .access id =>
      match s.cmp.accs.find? (fun a => a.id == id) with
      | none => s
      | some a => (s.finishStore a code).pump
    | .chunk id piece => s.chunkAck id piece code
    | .pair q => s.pairGot q [] true
    | .taproot => s)

/-- A NACK response arrives: the issuer receives remote-access (R428). -/
def execNackRsp (port : Fin 32) (msg : GMsg) (s : State) : Res :=
  s.response port.val msg opNack (fun s e => s.issuerFail e.issuer e.msg.op 0x25)

/-- The code of a request that times out: a store or an atomic of a group that is being saved ends in remote-outcome-unknown
(R360, R430). -/
def State.timeoutCode (s : State) (i : Issuer) : Nat :=
  match i with
  | .access id =>
    match s.cmp.accs.find? (fun a => a.id == id) with
    | some a => if a.kind ≠ .load ∧ (s.cluster (clusterOf a.core)).grace.isSome then 0x26 else 0x25
    | none => 0x25
  | _ => 0x25

/-- A request is abandoned 100 µs after its issue; so are those that still wait at egress after that time (R430). -/
def execRemoteTimeout (edge : Fin 4) (index : Fin 8192) (s : State) : Res :=
  let k := edge.val * 8192 + index.val
  match SMap.find s.grg.egress k with
  | none => stop
  | some e =>
    let fail := fun (s : State) (e : EgReq) =>
      (((s.issuerFail e.issuer e.msg.op (s.timeoutCode e.issuer)).pkgCount 1 1).portEvent e.port 7)
    let s1 := fail ((s.reachLocal (e.issued + 100000)).egressFreeEntry k) e
    let late := s1.grg.egWait.filter (fun w => decide (w.issued + 100000 ≤ s1.localNs))
    let s2 : State := { s1 with grg := { s1.grg with egWait := s1.grg.egWait.filter (fun w => !decide (w.issued + 100000 ≤ s1.localNs)) } }
    .next ((late.foldl fail s2).egressNext)

/-! ### The route cache (R427) -/

/-- A write of `GRG_RT_SYNC`. -/
def execRtSync (who : Requester) (word : W32) (s : State) : Res :=
  s.regAction who .GRG_RT_SYNC 0 word.toNat (fun s => if bit word.toNat 0 then s.fset F.GRG_RT_SYNC_SYNC 1 else s)

/-- Every cached entry is dropped, and requests to a changed destination wait for those on the old route. -/
def execRtSyncDone (s : State) : Res :=
  need (s.flag F.GRG_RT_SYNC_SYNC)
    (.next ((({ s with grg := { s.grg with routes := [] } }).fset F.GRG_RT_SYNC_SYNC 0).egressNext))

/-! ### Management messages (R14, R443, R478) -/

/-- A management message arrives: it is discarded at ingress before STATE = Ready (R443). -/
def State.mgmt (s : State) (p : Nat) (act : State → State) : Res :=
  need (s.portState p == 4) (.next (if s.fget F.TAP_READY_STATE = 3 then act s else s))

/-- REPORT_REQ is answered with the measurement report (R477). -/
def execReportReq (port : Fin 32) (src : Fin 16384) (number : W32) (nonce : BitVec 256) (s : State) : Res :=
  s.mgmt port.val (fun s => s.emit (.mgmt src.val 2 number.toNat (s.report (toBytes nonce.toNat 32))))

/-- A REPORT is taken only from a package that was asked; this package asks none, so it is discarded. -/
def execReportMsg (port : Fin 32) (_src : Fin 16384) (_number : W32) (_report : List Byte) (s : State) : Res :=
  s.mgmt port.val (fun s => s)

/-- A DUTY message announces a stand ceiling: only the master that the selected beats name may send it. -/
def execDutyMsg (port : Fin 32) (src : Fin 16384) (ceiling : Fin 32) (slot : W64) (s : State) : Res :=
  s.mgmt port.val (fun s =>
    if s.fget F.TB_STATUS_SRC = 1 ∧ (s.portTrack s.ring.port).master = src.val then
      { s with duty := { s.duty with announced := some (ceiling.val, slot.toNat, s.fget F.TB_STATUS_STEP_COUNT) } }
    else s)

/-- A HEALTH message is logged. -/
def execHealthMsg (port : Fin 32) (_src : Fin 16384) (_ready _reason : W64) (s : State) : Res :=
  s.mgmt port.val (fun s => s.logEvent .health edge0)

end Sys2Proof.Machine
end

