-- ==== Sys2Proof/Machine/HostPort.lean ====
section
/-! DEFINITION. The host attachment (R393 to R402, R411): configuration requests, the BAR4 windows, completions of device reads,
function-level resets, SR-IOV, power states and the link. -/

namespace Sys2Proof.Machine

/-- An uncorrectable error is logged in a function's AER status, under its bit there (R394, R411). -/
def State.aerLog (s : State) (f b : Nat) : State :=
  (s.setFunc f { s.func f with aer := (s.func f).aer ||| 2 ^ b }).event edge0 514

/-! ### BAR4 (R394, R401, R402) -/

/-- A BAR4 access that is refused, with its event: an Unsupported Request, which AER logs (R394). -/
def State.barRefused (s : State) (f : Nat) (acc : BarAcc) (event : Bool) : State :=
  let s1 := (if event then s.event edge0 518 else s).aerLog f 20
  match acc with
  | .read _ => s1.emit (.barUnsupported f)
  | .write _ _ => s1

/-- The bytes of a BAR4 access. -/
def barSize (acc : BarAcc) : Nat :=
  match acc with
  | .read len => len
  | .write data _ => data.length

/-- Whether a BAR4 access is one PCIe request: 1 to 4,096 bytes within 4 KiB. -/
def barFormed (offset : Nat) (acc : BarAcc) : Bool := decide (1 ≤ barSize acc) && decide (offset % 4096 + barSize acc ≤ 4096)

/-- A BAR4 read at package physical addresses: `places` are its parts in order, each an address and a length (R401). -/
def State.barGet (s : State) (places : List (Nat × Nat)) : State × List Byte × Nat :=
  places.foldl (fun (r : State × List Byte × Nat) p =>
    let (t, b, c) := r.1.readBytes p.1 p.2
    (t, r.2.1 ++ b, if c = 0 ∨ r.2.2 = 0x24 then r.2.2 else c)) (s, [], 0)

/-- A BAR4 write at package physical addresses (R401); a write with EP poisons every line it touches, and AER logs it (R394). -/
def State.barPut (s : State) (places : List (Nat × Nat)) (data : List Byte) (ep : Bool) : State × Nat :=
  if ep then
    let lines := places.flatMap (fun p => (List.range ((p.1 % 128 + p.2 + 127) / 128)).map (fun i => p.1 / 128 + i))
    if lines.any (fun l => !s.populated (l * 128)) then (s, 0x24)
    else (lines.foldl (fun (s : State) l => (s.putLine l 0 0 true).1) s, 0)
  else
    let r := places.foldl (fun (r : State × Nat × List Byte) p =>
      let (t, c) := r.1.writeBytes p.1 (r.2.2.take p.2)
      (t, if c = 0 ∨ r.2.1 = 0x24 then r.2.1 else c, r.2.2.drop p.2)) (s, 0, data)
    (r.1, r.2.1)

/-- A BAR4 access at package physical addresses (R401): a decode error is an Unsupported Request, and a poisoned line is read with EP
and unspecified data (R394). -/
def State.barAccess (s : State) (f : Nat) (places : List (Nat × Nat)) (acc : BarAcc) : State :=
  match acc with
  | .read len =>
    let (s1, b, code) := s.barGet places
    if code = 0x24 then s1.barRefused f acc true
    else if code = 0 then s1.emit (.barRead f b false)
    else
      let (x, s2) := s1.take (8 * len)
      s2.emit (.barRead f (toBytes x.toNat len) true)
  | .write data ep =>
    let (s1, code) := (if ep then s.aerLog f 12 else s).barPut places data ep
    if code = 0x24 then s1.barRefused f acc true else s1

/-- An access cut where it crosses a 4 KiB boundary: one PCIe request never does. -/
def barCuts (offset n : Nat) : List (Nat × Nat) :=
  (List.range (max 1 ((offset % 4096 + n + 4095) / 4096))).map (fun i =>
    let lo := max offset ((offset / 4096 + i) * 4096)
    (lo, min (offset + n) ((offset / 4096 + i + 1) * 4096) - lo))

/-- A PF access through BAR4 (R400, R401, R441): one beyond its size is decoded by no function. -/
def execPfBar4Access (offset : Nat) (acc : BarAcc) (s : State) : Res :=
  if 2 ^ (20 + s.host.bar4) ≤ offset then .next (s.barRefused 0 acc false)
  else if ¬ s.decodes 0 ∨ ¬ s.flag F.CNP_BAR4_WIN_EN 0 ∨ ¬ s.flag F.TAP_READY_HBM then .next (s.barRefused 0 acc false)
  else .next (s.barAccess 0 [(s.fget F.CNP_BAR4_WIN_BASE 0 * 65536 + offset, barSize acc)] acc)

/-- The package address that a VF's window reaches, if the access passes every check of R402. -/
def State.vfWindow (s : State) (v offset : Nat) (wr : Bool) : Option Nat :=
  let c := s.fget F.CNP_BAR4_CTX_CONTEXT v
  let va := s.fget F.CNP_BAR4_WIN_BASE v * 65536 + offset
  if ¬ s.flag F.CNP_BAR4_WIN_EN v ∨ (s.ctx c).isNone ∨ (s.ctxFunc c).1 ≠ v then none
  else
    match s.agentLeaf c va with
    | .error _ => none
    | .ok (w, level) =>
      if bits w 8 2 ≠ 0 ∨ ¬ (if wr then bit w 3 else bit w 2) then none
      else some (bits w 16 44 * 65536 + va % ptSpan level)

/-- The walk that an access through a VF's window makes (R305). -/
def State.windowWalk (s : State) (v offset : Nat) : State :=
  let c := s.fget F.CNP_BAR4_CTX_CONTEXT v
  if v = 0 ∨ ¬ s.decodes v ∨ ¬ s.flag F.CNP_BAR4_WIN_EN v ∨ (s.ctx c).isNone ∨ (s.ctxFunc c).1 ≠ v then s
  else s.agentWalk c (s.fget F.CNP_BAR4_WIN_BASE v * 65536 + offset)

/-- A VF access through BAR4 (R402, R441): every 4 KiB part of it is translated for itself. -/
def execVfBar4Access (vf : Fin 256) (offset : Nat) (acc : BarAcc) (s0 : State) : Res :=
  let v := vf.val
  let cuts := barCuts offset (barSize acc)
  let s := if 2 ^ (20 + s0.host.vfBar4) ≤ offset then s0 else cuts.foldl (fun (s : State) c => s.windowWalk v c.1) s0
  let wr := match acc with
    | .read _ => false
    | .write _ _ => true
  let places := cuts.map (fun c => (s.vfWindow v c.1 wr).map (fun pa => (pa, c.2)))
  if v = 0 ∨ 2 ^ (20 + s.host.vfBar4) ≤ offset ∨ ¬ s.decodes v ∨ ¬ s.flag F.TAP_READY_HBM then .next (s.barRefused v acc false)
  else .next (if places.any (·.isNone) then s.barRefused v acc true else s.barAccess v (places.filterMap id) acc)

/-! ### Completions of device reads (R394) -/

/-- A device read of host memory ends: its data, or a failure that delivers poisoned data to its requester. -/
def State.hostReadEnd (s : State) (w : HostWant) (data : Option (List Byte)) : State :=
  match w with
  | .sqEntry q =>
    match data with
    | some b => s.updQp q (fun p => { p with fetching := false, fetched := some b })
    | none => (s.updQp q (fun p => { p with fetching := false })).qpError q 1
  | .waitWord q => s.pairGot q (data.getD []) data.isSome
  | .access id =>
    match s.cmp.accs.find? (fun a => a.id == id) with
    | none => s
    | some a =>
      match data with
      | some b => (s.finishLoad a (lineOf (List.replicate (((maskRuns a.mask).headD (0, 1)).1) 0 ++ b)) 0).pump
      | none => (s.finishLoad a 0 0x28).pump
  | .chunk id piece =>
    match data with
    | some b => s.chunkData id piece b 0
    | none => s.chunkData id piece [] 0x28

/-- The function that a read of host memory was made for: that of its pair, or of its context. -/
def State.wantFunc (s : State) (w : HostWant) : Nat :=
  match w with
  | .sqEntry q => s.fget F.CNP_QP_CFG_FUNC q
  | .waitWord q => s.fget F.CNP_QP_CFG_FUNC q
  | .access id => ((s.cmp.accs.find? (fun a => a.id == id)).map (fun a => (s.ctxFunc a.ctx).1)).getD 0
  | .chunk id _ => ((SMap.find s.cmp.chunks id).map (fun c => (s.ctxFunc c.ctx).1)).getD 0

/-- Takes an outstanding read off the list. -/
def State.hostReadTake (s : State) (tag : Nat) : Option (HostWant × State) :=
  (SMap.find s.host.reads tag).map (fun w =>
    (w, { s with host := { s.host with reads := SMap.del s.host.reads tag } }))

/-- A completion for a device read of host memory arrives. A poisoned one is logged in AER (R411). -/
def execHostReadCompletion (tag : Nat) (status : HostStatus) (data : List Byte) (s : State) : Res :=
  match s.hostReadTake tag with
  | none => stop
  | some (w, s1) =>
    match status with
    | .ok => .next (s1.hostReadEnd w (some data))
    | .poisoned => .next ((s1.hostReadEnd w none).aerLog (s.wantFunc w) 12)
    | .unsupported => .next (s1.hostReadEnd w none)
    | .aborted => .next (s1.hostReadEnd w none)

/-- A device read of host memory times out. -/
def execCompletionTimeout (tag : Nat) (s : State) : Res :=
  match s.hostReadTake tag with
  | none => stop
  | some (w, s1) => .next ((s1.hostReadEnd w none).aerLog (s.wantFunc w) 14)

/-! ### Function-level resets and SR-IOV (R397, R399, R405) -/

/-- The pairs bound to a function. -/
def State.pairsOf (s : State) (f : Nat) : List Nat :=
  (List.range 4096).filter (fun q => s.flag F.CNP_QP_CFG_EN q && s.fget F.CNP_QP_CFG_FUNC q == f)

/-- A pair stops: its outstanding commands complete with KILLED where that can still be written (R405). -/
def State.pairAbandon (s : State) (q : Nat) : State :=
  let p := s.qp q
  let s1 := p.started.foldl (fun (s : State) (c : QCmd) => s.qpPost q c.cid 5) ((s.pairForget q).heldDone q 5)
  s1.updQp q (fun p => { p with started := [], stopping := true, fetched := none, fetching := false })

/-- EN of a pair is clear in both copies, a commit in progress is abandoned, and nothing of the pair is left (R32, R405). -/
def State.pairClear (s : State) (q : Nat) : State :=
  let s1 := ((s.fset F.CNP_QP_CFG_EN 0 q).setReg .CNP_QP_STATUS q 0).updQp q (fun _ => {})
  let w := (s1.shadowReg .CNP_QP_CFG q).toNat
  let s2 := s1.setShadow .CNP_QP_CFG q (BitVec.ofNat 64 (setBits w 0 1 0))
  let s3 : State := { s2 with snaps := SMap.del s2.snaps (Reg.key .CNP_QP_COMMIT q) }
  s3.setReg .CNP_QP_COMMIT q (BitVec.ofNat 64 (setBits (s3.reg .CNP_QP_COMMIT q).toNat 0 6 0))

/-- A reset of one function begins (R313, R399): its contexts are Killed, its cached translations and its outstanding requests are
dropped, its pairs stop, and its MSI-X table and configuration space return to their reset values. -/
def State.funcReset (s : State) (f : Nat) : State :=
  let mine := (SMap.keys s.cmp.ctxs).filter (fun c => (s.ctxFunc c).1 == f)
  let s1 := mine.foldl (fun (s : State) c => s.ctxEnd c .killed 5 3 0) s
  let s2 := (s1.pairsOf f).foldl (fun (s : State) q => s.pairAbandon q) s1
  let s3 : State := { s2 with
    host := { s2.host with msix := SMap.keep s2.host.msix (fun k _ => k / 2048 != f) }
    cmp := { s2.cmp with
      tlbs := s2.cmp.tlbs.filter (fun t => !mine.contains t.ctx)
      wcache := s2.cmp.wcache.filter (fun w => !mine.contains w.ctx)
      walks := s2.cmp.walks.filter (fun w => !mine.contains w.ctx)
      hostXlt := s2.cmp.hostXlt.filter (fun h => h.func != f)
      priFailed := s2.cmp.priFailed.filter (fun g => g != f) } }
  let s4 : State := if f = 0 then { s3 with host := { s3.host with bar4 := 10, vfBar4 := 8 } } else s3
  s4.setFunc f { inFlr := true }

/-- A reset of one function is over. -/
def State.funcDone (s : State) (f : Nat) : State :=
  ((s.pairsOf f).foldl (fun (s : State) q => s.pairClear q) s).setFunc f {}

/-- Every VF undergoes a function-level reset, and none exists any more (R397). -/
def State.dropVfs (s : State) : State :=
  let vs := (List.range s.host.numVfs).map (fun i => i + 1)
  let s1 := if s.host.vfEnable then vs.foldl (fun (s : State) v => (s.funcReset v).funcDone v) s else s
  { s1 with host := { s1.host with vfEnable := false, numVfs := 0 } }

/-- A function-level reset starts (R399). One of the PF also clears VF Enable and resets every VF. -/
def execFunctionLevelReset (func : Fin 256) (s : State) : Res :=
  let f := func.val
  need (s.funcExists f && !(s.func f).inFlr)
    (let s1 := (s.event edge0 515).funcReset f
     .next (if f = 0 then s1.dropVfs else s1))

/-- The reset completes and Function Readiness Status is sent (R398, R399). -/
def execFlrComplete (func : Fin 256) (s : State) : Res :=
  let f := func.val
  need (s.funcExists f && (s.func f).inFlr) (.next (((s.funcDone f).event edge0 516).emit (.functionReady f)))

/-- VF Enable and NumVFs take values; a change raises its event (R397, R411). -/
def State.setVfs (s : State) (enable : Bool) (num : Nat) : State :=
  if enable = s.host.vfEnable ∧ num = s.host.numVfs then s
  else
    let s1 := if s.host.vfEnable ∧ ¬ enable then s.dropVfs else s
    ({ s1 with host := { s1.host with vfEnable := enable, numVfs := num } }).event edge0 520

/-- VF Enable or NumVFs changes (R397, R411). -/
def execVfEnableChange (enable : Bool) (num : Fin 256) (s : State) : Res :=
  need (enable != s.host.vfEnable || num.val != s.host.numVfs) (.next (s.setVfs enable num.val))

/-- A function moves between D0 and D3hot: no other state of the device changes (R393, R394). -/
def execPowerStateChange (func : Fin 256) (d3 : Bool) (s : State) : Res :=
  let f := func.val
  need (s.funcExists f) (.next (s.setFunc f { s.func f with d3hot := d3 }))

/-- The link's state, rate or width changes (R411). -/
def execLinkStateChange (up : Bool) (rate : Fin 8) (width : Fin 4) (s : State) : Res :=
  need (up != s.host.linkUp || rate.val != s.host.linkRate || width.val != s.host.linkWidth)
    (.next (({ s with host := { s.host with linkUp := up, linkRate := rate.val, linkWidth := width.val } }).event edge0 512))

/-! ### Configuration space (R394 to R398, R400) -/

/-- The word that a configuration read returns; control words as the PCIe capabilities lay them out (log 6), with the settings of
R309. -/
def State.configWord (s : State) (f : Nat) (r : CfgReg) : Nat :=
  let x := s.func f
  let pf := fun (n : Nat) => if f = 0 then n else 0
  match r with
  | .header => pf 0x800000
  | .serialLow => pf ((s.reg .TAP_SERIAL 0).toNat % 2 ^ 32)
  | .serialHigh => pf ((s.reg .TAP_SERIAL 0).toNat / 2 ^ 32)
  | .pmControl => (if x.d3hot then 3 else 0) + 2 ^ 3
  | .deviceCap => 2 + 2 ^ 28
  | .aerUncorrectable => x.aer
  | .sriovControl => pf (nb s.host.vfEnable)
  | .sriovVfs => pf (255 + 255 * 2 ^ 16)
  | .sriovNumVfs => pf s.host.numVfs
  | .sriovOffset => pf (1 + 2 ^ 16)
  | .sriovDevice => pf (0x6401 * 2 ^ 16)
  | .sriovPages => pf 0x11
  | .ptmCap => pf 1
  | .rebarCap => pf ((2 ^ 14 - 1) * 2 ^ 14)
  | .rebarControl => pf (4 + 2 ^ 5 + s.host.bar4 * 2 ^ 8)
  | .vfRebarCap => pf ((2 ^ 9 - 1) * 2 ^ 12)
  | .vfRebarControl => pf (4 + 2 ^ 5 + s.host.vfBar4 * 2 ^ 8)
  | .ids => 0x1F3B + (if f = 0 then 0x6400 else 0x6401) * 2 ^ 16
  | .classRev => 0x12000001
  | .subsystem => if s.boardValid then flashWord s.tap.boardRead (boardBase + 0x14) else 0x1F3B
  | .msixControl => 0x11 + (vectorCount f - 1) * 2 ^ 16 + nb x.functionMask * 2 ^ 30 + nb x.msixEnable * 2 ^ 31
  | .atsControl => 0x60 + nb x.atsEnable * 2 ^ 31
  | .pasidControl => 20 * 2 ^ 8 + nb x.pasidEnable * 2 ^ 16
  | .priControl => nb x.priEnable + nb (s.cmp.priFailed.contains f) * 2 ^ 16 + 2 ^ 31
  | .priCapacity => 512
  | .ptmControl => pf (nb x.ptmEnable)

/-- Messages that a function's vectors hold leave once they may (R382). -/
def State.msixReleaseAll (s : State) (f : Nat) : State :=
  (List.range (vectorCount f)).foldl (fun (s : State) v => s.msixRelease f v) s

/-- A write of a control word: PowerState moves the function, VF Enable and NumVFs change, a resizable BAR takes one of the sizes it
supports, and a logged error written as 1 is cleared. Setting PRI Enable after it was clear lets Page Requests go out again (R311). -/
def State.configWrite (s : State) (f : Nat) (r : CfgReg) (w : Nat) : State :=
  let x := s.func f
  match r with
  | .ids | .classRev | .header | .subsystem | .serialLow | .serialHigh | .deviceCap | .sriovVfs | .sriovOffset | .sriovDevice
  | .sriovPages | .ptmCap | .rebarCap | .vfRebarCap | .priCapacity => s
  | .pmControl =>
    if bits w 0 2 = 0 then s.setFunc f { x with d3hot := false }
    else if bits w 0 2 = 3 then s.setFunc f { x with d3hot := true }
    else s
  | .aerUncorrectable => s.setFunc f { x with aer := x.aer &&& (w ^^^ (2 ^ 32 - 1)) }
  | .sriovControl => if f = 0 then s.setVfs (bit w 0) s.host.numVfs else s
  | .sriovNumVfs => if f = 0 ∧ ¬ s.host.vfEnable then s.setVfs false (bits w 0 16 % 256) else s
  | .rebarControl => if f = 0 ∧ 10 ≤ bits w 8 6 ∧ bits w 8 6 ≤ 23 then { s with host := { s.host with bar4 := bits w 8 6 } } else s
  | .vfRebarControl => if f = 0 ∧ 8 ≤ bits w 8 6 ∧ bits w 8 6 ≤ 16 then { s with host := { s.host with vfBar4 := bits w 8 6 } } else s
  | .msixControl => (s.setFunc f { x with msixEnable := bit w 31, functionMask := bit w 30 }).msixReleaseAll f
  | .atsControl => s.setFunc f { x with atsEnable := bit w 31 }
  | .pasidControl => s.setFunc f { x with pasidEnable := bit w 16 }
  | .priControl =>
    let s1 := s.setFunc f { x with priEnable := bit w 0 }
    if bit w 0 ∧ ¬ x.priEnable then { s1 with cmp := { s1.cmp with priFailed := s1.cmp.priFailed.filter (fun g => g != f) } } else s1
  | .ptmControl => if f = 0 then s.setFunc f { x with ptmEnable := bit w 0 } else s

/-- Whether a function has left Request Retry Status: the package serves it and no reset of it runs; in Recovery and in
Failed only the PF (R398, R444). -/
def State.configServed (s : State) (f : Nat) : Bool :=
  (s.host.served || (f == 0 && (s.fget F.TAP_READY_STATE == 1 || s.fget F.TAP_READY_STATE == 5))) && !(s.func f).inFlr && s.pwr.inReset.isNone

/-- A configuration request. One for a function that does not exist is an Unsupported Request. -/
def execConfigRequest (func : Fin 256) (reg : CfgReg) (write : Option W32) (s : State) : Res :=
  let f := func.val
  if ¬ s.funcExists f then .next (s.emit (.barUnsupported f))
  else if ¬ s.configServed f then .next (s.emit (.config f none))
  else
    match write with
    | none => .next (s.emit (.config f (some (BitVec.ofNat 32 (s.configWord f reg)))))
    | some w => .next ((s.configWrite f reg w.toNat).emit (.config f (some 0)))

end Sys2Proof.Machine
end

