-- ==== Sys2Proof/Machine/Reset.lean ====
section
/-! DEFINITION. What the resets keep and lose (R447 to R450). -/

namespace Sys2Proof.Machine

/-! ### Cold and power-on -/

/-- The contents of both tiers are indeterminate: every byte is a free value (R447, log 1). -/
def State.memLost (s : State) : State :=
  { s with
    free := s.free + 1
    cmp := { s.cmp with
      mem := []
      poison := []
      indet := (List.range 384).map (fun g => (g, s.free)) } }

/-- What Taproot keeps over a cold reset: fuses, flash image and flash log, and the second flash device (R447). -/
def Taproot.cold (t : Taproot) : Taproot :=
  { flashLog := t.flashLog, flashNext := t.flashNext, image := t.image, board := t.board, fuses := t.fuses }

/-- `TAP_PWR_STATUS` as the hot-swap controller has latched the last stop (R533, R534). -/
def State.showStop (s : State) : State :=
  (s.fset F.TAP_PWR_STATUS_STOP s.pwr.stopCause).fset F.TAP_PWR_STATUS_UNIT s.pwr.stopUnit

/-- The package right after a cold or a power-on reset, at T0: as right after reset, but for what R447 keeps, and with the
contents of memory indeterminate. `code` is the LAST_RESET of the reset. -/
def State.coldState (s : State) (code : Nat) : State :=
  let s1 : State := { State.reset with
    pending := s.pending
    free := s.free
    out := s.out
    jtag := s.jtag
    tap := s.tap.cold
    pwr := { s.pwr with
      diesOff := []
      retainClus := []
      retainQuad := []
      retainDie := []
      selfTested := []
      fusesLoaded := false
      inReset := none
      standbyEntry := false
      standbyExit := false
      edge0Failed := false
      edge2Failed := false } }
  (s1.memLost.fset F.TAP_READY_LAST_RESET code).showStop

/-- An unmanaged power loss (R267, R436, R532): conversion stops, PWR_GOOD is deasserted, and everything that is not in fuses or
flash is lost. `latch` keeps conversion off until the input falls below 40 V. -/
def State.powerLoss (s : State) (cause unit : Nat) (latch : Bool) : State :=
  let s1 := s.coldState 0
  { s1 with
    jtag := {}
    pwr := { s1.pwr with
      converting := false
      softStart := false
      pwrGood := false
      latchedOff := latch
      inReset := some 0
      stopCause := cause
      stopUnit := unit } }

/-! ### Warm -/

/-- The registers that a warm reset keeps (R447). -/
def keptWarm (r : Reg) : Bool :=
  [Reg.TB_STATUS, .TB_NOW, .TB_SLOT, .TB_OFFSET, .TB_SRC_CFG, .TB_GRIGA_PORTS, .TB_PTM_OFFSET, .TB_SRC_COMMIT,
    .TB_PPS_NEXT_SEC, .CORE_LM_REPAIR, .HOM_CAP, .HOM_PC_STATE, .HOM_OT_STATUS, .HOM_MAP, .HOM_MAP_COMMIT].contains r ||
  [Reg.HOM_HW_PRI, .HOM_HW_REP, .HOM_HW_LEN, .HOM_HW_COMMIT, .HOM_HW_CTL, .HOM_HW_CNT, .GRG_PORT_CTL, .GRG_PORT_STATUS,
    .GRG_PORT_DELAY, .GRG_PKG_ID, .GRG_RT_BASE, .GRG_INGRESS, .GRG_WIN_COMMIT, .GRG_WIN_BASE, .GRG_WIN_LIMIT].contains r ||
  [Reg.TAP_READY, .TAP_ID_REV, .TAP_SERIAL, .TAP_STATUS, .TAP_FW_STATUS, .TAP_ENERGY, .TAP_LOG_STATUS, .TAP_QUAD_HEALTH,
    .TAP_DIE_HEALTH, .TAP_PWR_STATUS].contains r

/-- Requests that a home has accepted complete, with the writes they make (R448); what they answer is lost. -/
def State.finishAccepted (s : State) : State :=
  s.cmp.txns.foldl (fun (s : State) e => if e.2.answered then s else s.finishTxn e.1 e.2) s

/-- What the computing part keeps over a warm reset: memory, the quarantine filter, and retired units; the model's own numbers
go on. -/
def Compute.warm (c : Compute) : Compute :=
  { mem := c.mem
    poison := c.poison
    indet := c.indet
    qfilter := c.qfilter
    qdead := c.qdead
    clus := SMap.keep c.clus (fun _ k => k.state == .retired)
    stamp := c.stamp
    accNo := c.accNo
    launchNo := c.launchNo }

/-- A warm reset starts: everything that R447 does not keep is dropped, no final records are written, and Up ports stay Up with
every generation of the egress tables one higher. `cmd` is a reset whose configuration space is kept, every VF undergoing a
function-level reset; otherwise it is reset. -/
def State.warmCore (s : State) (cmd : Bool) : State :=
  let clamps := s.fget F.TAP_DUTY_STATUS_CLAMPS
  let s1 := s.finishAccepted.resetRegs (fun r _ => !keptWarm r)
  let pf := s1.func 0
  let s2 : State := { s1 with
    evc := {}
    host := { s1.host with
      vfEnable := cmd && s1.host.vfEnable
      numVfs := if cmd then s1.host.numVfs else 0
      bar4 := if cmd then s1.host.bar4 else 10
      vfBar4 := if cmd then s1.host.vfBar4 else 8
      funcs := if cmd then SMap.set [] {} 0 { pf with inFlr := false } else []
      msix := []
      reads := []
      qps := []
      mbxReq := []
      mbxRsp := [] }
    grg := { s1.grg with
      egress := []
      egWait := []
      routes := []
      genBase := s1.grg.genBase + 1 }
    cycles := 0
    tap := { s1.tap with imageUpd := {}, boardUpd := {}, stewardsDown := [] }
    pwr := { s1.pwr with retainClus := [], retainQuad := [], retainDie := [] }
    duty := {}
    halts := []
    cmp := s1.cmp.warm }
  s2.fset F.TAP_DUTY_STATUS_CLAMPS clamps

/-- A warm reset by its LAST_RESET code: BUSY, and stewards that start again (R446, R447). -/
def State.warmStart (s : State) (code : Nat) : State :=
  let s1 := (s.warmCore (code != 4)).fset F.TAP_RESET_CTL_BUSY 1
  let s2 : State := { s1 with pwr := { s1.pwr with
    inReset := some code
    standbyEntry := false
    standbyExit := false
    diesOff := s1.pwr.diesOff.filter (fun d => decide (80 ≤ d)) } }
  (s2.readiness F.TAP_READY_STEWARDS 0).readiness F.TAP_READY_STATE 2

end Sys2Proof.Machine
end

