-- ==== Sys2Proof/Machine/EdgeLoss.lean ====
section
/-! DEFINITION. The loss of edge dies, and the power-down that the loss of edge die 0 starts (R442, R449, R455, R465, R484,
R502). -/

namespace Sys2Proof.Machine

/-! ### Board data (R465) -/

/-- A 32-bit word of the board data; 0 where the area is absent. -/
def State.boardWord (s : State) (off : Nat) : Nat := if s.boardValid then flashWord s.tap.boardRead (boardBase + off) else 0

/-- The management peers that the board data names for HEALTH messages. -/
def State.peers (s : State) : List Nat :=
  (List.range 32).filterMap (fun p =>
    let w := bits (s.boardWord (0x18 + p / 2 * 4)) (p % 2 * 16) 16
    if bit w 15 then some (bits w 0 14) else none)

/-- A HEALTH message to every peer: `TAP_READY`, capacity and a reason; the spec gives its TYPE and not its layout (R478, log 12). -/
def State.sendHealth (s : State) (reason : Nat) : State :=
  s.peers.foldl (fun (s : State) dst =>
    let body := Config.standardBody 4 4 (toBytes (s.reg .TAP_READY 0).toNat 8 ++ toBytes s.capacity.1 4 ++
      toBytes s.capacity.2 4 ++ toBytes reason 8)
    ({ s with grg := { s.grg with mgmtNo := s.grg.mgmtNo + 1 } }).emit (.mgmt dst 4 s.grg.mgmtNo body)) s

/-! ### Dies -/

/-- A die is retired for a cause (R504). -/
def State.dieRetired (s : State) (die cause : Nat) : State :=
  (s.fset F.TAP_DIE_HEALTH_STATE 2 die).fset F.TAP_DIE_HEALTH_CAUSE cause die

/-- The ports of an edge die become Failed; requests in flight on them time out under R430. -/
def State.portsFail (s : State) (edge : Nat) : State :=
  (List.range 8).foldl (fun (s : State) i => s.setPortState (edge * 8 + i) 6) s

/-- Edge die 1, 2 or 3 is lost (R484): its ports become Failed. With edge die 2 the standby Taproot is lost. -/
def State.edgeLost (s : State) (edge cause : Nat) : State :=
  let s1 := (s.dieRetired (80 + edge) cause).portsFail edge
  let s2 : State := { s1 with pwr := { s1.pwr with diesOff := s1.pwr.diesOff ++ [80 + edge] } }
  if edge = 2 ∧ s2.fget F.TAP_STATUS_ACTIVE = 0 then s2.fset F.TAP_STATUS_STANDBY_OK 0 else s2

/-- A managed power-down starts (R449): BUSY until it ends. -/
def State.powerDown (s : State) : State :=
  let s1 := s.fset F.TAP_RESET_CTL_BUSY 1
  { s1 with pwr := { s1.pwr with standbyEntry := true } }

/-- The bound-void event of every partition with an admitted Guaranteed kernel. -/
def State.boundVoidAll (s : State) : State :=
  (((SMap.vals s.cmp.ctxs).map (·.partition)).eraseDups).foldl (fun (s : State) p => s.boundVoid p) s

/-- The other Taproot becomes the active one (R453): a mailbox request is discarded, the bound of Guaranteed kernels is void,
and source 547 is set. -/
def State.takeOver (s : State) : State :=
  let s1 := (s.fset F.TAP_STATUS_ACTIVE (1 - s.fget F.TAP_STATUS_ACTIVE)).fsat F.TAP_STATUS_TAKEOVERS 1
  let s2 := if s1.fget F.TAP_MBX_CMD_STATE = 0 then s1 else s1.mbxReset
  let s3 : State := { s2 with tap := { s2.tap with
    fatal := false, lastBeat := s2.localNs, journalApplied := s2.tap.journalSent } }
  ((s3.event edge0 547).logEvent .takeover edge0).boundVoidAll

/-- Edge die 0 fails as a whole (R455): the host link, the sideband and its ports are lost. The standby takes over, writes a
flash-log record, tells the peers, kills every registered context and starts a managed power-down. Without a standby nothing
acts further. -/
def State.edge0Lost (s : State) : State :=
  let up := s.flag F.TAP_STATUS_ACTIVE || s.flag F.TAP_STATUS_STANDBY_OK
  let s1 := (s.dieRetired edge0 7).portsFail 0
  let s2 := if s1.fget F.TAP_STATUS_ACTIVE = 0 ∧ up then s1.takeOver else s1
  let s3 : State := { s2 with
    host := { s2.host with linkUp := false, served := false }
    pwr := { s2.pwr with edge0Failed := true, diesOff := s2.pwr.diesOff ++ [edge0] } }
  let s4 := s3.fset F.TAP_STATUS_STANDBY_OK 0
  if up then
    let s5 := ((s4.fset F.TAP_STATUS_EDGE0_LOST 1).logEvent .edgeLoss edge0 (some (3 + Config.severity 0x10B % 2))).sendHealth 0x455
    let s6 := (SMap.keys s5.cmp.ctxs).foldl (fun (s : State) c => s.ctxEnd c .killed 5 3 0) s5
    s6.powerDown
  else s4.fset F.TAP_READY_TAPROOT 0

end Sys2Proof.Machine
end

