-- ==== Sys2Proof/Machine/Service.lean ====
section
/-! DEFINITION. From power to service: the 56 V input, bring-up, readiness, and the resets (R435 to R451). -/

namespace Sys2Proof.Machine

/-! ### The 56 V input (R435, R436, R533) -/

/-- The input rises above 48 V: soft-start begins, unless a stop holds conversion off. -/
def execPowerOn (s : State) : Res :=
  need (!s.pwr.converting && !s.pwr.softStart && !s.pwr.latchedOff)
    (.next { s with pwr := { s.pwr with softStart := true } })

/-- Soft-start ends and PWR_GOOD asserts. The package leaves reset once PERST_N is deasserted (R437). -/
def execSoftStartComplete (s : State) : Res :=
  let s1 : State := { s with pwr := { s.pwr with softStart := false, converting := true, pwrGood := true } }
  need s.pwr.softStart
    (.next (if s1.pwr.perst then s1 else s1.coldState 0))

/-- A stop of conversion, numbered as in `TAP_PWR_STATUS`. -/
def stopNumber (c : StopCause) : Nat :=
  match c with
  | .over300A => 3
  | .over400A => 4
  | .over62V => 5
  | .under46V => 6

/-- An overcurrent, overvoltage or undervoltage stops conversion: an unmanaged power loss. After the first two the controller
stays off until the input falls below 40 V. -/
def execInputStop (cause : StopCause) (s : State) : Res :=
  need (s.pwr.converting || s.pwr.softStart) (.next (s.powerLoss (stopNumber cause) 0 (stopNumber cause != 6)))

/-- The input falls below 40 V: the controller may start again, and THERMTRIP_N is released (R436, R533). -/
def execInputBelow40v (s : State) : Res :=
  need (!s.pwr.converting && !s.pwr.softStart)
    (.next { s with pwr := { s.pwr with latchedOff := false, thermtrip := false } })

/-- PERST_N is asserted for at least 100 µs: a cold reset, in any state (R437). -/
def execPerstAssert (s : State) : Res :=
  need (!s.pwr.perst)
    (let code := if s.pwr.pwrGood ∧ s.pwr.inReset ≠ some 0 then 1 else 0
     let s1 := s.coldState code
     .next { s1 with pwr := { s1.pwr with perst := true, inReset := some code } })

/-- An instruction of the test port that took the lands acts as BYPASS once PERST_N is deasserted (R529). -/
def State.landsBack (s : State) : State :=
  match s.jtag.ir with
  | .extest | .extestPulse | .extestTrain | .clamp | .highz => { s with jtag := { s.jtag with ir := .bypass } }
  | _ => s

/-- PERST_N is deasserted: with PWR_GOOD asserted the package leaves reset, at T0; otherwise it stays in reset (R437). -/
def execPerstDeassert (s : State) : Res :=
  let s1 : State := { s with pwr := { s.pwr with perst := false } }
  need s.pwr.perst
    (.next ((if s.pwr.pwrGood then s1.coldState (s.pwr.inReset.getD 1) else s1).landsBack))

/-! ### Bring-up (R438 to R442) -/

/-- The package fails (R439, R440). -/
def State.failed (s : State) (code : Nat) : State := (s.fset F.TAP_READY_FAIL code).readiness F.TAP_READY_STATE 5

/-- The repair slots that are left on the compute die with the fewest (R471). -/
def State.fuseFree (s : State) : Nat :=
  (List.range 64).foldl (fun (m : Nat) d =>
    min m (256 - SMap.count s.tap.fuses.repair (fun k _ => k / 4 / 32 / 128 == d))) 256

/-- `TAP_FW_STATUS` shows the fuses. -/
def State.showFuses (s : State) : State :=
  (s.fset F.TAP_FW_STATUS_FUSE_SVN s.tap.fuses.svnMin).fset F.TAP_FW_STATUS_FUSE_FREE s.fuseFree

/-- The boot ROM reads the device secret, once until the next power-on or cold reset, locks it, and forms the seeds of the device
identity keys (R472). -/
def State.readSecret (s : State) : State :=
  if s.tap.secretLocked then s
  else { s with tap := { s.tap with
    secretLocked := true
    secret := some Config.deviceSecret
    deviceSeeds := deviceSeedsOf Config.deviceSecret } }

/-- The boot ROM has loaded the fuses and checked their integrity (R439), and the identity secret is available (R438, R472). -/
def execFuseLoadComplete (intact : Bool) (s : State) : Res :=
  need (s.pwr.pwrGood && s.pwr.inReset.isNone && s.fget F.TAP_READY_STATE == 0 && !s.pwr.fusesLoaded)
    (.next (if intact then ({ s with pwr := { s.pwr with fusesLoaded := true } }).showFuses.readSecret else s.failed 1))

/-- The running firmware is that of the flash image: its version, SVN and measurements (R463, R473, R475). -/
def State.runImage (s : State) : State :=
  (s.fset F.TAP_FW_STATUS_VERSION (flashWord s.tap.image 0x08)).fset F.TAP_FW_STATUS_RUN_SVN s.imageSvn

/-- The measurements and alias keys follow the running firmware (R467, R473, R475). The spec does not place the steward
component in the image: its measurement is a hash of the bytes that the header's offsets name, taken here from the image
(log 12). -/
def State.deriveKeys (s : State) : State :=
  let len := flashWord s.tap.image 0x10
  let meas := s.imageMeasurement len
  { s with tap := { s.tap with
    runMeas := meas
    aliasSeeds := aliasSeedsOf s.tap.deviceSeeds meas s.imageSvn
    stewardMeas := Config.sha384 (flashRead s.tap.image (flashWord s.tap.image 0x18) (len - flashWord s.tap.image 0x18))
    aliasSvn := s.imageSvn } }

/-- The boot ROM has read and checked the flash image (R439, R464): valid firmware starts, on both edge dies; otherwise the
package enters Recovery. The boot ROM erases the device secret from memory before the firmware starts (R472). Taproot reads
the board data (R465), and writes the cause of the last stop of conversion to the flash log (R533). -/
def execImageVerifyComplete (s : State) : Res :=
  let len := flashWord s.tap.image 0x10
  let run := fun (s : State) =>
    let s1 := (((s.fset F.TAP_FW_STATUS_FLASH_VALID 1).runImage.deriveKeys).fset F.TAP_STATUS_STANDBY_OK 1)
    let s2 : State := { s1 with tap := { s1.tap with boardRead := s1.tap.board, primaryUp := true, standbyUp := true, imageLen := len, lastBeat := s1.localNs, secret := none } }
    let s3 := ((s2.readiness F.TAP_READY_TAPROOT 1).readiness F.TAP_READY_STATE 2).readiness F.TAP_READY_MCTP 1
    let s4 := if s3.fget F.TAP_READY_LAST_RESET = 0 ∧ s3.pwr.stopCause ≠ 0 then s3.logEvent .lastStop 255 (some 4) else s3
    s4.tap.fuses.dies.foldl (fun (s : State) d => s.dieRetired d 1) s4
  need (s.pwr.inReset.isNone && s.fget F.TAP_READY_STATE == 0 && s.pwr.fusesLoaded)
    (.next (if s.imageCheck len = 0 then run s else s.readiness F.TAP_READY_STATE 1))

/-- A die whose self-test fails is retired (R440). -/
def State.testFailed (s : State) (die : Nat) : State :=
  if die < 64 then s.retireComputeDie die 1
  else if die < 80 then s.homeLost (die - 64) 1
  else if die = edge0 then
    let s1 := s.dieRetired edge0 1
    { s1 with pwr := { s1.pwr with edge0Failed := true } }
  else
    let s1 := s.edgeLost (die - 80) 1
    if die = edge2 then { s1 with pwr := { s1.pwr with edge2Failed := true } } else s1

/-- The physical cores of a quadrant's two spares, behind its 32 cores (R10, R493). -/
def spares : List Nat := [32, 33]

/-- A pool core takes the logical number of a failed core (R17, R493, R504). -/
def State.replaceCore (s : State) (core pool : Nat) : State :=
  let q := core / 32
  let s1 := s.setPool q ((s.poolOf q).filter (fun p => p != pool))
  let s2 : State := { s1 with health := { s1.health with
    phys := SMap.put s1.health.phys core pool
    failing := s1.health.failing.filter (fun c => c != core)
    coreErrors := SMap.del s1.health.coreErrors core } }
  s2.fset F.TAP_QUAD_HEALTH_REPLACED (SMap.count s2.health.phys (fun c _ => c / 32 == q)) q

/-- A fused repair slot is in effect (R189, R190). -/
def State.fusedSlot (s : State) (key col : Nat) : State :=
  let i := key / 4
  let j := key % 4
  s.setReg .CORE_LM_REPAIR i (BitVec.ofNat 64 (setBits (s.reg .CORE_LM_REPAIR i).toNat (16 * j) 10 (col + 0x300)))

/-- The stewards apply their fused retirements, spare cores and repair slots (R440, R493, R496). -/
def State.applyFuses (s : State) : State :=
  let f := s.tap.fuses
  let ks := f.clusters.filter (fun k => (s.cluster k).state != .retired)
  let s1 := if ks.isEmpty then s else s.retireClusters ks
  let s2 := (List.range 256).foldl (fun (s : State) q =>
    let mine := (f.clusters.filter (fun k => k / 4 == q)).flatMap (fun k => (List.range 8).map (fun i => k % 4 * 8 + i))
    s.setPool q (spares ++ mine.filter (fun p => !f.cores.contains (q * 32 + p)))) s1
  let s3 := (f.cores.filter (fun c => !f.clusters.contains (c / 8))).foldl (fun (s : State) c =>
    match s.poolOf (c / 32) with
    | p :: _ => s.replaceCore c p
    | [] => s.retireClusters [c / 8]) s2
  f.repair.foldl (fun (s : State) e => s.fusedSlot e.1 e.2) s3

/-- Taproot writes the Package ID from the board data and enables the ports that it marks as used (R442). -/
def State.enablePorts (s : State) : State :=
  let id := s.boardWord 0x04
  let s1 := if bit id 14 then (s.fset F.GRG_PKG_ID_ID (bits id 0 14)).fset F.GRG_PKG_ID_V 1 else s
  (((List.range 32).filter (fun p => bit (s.boardWord 0x08) p && s.portState p != 6)).foldl (fun (s : State) p =>
    (s.fset F.GRG_PORT_CTL_EN 1 p).portEnable p) s1).grigaDone

/-- Ready, once Taproot, the stewards and both tiers are (R444); BOOT_MS holds the first entry (R451). -/
def State.tryReady (s : State) : State :=
  if s.fget F.TAP_READY_STATE = 2 ∧ s.flag F.TAP_READY_TAPROOT ∧ s.flag F.TAP_READY_STEWARDS ∧ s.flag F.TAP_READY_HBM ∧
      s.flag F.TAP_READY_OUTER then
    let s1 := if s.fget F.TAP_READY_BOOT_MS = 0 then s.fset F.TAP_READY_BOOT_MS (min (2 ^ 32 - 1) (s.localNs / 1000000)) else s
    s1.readiness F.TAP_READY_STATE 3
  else s

/-- The stewards of every non-retired die run: Request Retry Status ends and the ports are enabled (R438, R442, R443). -/
def State.stewardsUp (s : State) : State :=
  let s1 := (s.applyFuses.readiness F.TAP_READY_STEWARDS 1).emit .deviceReady
  ({ s1 with host := { s1.host with served := true } }).enablePorts.tryReady

/-- A steward completes its die's self-test (R440). With edge dies 0 and 2 both failed the package fails. -/
def execStewardSelfTestComplete (die : Fin 84) (passed : Bool) (s : State) : Res :=
  let d := die.val
  let tested := d :: s.pwr.selfTested
  let s1 : State := { s with pwr := { s.pwr with selfTested := tested } }
  let s2 := if passed then s1 else s1.testFailed d
  let all := (List.range 84).all (fun e => tested.contains e || s2.fget F.TAP_DIE_HEALTH_STATE e == 2)
  need (s.fget F.TAP_READY_STATE == 2 && s.flag F.TAP_READY_TAPROOT && !s.flag F.TAP_READY_STEWARDS &&
      !s.pwr.selfTested.contains d && s.fget F.TAP_DIE_HEALTH_STATE d != 2 && s.pwr.inReset.isNone)
    (.next (if s2.pwr.edge0Failed ∧ s2.pwr.edge2Failed then s2.failed 2
      else if ¬ all then s2
      else if s2.pwr.edge0Failed then s2.edge0Lost
      else s2.stewardsUp))

/-- The outer tier after training: `ports` are those that trained, with the size their device reports (R271). -/
def State.outerTrained (s : State) (ports : List (Fin 16 × Fin 3)) : State :=
  let good := ports.filter (fun p => p.2.val != 0 && s.fget F.TAP_DIE_HEALTH_STATE (64 + p.1.val) != 2)
  let sizes := (good.map (fun p => p.2.val)).eraseDups
  let en := sizes.length == 1
  (List.range 16).foldl (fun (s : State) h =>
    let mine := (good.find? (fun p => p.1.val == h)).map (fun p => p.2.val)
    let s1 := ((s.fset F.HOM_OT_STATUS_TRAINED (nb mine.isSome) h).fset F.HOM_OT_STATUS_SIZE (mine.getD 0) h).fset
      F.HOM_OT_STATUS_TIER_EN (nb en) h
    let old := s.fget F.HOM_OT_STATUS_STATE h
    s1.fset F.HOM_OT_STATUS_STATE (if ¬ en then 3 else if mine.isNone then 2 else if old = 1 ∨ old = 2 then old else 0) h) s

/-- A unit of a home that training leaves MappedOut: it raises source 129 (R282). -/
def State.trainedOut (s : State) (h : Nat) : State := ((s.degrade (64 + h)).event (64 + h) 129).logEvent .mapout (64 + h)

/-- Training of both tiers ends (R271, R282, R441): a pseudo-channel or a port that fails is MappedOut, and `HOM_CAP` reports the capacity as it
stands. With no HBM stack trained the package fails. -/
def execMemoryTrainingComplete (failedPcs : List (Fin 1024)) (ports : List (Fin 16 × Fin 3)) (s : State) : Res :=
  let s1 := failedPcs.foldl (fun (s : State) p => s.setPcState p.val 2) s
  let none := (List.range 1024).all (fun p => s1.pcState p == 2)
  let s2 := (s1.outerTrained ports).showCapacity
  let out := failedPcs.map (fun p => p.val / 64) ++ (List.range 16).filter (fun h => s2.fget F.HOM_OT_STATUS_STATE h == 2)
  let s3 := out.foldl (fun (s : State) h => s.trainedOut h) s2
  need (s.fget F.TAP_READY_STATE == 2 && s.flag F.TAP_READY_STEWARDS && !s.flag F.TAP_READY_HBM && s.pwr.inReset.isNone)
    (.next (if none then s1.failed 3
      else ((s3.capacityChanged.readiness F.TAP_READY_HBM 1).readiness F.TAP_READY_OUTER 1).tryReady))

/-! ### Resets and Standby (R446 to R451) -/

/-- A command is refused (R449, R450). -/
def State.resetRefuse (s : State) : State := s.fset F.TAP_RESET_CTL_REFUSED 1

/-- Whether WARM or STANDBY is accepted as to the state (R450). -/
def State.resetOpen (s : State) : Bool := s.fget F.TAP_READY_STATE == 3 && !s.flag F.TAP_RESET_CTL_BUSY

/-- STANDBY, from the register or from PLDM (R449, R462). -/
def State.standby (s : State) : State :=
  let busy := s.cmp.ctxs.any (fun e =>
    e.2.state == .running || e.2.state == .stopping || e.2.state == .restoring || e.2.state == .pruning)
  if s.resetOpen && !busy then s.powerDown else s.resetRefuse

/-- RESUME, from the register or from PLDM (R449, R455, R462): outside Standby it has no effect. -/
def State.resumeStandby (s : State) : State :=
  if s.fget F.TAP_READY_STATE = 4 ∧ ¬ s.flag F.TAP_RESET_CTL_BUSY ∧ ¬ s.pwr.edge0Failed then
    let s1 := s.fset F.TAP_RESET_CTL_BUSY 1
    { s1 with pwr := { s1.pwr with standbyExit := true } }
  else s

/-- What an OP of `TAP_RESET_CTL` does (R451): WARM; COLD, which is taken in any state and overrides a warm reset (R450); STANDBY;
RESUME. -/
def State.resetAct (t : State) (op : Nat) : State :=
  match op with
  | 1 => if t.resetOpen then t.warmStart 3 else t.resetRefuse
  | 2 => t.coldState 2
  | 3 => t.standby
  | 4 => t.resumeStandby
  | _ => t

/-- A write of `TAP_RESET_CTL`: a REFUSED bit written as 1 is cleared, and the OP is carried out; without its KEY the write has no
effect (R451). -/
def State.resetCommand (s : State) (who : Requester) (word : Nat) : Res :=
  if bits word 8 8 = 0xA5 then s.regAction who .TAP_RESET_CTL 0 word (fun t => t.resetAct (bits word 0 3))
  else s.regAction who .TAP_RESET_CTL 0 0 id

/-- OP = WARM. A write whose OP is another acts by its own. -/
def execWarmReset (who : Requester) (word : W32) (s : State) : Res := s.resetCommand who word.toNat

/-- OP = COLD. A write whose OP is another acts by its own. -/
def execColdReset (who : Requester) (word : W32) (s : State) : Res := s.resetCommand who word.toNat

/-- OP = STANDBY. A write whose OP is another acts by its own. -/
def execStandby (who : Requester) (word : W32) (s : State) : Res := s.resetCommand who word.toNat

/-- OP = RESUME. A write whose OP is another acts by its own. -/
def execStandbyResume (who : Requester) (word : W32) (s : State) : Res := s.resetCommand who word.toNat

/-- A PCIe Hot Reset or a link-down reset: a warm reset, with the configuration space reset (R446, R447). Before Taproot runs it
resets the configuration space alone. -/
def execHotReset (s : State) : Res :=
  .next (if s.flag F.TAP_READY_TAPROOT ∧ s.fget F.TAP_READY_STATE ≠ 5 then s.warmStart 4
    else { s with host := { s.host with vfEnable := false, numVfs := 0, bar4 := 10, vfBar4 := 8, funcs := [], msix := [] } })

/-- The stewards start again: a live update that had reached them is complete, since they run the new image (R468). -/
def State.stewardsAgain (s : State) : State :=
  if s.fget F.TAP_FW_STATUS_UPDATE = 3 then ((s.setUpdate 4).deriveKeys.event edge0 551).setUpdate 0 else s

/-- A warm reset ends: the package is back where its readiness allows, Device Readiness Status is sent, and a function-level
reset in progress is completed with it (R446, R450). -/
def execWarmResetComplete (s : State) : Res :=
  match s.pwr.inReset with
  | none => stop
  | some code =>
    let s1 : State := { s with
      pwr := { s.pwr with inReset := none }
      host := { s.host with funcs := SMap.mapVals s.host.funcs (fun _ f => { f with inFlr := false }) } }
    let s2 := ((s1.fset F.TAP_RESET_CTL_BUSY 0).fset F.TAP_READY_LAST_RESET code).stewardsAgain
    need (code == 3 || code == 4 || code == 5)
      (.next (if s2.host.served then (s2.readiness F.TAP_READY_STEWARDS 1).tryReady.emit .deviceReady else s2))

/-- A managed power-down ends (R449): every dirty line is written back, memory is in self-refresh, compute and home dies are Off,
and reservations are cleared (R267). -/
def execManagedPowerDownComplete (s : State) : Res :=
  match s.flushLines (fun _ _ _ => true) with
  | none => stop
  | some s1 =>
    let s2 : State := { s1 with
      pwr := { s1.pwr with standbyEntry := false, diesOff := (List.range 80) ++ s1.pwr.diesOff.filter (fun d => decide (80 ≤ d)) }
      cmp := { s1.cmp with rsvs := [] } }
    need s.pwr.standbyEntry
      (.next (((s2.fset F.TAP_RESET_CTL_BUSY 0).readiness F.TAP_READY_STEWARDS 0).readiness F.TAP_READY_STATE 4))

/-- RESUME ends: the package is Ready, with memory kept and everything else as after a warm reset (R449). -/
def execStandbyExitComplete (s : State) : Res :=
  let s1 := s.warmCore true
  let s2 : State := { s1 with pwr := { s1.pwr with
    standbyExit := false
    diesOff := s1.pwr.diesOff.filter (fun d => decide (80 ≤ d)) } }
  need s.pwr.standbyExit
    (.next (((s2.fset F.TAP_RESET_CTL_BUSY 0).fset F.TAP_READY_LAST_RESET 6).readiness F.TAP_READY_STEWARDS 1
      |>.readiness F.TAP_READY_STATE 3))

/-- PLDM SetStateEffecterStates (R462): effecter 1 takes state 1 Standby and state 2 Resume, under the rules of the register.
The completion of a refused request is a free value (log 12). -/
def execSetStateEffecterStates (id : W16) (state : Fin 256) (s : State) : Res :=
  s.sideband (if id ≠ 1 then s.pldmRsp 2 0x39 0x80 []
    else if state.val = 1 then
      let t := s.standby
      if t.pwr.standbyEntry ∧ ¬ s.pwr.standbyEntry then t.pldmRsp 2 0x39 0 []
      else
        let (c, t1) := t.take 8
        t1.pldmRsp 2 0x39 c.toNat []
    else if state.val = 2 then
      let t := s.resumeStandby
      if t.pwr.standbyExit ∧ ¬ s.pwr.standbyExit then t.pldmRsp 2 0x39 0 []
      else
        let (c, t1) := t.take 8
        t1.pldmRsp 2 0x39 c.toNat []
    else s.pldmRsp 2 0x39 0x81 [])

end Sys2Proof.Machine
end

