-- ==== Sys2Proof/Machine/Firmware.lean ====
section
/-! DEFINITION. The two Taproots, sensors, live update and fuses (R452 to R457, R467, R468, R471, R484, R485). -/

namespace Sys2Proof.Machine

/-! ### Primary and standby (R452 to R455) -/

/-- Whether a Taproot is active. -/
def State.taprootUp (s : State) : Bool := s.flag F.TAP_READY_TAPROOT && s.pwr.pwrGood

/-- The active processor sends its heartbeat. -/
def execHeartbeat (s : State) : Res :=
  need (s.taprootUp && !s.tap.fatal)
    (.next (({ s with tap := { s.tap with lastBeat := s.localNs } }).emit .heartbeat))

/-- The standby applies the next journal entry and acknowledges it. -/
def execJournalEntry (s : State) : Res :=
  need (s.taprootUp && s.flag F.TAP_STATUS_STANDBY_OK && decide (s.tap.journalApplied < s.tap.journalSent))
    (.next (({ s with tap := { s.tap with journalApplied := s.tap.journalApplied + 1 } }).emit
      (.journalAck (s.tap.journalApplied + 1))))

/-- The active processor's die reports a fatal fault: the standby takes over. Without a standby Taproot restarts with a warm
reset (R446). -/
def execPrimaryFatalFault (s : State) : Res :=
  need (s.taprootUp && !s.tap.fatal)
    (.next (if s.flag F.TAP_STATUS_STANDBY_OK then { s with tap := { s.tap with fatal := true } } else s.warmStart 5))

/-- An unplanned take-over: the former primary is reset, and no standby runs meanwhile (R453, R454). -/
def State.unplanned (s : State) : State :=
  let s1 := s.takeOver.fset F.TAP_STATUS_STANDBY_OK 0
  { s1 with tap := { s1.tap with formerDown := true } }

/-- A planned take-over of a live update (R467): with UPDATE = 1 to the standby, which runs the new firmware, and with UPDATE = 2
back, after which the stewards are updated. -/
def State.planned (s : State) : State :=
  if s.fget F.TAP_FW_STATUS_UPDATE = 1 then
    let s1 := (s.takeOver.fset F.TAP_STATUS_STANDBY_OK 0).runImage
    ({ s1 with tap := { s1.tap with formerDown := true, handBack := false } }).setUpdate 2
  else
    let s1 := s.takeOver.fset F.TAP_FW_STATUS_DIE 0
    ({ s1 with tap := { s1.tap with handBack := false } }).setUpdate 3

/-- The standby takes over: 5 ms after the last heartbeat, on a fatal fault, or at the hand-over of a live update. -/
def execTakeover (cause : TakeoverCause) (s : State) : Res :=
  let ok := s.taprootUp && s.flag F.TAP_STATUS_STANDBY_OK
  match cause with
  | .heartbeatLoss =>
    need ok (.next (s.reachLocal (s.tap.lastBeat + 5000000)).unplanned)
  | .fatalFault => need (ok && s.tap.fatal) (.next s.unplanned)
  | .planned =>
    need (ok && (s.fget F.TAP_FW_STATUS_UPDATE == 1 || (s.fget F.TAP_FW_STATUS_UPDATE == 2 && s.tap.handBack)))
      (.next s.planned)

/-- The former primary restarts from the flash image; it becomes the standby if it passes its self-test, and in a live update it
is then handed back to (R454, R467). -/
def execFormerPrimaryRestart (passed : Bool) (s : State) : Res :=
  let s1 : State := { s with tap := { s.tap with formerDown := false } }
  need (s.taprootUp && s.tap.formerDown)
    (.next (if passed then
      let s2 := s1.fset F.TAP_STATUS_STANDBY_OK 1
      { s2 with tap := { s2.tap with handBack := s2.fget F.TAP_FW_STATUS_UPDATE == 2, journalApplied := s2.tap.journalSent } }
    else s1))

/-- Edge die 0 fails as a whole (R455). -/
def execEdgeDie0Loss (s : State) : Res :=
  need (s.taprootUp && !s.pwr.edge0Failed) (.next s.edge0Lost)

/-- Edge die 1, 2 or 3 is lost (R484, R502). Number 0 is edge die 0, which has an event of its own. -/
def execEdgeDieLoss (edge : Fin 4) (s : State) : Res :=
  let e := edge.val
  need (s.taprootUp && e != 0 && s.fget F.TAP_DIE_HEALTH_STATE (80 + e) != 2)
    (.next (((s.edgeLost e 7).logEvent .edgeLoss (80 + e)).sendHealth 0x484))

/-- A recovery session with no request on its path for 60 s is released (R469). -/
def execRecoverySessionTimeout (s : State) : Res :=
  let s1 := s.reachLocal (s.tap.sessionAt + 60000000000)
  need (s.fget F.TAP_READY_STATE == 1 && s.tap.session.isSome)
    (.next { s1 with tap := { s1.tap with session := none } })

/-! ### Sensors (R456, R457, R531) -/

/-- The sensors of a die: 8 on a compute die, 4 on a home or edge die. -/
def sensorCount (die : Nat) : Nat := if die < 64 then 8 else 4

/-- The 95 °C event of a die. -/
def State.warmEvent (old new : Option Int) (s : State) (die : Nat) : State :=
  let hot := fun (t : Option Int) => match t with
    | none => false
    | some x => decide (95 * 16 ≤ x)
  if hot new && !hot old then s.event die 1010 else s

/-- Sums of the input samples: PIN is the mean over the last 1 ms, and ENERGY the sum over 100 µs each. -/
def State.inputSample (s : State) (mV tenMa : Nat) : State :=
  let p := mV * tenMa
  let last := (p :: s.tap.inputs).take 10
  let total := s.tap.energyN + p
  let s1 : State := { s with tap := { s.tap with inputs := last, energyN := total } }
  let pin := last.foldl (· + ·) 0 / last.length / 100000
  ((((s1.fset F.TAP_POWER_VIN mV).fset F.TAP_POWER_IIN tenMa).fset F.TAP_POWER_PIN (min 65535 pin))).setReg .TAP_ENERGY 0
    (BitVec.ofNat 64 (total / 1000))

/-- The active processor samples a sensor, one that the die has (R456). -/
def execSensorSample (sample : Sample) (s : State) : Res :=
  match sample with
  | .dieTemp die sensor value =>
    let d := die.val
    let i := d * 8 + sensor.val
    let s1 := (s.fset F.TAP_TEMP_TEMP value.toNat i).fset F.TAP_TEMP_VALID 1 i
    need (s.taprootUp && decide (sensor.val < sensorCount d))
      (.next (if s.pwr.diesOff.contains d ∨ s.fget F.TAP_DIE_HEALTH_STATE d = 2 then s
        else State.warmEvent (s.dieTemp d) (s1.dieTemp d) s1 d))
  | .input mV tenMilliamp => need (s.taprootUp) (.next (s.inputSample mV.toNat tenMilliamp.toNat))
  | .rail7 mV => need (s.taprootUp) (.next { s with tap := { s.tap with rail7 := mV.toNat } })
  | .regulator die mV =>
    need (s.taprootUp) (.next { s with tap := { s.tap with rails := SMap.set s.tap.rails 0 die.val mV.toNat } })

/-! ### Stewards (R467, R468, R485) -/

/-- The bound of every partition with an admitted Guaranteed kernel on a compute die is void. -/
def State.boundVoidOn (s : State) (die : Nat) : State :=
  let ks := (List.range 16).map (fun i => die * 16 + i)
  (((s.ctxsOn ks).map (fun c => s.partOf c)).eraseDups).foldl (fun (s : State) p => s.boundVoid p) s

/-- A die's steward is being replaced or restarted, which takes at most 4 ms: Canopy places no block on the die and starts no rotation
and takes no victim there until then, and the bound of its Guaranteed kernels is void (R468, R485; log 90). -/
def State.stewardDown (s : State) (die : Nat) : State :=
  let s1 := s.boundVoidOn die
  { s1 with tap := { s1.tap with stewardsDown := SMap.put s1.tap.stewardsDown die (s1.localNs + 4000000) } }

/-- The next die's steward is replaced in a live update. After the last die the measurements and alias keys are derived again
and the update is complete. -/
def execStewardUpdate (s : State) : Res :=
  let d := s.fget F.TAP_FW_STATUS_DIE
  let s1 := s.stewardDown d
  need (s.taprootUp && s.fget F.TAP_FW_STATUS_UPDATE == 3)
    (.next (if d < 83 then s1.fset F.TAP_FW_STATUS_DIE (d + 1)
      else ((((s1.fset F.TAP_FW_STATUS_DIE 0).setUpdate 4).deriveKeys.event edge0 551).setUpdate 0).logEvent .firmware 255))

/-- A steward that missed its heartbeat for 10 ms is restarted: its die behaves as while it is updated. -/
def execStewardHeartbeatMiss (die : Fin 84) (s : State) : Res :=
  need (s.taprootUp && s.flag F.TAP_READY_STEWARDS && s.fget F.TAP_DIE_HEALTH_STATE die.val != 2)
    (.next (s.stewardDown die.val))

/-! ### Fuses (R471, R496) -/

/-- Whether a field is one that Taproot burns in service: a written repair slot that is not fused, on a die with room left; a
retirement that a test confirmed; or the SVN minimum after a completed live update that asked for it. -/
def State.burnable (s : State) (f : FuseField) : Bool :=
  match f with
  | .repairSlot core bank slot =>
    let w := (s.reg .CORE_LM_REPAIR (core.val * 32 + bank.val)).toNat
    bit w (16 * slot.val + 8) && !bit w (16 * slot.val + 9) &&
      decide (SMap.count s.tap.fuses.repair (fun k _ => k / 4 / 32 / 128 == core.val / 128) < 256)
  | .retireCore core =>
    s.health.confirmed.contains core.val && !s.tap.fuses.cores.contains core.val && (SMap.has s.health.phys core.val || s.health.retiredCores.contains core.val)
  | .retireCluster cluster =>
    (s.cluster cluster.val).state == .retired && !s.tap.fuses.clusters.contains cluster.val && s.health.confirmed.any (fun c => c / 8 == cluster.val)
  | .retireDie die =>
    s.fget F.TAP_DIE_HEALTH_STATE die.val == 2 && !s.tap.fuses.dies.contains die.val && s.fget F.TAP_DIE_HEALTH_CAUSE die.val == 1
  | .svnMinimum => s.tap.burnSvn && s.fget F.TAP_FW_STATUS_UPDATE == 0

/-- What a verified burn of a field does; the SVN minimum is part of measurement 2 (R475, R482). -/
def State.burn (s : State) (f : FuseField) : State :=
  let z := s.tap.fuses
  let put := fun (z : Fuses) => { s with tap := { s.tap with fuses := z } }
  match f with
  | .repairSlot core bank slot =>
    let i := core.val * 32 + bank.val
    let w := (s.reg .CORE_LM_REPAIR i).toNat
    (put { z with repair := SMap.put z.repair (i * 4 + slot.val) (bits w (16 * slot.val) 8) }).setReg .CORE_LM_REPAIR i
      (BitVec.ofNat 64 (setBits w (16 * slot.val + 9) 1 1))
  | .retireCore core =>
    let s1 := put { z with cores := z.cores ++ [core.val] }
    { s1 with health := { s1.health with confirmed := s1.health.confirmed.filter (fun c => c != core.val) } }
  | .retireCluster cluster => put { z with clusters := z.clusters ++ [cluster.val] }
  | .retireDie die => put { z with dies := z.dies ++ [die.val] }
  | .svnMinimum =>
    let s1 := put { z with svnMin := max z.svnMin (s.fget F.TAP_FW_STATUS_RUN_SVN) }
    ({ s1 with tap := { s1.tap with burnSvn := false } }).event edge0 551

/-- Taproot burns one field and verifies it by reading it back; a field that fails to verify is left as it was, with a flash-log
record of SEVERITY 3. -/
def execFuseBurn (field : FuseField) (verified : Bool) (s : State) : Res :=
  need (s.taprootUp && s.fget F.TAP_READY_STATE != 0 && s.burnable field)
    (.next (if verified then (s.burn field).showFuses.logEvent .fuse 255 else s.logEvent .fuse 255 (some 3)))

end Sys2Proof.Machine
end

