-- ==== Sys2Proof/Machine/PowerCtl.lean ====
section
/-! DEFINITION. The power controller, the current clamp, the thermal controller and the trip (R522 to R525, R531, R532). -/

namespace Sys2Proof.Machine

/-- Whether a limit of the power controller is exceeded: PIN over PLIM, or IIN over 260 A (R523). -/
def State.overPin (s : State) : Bool := decide (s.fget F.TAP_PWR_LIMIT_PLIM < s.fget F.TAP_POWER_PIN)

/-- IIN over 260 A; the field counts 10 mA. -/
def State.overIin (s : State) : Bool := decide (26000 < s.fget F.TAP_POWER_IIN)

/-- PIN below 97 % of PLIM, and IIN below 250 A. -/
def State.calm (s : State) : Bool :=
  decide (s.fget F.TAP_POWER_PIN * 100 < s.fget F.TAP_PWR_LIMIT_PLIM * 97) && decide (s.fget F.TAP_POWER_IIN < 25000)

/-- The power controller lowers by 1/16: clusters that hold no Guaranteed context first, Guaranteed clusters only when all others
are at 1/16 (R523). -/
def Duty.lower (d : Duty) (pin iin : Bool) : Duty :=
  let e := { d with
    calmMs := 0
    onPin := pin
    onIin := iin }
  if 1 < d.other then { e with other := d.other - 1 }
  else if 1 < d.guar then { e with guar := d.guar - 1 }
  else e

/-- It raises by 1/16, Guaranteed clusters first (log 57). -/
def Duty.raise (d : Duty) : Duty :=
  let e := if d.guar < 16 then { d with guar := d.guar + 1 } else { d with other := min 16 (d.other + 1) }
  let done := e.guar == 16 && e.other == 16
  { e with
    calmMs := 0
    onPin := d.onPin && !done
    onIin := d.onIin && !done }

/-- One millisecond of the power controller. -/
def Duty.powerMs (d : Duty) (pin iin calm : Bool) : Duty :=
  if pin || iin then d.lower pin iin
  else if calm then (if d.calmMs < 9 then { d with calmMs := d.calmMs + 1 } else d.raise)
  else { d with calmMs := 0 }

/-- Once per ms the power controller lowers or raises the duty ceiling (R523). -/
def execPowerControllerTick (s : State) : Res :=
  need s.pwr.pwrGood
    (.next (s.dutyChange (fun t => { t with duty := t.duty.powerMs t.overPin t.overIin t.calm })))

/-- The comparator at 280 A clamps every cluster to at most 8/16, with a log record of SEVERITY 2 (R523, R525). -/
def execCurrentClamp (s : State) : Res :=
  need (s.pwr.pwrGood && !s.duty.clamp)
    (.next (((s.dutyChange (fun t => { t with duty := { t.duty with clamp := true } })).fsat F.TAP_DUTY_STATUS_CLAMPS 1).logEvent
      .clamp 255 (some 2)))

/-- After 1 ms below 250 A the clamp releases, and the power controller starts from 8/16 (R523). -/
def execClampRelease (s : State) : Res :=
  need (s.pwr.pwrGood && s.duty.clamp)
    (.next (s.dutyChange (fun t => { t with duty := { t.duty with
      clamp := false
      other := 8
      guar := 16
      calmMs := 0
      onIin := true } })))

/-- Whether a die is hot: from 100 °C on, until its hottest sensor is below 97 °C (R531). Temperatures count 1/16 °C. -/
def State.hotNow (s : State) (was : Bool) (die : Nat) : Bool :=
  match s.dieTemp die with
  | none => was
  | some t => if 1600 ≤ t then true else if t < 1552 then false else was

/-- A list of dies with one put in or taken out. -/
def withDie (l : List Nat) (die : Nat) (on : Bool) : List Nat :=
  let r := l.filter (fun d => d != die)
  if on then r ++ [die] else r

/-- One millisecond of a compute die's thermal controller: a hot die's clusters fall by 1/16, and rise by 1/16 per 10 ms after
that (R531). -/
def Duty.thermalMs (d : Duty) (die : Nat) (hot : Bool) : Duty :=
  let c := SMap.get d.thermal 16 die
  let n := SMap.get d.cool 0 die
  let e := { d with hot := withDie d.hot die hot }
  let put := fun (c n : Nat) =>
    { e with
      thermal := SMap.set d.thermal 16 die c
      cool := SMap.set d.cool 0 die n }
  if hot then put (max 1 (c - 1)) 0
  else if c < 16 then (if n < 9 then put c (n + 1) else put (c + 1) 0)
  else put c 0

/-- The thermal controller of a die runs for one millisecond: a compute die's duty, a home die's cap on both its stacks; an edge
die has neither (R531). -/
def execThermalControllerTick (die : Fin 84) (s : State) : Res :=
  let d := die.val
  need s.pwr.pwrGood
    (.next (if d < 64 then
        s.dutyChange (fun t => { t with duty := t.duty.thermalMs d (t.hotNow (t.duty.hot.contains d) d) })
      else if d < 80 then
        { s with duty := { s.duty with capped := withDie s.duty.capped d (s.hotNow (s.duty.capped.contains d) d) } }
      else s))

/-- A trip comparator asserts THERMTRIP_N and the hot-swap controller stops conversion: an unmanaged power loss, which ends a
managed power-down or a reset (R532, R533). -/
def execThermalTrip (unit : TripUnit) (s : State) : Res :=
  let s1 := match unit with
    | .die d => s.powerLoss 1 d.val true
    | .stack n => s.powerLoss 2 n.val true
  need s.pwr.converting (.next { s1 with pwr := { s1.pwr with thermtrip := true } })

end Sys2Proof.Machine
end

