-- ==== Sys2Proof/Machine/Commit.lean ====
section
/-! DEFINITION. Commit groups: snapshots, validity rules, the change of the active set, discards, and the stop of a queue pair
that a commit asks for (R26 to R34, R53, R234, R276, R286, R291, R341, R403, R405, R414, R434). -/

namespace Sys2Proof.Machine

/-! ### The groups -/

/-- The members of a group. -/
def groupRegs (g : Group) : List Reg :=
  match g with
  | .tbSrc => [.TB_SRC_CFG, .TB_GRIGA_PORTS, .TB_PTM_OFFSET]
  | .cnpLayout => [.CNP_PART, .CNP_CLUSTER]
  | .qdcAlloc => [.QDC_ALLOC]
  | .homRsv => [.HOM_RSV]
  | .homMap => [.HOM_MAP]
  | .homHw => [.HOM_HW_PRI, .HOM_HW_REP, .HOM_HW_LEN]
  | .cnpQp => [.CNP_QP_SQ, .CNP_QP_CQ, .CNP_QP_CFG]
  | .cnpBar4 => [.CNP_BAR4_WIN, .CNP_BAR4_CTX]
  | .grgWin => [.GRG_INGRESS, .GRG_WIN_BASE, .GRG_WIN_LIMIT]

/-- The commit register of a group. -/
def commitReg (g : Group) : Reg :=
  match g with
  | .tbSrc => .TB_SRC_COMMIT
  | .cnpLayout => .CNP_LAYOUT_COMMIT
  | .qdcAlloc => .QDC_ALLOC_COMMIT
  | .homRsv => .HOM_RSV_COMMIT
  | .homMap => .HOM_MAP_COMMIT
  | .homHw => .HOM_HW_COMMIT
  | .cnpQp => .CNP_QP_COMMIT
  | .cnpBar4 => .CNP_BAR4_COMMIT
  | .grgWin => .GRG_WIN_COMMIT

/-- How many groups of a kind there are. -/
def groupCount (g : Group) : Nat :=
  match g with
  | .tbSrc | .cnpLayout | .homMap | .grgWin => 1
  | .qdcAlloc => 256
  | .homRsv => 16
  | .homHw => 64
  | .cnpQp => 4096
  | .cnpBar4 => 256

/-- The group, by number, that instance `j` of a member belongs to. -/
def groupInst (g : Group) (j : Nat) : Nat :=
  match g with
  | .tbSrc | .cnpLayout | .homMap | .grgWin => 0
  | .homRsv => j / 1024
  | .qdcAlloc | .homHw | .cnpQp | .cnpBar4 => j

/-- The member register that a key of the register file names, if it is one of the group. -/
def groupReg (g : Group) (key : Nat) : Option Reg := (groupRegs g).find? (fun r => r.code == key / 2 ^ 20)

/-- The group that a register is a member of. -/
def groupOfReg (r : Reg) : Option Group :=
  [Group.tbSrc, .cnpLayout, .qdcAlloc, .homRsv, .homMap, .homHw, .cnpQp, .cnpBar4, .grgWin].find? (fun g =>
    (groupRegs g).contains r)

/-- The fields of the commit registers (R34). -/
def fCommit (g : Group) : Fld := ⟨commitReg g, 0, 1⟩
/-- PENDING. -/
def fPending (g : Group) : Fld := ⟨commitReg g, 1, 1⟩
/-- SHADOW_RD. -/
def fShadowRd (g : Group) : Fld := ⟨commitReg g, 3, 1⟩
/-- REJECT. -/
def fReject (g : Group) : Fld := ⟨commitReg g, 4, 1⟩
/-- OVERRUN. -/
def fOverrun (g : Group) : Fld := ⟨commitReg g, 5, 1⟩
/-- COMMIT_COUNT. -/
def fCount (g : Group) : Fld := ⟨commitReg g, 16, 16⟩

/-! ### Snapshots -/

/-- The bits of a register that are in CM fields. -/
def Reg.cmBits (r : Reg) : Nat :=
  r.spec.fields.foldl (fun (m : Nat) f => if f.acc = .cm then m ||| ((2 ^ f.width - 1) * 2 ^ f.lo) else m) 0

/-- A register word with its CM fields taken from another. -/
def Reg.withCm (r : Reg) (old new : W64) : W64 :=
  let m := BitVec.ofNat 64 r.cmBits
  (new &&& m) ||| (old &&& ~~~ m)

/-- The shadows of a group that differ from the active set (R28). -/
def State.snapshot (s : State) (g : Group) (i : Nat) : List (Nat × W64) :=
  s.shadow.filter (fun e => (groupReg g e.1).isSome && groupInst g (e.1 % 2 ^ 20) == i)

/-- One member takes its new active value; its shadow keeps what it holds (R27, R28). -/
def State.activate (s : State) (g : Group) (e : Nat × W64) : State :=
  match groupReg g e.1 with
  | none => s
  | some r =>
    let j := e.1 % 2 ^ 20
    let sh := s.shadowReg r j
    let s1 := s.setReg r j (r.withCm (s.reg r j) e.2)
    s1.setShadow r j (r.withCm (s1.reg r j) sh)

/-- The state with a snapshot as the active set. -/
def State.withSet (s : State) (g : Group) (snap : List (Nat × W64)) : State :=
  snap.foldl (fun (s : State) e => s.activate g e) s

/-! ### Validity rules -/

/-- R53. -/
def State.tbSrcValid (s : State) : Bool :=
  let griga := s.flag F.TB_SRC_CFG_EN_GRIGA
  let master := s.flag F.TB_SRC_CFG_MASTER
  let ports := s.fget F.TB_GRIGA_PORTS_PORTS != 0
  (!(griga && !master) || ports) && (!master || (!griga && ports))

/-- Whether a partition has a registered context. -/
def State.hasContext (s : State) (p : Nat) : Bool :=
  s.cmp.ctxs.any (fun e => e.2.state != .free && e.2.partition == p)

/-- R341. `old` is the state with the active set. -/
def State.layoutValid (old s : State) : Bool :=
  let owned := fun (t : State) k => t.fget F.CNP_CLUSTER_OWNED k
  let owner := fun (t : State) k => t.fget F.CNP_CLUSTER_OWNER k
  (List.range 1024).all (fun k =>
    ((owned old k == owned s k && owner old k == owner s k) || (s.cluster k).state == .idle) &&
      (owned s k == 0 || ((s.cluster k).state != .retired && s.flag F.CNP_PART_EN (owner s k)))) &&
  (List.range 1024).all (fun p =>
    (s.flag F.CNP_PART_EN p || !s.hasContext p) &&
      (!s.flag F.CNP_PART_LEND p ||
        (decide (10 ≤ s.fget F.CNP_PART_LEND_GRACE p) && decide (s.fget F.CNP_PART_LEND_GRACE p ≤ 1000))))

/-- R286. -/
def State.rsvValid (s : State) (home : Nat) : Bool :=
  let sum := fun (f : Fld) => (List.range 1024).foldl (fun (n : Nat) p => n + s.fget f (home * 1024 + p)) 0
  decide (sum F.HOM_RSV_HBM_UNITS ≤ 4687) && decide (sum F.HOM_RSV_OT_UNITS ≤ 585)

/-- The interleave groups whose mode differs between two states, as `groupOf` numbers them. -/
def modeChanges (old s : State) : List Nat :=
  (List.range 384).filter (fun n =>
    if n < 256 then old.nearGroup false n != s.nearGroup false n
    else old.nearGroup true (n - 256) != s.nearGroup true (n - 256))

/-- The first address of an interleave group. -/
def groupBase (n : Nat) : Nat := if n < 256 then n * 2 ^ 34 else outerBase + (n - 256) * 2 ^ 34

/-- The rules of HOM_MAP: a changed group overlaps no live Heartwood region (R276), and the bits of outer groups that are not
populated are 0 (R296). -/
def State.mapValid (old s : State) : Bool :=
  (modeChanges old s).all (fun n => !s.hwOverlap (groupBase n) (2 ^ 34)) &&
    (List.range 128).all (fun g => !s.nearGroup true g || decide (16 * g < s.outerRanges))

/-- Whether an extent lies in near groups. -/
def State.nearRange (s : State) (pa len : Nat) : Bool :=
  let outer := decide (outerBase ≤ pa)
  let u := if outer then pa - outerBase else pa
  (List.range ((u % 2 ^ 34 + len + 2 ^ 34 - 1) / 2 ^ 34)).all (fun j =>
    s.nearGroup outer (u / 2 ^ 34 + j))

/-- The range of an address within its tier. -/
def rangeOf (pa : Nat) : Nat := if pa < outerBase then pa / 2 ^ 30 else (pa - outerBase) / 2 ^ 30

/-- R291. -/
def State.hwValid (s : State) (r : Nat) : Bool :=
  let len := s.fget F.HOM_HW_LEN_LEN r
  let n := hwCopyLen len
  let a := s.hwBase r 0
  let b := s.hwBase r 1
  s.hwState r == 0 && decide (1 ≤ len) && decide (len ≤ 1048576) && decide (a % 2 ^ 30 = b % 2 ^ 30) &&
    s.populatedRange a n && s.populatedRange b n && s.nearRange a n && s.nearRange b n &&
    decide (rangeOf a % 16 ≠ rangeOf b % 16) && (decide (a + n ≤ b) || decide (b + n ≤ a)) &&
    !s.hwOverlap a n && !s.hwOverlap b n

/-- A ring in package memory is populated and clear of Heartwood; one in host memory is not looked at. -/
def State.ringSound (s : State) (host addr size len : Nat) : Bool :=
  host != 0 || (s.populatedRange (addr * 4096) (2 ^ size * len) && !s.hwOverlap (addr * 4096) (2 ^ size * len))

/-- R403. -/
def State.qpValid (old s : State) (q : Nat) : Bool :=
  let sq := s.fget F.CNP_QP_CFG_SQ_SIZE q
  let cq := s.fget F.CNP_QP_CFG_CQ_SIZE q
  let f := s.fget F.CNP_QP_CFG_FUNC q
  let same := fun (r : Reg) => old.reg r q == s.reg r q
  let twin := (List.range 4096).any (fun p =>
    p != q && s.flag F.CNP_QP_CFG_EN p && s.fget F.CNP_QP_CFG_FUNC p == f &&
      s.fget F.CNP_QP_CFG_VFIDX p == s.fget F.CNP_QP_CFG_VFIDX q)
  !s.flag F.CNP_QP_CFG_EN q ||
    (decide (4 ≤ sq) && decide (sq ≤ 16) && decide (4 ≤ cq) && decide (cq ≤ 16) &&
      s.ringSound (s.fget F.CNP_QP_SQ_HOST q) (s.fget F.CNP_QP_SQ_ADDR q) sq 64 &&
      s.ringSound (s.fget F.CNP_QP_CQ_HOST q) (s.fget F.CNP_QP_CQ_ADDR q) cq 32 &&
      (f == 0 || s.funcExists f) &&
      (!s.flag F.CNP_QP_CFG_IRQ_EN q || decide (s.fget F.CNP_QP_CFG_VECTOR q < vectorCount f)) &&
      (f == 0 || !twin) &&
      (!old.flag F.CNP_QP_CFG_EN q || (same .CNP_QP_SQ && same .CNP_QP_CQ && same .CNP_QP_CFG)))

/-- R414. -/
def State.bar4Valid (s : State) (f : Nat) : Bool :=
  let base := s.fget F.CNP_BAR4_WIN_BASE f * 65536
  !s.flag F.CNP_BAR4_WIN_EN f || decide (base < (if f = 0 then 2 ^ 46 else 2 ^ 57))

/-- R434. -/
def State.winValid (s : State) : Bool :=
  (List.range 64).all (fun w =>
    !s.flag F.GRG_WIN_BASE_EN w || decide (s.fget F.GRG_WIN_BASE_BASE w ≤ s.fget F.GRG_WIN_LIMIT_LIMIT w))

/-- Whether a new set keeps the validity rules of its block (R29). -/
def State.setValid (old s : State) (g : Group) (i : Nat) : Bool :=
  match g with
  | .tbSrc => s.tbSrcValid
  | .cnpLayout => old.layoutValid s
  | .qdcAlloc =>
    s.fget F.QDC_ALLOC_MASK0 i != 0 && s.fget F.QDC_ALLOC_MASK1 i != 0 && s.fget F.QDC_ALLOC_MASK2 i != 0 &&
      s.fget F.QDC_ALLOC_MASK3 i != 0
  | .homRsv => s.rsvValid i
  | .homMap => old.mapValid s
  | .homHw => s.hwValid i
  | .cnpQp => old.qpValid s i
  | .cnpBar4 => s.bar4Valid i
  | .grgWin => s.winValid

/-! ### COMMIT -/

/-- A commit that clears EN of a queue pair waits for the pair's commands (R405). -/
def State.qpStops (s : State) (g : Group) (i : Nat) (snap : List (Nat × W64)) : Bool :=
  g == .cnpQp && s.flag F.CNP_QP_CFG_EN i && !(s.withSet g snap).flag F.CNP_QP_CFG_EN i

/-- A write of 1 to COMMIT (R28 to R30). -/
def State.commitNow (s : State) (g : Group) (i : Nat) : State :=
  if s.flag (fCommit g) i then s.fset (fOverrun g) 1 i
  else
    let snap := s.snapshot g i
    if s.setValid (s.withSet g snap) g i then
      let s1 := (s.fset (fCommit g) 1 i).fset (fPending g) 0 i
      let s2 : State := { s1 with snaps := SMap.put s1.snaps ((commitReg g).key i) snap }
      if s.qpStops g i snap then s2.updQp i (fun p => { p with stopping := true }) else s2
    else (s.fset (fReject g) 1 i).fset (fPending g) 1 i

/-- A write of 1 to DISCARD: the shadows follow the active set again; ignored while COMMIT reads 1 (R34). -/
def State.discardNow (s : State) (g : Group) (i : Nat) : State :=
  if s.flag (fCommit g) i then s
  else
    let mine := s.snapshot g i
    ({ s with shadow := s.shadow.filter (fun e => !mine.contains e) }).fset (fPending g) 0 i

/-- A write of a commit register: the plain fields, then COMMIT, then DISCARD (log 55). There is no register of a number
beyond the groups of the kind: its place is reserved, and a write there has no effect (R25). -/
def State.commitWrite (s : State) (who : Requester) (g : Group) (i : Nat) (word : Nat) : Res :=
  if groupCount g ≤ i then .next s
  else
    s.regAction who (commitReg g) i word (fun (t : State) =>
      let t1 := if bit word 0 then t.commitNow g i else t
      if bit word 2 then t1.discardNow g i else t1)

/-- A write of a commit register with COMMIT; with COMMIT written as 0 it is what the word's other fields say (R5, R34). -/
def execCommit (who : Requester) (g : Group) (i : Nat) (word : W32) (s : State) : Res :=
  s.commitWrite who g i word.toNat

/-- A write of a commit register with DISCARD (R34); whatever else the word writes takes effect too. -/
def execDiscard (who : Requester) (g : Group) (i : Nat) (word : W32) (s : State) : Res :=
  s.commitWrite who g i word.toNat

/-! ### The new set takes effect -/

/-- What a block does beyond acting on its new set. `old` is the state before. -/
def State.setApplied (old s : State) (g : Group) (i : Nat) : State :=
  match g with
  | .tbSrc => old.tbSrcApplied s
  | .homMap =>
    let ch := modeChanges old s
    { s with
      free := s.free + 1
      cmp := { s.cmp with
        mem := SMap.keep s.cmp.mem (fun a _ => !ch.contains (groupOf a))
        poison := s.cmp.poison.filter (fun l => !ch.contains (groupOf (l * 128)))
        indet := ch.foldl (fun (m : SMap Nat) n => SMap.put m n s.free) s.cmp.indet } }
  | .homHw => s.fset F.HOM_HW_CTL_STATE 1 i
  | .cnpQp =>
    if old.flag F.CNP_QP_CFG_EN i = s.flag F.CNP_QP_CFG_EN i then s
    else (s.setReg .CNP_QP_STATUS i 0).updQp i (fun _ => {})
  | .cnpLayout => s
  | .qdcAlloc => s
  | .homRsv => s
  | .cnpBar4 => s
  | .grgWin => s

/-- The block replaces its active set with the snapshot as a whole: COMMIT returns to 0, REJECT is cleared and COMMIT_COUNT
rises (R28, R34). -/
def State.applySet (s : State) (g : Group) (i : Nat) : State :=
  let key := (commitReg g).key i
  let snap := SMap.get s.snaps [] key
  let s1 := s.setApplied (s.withSet g snap) g i
  let s2 : State := { s1 with snaps := SMap.del s1.snaps key }
  ((s2.fset (fCommit g) 0 i).fset (fReject g) 0 i).fadd (fCount g) 1 i

/-- Whether a new set of a group takes effect only at a slot boundary (R53, R286). -/
def atSlot (g : Group) : Bool := g == .tbSrc || g == .homRsv

/-- A committed EN = 0 takes effect once no command of the pair is outstanding (R405). -/
def execQueuePairStop (q : Fin 4096) (s : State) : Res :=
  let k := q.val
  let p := s.qp k
  need (s.flag F.CNP_QP_COMMIT_COMMIT k && s.qpStops .cnpQp k (SMap.get s.snaps [] ((commitReg .cnpQp).key k)) && p.stopping &&
      p.started.isEmpty && p.held.isNone && p.waiting.isEmpty && !p.fetching)
    (.next (s.applySet .cnpQp k))

end Sys2Proof.Machine
end

