-- ==== Sys2Proof/Machine/Debug.lean ====
section
/-! DEFINITION. Debug access: attachments, halts, steps and inspection (R505 to R517). -/

namespace Sys2Proof.Machine

/-! ### Commands -/

/-- A command that needs its slot attached: the act takes the slot and its context. -/
def State.attached (act : State → Nat → Nat → State × Nat) (s : State) (a : Nat) : State × Nat :=
  if s.flag F.DBG_ATT_VALID a then act s a (s.fget F.DBG_ATT_CONTEXT a) else (s, 2)

/-- ATTACH (R505): the checks in the order of their results. -/
def State.dbgAttach (s : State) (a : Nat) : State × Nat :=
  let c := bits (s.reg .DBG_CMD_ARG0 0).toNat 0 16
  match s.ctx c with
  | none => (s, 1)
  | some x =>
    if ¬ s.flag F.DBG_CTL_EN ∨ x.state = .free ∨ x.state = .faulted ∨ x.state = .killed ∨ x.state = .exported ∨
        (x.cls = 0 ∧ ¬ s.flag F.DBG_CTL_GUAR) then (s, 1)
    else if s.flag F.DBG_ATT_VALID a ∨ (s.attOf c).isSome then (s, 2)
    else ((s.fset F.DBG_ATT_CONTEXT c a).fset F.DBG_ATT_VALID 1 a, 0)

/-- DETACH ends the attachment (R506); an exception held under TRAPFAULT then puts the context into the faulted state (R515). -/
def State.dbgDetach (s : State) (a c : Nat) : State × Nat :=
  let held := s.cmp.groups.any (fun e => e.2.ctx == c && e.2.trapped.isSome)
  let s1 := s.attEnd a
  (if held then s1.ctxFault c else s1, 0)

/-! ### Selecting groups -/

/-- The resident group of a context by block index and group index (R72, R514). -/
def State.groupAt (s : State) (c block index : Nat) : Option (Nat × Grp) :=
  s.cmp.groups.find? (fun e => e.2.ctx == c && s.blockIndex e.1 e.2 == block && e.2.index == index)

/-- The group that `DBG_CMD_ARG0` and GROUP select. -/
def State.selected (s : State) (c : Nat) : Option (Nat × Grp) :=
  s.groupAt c (s.reg .DBG_CMD_ARG0 0).toNat (s.fget F.DBG_CMD_GROUP)

/-- The addresses, in the save slots of a context, of the records of saved groups with their block and group index. -/
def State.savedGroups (s : State) (c : Nat) : List (Nat × Nat × Nat) :=
  match s.ctx c with
  | none => []
  | some x =>
    x.slots.flatMap (fun slot => (s.slotBlocks x slot).flatMap (fun rec_ =>
      let r := x.record slot rec_.1
      let mask := s.word (atHeader r + 4) 4
      rec_.2.flatMap (fun b =>
        ((List.range 32).filter (fun g => bit mask g && bits (s.word (atGroup r g + 0x250) 8) 25 7 == b.1)).zipIdx.map
          (fun g => (atGroup r g.1, wordAt b.2 0 8, g.2)))))

/-- The records of saved groups that a command selects: all of them, or that of the arguments. -/
def State.savedSelected (s : State) (c : Nat) (all : Bool) : List Nat :=
  ((s.savedGroups c).filter (fun e =>
    all || (e.2.1 == (s.reg .DBG_CMD_ARG0 0).toNat && e.2.2 == s.fget F.DBG_CMD_GROUP))).map (·.1)

/-- Sets or clears the halted bit of a saved group's record (R514). -/
def State.savedHalt (s : State) (r : Nat) (b : Bool) : State :=
  s.put (r + 0x250) (toBytes (setBits (s.word (r + 0x250) 8) 32 1 (nb b)) 8)

/-! ### HALT, RESUME, STEP -/

/-- Whether a group can be halted: it has instructions left and is not halted. -/
def Grp.running (g : Grp) : Bool := !g.complete && !g.halted

/-- HALT (R507, R508, R512, R514). -/
def State.dbgHalt (s : State) (a c : Nat) : State × Nat :=
  if s.flag F.DBG_CMD_ALL then
    let gs := SMap.keys (SMap.keep s.cmp.groups (fun _ g => g.ctx == c && g.running))
    let s1 := gs.foldl (fun (s : State) g => s.haltOne a g 0 0) s
    ((s1.savedSelected c true).foldl (fun (s : State) r => s.savedHalt r true) s1, 0)
  else
    match s.selected c with
    | some (g, grp) => if grp.running then (s.halt a g 0, 0) else (s, 3)
    | none =>
      match s.savedSelected c false with
      | [] => (s, 3)
      | l => (l.foldl (fun (s : State) r => s.savedHalt r true) s, 0)

/-- A halted group goes on (R509, R515): past a `brkpt`; from a breakpoint or watchpoint with one issue that does not match; a
group that holds an exception applies its outcome instead. -/
def State.release (s : State) (g : Nat) (grp : Grp) (step : Bool) : State :=
  if grp.trapped.isSome then (s.updGrp g (fun x => { x with stopped := true })).ctxFault grp.ctx
  else
    s.updGrp g (fun x => { x.goOn with
      stepping := step
      noMatch := x.cause == 1 })

/-- RESUME. -/
def State.dbgResume (s : State) (_a c : Nat) : State × Nat :=
  if s.flag F.DBG_CMD_ALL then
    let gs := SMap.keep s.cmp.groups (fun _ g => g.ctx == c && g.halted)
    let s1 := gs.foldl (fun (s : State) e => s.release e.1 e.2 false) s
    ((s1.savedSelected c true).foldl (fun (s : State) r => s.savedHalt r false) s1, 0)
  else
    match s.selected c with
    | some (g, grp) => if grp.halted then (s.release g grp false, 0) else (s, 3)
    | none =>
      match (s.savedSelected c false).filter (fun r => bit (s.word (r + 0x250) 8) 32) with
      | [] => (s, 3)
      | l => (l.foldl (fun (s : State) r => s.savedHalt r false) s, 0)

/-- Whether a pre-emption of a context is pending. -/
def State.preemptPending (s : State) (c : Nat) : Bool := s.cmp.clus.any (fun e => e.2.ctx == c && e.2.grace.isSome)

/-- STEP (R512): one halted group issues one instruction. -/
def State.dbgStep (s : State) (_a c : Nat) : State × Nat :=
  match s.selected c with
  | none => (s, 3)
  | some (g, grp) =>
    if ¬ grp.halted ∨ grp.trapped.isSome then (s, 3)
    else if s.preemptPending c then (s, 4)
    else (s.release g grp true, 0)

/-! ### DUMP and LOAD (R513) -/

/-- The offsets of the debug image: vector registers, local memory, accumulators. -/
def imgVregs : Nat := 0x400
def imgLm : Nat := 0x8400
def imgAcc : Nat := 0x108400

/-- The block of a group and its block cluster. -/
def State.blockOf (s : State) (g : Nat) (grp : Grp) : Blk := (s.blk (blockKey g grp)).getD {}

/-- Whether the engine queues of a block are empty. -/
def State.engIdle (s : State) (bk : Nat) : Bool :=
  s.cmp.engs.all (fun e => !(e.1 / 16 == bk / 16 && e.2.block == bk % 16) || e.2.queue.isEmpty)

/-- Whether every group of a block is halted. -/
def State.blockHalted (s : State) (bk : Nat) : Bool :=
  s.cmp.groups.all (fun e => !(blockKey e.1 e.2 == bk) || e.2.halted)

/-- Whether every group of a block cluster is halted. -/
def State.clusterHalted (s : State) (bc : Nat) : Bool := (s.blocksOfBc bc).all (fun bk => s.blockHalted bk)

/-- The bytes that the image of a group spans. -/
def State.imageLength (s : State) (g : Nat) (grp : Grp) : Nat :=
  if s.flag F.DBG_CMD_ACC then imgAcc + (s.blockOf g grp).engines.length * 1024
  else if s.flag F.DBG_CMD_LM then imgLm + (s.blockOf g grp).units.length * 32768
  else imgVregs + s.vregCount g grp * 128

/-- The group that DUMP and LOAD act on, with the address of the image: halted, and with `ACC` in a halted block with idle
engines; the buffer lies in populated memory. -/
def State.inspected (s : State) (c : Nat) : Except Nat (Nat × Grp × Nat) :=
  match s.selected c with
  | none => .error 3
  | some (g, grp) =>
    let bk := blockKey g grp
    let pa := s.fget F.DBG_CMD_ARG1_BUF * 4096
    if ¬ grp.halted ∨ (s.flag F.DBG_CMD_ACC ∧ ¬ (s.blockHalted bk ∧ s.engIdle bk)) then .error 3
    else if ¬ s.populatedRange pa (s.imageLength g grp) then .error 5
    else .ok (g, grp, pa)

/-- One unit of the block's local memory goes to an image, with its poison. -/
def State.dumpUnit (s : State) (core u pa : Nat) : State :=
  (List.range 256).foldl (fun (s : State) i =>
    let a := core * 2 ^ 20 + u * 2 ^ 15 + i * 128
    let s := s.lmFind ((List.range 8).map (fun k => a + 16 * k))
    let bad := (List.range 8).any (fun k => s.lmPoisoned (a + 16 * k))
    (s.putLine ((pa + i * 128) / 128) fullMask (lineOf ((List.range 128).map (fun k => s.lmByte (a + k)))) bad).1) s

/-- DUMP: the record of the group, its vector registers, and with LM and ACC its block's local memory and accumulators. -/
def State.dbgDump (s : State) (_a c : Nat) : State × Nat :=
  match s.inspected c with
  | .error r => (s, r)
  | .ok (g, grp, pa) =>
    let b := s.blockOf g grp
    let core := g / 32
    let s1 := s.put pa (s.groupRecord g grp grp.gen)
    let s2 := (List.range (s.vregCount g grp)).foldl (fun (s : State) n =>
      s.put (pa + imgVregs + n * 128) ((List.range 32).flatMap (fun l => toBytes (s.vReg g n l) 4))) s1
    let s3 := if s.flag F.DBG_CMD_LM then
        b.units.zipIdx.foldl (fun (s : State) u => s.dumpUnit core u.1 (pa + imgLm + u.2 * 32768)) s2
      else s2
    let s4 := if s.flag F.DBG_CMD_ACC then
        b.engines.zipIdx.foldl (fun (s : State) e =>
          let acc := ((s.eng (core * 16 + e.1)).map (·.acc)).getD []
          s.put (pa + imgAcc + e.2 * 1024) ((List.range 256).flatMap (fun i => toBytes (SMap.get acc 0 i).toNat 4))) s3
      else s3
    (s4, 0)

/-- One unit of the block's local memory comes from an image. -/
def State.readUnit (s : State) (core u pa : Nat) : State :=
  (List.range 256).foldl (fun (s : State) i =>
    let (s1, d, code) := s.readLine ((pa + i * 128) / 128)
    let a := core * 2 ^ 20 + u * 2 ^ 15 + i * 128
    (List.range 8).foldl (fun (s : State) k => s.setLmPoison (a + 16 * k) (code != 0)) (s1.lmPut a (lineBytes d))) s

/-- LOAD: s0 to s63, p1 to p15, FPFLAGS, the vector registers, and with LM the block's local memory; the rest of the image is
ignored, the accumulators included. With LM every group of the block cluster is halted. -/
def State.dbgLoad (s : State) (_a c : Nat) : State × Nat :=
  match s.inspected c with
  | .error r => (s, r)
  | .ok (g, grp, pa) =>
    let b := s.blockOf g grp
    let lm := s.flag F.DBG_CMD_LM
    if grp.trapped.isSome ∨ (lm ∧ ¬ s.clusterHalted b.bc) then (s, 3)
    else
      let img := s.bytesAt pa 1024
      let s1 := (List.range 64).foldl (fun (s : State) k => s.setS g k (wordAt img (8 * k) 8)) s
      let s2 := (List.range 15).foldl (fun (s : State) k => s.setP g (k + 1) (wordAt img (0x200 + 4 * (k + 1)) 4)) s1
      let s3 := s2.updGrp g (fun x => { x with flags := bits (wordAt img 0x250 8) 0 5 })
      let s4 := (List.range (s.vregCount g grp)).foldl (fun (s : State) n =>
        let l := s.bytesAt (pa + imgVregs + n * 128) 128
        (List.range 32).foldl (fun (s : State) k => s.setV g n k (wordAt l (4 * k) 4)) s) s3
      (if lm then
        b.units.zipIdx.foldl (fun (s : State) u => s.readUnit (g / 32) u.1 (pa + imgLm + u.2 * 32768)) s4
      else s4, 0)

/-- What an OP of `DBG_CMD` does to a slot, with its RESULT (R505 to R517); a reserved OP leaves RESULT undefined (R6). -/
def State.dbgAct (t : State) (op a : Nat) : State × Nat :=
  match op with
  | 1 => t.dbgAttach a
  | 2 => State.attached State.dbgDetach t a
  | 3 => State.attached State.dbgHalt t a
  | 4 => State.attached State.dbgResume t a
  | 5 => State.attached State.dbgStep t a
  | 6 => State.attached State.dbgDump t a
  | 7 => State.attached State.dbgLoad t a
  | _ =>
    let (x, t1) := t.take 8
    (t1, x.toNat)

/-- A write of `DBG_CMD`: with GO = 1 its OP is carried out at once, GO reads 0 and RESULT is valid (R517). -/
def State.dbgCmd (s : State) (who : Requester) (word : Nat) : Res :=
  s.regAction who .DBG_CMD 0 word (fun t =>
    if bit word 63 then
      let (t1, r) := t.dbgAct (bits word 0 4) (bits word 4 4)
      t1.fset F.DBG_CMD_STATUS_RESULT r
    else t)

/-- OP = ATTACH. A write whose OP is another acts by its own. -/
def execDebugAttach (who : Requester) (word : W64) (s : State) : Res := s.dbgCmd who word.toNat

/-- OP = DETACH. A write whose OP is another acts by its own. -/
def execDebugDetach (who : Requester) (word : W64) (s : State) : Res := s.dbgCmd who word.toNat

/-- OP = HALT. A write whose OP is another acts by its own. -/
def execDebugHalt (who : Requester) (word : W64) (s : State) : Res := s.dbgCmd who word.toNat

/-- OP = RESUME. A write whose OP is another acts by its own. -/
def execDebugResume (who : Requester) (word : W64) (s : State) : Res := s.dbgCmd who word.toNat

/-- OP = STEP. A write whose OP is another acts by its own. -/
def execDebugStep (who : Requester) (word : W64) (s : State) : Res := s.dbgCmd who word.toNat

/-- OP = DUMP. A write whose OP is another acts by its own. -/
def execDebugDump (who : Requester) (word : W64) (s : State) : Res := s.dbgCmd who word.toNat

/-- OP = LOAD. A write whose OP is another acts by its own. -/
def execDebugLoad (who : Requester) (word : W64) (s : State) : Res := s.dbgCmd who word.toNat

/-! ### Reports -/

/-- Whether every store and atomic of a halted group is performed, and no write-back of its core's is on its way (R267, R507). -/
def State.haltDrained (s : State) (h : Halt) : Bool :=
  s.cmp.accs.all (fun a => !(a.core == h.core && (a.slot == h.slot || a.slot == 32) && a.kind != .load))

/-- Whether the scalar cache of a core holds bytes that no store has made package-wide. -/
def State.scalarDirty (s : State) (core : Nat) : Bool :=
  s.cmp.near.sc.any (fun e => e.1 / 2 ^ 50 == core && e.2.dirty != 0)

/-- The report of a halt (R507, R508): `DBG_EVENT` takes it, and source 140 is set. -/
def State.reportHalt (s : State) (h : Halt) : State :=
  let g := h.core * 32 + h.slot
  let pc := match s.grp g with
    | some grp => if grp.cause = 2 then wrapPc (grp.pc + 8) else grp.pc
    | none => 0
  let s1 := (((s.fset F.DBG_EVENT_CODE h.code h.att).fset F.DBG_EVENT_GROUP h.group h.att).fset F.DBG_EVENT_VALID 1 h.att)
  ((s1.setReg .DBG_EVENT_BLOCK h.att (BitVec.ofNat 64 h.block)).setReg .DBG_EVENT_PC h.att (BitVec.ofNat 64 pc)).event edge0 140

/-- The oldest halt of an attachment whose drain is over is reported; until then the dirty scalar bytes of the core of the oldest
leave. -/
def execHaltReport (att : Fin 16) (s : State) : Res :=
  let mine := s.halts.filter (fun h => h.att == att.val)
  match mine with
  | [] => stop
  | first :: _ =>
    match mine.find? (fun h => s.haltDrained h && !s.scalarDirty h.core) with
    | some h =>
      let s1 : State := { s with halts := ((takeFirst (fun x => x == h) s.halts).map (·.2)).getD s.halts }
      .next (s1.reportHalt h)
    | none => .next (if s.scalarDirty first.core then (s.nearClean first.core).pump else s)

end Sys2Proof.Machine
end

