-- ==== Sys2Proof/Machine/FaultRing.lean ====
section
/-! DEFINITION. The fault-ring writer of contexts (R385 to R390, R508). -/

namespace Sys2Proof.Machine

/-- The fault ring of a context is full, by the writer's own copy of CONSUMED (R389). -/
def Ctx.ringFull (x : Ctx) : Bool := (x.written + 2 ^ 32 - x.consumed) % 2 ^ 32 == 2 ^ x.ringSize

/-- The writer reads CONSUMED of a context. -/
def State.readConsumed (s : State) (c : Nat) : State :=
  match s.ctx c with
  | none => s
  | some x =>
    let (s1, w, code) := s.readWord (x.ringCtrl * 64) 4
    if code = 0 then s1.updCtx c (fun y => { y with consumed := w }) else s1

/-- A message for a context's records, at most one per 1 µs (R388). -/
def State.ringMessage (s : State) (c : Nat) (x : Ctx) : State :=
  if ¬ x.irqEn then s
  else if SMap.has s.evc.interval c then
    { s with evc := { s.evc with interval := SMap.put s.evc.interval c true } }
  else
    let s1 := s.msixSend (s.ctxFunc c).1 x.vector
    { s1 with evc := { s1.evc with interval := SMap.put s1.evc.interval c false } }

/-- What a record of a translation fault belongs to takes a wait: its group, or its transfer (R126, R332, R389). -/
def State.recordWait (s : State) (r : FaultRec) (w : Wait) : State :=
  let waits := fun (v : Wait) => v == .fault none || v == .ring
  if r.code ≠ 0x22 ∨ r.deferred then s
  else if r.ticket then
    let hit := fun (k : Nat) (x : Xfer) =>
      k / 32 == r.core && k % 2 == r.instr / 2 ^ 32 && x.slot == r.slot && x.seq == r.instr % 2 ^ 32 && waits x.wait
    { s with cmp := { s.cmp with steqs := SMap.mapVals s.cmp.steqs (fun k q =>
      { q with xfers := q.xfers.map (fun x => if hit k x then { x with wait := w } else x) }) } }
  else
    s.updGrp (r.core * 32 + r.slot) (fun g => if g.ctx = r.context ∧ waits g.wait then { g with wait := w } else g)

/-- The record is written, performed at package scope, and then WRITTEN (R388). -/
def State.writeRecord (s : State) (c : Nat) (x : Ctx) (r : FaultRec) : State :=
  let seq := (x.written + 1) % 2 ^ 32
  let s1 := (s.writeBytes (x.ringBase * 4096 + seq % 2 ^ x.ringSize * 64) (recBytes { r with seq := seq })).1
  let s2 := (s1.writeBytes (x.ringCtrl * 64 + 8) (toBytes seq 4)).1
  ((s2.updCtx c (fun y => { y with written := seq })).recordWait r (.fault (some seq))).ringMessage c x

/-- A record that finds the ring full and may not wait is not written, and none of its context is from then on (R389). -/
def State.loseRecord (s : State) (c : Nat) (x : Ctx) (r : FaultRec) : State :=
  let (s1, w, _) := s.readWord (x.ringCtrl * 64 + 16) 8
  let code := if bit w 0 then bits w 8 8 else r.code
  let v := 1 + code * 2 ^ 8 + min (2 ^ 32 - 1) (bits w 32 32 + 1) * 2 ^ 32
  (s1.writeBytes (x.ringCtrl * 64 + 16) (toBytes v 8)).1.updCtx c (fun y => { y with ringLost := true })

/-- Whether a record waits for space: that of a translation fault, or of an exception that halted its group (R389, R508). -/
def recordWaits (x : Ctx) (r : FaultRec) : Bool :=
  (r.code == 0x22 && !r.deferred) || (r.cls == 1 && x.state != .faulted && x.state != .killed && x.state != .exported)

/-- A record reaches the writer. -/
def State.takeRecord (s : State) (r : FaultRec) : State :=
  let c := r.context
  match s.ctx c with
  | none => s
  | some x0 =>
    if x0.ringLost then s.loseRecord c x0 r
    else
      let s1 := if x0.ringFull then s.readConsumed c else s
      match s1.ctx c with
      | none => s1
      | some x =>
        let behind := s1.evc.waiting.any (fun q => q.context == c)
        if ¬ x.ringFull ∧ ¬ behind then s1.writeRecord c x r
        else if recordWaits x r then
          ({ s1 with evc := { s1.evc with waiting := s1.evc.waiting ++ [r] } }).recordWait r .ring
        else s1.loseRecord c x r

/-- A context record arrives at the writer: the records of one group in its program order (R388), those of a killed context
after its accepted stores (R268). -/
def execFaultRingRecord (k : Nat) (s : State) : Res :=
  match s.evc.flight[k]? with
  | none => stop
  | some r =>
    let ahead := (s.evc.flight.take k).any (fun q => q.core == r.core && q.slot == r.slot && q.ticket == r.ticket)
    need (!ahead && !s.storesOut r.context) (.next (({ s with evc := { s.evc with flight := s.evc.flight.eraseIdx k } }).takeRecord r))

/-- The writer reads CONSUMED of a context and writes the records that wait for space, as far as there is room (R389). -/
def State.ringPoll (s : State) (c : Nat) : State :=
  let mine := s.evc.waiting.filter (fun r => r.context == c)
  mine.foldl (fun (s : State) r =>
    match s.ctx c with
    | none => s
    | some x =>
      if x.ringFull then s
      else ({ s with evc := { s.evc with waiting := s.evc.waiting.erase r } }).writeRecord c x r) (s.readConsumed c)

/-- Every 10 µs while a record of a context waits (R389). -/
def execFaultRingPoll (ctx : BitVec 16) (s : State) : Res :=
  need (s.evc.waiting.any (fun r => r.context == ctx.toNat)) (.next (s.ringPoll ctx.toNat))

/-- A write of `EVC_FR_KICK` (R389). -/
def execFrKick (who : Requester) (ctx : BitVec 16) (s : State) : Res :=
  s.regAction who .EVC_FR_KICK 0 ctx.toNat (fun s => s.ringPoll ctx.toNat)

/-- The message interval of a context ends (R388). -/
def execFaultRingIrqInterval (ctx : BitVec 16) (s : State) : Res :=
  let c := ctx.toNat
  match SMap.find s.evc.interval c with
  | none => stop
  | some covered =>
    let s1 : State := { s with evc := { s.evc with interval := SMap.del s.evc.interval c } }
    match covered, s.ctx c with
    | true, some x => .next (s1.ringMessage c x)
    | _, _ => .next s1

end Sys2Proof.Machine
end

