-- ==== Sys2Proof/Machine/Health.lean ====
section
/-! DEFINITION. Sparing and retirement in service (R492 to R499). -/

namespace Sys2Proof.Machine

/-- Whether a core's bank cannot be repaired: its test found more failing columns than it has free slots (R190, R191). -/
def State.bankLost (s : State) (core : Nat) : Bool :=
  (List.range 32).any (fun b =>
    let i := core * 32 + b
    let w := (s.reg .CORE_LM_REPAIR i).toNat
    let free := ((List.range 4).filter (fun j => !bit w (16 * j + 8) && !bit w (16 * j + 9))).length
    decide (free < bits (s.reg .CORE_LM_TEST_RESULT i).toNat 0 8))

/-- Canopy saves the holder of a cluster of which a core has failed, as a rotation does (R352, R493). -/
def State.vacate (s : State) (k : Nat) : State := s.preemptCluster k

/-- A test has found that a core has failed, which confirms the failure (R492, R496). -/
def State.testedFailed (s : State) (core : Nat) : State :=
  let s1 := s.coreFailed core
  let s2 : State := { s1 with health := { s1.health with
    confirmed := core :: s1.health.confirmed.filter (fun c => c != core) } }
  s2.vacate (core / 8)

/-- The bank test ends: the units are zero-filled, each selected bank reports its failing columns, and DONE is set (R191). A core
with a bank that cannot be repaired has failed (R190, R492). -/
def execLmTestDone (core : Fin 8192) (failing : List (Fin 32 × Fin 137)) (s : State) : Res :=
  let k := core.val
  let s1 := ((s.coreZero k).fset F.CORE_LM_TEST_START 0 k).fset F.CORE_LM_TEST_DONE 1 k
  let s2 := s1.updCore k (fun c => { c with testing := false, refill := false })
  let s3 := (List.range 32).foldl (fun (s : State) b =>
    if ¬ bit (s.fget F.CORE_LM_TEST_BANKS k) b then s
    else
      let cols := (failing.filter (fun f => f.1.val == b && !(s.repaired k b).contains f.2.val)).foldl
        (fun (l : List Nat) f => insertNat f.2.val l) []
      let col := fun i => cols.getD i 0xFF
      s.setReg .CORE_LM_TEST_RESULT (k * 32 + b) (BitVec.ofNat 64
        (min 255 cols.length + col 0 * 2 ^ 8 + col 1 * 2 ^ 16 + col 2 * 2 ^ 24 + col 3 * 2 ^ 32))) s2
  need ((s.core k).testing && s.lmQuiet k (List.range 32)) (.next (if s3.bankLost k then s3.testedFailed k else s3))

/-- The in-field core test finishes on an idle core (R492): a core that fails it has failed, a failure that a test confirmed. -/
def execCoreTest (core : Fin 8192) (passed : Bool) (s : State) : Res :=
  let c := core.val
  need ((s.groupsUsed c).isEmpty && !s.health.retiredCores.contains c && (s.cluster (c / 8)).state != .retired &&
      !s.pwr.diesOff.contains (dieOf c))
    (.next (if passed then s else s.testedFailed c))

/-- A core issued nothing for 10 ms while a group of it was ready (R492): it has failed, and its context is faulted with a class
0x01 record of code 0x28. -/
def execCoreHangDetect (core : Fin 8192) (s : State) : Res :=
  let c := core.val
  match s.cmp.groups.find? (fun e => e.1 / 32 == c && s.ready e.1 e.2) with
  | none => stop
  | some (g, grp) =>
    let r : FaultRec :=
      { cls := 1, code := 0x28, context := grp.ctx, partition := s.partOf grp.ctx, core := c, slot := g % 32, die := dieOf c
        instr := grp.pc, active := grp.active, time := s.now, u := s.uFlag }
    let s1 := s.coreFailed c
    let s2 : State := { s1 with evc := { s1.evc with flight := s1.evc.flight ++ [r] } }
    .next (s2.ctxFault grp.ctx)

/-- On an idle cluster a pool core of the quadrant takes the number of a failed core; it holds zeros (R493). -/
def execCoreReplacement (core : Fin 8192) (pool : Nat) (s : State) : Res :=
  let c := core.val
  let s1 := ((s.replaceCore c pool).coreZero c).nearDrop c
  let s2 := s1.updCore c (fun x => { x with last := none, fresh := none, testing := false, refill := false, corrected := [] })
  let s3 := (List.range 32).foldl (fun (s : State) b => s.setReg .CORE_LM_TEST_RESULT (c * 32 + b) 0) s2
  need (s.health.failing.contains c && (s.cluster (c / 8)).state == .idle && (s.poolOf (c / 32)).contains pool)
    (.next (s3.logEvent .repair (dieOf c)))

/-- With an empty pool the cluster of a failed core is retired; each of its other cores that passes its test joins the quadrant's
pool, by its physical place: `passing` has a bit for each core of the cluster (R494). -/
def execClusterRetire (core : Fin 8192) (passing : BitVec 8) (s : State) : Res :=
  let c := core.val
  let k := c / 8
  let q := c / 32
  let place := fun (d : Nat) => SMap.get s.health.phys (d % 32) d
  let joined := ((coresOfCluster k).filter (fun d => d != c && bit passing.toNat (d % 8) && !s.health.failing.contains d)).map place
  let s1 : State := { s with health := { s.health with retiredCores := s.health.retiredCores ++ [c] } }
  need (s.health.failing.contains c && (s.poolOf q).isEmpty && (s.cluster k).state == .idle)
    (.next ((s1.retireClusters [k]).setPool q joined))

/-- The sides of a die that face out of the package and carry no link, as a mask: bit 0 north, 1 east, 2 south, 3 west (R15). -/
def outerSides (d : Nat) : Nat :=
  if d < 64 then 0
  else if d < 68 then 1
  else if d < 72 then 2
  else if d < 76 then 4
  else if d < 80 then 8
  else
    match d - 80 with
    | 0 => 9
    | 1 => 3
    | 2 => 6
    | _ => 12

/-- A die-to-die link of a die retrains and repairs its lanes from spares; one that it does not restore goes out of service, and a
die that loses every link is retired (R499). Each end of a link reports for its own die. -/
def execD2dLinkRetrain (die : Fin 84) (side : Fin 4) (restored : Bool) (s : State) : Res :=
  let d := die.val
  let was := s.fget F.TAP_DIE_HEALTH_LINKS_DOWN d
  let now := setBits was side.val 1 (nb (!restored))
  let s1 := s.fset F.TAP_DIE_HEALTH_LINKS_DOWN now d
  let lost := now ||| outerSides d == 15
  need (!bit (outerSides d) side.val && s.fget F.TAP_DIE_HEALTH_STATE d != 2)
    (.next (if restored ∨ now = was then s1
      else if ¬ lost then s1.degrade d
      else if d < 64 then s1.retireComputeDie d 5
      else if d < 80 then s1.homeLost (d - 64) 5
      else if d = edge0 then s1.edge0Lost
      else s1.edgeLost (d - 80) 5))

/-- A compute die is lost (R494): its steward or event controller (cause 0), its regulator (1) or its mesh router (2) failed. -/
def execComputeDieLoss (die : Fin 64) (cause : Fin 3) (s : State) : Res :=
  let code := match cause.val with
    | 0 => 2
    | 1 => 3
    | _ => 6
  need (s.fget F.TAP_DIE_HEALTH_STATE die.val != 2) (.next (s.retireComputeDie die.val code))

end Sys2Proof.Machine
end

