-- ==== Sys2Proof/Machine/Slot.lean ====
section
/-! DEFINITION. A Ring slot boundary and what happens at it (R14, R41, R46, R48, R49, R286, R287, R352, R372, R431). -/

namespace Sys2Proof.Machine

/-- The boundary is reached: after a forward step it is due at once, otherwise time passes until it comes (R48). -/
def State.toBoundary (s : State) : State :=
  let s1 := if s.slotNo = s.ring.slot ∧ ¬ s.ring.due then s.reach ((s.slotNo + 1) * 250000) else s
  { s1 with ring := { s1.ring with slot := s1.slotNo, due := false } }

/-- The groups whose new set waits for the boundary take it (R53, R286). -/
def State.slotCommits (s : State) : State :=
  let s1 := if s.flag F.TB_SRC_COMMIT_COMMIT then s.applySet .tbSrc 0 else s
  (List.range 16).foldl (fun (s : State) h =>
    if s.flag F.HOM_RSV_COMMIT_COMMIT h then s.applySet .homRsv h else s) s1

/-- An announced stand ceiling takes effect at its slot, or at once where a step has passed it (R14, R49). -/
def State.standCeiling (s : State) : State :=
  match s.duty.announced with
  | none => s
  | some (value, slot, _) =>
    if slot ≤ s.slotNo then
      s.dutyChange (fun (t : State) => { t with duty := { t.duty with
        announced := none
        stand := max 1 (min 16 value) } })
    else s

/-- The ports that are Up. -/
def State.portsUp (s : State) : List Nat := (List.range 32).filter (fun p => s.fget F.GRG_PORT_STATUS_STATE p == 4)

/-- The stand time master sends a BEAT on each of its enabled ports, unless it is Unlocked (R41, R432). -/
def State.sendBeats (s : State) : State :=
  if s.flag F.TB_SRC_CFG_MASTER ∧ s.fget F.TB_STATUS_STATE ≠ 0 then
    let t := s.slotNo * 250000
    let corr := (s.now - t) * 16 % 2 ^ 32
    (s.portsUp.filter (fun p => bit (s.fget F.TB_GRIGA_PORTS_PORTS) p)).foldl (fun (s : State) p =>
      s.emit (.beat p t corr (s.fget F.GRG_PKG_ID_ID) 0 (s.fget F.TB_STATUS_STEP_COUNT))) s
  else s

/-- Every port that is Up starts its DELAY exchange (R431). -/
def State.sendDelays (s : State) : State :=
  s.portsUp.foldl (fun (s : State) p => s.emit (.flit p 3 (s.gport p).txSeq (((s.gport p).rxSeq + 4095) % 4096))) s

/-- Whether a cluster may be rotated: its holder is Elastic or Borrowed, has been resident for MIN_SLOTS whole slots, and another
context of its class waits that may use it (R352). -/
def State.mayRotate (s : State) (k : Nat) : Bool :=
  let t := s.cluster k
  match s.ctx t.ctx with
  | none => false
  | some x =>
    t.state == .running && t.grace.isNone && x.cls != 0 && decide (t.placed + x.minSlots + 1 ≤ s.slotNo) &&
      s.cmp.ctxs.any (fun e => e.1 != t.ctx && e.2.cls == x.cls && e.2.waits && s.mayUse e.2 k)

/-- Rotation: Canopy may pre-empt each such cluster or leave it (R352; log 1). -/
def State.rotate (s : State) : State :=
  (SMap.keys s.cmp.clus).foldl (fun (s : State) k =>
    if s.canopyActs k ∧ s.mayRotate k then
      let (n, s1) := s.pick 2
      if n = 1 then s1.preemptCluster k else s1
    else s) s

/-- Periodic accounting records, every PERIOD slots, for the contexts that held a core since the last (R372). `old` is the slot
before the boundary. -/
def State.periodicRecords (s : State) (old : Nat) : State :=
  let n := s.fget F.CNP_ACCT_BASE_PERIOD
  let new := s.slotNo
  if s.flag F.CNP_CTL_ACCT_EN ∧ n ≠ 0 ∧ (new % n = 0 ∨ (old < new ∧ old / n < new / n)) then
    (SMap.keys s.cmp.ctxs).foldl (fun (s : State) c =>
      let on := decide (0 < s.coresHeld c)
      if ((s.ctx c).map (·.held)).getD false || on then
        (s.acctPeriodic c).updCtx c (fun x => { x with held := on })
      else s) s
  else s

/-- A Ring slot boundary passes. -/
def execSlotBoundary (s : State) : Res :=
  let old := s.ring.slot
  let s1 := s.toBoundary.slotCommits
  let s2 : State := { s1 with cmp := { s1.cmp with served := [] } }
  need s.pwr.pwrGood (.next ((s2.standCeiling.sendBeats.sendDelays.rotate).periodicRecords old))

/-- A block applies an accepted commit at a boundary of its own choosing; where the chapter names a slot boundary, time
passes to the next one after the COMMIT was accepted, with all that it brings; and not the one that waits for a queue pair
to stop (R28, R53, R286, R405). -/
def execCommitApply (g : Group) (i : Nat) (s : State) : Res :=
  let snap := SMap.get s.snaps [] ((commitReg g).key i)
  need (decide (i < groupCount g) && s.flag (fCommit g) i && !s.qpStops g i snap)
    (if atSlot g then execSlotBoundary s else .next (s.applySet g i))

end Sys2Proof.Machine
end

