-- ==== Sys2Proof/Machine/Views.lean ====
section
/-! DEFINITION. What a read of a register returns: the stored word, the shadow under SHADOW_RD, and the status registers that
show other state (R27, R53, R90, R154, R210, R234, R235, R321, R340, R374, R377, R381, R392, R414, R434, R481, R517). -/

namespace Sys2Proof.Machine

/-- A word put together from fields: the lowest bit, the width and the value of each. -/
def packFields (l : List (Nat × Nat × Nat)) : W64 :=
  BitVec.ofNat 64 (l.foldl (fun (n : Nat) e => n + e.2.2 % 2 ^ e.2.1 * 2 ^ e.1) 0)

/-- A stored word with some fields replaced by what other state shows. -/
def State.shown (s : State) (r : Reg) (i : Nat) (l : List (Nat × Nat × Nat)) : W64 :=
  BitVec.ofNat 64 (l.foldl (fun (n : Nat) e => setBits n e.1 e.2.1 e.2.2) (s.reg r i).toNat)

/-! ### Cores -/

/-- The groups of a core. -/
def State.groupsOn (s : State) (core : Nat) : List Grp := SMap.vals (SMap.keep s.cmp.groups (fun k _ => k / 32 == core))

/-- The blocks of a core. -/
def State.blocksOn (s : State) (core : Nat) : List Blk := SMap.vals (SMap.keep s.cmp.blocks (fun k _ => k / 16 == core))

/-- Whether the steward of a die runs. -/
def State.dieUp (s : State) (die : Nat) : Bool :=
  s.flag F.TAP_READY_STEWARDS && !s.pwr.diesOff.contains die && s.fget F.TAP_DIE_HEALTH_STATE die != 2

/-- `CORE_STATUS` (R90). -/
def State.coreStatus (s : State) (c : Nat) : W64 :=
  let bs := s.blocksOn c
  let ctx := (bs.head?).bind (fun b => (SMap.find s.cmp.bclus b.bc).map (·.ctx))
  let off := !s.dieUp (c / 128) || s.health.retiredCores.contains c || (s.cluster (c / 8)).state == .retired
  let power := if off then 2 else if (s.core c).retain then 3 else if bs.isEmpty && (s.core c).gated then 1 else 0
  packFields [(0, 9, (s.vunitsUsed c).length), (9, 6, (s.unitsUsed c).length), (15, 6, (s.groupsOn c).length),
    (21, 5, bs.length), (26, 5, (s.enginesUsed c).length), (32, 16, ctx.getD 0), (48, 1, nb ctx.isSome), (49, 2, power)]

/-- STATE of a group slot (R90): `moving` says that its block is being saved or restored. -/
def groupPhase (g : Grp) (moving : Bool) : Nat :=
  if g.halted then 5
  else if moving then 7
  else if g.complete then 6
  else
    match g.wait with
    | .none => if g.engines.isEmpty then g.held else 1
    | .barrier _ _ => 2
    | .cluster => 2
    | .walk _ => 3
    | .host _ => 3
    | .fault _ => 3
    | .ring => 4
    | .mark => 7

/-- `CORE_GROUP_STATE` (R90). -/
def State.groupStatus (s : State) (k : Nat) : W64 :=
  match s.grp k with
  | none => 0
  | some g =>
    packFields [(0, 1, 1), (1, 5, groupPhase g (!s.clusterReady k g)), (6, 4, g.block), (14, 6, g.stack.length), (32, 32, g.active)]

/-- `MXE_ENG_STATUS` (R154). -/
def State.engStatus (s : State) (k : Nat) : W64 :=
  match s.eng k with
  | none => 0
  | some e =>
    let w := e.act.word
    let lead := ((s.blk (k / 16 * 16 + e.block)).bind (fun b => b.engines[e.act.leader]?)).getD 0
    packFields [(0, 1, 1), (4, 4, e.block), (8, 4, e.handle), (12, 1, nb e.running), (13, 3, e.queue.length),
      (16, 2, cfgMode w), (18, 3, bits w 2 3), (21, 4, lead), (25, 1, nb (s.skipping k e)), (26, 1, nb e.grainOvr),
      (27, 1, nb e.depthOvr), (28, 3, bits w 20 3), (31, 5, cfgW w), (36, 4, cfgA w)]

/-- `CORE_LM_STATUS` (R210). -/
def State.lmStatus (s : State) (c : Nat) : W64 :=
  let alloc := (s.unitsUsed c).foldl (fun (n : Nat) u => n ||| 2 ^ u) 0
  s.shown .CORE_LM_STATUS c [(0, 32, alloc), (33, 1, nb (s.fget F.CORE_LM_ZERO_UNITS c != 0)), (34, 1, nb (s.core c).testing),
    (35, 1, nb (!(s.core c).waking.isEmpty))]

/-! ### Caches, homes, translation, engines -/

/-- `QDC_STATUS` (R234). -/
def State.qdcStatus (s : State) (q : Nat) : W64 :=
  let ls := SMap.vals (SMap.keep s.cmp.qlines (fun k _ => k / 2 ^ 39 == q))
  let wb := ls.filter (fun l => l.st == .wb)
  let asked := s.cmp.accs.filter (fun a => a.sent && a.target == 0 && quadOf a.core == q)
  packFields [(0, 18, (ls.filter (fun l => l.st.valid && l.st != .wb)).length), (18, 11, asked.length), (29, 5, wb.length),
    (34, 1, nb (s.cmp.flushing.any (fun f => f.quad == q)))]

/-- `HOM_DIR_STATUS` (R235): a request holds an entry of the table while its transaction is open, while it waits for another of its line,
and in a retry FIFO (R223, R228). -/
def State.dirStatus (s : State) (h : Nat) : W64 :=
  let open_ := SMap.count s.cmp.txns (fun l t => s.homeOf l == h && t.req.isSome)
  let behind := (s.cmp.net.filter (fun m => m.kind.request && s.homeOf m.line == h && s.lineBusy m.line)).length
  let fifo := (s.cmp.parked.filter (fun m => s.homeOf m.line == h)).length
  packFields [(0, 23, SMap.count s.cmp.dir (fun l _ => s.homeOf l == h)), (23, 15, open_ + behind + fifo),
    (38, 15, (s.cmp.parked.filter (fun m => s.homeOf m.line == h)).length)]

/-- `XLT_QTLB_STATUS` (R321). -/
def State.qtlbStatus (s : State) (q : Nat) : W64 :=
  packFields [(0, 14, (s.cmp.tlbs.filter (fun t => t.quad && t.unit == q)).length),
    (14, 11, (s.cmp.wcache.filter (fun w => w.quad == q)).length), (25, 5, (s.cmp.walks.filter (fun w => w.quad == q)).length),
    (30, 1, nb (!s.cmp.invs.isEmpty))]

/-- The engine that serves a stream queue: cluster × 2 + engine. -/
def engineOf (queue : Nat) : Nat := queue / 2 / 16 / 8 * 2 + queue % 2

/-- `STE_STATUS` (R339). -/
def State.steStatus (s : State) (e : Nat) : W64 :=
  let qs := SMap.keep s.cmp.steqs (fun k q => engineOf k == e && !q.xfers.isEmpty)
  let waits := SMap.count qs (fun _ q => match q.xfers.head? with
    | none => false
    | some x => x.wait != .none || x.full)
  let mine := s.engineChunks e
  let lines := min 512 (mine.foldl (fun (n : Nat) c => n + c.linesOut) 0)
  packFields [(0, 1, nb (!mine.isEmpty)), (10, 8, waits), (18, 10, lines), (28, 8, qs.length),
    (48, 16, if qs.isEmpty then 0 else SMap.get s.cmp.steLast 0 e)]

/-! ### Canopy and queue pairs -/

/-- `CNP_STATUS` (R374). -/
def State.cnpStatus (s : State) : W64 :=
  let lent := (List.range 1024).filter (fun k => match (s.cluster k).holder with
    | none => false
    | some p => s.owner k != some p)
  s.shown .CNP_STATUS 0 [(0, 17, SMap.count s.cmp.ctxs (fun _ x => x.state != .free)),
    (17, 11, ((List.range 1024).filter (fun p => s.flag F.CNP_PART_EN p)).length), (28, 11, lent.length),
    (39, 11, SMap.count s.cmp.clus (fun _ k => k.state == .retired)), (50, 1, nb (!s.cmp.calibrated))]

/-- `CNP_CLUSTER` (R340, R374). -/
def State.clusterWord (s : State) (k : Nat) : W64 :=
  let t := s.cluster k
  let ctx := if t.state = .idle ∨ t.state = .retired then 0 else t.ctx
  s.shown .CNP_CLUSTER k [(12, 1, nb t.holder.isSome), (13, 10, t.holder.getD 0), (24, 16, ctx), (40, 3, t.state.ctorIdx)]

/-- `CNP_CTX_STATE` (R347, R374). -/
def State.ctxWord (s : State) (c : Nat) : W64 :=
  match s.ctx c with
  | none => s.reg .CNP_CTX_STATE c
  | some x =>
    s.shown .CNP_CTX_STATE c [(0, 4, x.state.ctorIdx), (4, 1, nb x.suspended), (6, 11, (s.clustersOf c).length),
      (17, 11, x.slots.length)]

/-- `CNP_QP_STATUS` (R414). -/
def State.qpStatus (s : State) (q : Nat) : W64 :=
  let p := s.qp q
  let n := p.started.length + nb p.held.isSome + p.waiting.length
  let st := if ¬ s.flag F.CNP_QP_CFG_EN q then 0
    else if s.fget F.CNP_QP_STATUS_ERR q ≠ 0 then 3
    else if p.held.isSome || !p.waiting.isEmpty then 2 else 1
  s.shown .CNP_QP_STATUS q [(32, 7, min 65 n), (40, 2, st)]

/-- `CNP_QP_ERRMAP` (R406). -/
def State.qpErrors (s : State) (i : Nat) : W64 :=
  BitVec.ofNat 64 ((List.range 64).foldl (fun (n : Nat) b =>
    n + nb (s.fget F.CNP_QP_STATUS_ERR (64 * i + b) != 0) * 2 ^ b) 0)

/-! ### Events, Griga, Taproot, debug -/

/-- Whether a die has an active source routed to Taproot (R381). -/
def State.tapRouted (s : State) (die : Nat) : Bool :=
  (List.range 1024).any (fun src => s.srcActive die src && s.fget F.EVC_ROUTE_TARGET (srcKey die src) == 1)

/-- The interrupt input of a die's steward: asserted while a source of its die that is routed to it, its private bank among them, is
active (R381). -/
def State.stewardInput (s : State) (die : Nat) : Bool :=
  (List.range 1024).any (fun src => s.srcActive die src && s.fget F.EVC_ROUTE_TARGET (srcKey die src) == 0)

/-- The interrupt input of the active Taproot: asserted while a source of any die that is routed to Taproot is active (R381). -/
def State.taprootInput (s : State) : Bool := (List.range 84).any (fun die => s.tapRouted die)

/-- A word of a device fault queue through its window (R392). -/
def State.dfqWord (s : State) (k : Nat) : W64 :=
  match SMap.find s.evc.dfq (k / 8) with
  | none => 0
  | some r => BitVec.ofNat 64 ((recWords r).getD (k % 8) 0)

/-- `GRG_PKG_STATUS` (R434). -/
def State.grigaStatus (s : State) : W64 :=
  packFields [(0, 6, s.portsUp.length), (6, 4, SMap.count s.grg.ports (fun _ g => g.slot)), (10, 16, s.grg.egress.length),
    (26, 1, nb (!s.grg.egWait.isEmpty))]

/-- The halted groups of a context. -/
def State.haltedOf (s : State) (c : Nat) : Nat := SMap.count s.cmp.groups (fun _ g => g.ctx == c && g.halted)

/-- `DBG_EVENT` (R517). -/
def State.dbgEventWord (s : State) (a : Nat) : W64 :=
  let n := if s.flag F.DBG_ATT_VALID a then s.haltedOf (s.fget F.DBG_ATT_CONTEXT a) else 0
  s.shown .DBG_EVENT a [(48, 16, min 65535 n)]

/-- `DBG_DIE_STATUS` (R517). -/
def State.dbgDieWord (s : State) (die : Nat) : W64 :=
  packFields [(0, 13, SMap.count s.cmp.groups (fun k g => k / 32 / 128 == die && g.halted)),
    (13, 13, SMap.count s.cmp.groups (fun k g => k / 32 / 128 == die && g.stepping))]

/-- `TAP_DUTY_STATUS` (R534). -/
def State.dutyWord (s : State) : W64 :=
  let up := s.clustersUp
  s.shown .TAP_DUTY_STATUS 0 [(0, 6, s.limitSet), (25, 5, s.lowestDuty (up.filter (fun k => s.guarAt k))), (30, 5, s.lowestDuty up),
    (35, 5, s.duty.stand)]

/-! ### Reads -/

/-- The bits of WO fields, which read as 0 (R4). -/
def Reg.woBits (r : Reg) : Nat :=
  r.spec.fields.foldl (fun (m : Nat) f => if f.acc = .wo then m ||| ((2 ^ f.width - 1) * 2 ^ f.lo) else m) 0

/-- The stored word of a register as a read sees it: WO fields read 0, and CM fields read the shadow under SHADOW_RD (R4, R27). -/
def State.stored (s : State) (r : Reg) (i : Nat) : W64 :=
  let w := s.reg r i &&& ~~~ (BitVec.ofNat 64 r.woBits)
  match groupOfReg r with
  | none => w
  | some g => if s.flag (fShadowRd g) (groupInst g i) then r.withCm w (s.shadowReg r i) else w

/-- What a read of a register returns. `TB_NOW` in halves and `TAP_MBX_DATA` have commands of their own. -/
def State.view (s : State) (r : Reg) (i : Nat) : W64 :=
  match r with
  | .TB_NOW => BitVec.ofNat 64 s.now
  | .TB_SLOT => BitVec.ofNat 64 s.slotNo
  | .CORE_STATUS => s.coreStatus i
  | .CORE_GROUP_STATE => s.groupStatus i
  | .MXE_ENG_STATUS => s.engStatus i
  | .CORE_LM_STATUS => s.lmStatus i
  | .QDC_STATUS => s.qdcStatus i
  | .HOM_DIR_STATUS => s.dirStatus i
  | .XLT_PRI_STATUS => s.shown r i [(0, 18, (s.cmp.hostXlt.filter (fun h => h.phase == 1)).length)]
  | .XLT_QTLB_STATUS => s.qtlbStatus i
  | .STE_STATUS => s.steStatus i
  | .CNP_STATUS => s.cnpStatus
  | .CNP_CLUSTER =>
    if s.flag F.CNP_LAYOUT_COMMIT_SHADOW_RD 0 then r.withCm (s.clusterWord i) (s.shadowReg r i) else s.clusterWord i
  | .CNP_CTX_STATE => s.ctxWord i
  | .EVC_ROUTE => if sourceExists (i / 1024) (i % 1024) then s.stored r i else 0
  | .EVC_TAP_DIES =>
    BitVec.ofNat 64 ((List.range 64).foldl (fun (n : Nat) b => n + nb (s.tapRouted (64 * i + b)) * 2 ^ b) 0)
  | .EVC_DFQ_WINDOW => s.dfqWord i
  | .CNP_QP_STATUS => s.qpStatus i
  | .CNP_QP_ERRMAP => s.qpErrors i
  | .GRG_PKG_STATUS => s.grigaStatus
  | .TAP_LOG_STATUS => packFields [(0, 18, s.tap.log.length), (32, 32, s.tap.flashNext)]
  | .TAP_DUTY_STATUS => s.dutyWord
  | .DBG_EVENT => s.dbgEventWord i
  | .DBG_DIE_STATUS => s.dbgDieWord i
  | _ => s.stored r i

end Sys2Proof.Machine
end

