-- ==== Sys2Proof/Machine/RegAccess.lean ====
section
/-! DEFINITION. Accesses to registers that have no row of their own: the decoding of a BAR0 offset, halves and pairs of
registers, what a write does beyond its fields, and reads from out of reach (R4 to R9, R23 to R25, R27, R400). -/

namespace Sys2Proof.Machine

/-! ### Places (R23, R24) -/

/-- The instance of a register in a window, and the byte within it, that a window offset names. -/
def RegSpec.at (p : RegSpec) (off : Nat) : Option (Nat × Nat) :=
  if off < p.base then none
  else
    let d := off - p.base
    let a := if p.s1 = 0 then 0 else d / p.s1
    let e := d - a * p.s1
    let b := if p.s2 = 0 then 0 else e / p.s2
    let k := e - b * p.s2
    if a < p.c1 ∧ b < p.c2 ∧ k < p.width / 8 then some (a * p.c2 + b, k) else none

/-- The instance of a register, and the byte within it, at a BAR0 offset. -/
def Reg.at (r : Reg) (x : Nat) : Option (Nat × Nat) :=
  match r.spec.zone.dies with
  | none => if x < 0x1000000 then r.spec.at x else none
  | some (first, n) =>
    let die := (x - 0x1000000) / 0x400000
    if x < 0x1000000 ∨ die < first ∨ first + n ≤ die then none
    else
      (r.spec.at ((x - 0x1000000) % 0x400000)).map (fun e =>
        (if r.spec.zone.shared then e.1 else (die - first) * r.spec.perWindow + e.1, e.2))

/-- The register, its instance and the byte within it at a BAR0 offset; `none` at a reserved offset (R25). -/
def regAt (x : Nat) : Option (Reg × Nat × Nat) :=
  Reg.list.findSome? (fun r => (r.at x).map (fun e => (r, e.1, e.2)))

/-- One access to one register: the register, its instance, the lowest bit that the access covers, the bits covered and the value
in place; and the die whose window the access takes, for one that takes a window. -/
structure Acc1 where
  reg : Reg
  inst : Nat
  lo : Nat
  mask : Nat
  value : Nat
  win : Option Nat := none
  deriving DecidableEq, Repr

/-- The die whose window holds a BAR0 offset (R23). -/
def windowAt (x : Nat) : Option Nat := if x < 0x1000000 then none else some ((x - 0x1000000) / 0x400000)

/-- Whether an access takes the window of a retired or powered-off die to a register that all windows of a kind share: it has no
effect there (R25). -/
def Acc1.gone (a : Acc1) (s : State) : Bool :=
  a.reg.spec.zone.shared && (a.win.map (s.dieGone ·)).getD false

/-- Whether an access has a form that R9 gives: 32 or 64 bits, naturally aligned, in BAR0. -/
def accessFormed (addr : Nat) (size : Nat) : Bool :=
  (size == 2 && addr % 4 == 0 || size == 3 && addr % 8 == 0) && decide (addr < 0x20000000)

/-- The accesses to registers that a formed access makes, the lower address first (R9). -/
def accessParts (addr size value : Nat) : List Acc1 :=
  let half := fun (a v : Nat) => match regAt a with
    | none => ([] : List Acc1)
    | some (r, i, k) => [{ reg := r, inst := i, lo := 8 * k, mask := (2 ^ 32 - 1) * 2 ^ (8 * k),
                           value := v % 2 ^ 32 * 2 ^ (8 * k), win := windowAt a }]
  if size = 2 then half addr value
  else
    match regAt addr with
    | some (r, i, _) =>
      if r.spec.width = 64 then
        [{ reg := r, inst := i, lo := 0, mask := 2 ^ 64 - 1, value := value, win := windowAt addr }]
      else half addr value ++ half (addr + 4) (value / 2 ^ 32)
    | none => half (addr + 4) (value / 2 ^ 32)

/-! ### Writes with an effect beyond their fields -/

/-- The RW bits of a register. -/
def Reg.rwBits (r : Reg) : Nat :=
  r.spec.fields.foldl (fun (m : Nat) f => if f.acc = .rw then m ||| ((2 ^ f.width - 1) * 2 ^ f.lo) else m) 0

/-- The word that a write of some bits stands for: RW fields keep what the other bits hold, and no other field is written
there. -/
def State.wholeWord (s : State) (r : Reg) (i value mask : Nat) : Nat :=
  (value &&& mask) ||| ((s.reg r i).toNat &&& (r.rwBits &&& (mask ^^^ (2 ^ 64 - 1))))

/-- What a write does when its fields are written. `s` is the state before. -/
def State.written (s t : State) (r : Reg) (i value mask : Nat) : State :=
  match r with
  | .TB_PPS_NEXT_SEC => { t with ring := { t.ring with secWrites :=
      (s.localNs, s.fget F.TB_PPS_NEXT_SEC_SEC) :: t.ring.secWrites.filter (fun e => decide (s.localNs ≤ e.1 + 1000)) } }
  | .CNP_CTL =>
    if t.flag F.CNP_CTL_ACCT_EN ∧ ¬ s.flag F.CNP_CTL_ACCT_EN then
      (t.fset F.CNP_ACCT_HEAD_HEAD 0).fset F.CNP_ACCT_TAIL_TAIL 0
    else t
  | .EVC_MASK => (List.range 32).foldl (fun (u : State) b => u.evcDeliver (i / 32) (i % 32 * 32 + b)) t
  | .EVC_ROUTE => t.evcDeliver (i / 1024) (i % 1024)
  | .EVC_DFQ_HEAD =>
    let u := if t.dfqHeld i < 255 then t.fset F.EVC_DFQ_TAIL_SUMMARY 0 i else t
    u.levelSource i
  | .GRG_PORT_CTL => t.portCtl i (s.flag F.GRG_PORT_CTL_EN i) (value &&& mask)
  | .GRG_PKG_ID =>
    let w := s.wholeWord r i value mask
    let blocked := (List.range 32).any (fun p => s.fget F.GRG_PORT_STATUS_STATE p != 0)
    if blocked ∧ bits w 0 15 ≠ bits (s.reg r i).toNat 0 15 then t.fset F.GRG_PKG_ID_REFUSED 1 else t
  | _ => t

/-- The bits of a write that its register takes: some fields are not written while others have a value. -/
def State.takes (s : State) (r : Reg) (i value mask : Nat) : Nat :=
  match r with
  | .CNP_CTL => if bit (value &&& mask) 0 ∧ s.fget F.TAP_READY_STATE ≠ 3 then mask &&& (2 ^ 64 - 2) else mask
  | .CNP_ACCT_BASE => if s.flag F.CNP_CTL_ACCT_EN then mask &&& (0xFFFF * 2 ^ 48) else mask
  | .EVC_ROUTE =>
    if ¬ sourceExists (i / 1024) (i % 1024) then 0
    else if s.flag F.EVC_ROUTE_PRIVATE i then mask &&& 2 ^ 31 else mask
  | .GRG_PKG_ID =>
    if (List.range 32).any (fun p => s.fget F.GRG_PORT_STATUS_STATE p != 0) then mask &&& 2 ^ 31 else mask
  | _ => mask

/-- The fields of a register take a write; a member of a commit group whose shadow is written sets PENDING (R27, R28). -/
def State.writeFields (s : State) (r : Reg) (i value mask : Nat) : State :=
  let m := s.takes r i value mask
  let t := s.writeReg r i value m
  let t1 := match groupOfReg r with
    | none => t
    | some g => if m &&& r.cmBits = 0 then t else t.fset (fPending g) 1 (groupInst g i)
  s.written t1 r i value mask

/-- A write by a requester, within its reach (R8, R25). -/
def State.plainWrite (s : State) (who : Requester) (r : Reg) (i value mask : Nat) : Res :=
  if ¬ reachOk r.spec.wr who then .next (s.reachRecord (r.die i) who (r.addr i) true)
  else if ¬ s.regOpen who r i then .next s
  else .next (s.writeFields r i value mask)

/-- A number as an index below a bound, wrapped. -/
def idx (n k : Nat) [NeZero n] : Fin n := Fin.ofNat n k

/-- GO of `CNP_CMD`: the command by its OP; a reserved OP leaves RESULT undefined (R6). -/
def State.cnpGo (s : State) (who : Requester) (w : Nat) : Res :=
  let c := BitVec.ofNat 16 (bits w 4 16)
  match bits w 0 4 with
  | 1 => execRegisterCtx who c s
  | 2 => execUnregisterCtx who c s
  | 3 => execSuspendCtx who c s
  | 4 => execResumeCtx who c s
  | 5 => execKillCtx who c s
  | 6 => execPruneCtx who c s
  | op => s.cnpCmd who op c.toNat (fun t =>
      let (x, t1) := t.take 8
      (t1, x.toNat))

/-- A write of `HOM_HW_CTL` by its CMD (R295). -/
def State.hwGo (s : State) (who : Requester) (r w value mask : Nat) : Res :=
  if bits w 4 3 = 0 then s.plainWrite who .HOM_HW_CTL r value mask else s.hwCommand who r w

/-- A write of `TAP_MBX_CMD`: SEQERR, and where the low half is written a command or an abort (R412, R414). -/
def State.mbxGo (s : State) (who : Requester) (w mask : Nat) : Res :=
  if bits mask 0 8 = 0 then s.plainWrite who .TAP_MBX_CMD 0 w mask
  else if bits w 0 8 = 0 then execMbxAbort who (BitVec.ofNat 64 w) s
  else s.regAction who .TAP_MBX_CMD 0 w (fun t => t.mbxCommand (bits w 0 8) (bits w 8 19))

/-- A write of `XLT_RESUME` in one piece or by halves (R314). -/
def State.resumeGo (s : State) (who : Requester) (lo value mask : Nat) : Res :=
  if mask = 2 ^ 64 - 1 then s.resumeWrite who value
  else if lo = 0 then execXltResumeLowHalf who (BitVec.ofNat 32 value) s
  else
    let low := ((s.cmp.resumeLow.lookup who).map (·.toNat)).getD 0
    s.resumeWrite who (value + low)

/-- A write to one register. -/
def State.write1 (s : State) (who : Requester) (a : Acc1) : Res :=
  let r := a.reg
  let i := a.inst
  let w := s.wholeWord r i a.value a.mask
  let plain := s.plainWrite who r i a.value a.mask
  let d := BitVec.ofNat 64 w
  if reachOk r.spec.wr who ∧ a.gone s then .next s
  else
  match r with
  | .CORE_LM_POWER => execLmPowerWrite who (idx 8192 i) d s
  | .CORE_LM_ZERO => execLmZeroRequest who (idx 8192 i) (BitVec.ofNat 32 w) s
  | .CORE_LM_TEST => if bit w 32 then execLmTestStart who (idx 8192 i) d s else plain
  | .CORE_LM_REPAIR => execLmRepairWrite who (idx 8192 (i / 32)) (idx 32 i) d s
  | .QDC_FLUSH => if bit w 15 then execQdcFlush who (idx 256 i) (BitVec.ofNat 32 w) s else plain
  | .HOM_PC_MAPOUT => if bit w 31 then execPcMapout who (idx 16 i) (BitVec.ofNat 32 w) s else plain
  | .HOM_HW_CTL => s.hwGo who i w a.value a.mask
  | .XLT_IQ_BASE => s.iqBaseWrite who a.value a.mask
  | .XLT_RESUME => s.resumeGo who a.lo a.value a.mask
  | .CNP_CMD => if bit w 63 then s.cnpGo who w else plain
  | .EVC_PEND => execEvcPendWrite who (idx 84 (i / 32)) (idx 32 i) (BitVec.ofNat 32 a.value) s
  | .EVC_FR_KICK => execFrKick who (BitVec.ofNat 16 w) s
  | .TAP_MBX_CMD => s.mbxGo who (a.value &&& a.mask) a.mask
  | .TAP_MBX_DATA => execMbxDataWrite who (BitVec.ofNat 32 a.value) s
  | .GRG_RT_SYNC => execRtSync who (BitVec.ofNat 32 w) s
  | .TAP_RESET_CTL => s.resetCommand who w
  | .DBG_CMD => if bit w 63 then s.dbgCmd who w else plain
  | .TAP_PWR_LIMIT =>
    if reachOk r.spec.wr who ∧ s.regOpen who r i then .next (s.dutyChange (fun t => t.writeFields r i a.value a.mask)) else plain
  | .TB_SRC_COMMIT => s.commitWrite who .tbSrc 0 w
  | .CNP_LAYOUT_COMMIT => s.commitWrite who .cnpLayout 0 w
  | .QDC_ALLOC_COMMIT => s.commitWrite who .qdcAlloc i w
  | .HOM_RSV_COMMIT => s.commitWrite who .homRsv i w
  | .HOM_MAP_COMMIT => s.commitWrite who .homMap 0 w
  | .HOM_HW_COMMIT => s.commitWrite who .homHw i w
  | .CNP_QP_COMMIT => s.commitWrite who .cnpQp i w
  | .CNP_BAR4_COMMIT => s.commitWrite who .cnpBar4 i w
  | .GRG_WIN_COMMIT => s.commitWrite who .grgWin 0 w
  | _ => plain

/-- Writes to registers one after the other; the first that stops ends them. -/
def State.writeAll (s : State) (who : Requester) (l : List Acc1) : Res :=
  match l with
  | [] => .next s
  | a :: rest =>
    match s.write1 who a with
    | .next t => t.writeAll who rest
    | .fault f => .fault f
    | .refused r => .refused r

/-! ### BAR2 (R382, R400, R404) -/

/-- Where the MSI-X table stands in BAR2 of a function, above its doorbell pages (R400). -/
def msixBase (f : Nat) : Nat := if f = 0 then 0x1000000 else 0x40000

/-- A 32-bit word of a function's MSI-X table is written: address, data, and the mask bit of its vector control. -/
def State.msixWrite (s : State) (f off : Nat) (v : W32) : State :=
  let n := off / 16
  let e := s.msixVec f n
  let e1 : MsixVec := match off % 16 / 4 with
    | 0 => { e with addr := BitVec.ofNat 64 (setBits e.addr.toNat 0 32 v.toNat) }
    | 1 => { e with addr := BitVec.ofNat 64 (setBits e.addr.toNat 32 32 v.toNat) }
    | 2 => { e with data := v }
    | _ => { e with masked := v.getLsbD 0 }
  (s.setMsixVec f n e1).msixRelease f n

/-- A 32-bit write to BAR2 of a function: a doorbell page, its MSI-X table, or a place that takes no write. -/
def State.bar2Word (s : State) (f x : Nat) (v : W32) : Res :=
  let table := msixBase f
  if ¬ s.decodes f then .next s
  else if x < table then
    let page := if f = 0 then DoorPage.pf (idx 4096 (x / 4096)) else DoorPage.vf (idx 256 f) (idx 64 (x / 4096))
    match x % 4096 with
    | 0 => execDoorbellSqTail page v s
    | 4 => execDoorbellCqHead page v s
    | _ => .next s
  else if x - table < vectorCount f * 16 then .next (s.msixWrite f (x - table) v)
  else .next s

/-- A write to BAR2 of a function: of 64 bits as two, but a doorbell page takes only aligned 32-bit writes (R404). -/
def State.bar2Write (s : State) (f x size : Nat) (value : W64) : Res :=
  let table := msixBase f
  if x < table ∧ (size ≠ 2 ∨ x % 4 ≠ 0) then .next s
  else if size = 2 then s.bar2Word f x (value.setWidth 32)
  else
    match s.bar2Word f x (value.setWidth 32) with
    | .next t => t.bar2Word f (x + 4) ((value >>> 32).setWidth 32)
    | o => o

/-! ### The commands -/

/-- Whether an access meets the mailbox registers and is not naturally aligned and 32 bits wide (R412). -/
def mbxOdd (addr size : Nat) : Bool :=
  decide (0x410000 < addr + 2 ^ size) && decide (addr < 0x41000C) && !(size == 2 && addr % 4 == 0)

/-- Whether a write has the form that R9 asks of an access: in BAR0, or from 2^29 on in BAR2 of the writing function. What other writes
do to the mailbox and to a doorbell page is stated (R404, R412). -/
def writeFormed (who : Requester) (addr size : Nat) : Bool :=
  let off := addr - 0x20000000
  if addr < 0x20000000 then accessFormed addr size || mbxOdd addr size
  else
    accessFormed off size ||
      match who with
      | .pf => decide (off < msixBase 0 ∨ 0x2000000 ≤ off)
      | .vf v => decide (off < msixBase v.val ∨ 0x80000 ≤ off)
      | .steward _ => true
      | .taproot => true

/-- A write to the mailbox that is not naturally aligned and 32 bits wide sets SEQERR and does nothing else (R412). -/
def State.mbxOddWrite (s : State) (who : Requester) (addr : Nat) : State :=
  if ¬ reachOk .pfTaproot who then s.reachRecord edge0 who addr true
  else if ¬ s.arrives who true true then s
  else s.seqErr

/-- A write to a register that has no row of its own. `size` is the logarithm of the bytes. An address from 2^29 on is an offset
in BAR2 of the writing function (log 56); a function does not decode an offset beyond its BAR2, and the VFs' BAR2 starts at VF 1. -/
def execRegisterWrite (who : Requester) (addr : Nat) (size : Fin 4) (value : W64) (s : State) : Res :=
  let n := size.val
  let off := addr - 0x20000000
  if ¬ writeFormed who addr n then .fault .illFormed
  else if mbxOdd addr n then .next (s.mbxOddWrite who addr)
  else if addr < 0x20000000 then s.writeAll who (accessParts addr n value.toNat)
  else
    match who with
    | .pf => if off < 0x2000000 then s.bar2Write 0 off n value else .next s
    | .vf v => if off < 0x80000 ∧ v.val ≠ 0 then s.bar2Write v.val off n value else .next s
    | .steward _ => .next s
    | .taproot => .next s

/-- Whether a requester may read a register (R8). -/
def readable (who : Requester) (r : Reg) : Bool := reachOk r.spec.rd who

/-- What a read of one register returns to a requester, with the record of a read from out of reach (R8, R25). -/
def State.read1 (s : State) (who : Requester) (a : Acc1) : State × Nat :=
  if ¬ readable who a.reg then (s.reachRecord (a.reg.die a.inst) who (a.reg.addr a.inst) false, 0)
  else if ¬ s.readOpen who a.reg a.inst ∨ a.gone s then (s, 0)
  else (s, (s.view a.reg a.inst).toNat &&& a.mask)

/-- A read of at least one register that lies out of the requester's reach: that register reads 0 and the record is written; a
second register of a 64-bit read is read as it is (R8, R9). -/
def execOutOfReachRead (who : Requester) (addr : Nat) (size : Fin 4) (s : State) : Res :=
  let n := size.val
  let l := accessParts addr n 0
  if ¬ accessFormed addr n then .fault .illFormed
  else
    need (l.any (fun a => !readable who a.reg))
      (let out := l.foldl (fun (e : State × Nat) a =>
          let (t, v) := e.1.read1 who a
          let place := if n = 3 then (if a.reg.spec.width = 32 ∧ a.reg.addr a.inst % 8 = 4 then 2 ^ 32 else 1) else 2 ^ a.lo
          (t, if n = 3 then e.2 + v * place else e.2 + v / place)) (s, 0)
       .next (out.1.emit (.regRead who (BitVec.ofNat 64 out.2))))

end Sys2Proof.Machine
end

