-- ==== Sys2Proof/Machine/Dispatch.lean ====
section
/-! DEFINITION. The dispatch: one arm for each command of the table. -/

namespace Sys2Proof.Machine

def exec (i : Instr) (s : State) : Host.Outcome State Fault Refusal :=
  match i with
  | .registerWrite who addr size value => Sys2Proof.Machine.execRegisterWrite who addr size value s
  | .commit who g x word => Sys2Proof.Machine.execCommit who g x word s
  | .commitApply g x => Sys2Proof.Machine.execCommitApply g x s
  | .discard who g x word => Sys2Proof.Machine.execDiscard who g x word s
  | .beat port t corr master hop steps => Sys2Proof.Machine.execBeat port t corr master hop steps s
  | .ptmRequest => Sys2Proof.Machine.execPtmRequest s
  | .ptmDialogue master => Sys2Proof.Machine.execPtmDialogue master s
  | .ppsPulse second => Sys2Proof.Machine.execPpsPulse second s
  | .sourceLost src => Sys2Proof.Machine.execSourceLost src s
  | .portPreferenceSwitch => Sys2Proof.Machine.execPortPreferenceSwitch s
  | .sourceSwitch => Sys2Proof.Machine.execSourceSwitch s
  | .holdoverExpiry => Sys2Proof.Machine.execHoldoverExpiry s
  | .slotBoundary => Sys2Proof.Machine.execSlotBoundary s
  | .tbNowRead who part => Sys2Proof.Machine.execTbNowRead who part s
  | .scalarAdd w x => Sys2Proof.Machine.execScalarAdd w x s
  | .scalarSub w x => Sys2Proof.Machine.execScalarSub w x s
  | .scalarMulLo w x => Sys2Proof.Machine.execScalarMulLo w x s
  | .scalarMulHi w x => Sys2Proof.Machine.execScalarMulHi w x s
  | .scalarMin w x => Sys2Proof.Machine.execScalarMin w x s
  | .scalarMax w x => Sys2Proof.Machine.execScalarMax w x s
  | .scalarAnd w x => Sys2Proof.Machine.execScalarAnd w x s
  | .scalarOr w x => Sys2Proof.Machine.execScalarOr w x s
  | .scalarXor w x => Sys2Proof.Machine.execScalarXor w x s
  | .scalarNot w x => Sys2Proof.Machine.execScalarNot w x s
  | .scalarShl w x => Sys2Proof.Machine.execScalarShl w x s
  | .scalarShr w x => Sys2Proof.Machine.execScalarShr w x s
  | .scalarSra w x => Sys2Proof.Machine.execScalarSra w x s
  | .scalarSel w x => Sys2Proof.Machine.execScalarSel w x s
  | .scalarMov w x => Sys2Proof.Machine.execScalarMov w x s
  | .scalarCmp w x => Sys2Proof.Machine.execScalarCmp w x s
  | .srRd w x => Sys2Proof.Machine.execSrRd w x s
  | .srWr w x => Sys2Proof.Machine.execSrWr w x s
  | .vectorAdd w x => Sys2Proof.Machine.execVectorAdd w x s
  | .vectorSub w x => Sys2Proof.Machine.execVectorSub w x s
  | .vectorMulLo w x => Sys2Proof.Machine.execVectorMulLo w x s
  | .vectorMulHi w x => Sys2Proof.Machine.execVectorMulHi w x s
  | .vectorMin w x => Sys2Proof.Machine.execVectorMin w x s
  | .vectorMax w x => Sys2Proof.Machine.execVectorMax w x s
  | .vectorAnd w x => Sys2Proof.Machine.execVectorAnd w x s
  | .vectorOr w x => Sys2Proof.Machine.execVectorOr w x s
  | .vectorXor w x => Sys2Proof.Machine.execVectorXor w x s
  | .vectorNot w x => Sys2Proof.Machine.execVectorNot w x s
  | .vectorShl w x => Sys2Proof.Machine.execVectorShl w x s
  | .vectorShr w x => Sys2Proof.Machine.execVectorShr w x s
  | .vectorSra w x => Sys2Proof.Machine.execVectorSra w x s
  | .vectorSel w x => Sys2Proof.Machine.execVectorSel w x s
  | .vectorMov w x => Sys2Proof.Machine.execVectorMov w x s
  | .vectorMadLo w x => Sys2Proof.Machine.execVectorMadLo w x s
  | .vectorCmp w x => Sys2Proof.Machine.execVectorCmp w x s
  | .pand w x => Sys2Proof.Machine.execPand w x s
  | .por w x => Sys2Proof.Machine.execPor w x s
  | .pxor w x => Sys2Proof.Machine.execPxor w x s
  | .pnot w x => Sys2Proof.Machine.execPnot w x s
  | .floatAdd w x => Sys2Proof.Machine.execFloatAdd w x s
  | .floatSub w x => Sys2Proof.Machine.execFloatSub w x s
  | .floatMul w x => Sys2Proof.Machine.execFloatMul w x s
  | .floatFma w x => Sys2Proof.Machine.execFloatFma w x s
  | .floatMin w x => Sys2Proof.Machine.execFloatMin w x s
  | .floatMax w x => Sys2Proof.Machine.execFloatMax w x s
  | .floatAbs w x => Sys2Proof.Machine.execFloatAbs w x s
  | .floatNeg w x => Sys2Proof.Machine.execFloatNeg w x s
  | .rcp w x => Sys2Proof.Machine.execRcp w x s
  | .rsqrt w x => Sys2Proof.Machine.execRsqrt w x s
  | .exp2 w x => Sys2Proof.Machine.execExp2 w x s
  | .log2 w x => Sys2Proof.Machine.execLog2 w x s
  | .sin w x => Sys2Proof.Machine.execSin w x s
  | .cos w x => Sys2Proof.Machine.execCos w x s
  | .shfl w x => Sys2Proof.Machine.execShfl w x s
  | .voteAny w x => Sys2Proof.Machine.execVoteAny w x s
  | .voteAll w x => Sys2Proof.Machine.execVoteAll w x s
  | .voteBallot w x => Sys2Proof.Machine.execVoteBallot w x s
  | .movSv w x => Sys2Proof.Machine.execMovSv w x s
  | .movVs w x => Sys2Proof.Machine.execMovVs w x s
  | .cvt w dst x => Sys2Proof.Machine.execCvt w dst x s
  | .pack w x => Sys2Proof.Machine.execPack w x s
  | .unpack w x => Sys2Proof.Machine.execUnpack w x s
  | .grainEnc w x => Sys2Proof.Machine.execGrainEnc w x s
  | .grainDec w x => Sys2Proof.Machine.execGrainDec w x s
  | .mxscale w x => Sys2Proof.Machine.execMxscale w x s
  | .bra w x => Sys2Proof.Machine.execBra w x s
  | .braDiv w x => Sys2Proof.Machine.execBraDiv w x s
  | .join w x => Sys2Proof.Machine.execJoin w x s
  | .loopEnter w x => Sys2Proof.Machine.execLoopEnter w x s
  | .brk w x => Sys2Proof.Machine.execBrk w x s
  | .exit w x => Sys2Proof.Machine.execExit w x s
  | .braInd w x => Sys2Proof.Machine.execBraInd w x s
  | .call w x => Sys2Proof.Machine.execCall w x s
  | .ret w x => Sys2Proof.Machine.execRet w x s
  | .ldL w x e => Sys2Proof.Machine.execLdL w x e s
  | .stL w x e => Sys2Proof.Machine.execStL w x e s
  | .ldG w x e => Sys2Proof.Machine.execLdG w x e s
  | .stG w x e => Sys2Proof.Machine.execStG w x e s
  | .ldAcq w x => Sys2Proof.Machine.execLdAcq w x s
  | .stRel w x => Sys2Proof.Machine.execStRel w x s
  | .ldS w x e => Sys2Proof.Machine.execLdS w x e s
  | .stS w x e => Sys2Proof.Machine.execStS w x e s
  | .ldRsv w x => Sys2Proof.Machine.execLdRsv w x s
  | .stCond w x => Sys2Proof.Machine.execStCond w x s
  | .ldP w x => Sys2Proof.Machine.execLdP w x s
  | .stP w x => Sys2Proof.Machine.execStP w x s
  | .atomAdd w scalar x => Sys2Proof.Machine.execAtomAdd w scalar x s
  | .atomMin w scalar x => Sys2Proof.Machine.execAtomMin w scalar x s
  | .atomMax w scalar x => Sys2Proof.Machine.execAtomMax w scalar x s
  | .atomAnd w scalar x => Sys2Proof.Machine.execAtomAnd w scalar x s
  | .atomOr w scalar x => Sys2Proof.Machine.execAtomOr w scalar x s
  | .atomXor w scalar x => Sys2Proof.Machine.execAtomXor w scalar x s
  | .atomSwap w scalar x => Sys2Proof.Machine.execAtomSwap w scalar x s
  | .atomCas w scalar x => Sys2Proof.Machine.execAtomCas w scalar x s
  | .atomLAdd w scalar x => Sys2Proof.Machine.execAtomLAdd w scalar x s
  | .atomLMin w scalar x => Sys2Proof.Machine.execAtomLMin w scalar x s
  | .atomLMax w scalar x => Sys2Proof.Machine.execAtomLMax w scalar x s
  | .atomLAnd w scalar x => Sys2Proof.Machine.execAtomLAnd w scalar x s
  | .atomLOr w scalar x => Sys2Proof.Machine.execAtomLOr w scalar x s
  | .atomLXor w scalar x => Sys2Proof.Machine.execAtomLXor w scalar x s
  | .atomLSwap w scalar x => Sys2Proof.Machine.execAtomLSwap w scalar x s
  | .atomLCas w scalar x => Sys2Proof.Machine.execAtomLCas w scalar x s
  | .fenceLd w x => Sys2Proof.Machine.execFenceLd w x s
  | .fenceSt w x => Sys2Proof.Machine.execFenceSt w x s
  | .fenceFull w x => Sys2Proof.Machine.execFenceFull w x s
  | .barBlock w x => Sys2Proof.Machine.execBarBlock w x s
  | .barCluster w x => Sys2Proof.Machine.execBarCluster w x s
  | .barrierOpen core block bar => Sys2Proof.Machine.execBarrierOpen core block bar s
  | .cinvL1 w x => Sys2Proof.Machine.execCinvL1 w x s
  | .cinvSc w x => Sys2Proof.Machine.execCinvSc w x s
  | .cwbSc w x => Sys2Proof.Machine.execCwbSc w x s
  | .cinvI w x => Sys2Proof.Machine.execCinvI w x s
  | .nop w x => Sys2Proof.Machine.execNop w x s
  | .tileMark w x => Sys2Proof.Machine.execTileMark w x s
  | .brkpt w x => Sys2Proof.Machine.execBrkpt w x s
  | .trap w x => Sys2Proof.Machine.execTrap w x s
  | .mxCfg w x => Sys2Proof.Machine.execMxCfg w x s
  | .mxZero w x => Sys2Proof.Machine.execMxZero w x s
  | .mxMma w x => Sys2Proof.Machine.execMxMma w x s
  | .mxAccRd w x => Sys2Proof.Machine.execMxAccRd w x s
  | .mxAccWr w x => Sys2Proof.Machine.execMxAccWr w x s
  | .mxWait w x => Sys2Proof.Machine.execMxWait w x s
  | .mxStat w x => Sys2Proof.Machine.execMxStat w x s
  | .mxCfgTakeEffect core engine => Sys2Proof.Machine.execMxCfgTakeEffect core engine s
  | .mxQueueEntry core engine => Sys2Proof.Machine.execMxQueueEntry core engine s
  | .mxTileStart core engine => Sys2Proof.Machine.execMxTileStart core engine s
  | .mxChunkClose core engine => Sys2Proof.Machine.execMxChunkClose core engine s
  | .mxTileEnd core engine held => Sys2Proof.Machine.execMxTileEnd core engine held s
  | .steSub w x => Sys2Proof.Machine.execSteSub w x s
  | .steWait w x => Sys2Proof.Machine.execSteWait w x s
  | .steTest w x => Sys2Proof.Machine.execSteTest w x s
  | .steWaitAll w x => Sys2Proof.Machine.execSteWaitAll w x s
  | .steChunkIssue cluster engine => Sys2Proof.Machine.execSteChunkIssue cluster engine s
  | .steChunkComplete chunk => Sys2Proof.Machine.execSteChunkComplete chunk s
  | .prefetchCreditPoll core block engine => Sys2Proof.Machine.execPrefetchCreditPoll core block engine s
  | .blockClusterPlace ctx cluster => Sys2Proof.Machine.execBlockClusterPlace ctx cluster s
  | .blockComplete core block => Sys2Proof.Machine.execBlockComplete core block s
  | .kernelComplete ctx => Sys2Proof.Machine.execKernelComplete ctx s
  | .kernelDeadline ctx => Sys2Proof.Machine.execKernelDeadline ctx s
  | .coreGate core => Sys2Proof.Machine.execCoreGate core s
  | .lmCeWriteback core granule => Sys2Proof.Machine.execLmCeWriteback core granule s
  | .lmTestStart who core word => Sys2Proof.Machine.execLmTestStart who core word s
  | .lmTestDone core failing => Sys2Proof.Machine.execLmTestDone core failing s
  | .lmZeroRequest who core word => Sys2Proof.Machine.execLmZeroRequest who core word s
  | .lmZeroDone core unit => Sys2Proof.Machine.execLmZeroDone core unit s
  | .lmPowerWrite who core word => Sys2Proof.Machine.execLmPowerWrite who core word s
  | .lmUnitWakeDone core unit => Sys2Proof.Machine.execLmUnitWakeDone core unit s
  | .lmRepairWrite who core bank word => Sys2Proof.Machine.execLmRepairWrite who core bank word s
  | .gets k e => Sys2Proof.Machine.execGets k e s
  | .getm k e => Sys2Proof.Machine.execGetm k e s
  | .readonce k e => Sys2Proof.Machine.execReadonce k e s
  | .writeinvfull k => Sys2Proof.Machine.execWriteinvfull k s
  | .writeinvpart k e => Sys2Proof.Machine.execWriteinvpart k e s
  | .atomicHome k e => Sys2Proof.Machine.execAtomicHome k e s
  | .snpshared k => Sys2Proof.Machine.execSnpshared k s
  | .snpinvfwd k => Sys2Proof.Machine.execSnpinvfwd k s
  | .snponce k => Sys2Proof.Machine.execSnponce k s
  | .snpinv k => Sys2Proof.Machine.execSnpinv k s
  | .snprecall k => Sys2Proof.Machine.execSnprecall k s
  | .comp k => Sys2Proof.Machine.execComp k s
  | .compack k => Sys2Proof.Machine.execCompack k s
  | .retryMsg k => Sys2Proof.Machine.execRetryMsg k s
  | .wback k => Sys2Proof.Machine.execWback k s
  | .snpack k => Sys2Proof.Machine.execSnpack k s
  | .snpmiss k => Sys2Proof.Machine.execSnpmiss k s
  | .snpmisswbp k => Sys2Proof.Machine.execSnpmisswbp k s
  | .snprspfwd k => Sys2Proof.Machine.execSnprspfwd k s
  | .snppoison k => Sys2Proof.Machine.execSnppoison k s
  | .datas k => Sys2Proof.Machine.execDatas k s
  | .datae k => Sys2Proof.Machine.execDatae k s
  | .datam k => Sys2Proof.Machine.execDatam k s
  | .dataonce k => Sys2Proof.Machine.execDataonce k s
  | .snprspdata k => Sys2Proof.Machine.execSnprspdata k s
  | .wbdata k => Sys2Proof.Machine.execWbdata k s
  | .atomicResult k => Sys2Proof.Machine.execAtomicResult k s
  | .retryFifoGrant home set => Sys2Proof.Machine.execRetryFifoGrant home set s
  | .qdcFlush who quad word => Sys2Proof.Machine.execQdcFlush who quad word s
  | .qdcFlushDone quad => Sys2Proof.Machine.execQdcFlushDone quad s
  | .directorySetRecallDone home set => Sys2Proof.Machine.execDirectorySetRecallDone home set s
  | .patrolScrub home corrected failing => Sys2Proof.Machine.execPatrolScrub home corrected failing s
  | .stackTemperatureRead stack temp => Sys2Proof.Machine.execStackTemperatureRead stack temp s
  | .pcMapout who home word => Sys2Proof.Machine.execPcMapout who home word s
  | .pcMapoutDone home => Sys2Proof.Machine.execPcMapoutDone home s
  | .channelStopsAnswering home target => Sys2Proof.Machine.execChannelStopsAnswering home target s
  | .hwSeal who region word => Sys2Proof.Machine.execHwSeal who region word s
  | .hwSealDone region => Sys2Proof.Machine.execHwSealDone region s
  | .hwRelease who region word => Sys2Proof.Machine.execHwRelease who region word s
  | .hwReleaseDone region => Sys2Proof.Machine.execHwReleaseDone region s
  | .hwReload who region word => Sys2Proof.Machine.execHwReload who region word s
  | .walkComplete k => Sys2Proof.Machine.execWalkComplete k s
  | .atsCompletion k res => Sys2Proof.Machine.execAtsCompletion k res s
  | .prgResponse k res => Sys2Proof.Machine.execPrgResponse k res s
  | .atsInvalidateRequest func tag pasid va bytes => Sys2Proof.Machine.execAtsInvalidateRequest func tag pasid va bytes s
  | .invalidateCompletion func tag => Sys2Proof.Machine.execInvalidateCompletion func tag s
  | .resumeRetranslate who word => Sys2Proof.Machine.execResumeRetranslate who word s
  | .resumeUnresolvable who word => Sys2Proof.Machine.execResumeUnresolvable who word s
  | .xltResumeLowHalf who word => Sys2Proof.Machine.execXltResumeLowHalf who word s
  | .iqTailWrite who word => Sys2Proof.Machine.execIqTailWrite who word s
  | .iqEnable who word => Sys2Proof.Machine.execIqEnable who word s
  | .invRange => Sys2Proof.Machine.execInvRange s
  | .invContext => Sys2Proof.Machine.execInvContext s
  | .invAll => Sys2Proof.Machine.execInvAll s
  | .invSync => Sys2Proof.Machine.execInvSync s
  | .invDescriptorComplete => Sys2Proof.Machine.execInvDescriptorComplete s
  | .registerCtx who ctx => Sys2Proof.Machine.execRegisterCtx who ctx s
  | .unregisterCtx who ctx => Sys2Proof.Machine.execUnregisterCtx who ctx s
  | .suspendCtx who ctx => Sys2Proof.Machine.execSuspendCtx who ctx s
  | .resumeCtx who ctx => Sys2Proof.Machine.execResumeCtx who ctx s
  | .killCtx who ctx => Sys2Proof.Machine.execKillCtx who ctx s
  | .pruneCtx who ctx => Sys2Proof.Machine.execPruneCtx who ctx s
  | .launchKernel q => Sys2Proof.Machine.execLaunchKernel q s
  | .tileMarkSave clus => Sys2Proof.Machine.execTileMarkSave clus s
  | .graceExpiry cluster => Sys2Proof.Machine.execGraceExpiry cluster s
  | .saveComplete cluster => Sys2Proof.Machine.execSaveComplete cluster s
  | .clusterCleanComplete cluster => Sys2Proof.Machine.execClusterCleanComplete cluster s
  | .restoreStart ctx slot cluster => Sys2Proof.Machine.execRestoreStart ctx slot cluster s
  | .restoreComplete cluster => Sys2Proof.Machine.execRestoreComplete cluster s
  | .exportComplete ctx => Sys2Proof.Machine.execExportComplete ctx s
  | .pruneDeadline ctx => Sys2Proof.Machine.execPruneDeadline ctx s
  | .energyCalibration shares => Sys2Proof.Machine.execEnergyCalibration shares s
  | .acctFinalRecord ctx => Sys2Proof.Machine.execAcctFinalRecord ctx s
  | .evcPendWrite who die word value => Sys2Proof.Machine.execEvcPendWrite who die word value s
  | .deviceFaultRecord die record => Sys2Proof.Machine.execDeviceFaultRecord die record s
  | .controlClockRestart die => Sys2Proof.Machine.execControlClockRestart die s
  | .faultRingRecord k => Sys2Proof.Machine.execFaultRingRecord k s
  | .faultRingPoll ctx => Sys2Proof.Machine.execFaultRingPoll ctx s
  | .frKick who ctx => Sys2Proof.Machine.execFrKick who ctx s
  | .faultRingIrqInterval ctx => Sys2Proof.Machine.execFaultRingIrqInterval ctx s
  | .configRequest func reg write => Sys2Proof.Machine.execConfigRequest func reg write s
  | .doorbellSqTail page value => Sys2Proof.Machine.execDoorbellSqTail page value s
  | .doorbellCqHead page value => Sys2Proof.Machine.execDoorbellCqHead page value s
  | .pfBar4Access offset acc => Sys2Proof.Machine.execPfBar4Access offset acc s
  | .vfBar4Access vf offset acc => Sys2Proof.Machine.execVfBar4Access vf offset acc s
  | .hostReadCompletion tag status data => Sys2Proof.Machine.execHostReadCompletion tag status data s
  | .completionTimeout tag => Sys2Proof.Machine.execCompletionTimeout tag s
  | .functionLevelReset func => Sys2Proof.Machine.execFunctionLevelReset func s
  | .flrComplete func => Sys2Proof.Machine.execFlrComplete func s
  | .vfEnableChange enable num => Sys2Proof.Machine.execVfEnableChange enable num s
  | .powerStateChange func d3 => Sys2Proof.Machine.execPowerStateChange func d3 s
  | .linkStateChange up rate width => Sys2Proof.Machine.execLinkStateChange up rate width s
  | .queueNop q => Sys2Proof.Machine.execQueueNop q s
  | .queueSignal q => Sys2Proof.Machine.execQueueSignal q s
  | .signalWrite q => Sys2Proof.Machine.execSignalWrite q s
  | .queueWait q => Sys2Proof.Machine.execQueueWait q s
  | .waitPoll q => Sys2Proof.Machine.execWaitPoll q s
  | .waitTimeout q => Sys2Proof.Machine.execWaitTimeout q s
  | .completionEntryWrite q => Sys2Proof.Machine.execCompletionEntryWrite q s
  | .qpIrqInterval q => Sys2Proof.Machine.execQpIrqInterval q s
  | .queuePairStop q => Sys2Proof.Machine.execQueuePairStop q s
  | .mbxDataWrite who word => Sys2Proof.Machine.execMbxDataWrite who word s
  | .mbxDataRead who => Sys2Proof.Machine.execMbxDataRead who s
  | .mbxAbort who word => Sys2Proof.Machine.execMbxAbort who word s
  | .getInfo => Sys2Proof.Machine.execGetInfo s
  | .readLog => Sys2Proof.Machine.execReadLog s
  | .readFlashLog => Sys2Proof.Machine.execReadFlashLog s
  | .getCert => Sys2Proof.Machine.execGetCert s
  | .imageWrite => Sys2Proof.Machine.execImageWrite s
  | .imageCommit => Sys2Proof.Machine.execImageCommit s
  | .presentSet port partner => Sys2Proof.Machine.execPresentSet port partner s
  | .holdSet port partner => Sys2Proof.Machine.execHoldSet port partner s
  | .holdRetry port => Sys2Proof.Machine.execHoldRetry port s
  | .trainingGrant port => Sys2Proof.Machine.execTrainingGrant port s
  | .portUp port lanes => Sys2Proof.Machine.execPortUp port lanes s
  | .trainingTimeout port => Sys2Proof.Machine.execTrainingTimeout port s
  | .dataFlit port seq ack good => Sys2Proof.Machine.execDataFlit port seq ack good s
  | .idleFlit port seq ack good => Sys2Proof.Machine.execIdleFlit port seq ack good s
  | .nakFlit port expected => Sys2Proof.Machine.execNakFlit port expected s
  | .delayFlit port t1 t2 t3 t4 => Sys2Proof.Machine.execDelayFlit port t1 t2 t3 t4 s
  | .replayTimeout port => Sys2Proof.Machine.execReplayTimeout port s
  | .fecAlignmentLoss port => Sys2Proof.Machine.execFecAlignmentLoss port s
  | .berMeasurement port bad => Sys2Proof.Machine.execBerMeasurement port bad s
  | .retrain who port word => Sys2Proof.Machine.execRetrain who port word s
  | .retrainComplete port failed => Sys2Proof.Machine.execRetrainComplete port failed s
  | .rdReq port msg => Sys2Proof.Machine.execRdReq port msg s
  | .wrReq port msg => Sys2Proof.Machine.execWrReq port msg s
  | .atReq port msg => Sys2Proof.Machine.execAtReq port msg s
  | .putReq port msg => Sys2Proof.Machine.execPutReq port msg s
  | .putRedReq port msg => Sys2Proof.Machine.execPutRedReq port msg s
  | .getReq port msg => Sys2Proof.Machine.execGetReq port msg s
  | .dataRsp port msg => Sys2Proof.Machine.execDataRsp port msg s
  | .ackRsp port msg => Sys2Proof.Machine.execAckRsp port msg s
  | .nackRsp port msg => Sys2Proof.Machine.execNackRsp port msg s
  | .reportReq port src number nonce => Sys2Proof.Machine.execReportReq port src number nonce s
  | .reportMsg port src number report => Sys2Proof.Machine.execReportMsg port src number report s
  | .dutyMsg port src ceiling slot => Sys2Proof.Machine.execDutyMsg port src ceiling slot s
  | .healthMsg port src ready reason => Sys2Proof.Machine.execHealthMsg port src ready reason s
  | .rtSync who word => Sys2Proof.Machine.execRtSync who word s
  | .rtSyncDone => Sys2Proof.Machine.execRtSyncDone s
  | .remoteTimeout edge index => Sys2Proof.Machine.execRemoteTimeout edge index s
  | .powerOn => Sys2Proof.Machine.execPowerOn s
  | .softStartComplete => Sys2Proof.Machine.execSoftStartComplete s
  | .inputStop cause => Sys2Proof.Machine.execInputStop cause s
  | .inputBelow40v => Sys2Proof.Machine.execInputBelow40v s
  | .perstAssert => Sys2Proof.Machine.execPerstAssert s
  | .perstDeassert => Sys2Proof.Machine.execPerstDeassert s
  | .fuseLoadComplete intact => Sys2Proof.Machine.execFuseLoadComplete intact s
  | .imageVerifyComplete => Sys2Proof.Machine.execImageVerifyComplete s
  | .stewardSelfTestComplete die passed => Sys2Proof.Machine.execStewardSelfTestComplete die passed s
  | .memoryTrainingComplete failedPcs ports => Sys2Proof.Machine.execMemoryTrainingComplete failedPcs ports s
  | .warmReset who word => Sys2Proof.Machine.execWarmReset who word s
  | .coldReset who word => Sys2Proof.Machine.execColdReset who word s
  | .standby who word => Sys2Proof.Machine.execStandby who word s
  | .standbyResume who word => Sys2Proof.Machine.execStandbyResume who word s
  | .hotReset => Sys2Proof.Machine.execHotReset s
  | .warmResetComplete => Sys2Proof.Machine.execWarmResetComplete s
  | .heartbeat => Sys2Proof.Machine.execHeartbeat s
  | .journalEntry => Sys2Proof.Machine.execJournalEntry s
  | .takeover cause => Sys2Proof.Machine.execTakeover cause s
  | .primaryFatalFault => Sys2Proof.Machine.execPrimaryFatalFault s
  | .formerPrimaryRestart passed => Sys2Proof.Machine.execFormerPrimaryRestart passed s
  | .edgeDie0Loss => Sys2Proof.Machine.execEdgeDie0Loss s
  | .sensorSample sample => Sys2Proof.Machine.execSensorSample sample s
  | .stewardUpdate => Sys2Proof.Machine.execStewardUpdate s
  | .fuseBurn field verified => Sys2Proof.Machine.execFuseBurn field verified s
  | .recoverySessionTimeout => Sys2Proof.Machine.execRecoverySessionTimeout s
  | .stewardHeartbeatMiss die => Sys2Proof.Machine.execStewardHeartbeatMiss die s
  | .entdaa addr => Sys2Proof.Machine.execEntdaa addr s
  | .setEndpointId eid => Sys2Proof.Machine.execSetEndpointId eid s
  | .getEndpointId => Sys2Proof.Machine.execGetEndpointId s
  | .getMctpVersionSupport msgType => Sys2Proof.Machine.execGetMctpVersionSupport msgType s
  | .getMessageTypeSupport => Sys2Proof.Machine.execGetMessageTypeSupport s
  | .getTid => Sys2Proof.Machine.execGetTid s
  | .setTid tid => Sys2Proof.Machine.execSetTid tid s
  | .getPldmVersion pldmType => Sys2Proof.Machine.execGetPldmVersion pldmType s
  | .getPldmTypes => Sys2Proof.Machine.execGetPldmTypes s
  | .getPldmCommands pldmType => Sys2Proof.Machine.execGetPldmCommands pldmType s
  | .getPdr handle => Sys2Proof.Machine.execGetPdr handle s
  | .getSensorReading id => Sys2Proof.Machine.execGetSensorReading id s
  | .getStateSensorReadings id => Sys2Proof.Machine.execGetStateSensorReadings id s
  | .setStateEffecterStates id state => Sys2Proof.Machine.execSetStateEffecterStates id state s
  | .pollForPlatformEventMessage => Sys2Proof.Machine.execPollForPlatformEventMessage s
  | .pldmFirmwareUpdate image => Sys2Proof.Machine.execPldmFirmwareUpdate image s
  | .getVersion path => Sys2Proof.Machine.execGetVersion path s
  | .getCapabilities path request => Sys2Proof.Machine.execGetCapabilities path request s
  | .negotiateAlgorithms path request => Sys2Proof.Machine.execNegotiateAlgorithms path request s
  | .getDigests path => Sys2Proof.Machine.execGetDigests path s
  | .getCertificate path slot offset length => Sys2Proof.Machine.execGetCertificate path slot offset length s
  | .challenge path slot nonce => Sys2Proof.Machine.execChallenge path slot nonce s
  | .getMeasurements path index nonce => Sys2Proof.Machine.execGetMeasurements path index nonce s
  | .vendorDefinedRequest path standard vendor payload => Sys2Proof.Machine.execVendorDefinedRequest path standard vendor payload s
  | .repairStart region => Sys2Proof.Machine.execRepairStart region s
  | .repairEnd region => Sys2Proof.Machine.execRepairEnd region s
  | .coreTest core passed => Sys2Proof.Machine.execCoreTest core passed s
  | .coreHangDetect core => Sys2Proof.Machine.execCoreHangDetect core s
  | .coreReplacement core pool => Sys2Proof.Machine.execCoreReplacement core pool s
  | .clusterRetire core passing => Sys2Proof.Machine.execClusterRetire core passing s
  | .postPackageRepair pc lines lost => Sys2Proof.Machine.execPostPackageRepair pc lines lost s
  | .homeDieLoss home => Sys2Proof.Machine.execHomeDieLoss home s
  | .d2dLinkRetrain die side restored => Sys2Proof.Machine.execD2dLinkRetrain die side restored s
  | .debugAttach who word => Sys2Proof.Machine.execDebugAttach who word s
  | .debugDetach who word => Sys2Proof.Machine.execDebugDetach who word s
  | .debugHalt who word => Sys2Proof.Machine.execDebugHalt who word s
  | .debugResume who word => Sys2Proof.Machine.execDebugResume who word s
  | .debugStep who word => Sys2Proof.Machine.execDebugStep who word s
  | .debugDump who word => Sys2Proof.Machine.execDebugDump who word s
  | .debugLoad who word => Sys2Proof.Machine.execDebugLoad who word s
  | .haltReport att => Sys2Proof.Machine.execHaltReport att s
  | .powerControllerTick => Sys2Proof.Machine.execPowerControllerTick s
  | .currentClamp => Sys2Proof.Machine.execCurrentClamp s
  | .clampRelease => Sys2Proof.Machine.execClampRelease s
  | .thermalControllerTick die => Sys2Proof.Machine.execThermalControllerTick die s
  | .thermalTrip unit => Sys2Proof.Machine.execThermalTrip unit s
  | .jtagBypass => Sys2Proof.Machine.execJtagBypass s
  | .jtagIdcode => Sys2Proof.Machine.execJtagIdcode s
  | .jtagSamplePreload pins preload => Sys2Proof.Machine.execJtagSamplePreload pins preload s
  | .jtagExtest => Sys2Proof.Machine.execJtagExtest s
  | .jtagExtestPulse => Sys2Proof.Machine.execJtagExtestPulse s
  | .jtagExtestTrain => Sys2Proof.Machine.execJtagExtestTrain s
  | .jtagClamp => Sys2Proof.Machine.execJtagClamp s
  | .jtagHighz => Sys2Proof.Machine.execJtagHighz s
  | .testPortReset => Sys2Proof.Machine.execTestPortReset s
  | .outOfReachRead who addr size => Sys2Proof.Machine.execOutOfReachRead who addr size s
  | .stewardTimer die => Sys2Proof.Machine.execStewardTimer die s
  | .computeDieLoss die cause => Sys2Proof.Machine.execComputeDieLoss die cause s
  | .edgeDieLoss edge => Sys2Proof.Machine.execEdgeDieLoss edge s
  | .managedPowerDownComplete => Sys2Proof.Machine.execManagedPowerDownComplete s
  | .standbyExitComplete => Sys2Proof.Machine.execStandbyExitComplete s

end Sys2Proof.Machine
end

