-- ==== Sys2Proof/WellFormed.lean ====
section
/-! DEFINITION. Well-formed commands: the operands that the spec gives a command. Everything else about a command is a matter of
the state it meets. -/

namespace Sys2Proof

/-- A sample of a sensor that its die has (R456). -/
def sampleFormed (sample : Sample) : Bool :=
  match sample with
  | .dieTemp die sensor _ => decide (sensor.val < Machine.sensorCount die.val)
  | .input _ _ => true
  | .rail7 _ => true
  | .regulator _ _ => true

/-- Whether the operands of a command are such as its row gives it. -/
def Instr.operandsFormed (c : Instr) : Bool :=
  match c with
  | .registerWrite who addr size _ => Machine.writeFormed who addr size.val
  | .commit _ g n word => word.getLsbD 0 && decide (n < Machine.groupCount g)
  | .commitApply g n => decide (n < Machine.groupCount g)
  | .discard _ g n word => word.getLsbD 2 && !word.getLsbD 0 && decide (n < Machine.groupCount g)
  | .beat _ _ _ _ _ _ | .ptmRequest | .ptmDialogue _ | .ppsPulse _ | .sourceLost _ | .portPreferenceSwitch
  | .sourceSwitch | .holdoverExpiry | .slotBoundary | .tbNowRead _ _ | .scalarAdd _ _ | .scalarSub _ _
  | .scalarMulLo _ _ | .scalarMulHi _ _ | .scalarMin _ _ | .scalarMax _ _ | .scalarAnd _ _ | .scalarOr _ _
  | .scalarXor _ _ | .scalarNot _ _ | .scalarShl _ _ | .scalarShr _ _ | .scalarSra _ _ | .scalarSel _ _
  | .scalarMov _ _ | .scalarCmp _ _ | .srRd _ _ | .srWr _ _ | .vectorAdd _ _ | .vectorSub _ _ | .vectorMulLo _ _
  | .vectorMulHi _ _ | .vectorMin _ _ | .vectorMax _ _ | .vectorAnd _ _ | .vectorOr _ _ | .vectorXor _ _
  | .vectorNot _ _ | .vectorShl _ _ | .vectorShr _ _ | .vectorSra _ _ | .vectorSel _ _ | .vectorMov _ _
  | .vectorMadLo _ _ | .vectorCmp _ _ | .pand _ _ | .por _ _ | .pxor _ _ | .pnot _ _ | .floatAdd _ _ | .floatSub _ _
  | .floatMul _ _ | .floatFma _ _ | .floatMin _ _ | .floatMax _ _ | .floatAbs _ _ | .floatNeg _ _ | .rcp _ _
  | .rsqrt _ _ | .exp2 _ _ | .log2 _ _ | .sin _ _ | .cos _ _ | .shfl _ _ | .voteAny _ _ | .voteAll _ _
  | .voteBallot _ _ | .movSv _ _ | .movVs _ _ | .cvt _ _ _ | .pack _ _ | .unpack _ _ | .grainEnc _ _ | .grainDec _ _
  | .mxscale _ _ | .bra _ _ | .braDiv _ _ | .join _ _ | .loopEnter _ _ | .brk _ _ | .exit _ _ | .braInd _ _
  | .call _ _ | .ret _ _ | .ldL _ _ _ | .stL _ _ _ | .ldG _ _ _ | .stG _ _ _ | .ldAcq _ _ | .stRel _ _ | .ldS _ _ _
  | .stS _ _ _ | .ldRsv _ _ | .stCond _ _ | .ldP _ _ | .stP _ _ | .atomAdd _ _ _ | .atomMin _ _ _ | .atomMax _ _ _
  | .atomAnd _ _ _ | .atomOr _ _ _ | .atomXor _ _ _ | .atomSwap _ _ _ | .atomCas _ _ _ | .atomLAdd _ _ _
  | .atomLMin _ _ _ | .atomLMax _ _ _ | .atomLAnd _ _ _ | .atomLOr _ _ _ | .atomLXor _ _ _ | .atomLSwap _ _ _
  | .atomLCas _ _ _ | .fenceLd _ _ | .fenceSt _ _ | .fenceFull _ _ | .barBlock _ _ | .barCluster _ _
  | .barrierOpen _ _ _ | .cinvL1 _ _ | .cinvSc _ _ | .cwbSc _ _ | .cinvI _ _ | .nop _ _ | .tileMark _ _ | .brkpt _ _
  | .trap _ _ | .mxCfg _ _ | .mxZero _ _ | .mxMma _ _ | .mxAccRd _ _ | .mxAccWr _ _ | .mxWait _ _ | .mxStat _ _
  | .mxCfgTakeEffect _ _ | .mxQueueEntry _ _ | .mxTileStart _ _ | .mxChunkClose _ _ | .mxTileEnd _ _ _ | .steSub _ _
  | .steWait _ _ | .steTest _ _ | .steWaitAll _ _ | .steChunkIssue _ _ | .steChunkComplete _
  | .prefetchCreditPoll _ _ _ | .blockClusterPlace _ _ | .blockComplete _ _ | .kernelComplete _ | .kernelDeadline _
  | .coreGate _ | .lmCeWriteback _ _ | .lmTestStart _ _ _ | .lmTestDone _ _ | .lmZeroRequest _ _ _ | .lmZeroDone _ _
  | .lmPowerWrite _ _ _ | .lmUnitWakeDone _ _ | .lmRepairWrite _ _ _ _ | .gets _ _ | .getm _ _ | .readonce _ _
  | .writeinvfull _ | .writeinvpart _ _ | .atomicHome _ _ | .snpshared _ | .snpinvfwd _ | .snponce _ | .snpinv _
  | .snprecall _ | .comp _ | .compack _ | .retryMsg _ | .wback _ | .snpack _ | .snpmiss _ | .snpmisswbp _
  | .snprspfwd _ | .snppoison _ | .datas _ | .datae _ | .datam _ | .dataonce _ | .snprspdata _ | .wbdata _
  | .atomicResult _ | .retryFifoGrant _ _ | .qdcFlush _ _ _ | .qdcFlushDone _ | .directorySetRecallDone _ _
  | .patrolScrub _ _ _ | .stackTemperatureRead _ _ | .pcMapout _ _ _ | .pcMapoutDone _ | .channelStopsAnswering _ _ => true
  | .hwSeal _ _ word => word.toNat / 16 % 8 == 1
  | .hwSealDone _ => true
  | .hwRelease _ _ word => word.toNat / 16 % 8 == 2
  | .hwReleaseDone _ => true
  | .hwReload _ _ word => word.toNat / 16 % 8 == 3
  | .walkComplete _ => true
  | .atsCompletion _ _ => true
  | .prgResponse _ _ => true
  | .atsInvalidateRequest _ _ _ _ _ => true
  | .invalidateCompletion _ _ => true
  | .resumeRetranslate _ word => !word.getLsbD 16
  | .resumeUnresolvable _ word => word.getLsbD 16
  | .xltResumeLowHalf _ _ | .iqTailWrite _ _ | .iqEnable _ _ | .invRange | .invContext | .invAll | .invSync
  | .invDescriptorComplete | .registerCtx _ _ | .unregisterCtx _ _ | .suspendCtx _ _ | .resumeCtx _ _ | .killCtx _ _
  | .pruneCtx _ _ | .launchKernel _ | .tileMarkSave _ | .graceExpiry _ | .saveComplete _ | .clusterCleanComplete _
  | .restoreStart _ _ _ | .restoreComplete _ | .exportComplete _ | .pruneDeadline _ | .energyCalibration _
  | .acctFinalRecord _ | .evcPendWrite _ _ _ _ | .deviceFaultRecord _ _ | .controlClockRestart _ | .faultRingRecord _
  | .faultRingPoll _ | .frKick _ _ | .faultRingIrqInterval _ | .configRequest _ _ _ | .doorbellSqTail _ _
  | .doorbellCqHead _ _ => true
  | .pfBar4Access offset acc => Machine.barFormed offset acc
  | .vfBar4Access _ offset acc => Machine.barFormed offset acc
  | .hostReadCompletion _ _ _ | .completionTimeout _ | .functionLevelReset _ | .flrComplete _ | .vfEnableChange _ _
  | .powerStateChange _ _ | .linkStateChange _ _ _ | .queueNop _ | .queueSignal _ | .signalWrite _ | .queueWait _
  | .waitPoll _ | .waitTimeout _ | .completionEntryWrite _ | .qpIrqInterval _ | .queuePairStop _ | .mbxDataWrite _ _
  | .mbxDataRead _ | .mbxAbort _ _ | .getInfo | .readLog | .readFlashLog | .getCert | .imageWrite | .imageCommit
  | .presentSet _ _ | .holdSet _ _ | .holdRetry _ | .trainingGrant _ => true
  | .portUp _ lanes => Machine.lanesLegal lanes.toNat
  | .trainingTimeout _ | .dataFlit _ _ _ _ | .idleFlit _ _ _ _ | .nakFlit _ _ | .delayFlit _ _ _ _ _
  | .replayTimeout _ | .fecAlignmentLoss _ | .berMeasurement _ _ | .retrain _ _ _ | .retrainComplete _ _ => true
  | .rdReq _ msg => Machine.rdFormed msg
  | .wrReq _ msg => Machine.wrFormed msg
  | .atReq _ msg => Machine.atFormed msg
  | .putReq _ msg => Machine.putForm msg Machine.opPut
  | .putRedReq _ msg => Machine.putRedFormed msg
  | .getReq _ msg => Machine.getFormed msg
  | .dataRsp _ msg => Machine.rspFormed msg Machine.opData
  | .ackRsp _ msg => Machine.rspFormed msg Machine.opAck
  | .nackRsp _ msg => Machine.rspFormed msg Machine.opNack
  | .reportReq _ _ _ _ | .reportMsg _ _ _ _ | .dutyMsg _ _ _ _ | .healthMsg _ _ _ _ | .rtSync _ _ | .rtSyncDone
  | .remoteTimeout _ _ | .powerOn | .softStartComplete | .inputStop _ | .inputBelow40v | .perstAssert | .perstDeassert
  | .fuseLoadComplete _ | .imageVerifyComplete | .stewardSelfTestComplete _ _ | .memoryTrainingComplete _ _ => true
  | .warmReset _ word => word.toNat % 8 == 1
  | .coldReset _ word => word.toNat % 8 == 2
  | .standby _ word => word.toNat % 8 == 3
  | .standbyResume _ word => word.toNat % 8 == 4
  | .hotReset | .warmResetComplete | .heartbeat | .journalEntry | .takeover _ | .primaryFatalFault
  | .formerPrimaryRestart _ | .edgeDie0Loss => true
  | .sensorSample sample => sampleFormed sample
  | .stewardUpdate | .fuseBurn _ _ | .recoverySessionTimeout | .stewardHeartbeatMiss _ | .entdaa _ | .setEndpointId _
  | .getEndpointId | .getMctpVersionSupport _ | .getMessageTypeSupport | .getTid | .setTid _ | .getPldmVersion _
  | .getPldmTypes | .getPldmCommands _ | .getPdr _ | .getSensorReading _ | .getStateSensorReadings _
  | .setStateEffecterStates _ _ | .pollForPlatformEventMessage | .pldmFirmwareUpdate _ | .getVersion _
  | .getCapabilities _ _ | .negotiateAlgorithms _ _ | .getDigests _ | .getCertificate _ _ _ _ | .challenge _ _ _
  | .getMeasurements _ _ _ | .vendorDefinedRequest _ _ _ _ | .repairStart _ | .repairEnd _ | .coreTest _ _
  | .coreHangDetect _ | .coreReplacement _ _ | .clusterRetire _ _ | .postPackageRepair _ _ _ | .homeDieLoss _
  | .d2dLinkRetrain _ _ _ => true
  | .debugAttach _ word => word.toNat % 16 == 1 && word.getLsbD 63
  | .debugDetach _ word => word.toNat % 16 == 2 && word.getLsbD 63
  | .debugHalt _ word => word.toNat % 16 == 3 && word.getLsbD 63
  | .debugResume _ word => word.toNat % 16 == 4 && word.getLsbD 63
  | .debugStep _ word => word.toNat % 16 == 5 && word.getLsbD 63
  | .debugDump _ word => word.toNat % 16 == 6 && word.getLsbD 63
  | .debugLoad _ word => word.toNat % 16 == 7 && word.getLsbD 63
  | .haltReport _ | .powerControllerTick | .currentClamp | .clampRelease | .thermalControllerTick _ | .thermalTrip _
  | .jtagBypass | .jtagIdcode | .jtagSamplePreload _ _ | .jtagExtest | .jtagExtestPulse | .jtagExtestTrain
  | .jtagClamp | .jtagHighz | .testPortReset => true
  | .outOfReachRead _ addr size => Machine.accessFormed addr size.val
  | .stewardTimer _ | .computeDieLoss _ _ | .edgeDieLoss _ | .managedPowerDownComplete | .standbyExitComplete => true

/-- Whether a command's operands are such as the spec gives it. -/
def Instr.wellFormed (c : Instr) : Bool :=
  c.wordFits && c.operandsFormed

end Sys2Proof
end

