-- ==== Sys2Proof/Safety.lean ====
section
/-! DEFINITION. The terms in which the statements speak of a run: completion, the issue of an instruction, the parts of the
state that a command leaves alone, and the arithmetic of the spec written apart from the machine. -/

namespace Sys2Proof.Machine

/-- A command completes in a state: it answers a next state, neither a fault nor a refusal. -/
def Completes (c : Instr) (s : State) : Prop := ∃ t, exec c s = .next t

/-- A step completes in a state. -/
def State.Steps (s : State) : Prop := ∃ t, step s = .next t

/-! ### Issue -/

/-- A group, and the state after the fetch of its next instruction of `len` bytes, where it may issue: it is resident and ready,
both ends of the instruction are fetched, no breakpoint register matches, and its CLASS and OP are assigned (R59, R73, R93, R105,
R510). -/
def State.fetched (s : State) (w : Who) (len : Nat) : Option (Grp × State) :=
  match s.grp w.group with
  | none => none
  | some grp =>
    if ¬ s.ready w.group grp then none
    else
      match s.fetchLine w.group grp grp.pc with
      | .ok a =>
        match a.fetchLine w.group grp (wrapPc (grp.pc + len - 1)) with
        | .ok t => if t.bpMatch grp || illegal w then none else some (grp, t)
        | _ => none
      | _ => none

/-- The lanes that an instruction of format R acts on (R94). -/
def State.lanesR (s : State) (w : Who) (grp : Grp) (f : Form) (i : FmtR) : Nat :=
  grp.active &&& (if f.noGuard then 0xFFFFFFFF else s.guardMask w.group i.pg i.pneg)

/-- An instruction of format R issues: its group may issue, its encoding is not reserved, none of its registers has a write
pending, it acts on a lane, and its vector fields name registers of the group. `t` is the state after the fetch. -/
def State.issuesR (s t : State) (w : Who) (grp : Grp) (f : Form) (i : FmtR) : Prop :=
  s.fetched w (lenOf i.w) = some (grp, t) ∧ f.reserved i = false ∧
    (t.pendingRefs w.group).any (fun r => (f.refs i).contains r) = false ∧ s.lanesR w grp f i ≠ 0 ∧
    vectorFault (t.vregCount w.group grp) (f.vectors i) = none

/-- A collective instruction of format R issues: so does one that takes no guard, and every lane that has not exited is
active (R139, R174). -/
def State.issuesAll (s t : State) (w : Who) (grp : Grp) (f : Form) (i : FmtR) : Prop :=
  s.issuesR t w grp { f with noGuard := true } i ∧ grp.active = grp.live

/-- A control instruction issues: its group may issue, its encoding is not reserved, and none of its registers has a write
pending. `long` is the W of its row, `cond` says whether PG and PNEG carry a condition, `low` whether its low bits are
well encoded. -/
def State.issuesC (s t : State) (w : Who) (grp : Grp) (i : FmtC) (long cond low : Bool) (refs : List RegRef) : Prop :=
  s.fetched w (lenOf i.w) = some (grp, t) ∧ i.w = long ∧ low = true ∧ (cond = true ∨ (i.pg = 0 ∧ i.pneg = false)) ∧
    (t.pendingRefs w.group).any (fun r => (refs ++ (if cond then [RegRef.p i.pg.val] else [])).contains r) = false ∧
    grp.active &&& 0xFFFFFFFF ≠ 0

/-- The state after an instruction of format R whose own effect leads to `t`. -/
def State.doneR (t : State) (w : Who) (i : FmtR) : Host.Outcome State Fault Refusal := .next (t.finish w.group (lenOf i.w))

/-! ### Words (R91, R92) -/

/-- The fields without an immediate that has no word of its own. -/
def plainFields (f : Fields) : Fields :=
  match f with
  | .r i => .r { i with imm := if i.w then i.imm else 0 }
  | .m i => .m i
  | .c i => .c { i with imm := if i.w then i.imm else 0 }

/-- Whether an instruction comes with no array error that its access meets. -/
def meetsNoError (c : Instr) : Bool :=
  match c with
  | .ldL _ _ e | .stL _ _ e | .ldG _ _ e | .stG _ _ e | .ldS _ _ e | .stS _ _ e => e == .none
  | _ => true

/-! ### Memory instructions -/

/-- A memory instruction issues: its group may issue it, its encoding is not reserved, none of its registers has a write
pending, it acts on a lane, and its vector fields name registers of the group (R92, R94, R96, R97, R107). -/
def State.issuesM (s t : State) (w : Who) (grp : Grp) (i : FmtM) (reserved : Bool) (vecs : List (Nat × Nat))
    (refs : List RegRef) : Prop :=
  s.fetched w (lenOf i.w) = some (grp, t) ∧ reserved = false ∧
    (t.pendingRefs w.group).any (fun r =>
      (memVecRefs vecs ++ refs ++ (if mAsrc i then [RegRef.s i.a.val] else []) ++ [RegRef.p i.pg.val]).contains r) = false ∧
    grp.active &&& s.guardMask w.group i.pg i.pneg ≠ 0 ∧ memVecFault (t.vregCount w.group grp) vecs = none

/-- The lanes that a memory instruction acts on (R94). -/
def State.lanesM (s : State) (w : Who) (grp : Grp) (i : FmtM) : Nat := grp.active &&& s.guardMask w.group i.pg i.pneg

/-- The state in which the checks of an instruction of a group look its addresses up: what these look-ups find of parity errors is
dropped from the TLBs first (R308). -/
def State.swept (t : State) (g : Nat) (grp : Grp) (addrs : List Nat) : State := t.tlbSweep (clusterOf (g / 32)) grp.ctx addrs

/-- The state in which an access that passed its checks acts: its look-ups are counted and refresh the TLBs (R306, R321). -/
def State.looked (t : State) (g : Nat) (grp : Grp) (addrs : List Nat) : State := (t.swept g grp addrs).useTlbs g grp addrs

/-- A memory instruction that issued has passed its checks: no acquire of its group is outstanding, the checks answer the
places `l` of its lanes, and nothing holds a remote access back (R110, R245, R357, R360). -/
def State.reaches (t : State) (g : Nat) (grp : Grp) (load : Bool) (addrs : List Nat) (checks : State → Checked)
    (l : List (Nat × Nat × Dst)) : Prop :=
  t.acquiring g = false ∧ checks (t.swept g grp addrs) = .ok l ∧ (t.swept g grp addrs).remoteHeld g load l = false ∧ l ≠ []

/-- An atomic of local memory may act: a release of its ORD is over, which leads to `t0` (R114, R123, R244). -/
def State.atomReady (t t0 : State) (g : Nat) (i : FmtM) : Prop :=
  if ordRel (mOrd i) then
    t.releaseFirst g i.scope.val = .done t0 ∧ t0.releaseDue (g / 32) (g % 32) (t0.cmp.accNo + 1) i.scope.val = true
  else t0 = t

/-- The state after a memory instruction whose own effect leads to `t`. -/
def State.doneM (t : State) (w : Who) (i : FmtM) : Host.Outcome State Fault Refusal := .next (t.finish w.group (lenOf i.w))

/-- The command of an atomic operation on local memory (`loc`) or on global memory. -/
def atomCommand (loc : Bool) (o : AtomOp) : Who → Bool → FmtM → Instr :=
  match loc, o with
  | false, .add => .atomAdd
  | false, .min => .atomMin
  | false, .max => .atomMax
  | false, .and => .atomAnd
  | false, .or => .atomOr
  | false, .xor => .atomXor
  | false, .swap => .atomSwap
  | false, _ => .atomCas
  | true, .add => .atomLAdd
  | true, .min => .atomLMin
  | true, .max => .atomLMax
  | true, .and => .atomLAnd
  | true, .or => .atomLOr
  | true, .xor => .atomLXor
  | true, .swap => .atomLSwap
  | true, _ => .atomLCas

/-! ### Matrix instructions -/

/-- A matrix instruction issues for its block `b`: its group may issue it with all lanes that have not exited active, its
encoding is not reserved, none of its registers has a write pending, and its vector registers are the group's (R139, R140).
`flag` says whether AUX[4] is used, `vecs` are the registers beside D and A. -/
def State.issuesMx (s t : State) (w : Who) (grp : Grp) (b : Blk) (f : Form) (i : FmtR) (flag : Bool)
    (vecs : List (Nat × Bool)) : Prop :=
  let f' : Form := { f with noGuard := true, auxs := 32 }
  s.fetched w (lenOf i.w) = some (grp, t) ∧ f'.reserved i = false ∧ (flag = true ∨ i.aux.val < 16) ∧
    (t.pendingRefs w.group).any (fun r => (f'.refs i ++ vecs.flatMap (fun v => vecRefs v.1 v.2)).contains r) = false ∧
    grp.active &&& 0xFFFFFFFF ≠ 0 ∧ vectorFault (t.vregCount w.group grp) (f'.vectors i ++ vecs) = none ∧
    t.blk (blockKey w.group grp) = some b ∧ grp.active = grp.live

/-- The queue of an engine has a free entry (R141). -/
def State.queueFree (s : State) (k : Nat) : Prop := ∀ e, s.eng k = some e → e.queue.length < 4

/-! ### Registers -/

/-- The registers whose write is a command of its own, or does more than its fields do. -/
def actionRegs : List Reg :=
  [.CORE_LM_POWER, .CORE_LM_ZERO, .CORE_LM_TEST, .CORE_LM_REPAIR, .QDC_FLUSH, .HOM_PC_MAPOUT, .HOM_HW_CTL, .XLT_IQ_BASE, .XLT_RESUME,
   .CNP_CMD, .EVC_PEND, .EVC_FR_KICK, .TAP_MBX_CMD, .TAP_MBX_DATA, .GRG_RT_SYNC, .TAP_RESET_CTL, .DBG_CMD, .TAP_PWR_LIMIT,
   .TB_SRC_COMMIT, .CNP_LAYOUT_COMMIT, .QDC_ALLOC_COMMIT, .HOM_RSV_COMMIT, .HOM_MAP_COMMIT, .HOM_HW_COMMIT, .CNP_QP_COMMIT,
   .CNP_BAR4_COMMIT, .GRG_WIN_COMMIT]

/-- Whether a write of a register is a write of its fields. -/
def Reg.plain (r : Reg) : Bool := !actionRegs.contains r

/-- A requester may write an instance of a register: within its reach, and where BAR0 decodes it (R8, R25). -/
def State.mayWrite (s : State) (who : Requester) (r : Reg) (i : Nat) : Prop :=
  reachOk r.spec.wr who = true ∧ s.regOpen who r i = true

/-! ### Integer arithmetic (R99) -/

/-- The command of a scalar integer operation. -/
def IntOp.scalar (o : IntOp) : Who → FmtR → Instr :=
  match o with
  | .add => .scalarAdd
  | .sub => .scalarSub
  | .mulLo => .scalarMulLo
  | .mulHi => .scalarMulHi
  | .min => .scalarMin
  | .max => .scalarMax
  | .and => .scalarAnd
  | .or => .scalarOr
  | .xor => .scalarXor
  | .not => .scalarNot
  | .shl => .scalarShl
  | .shr => .scalarShr
  | .sra => .scalarSra

/-- The command of a vector integer operation. -/
def IntOp.vector (o : IntOp) : Who → FmtR → Instr :=
  match o with
  | .add => .vectorAdd
  | .sub => .vectorSub
  | .mulLo => .vectorMulLo
  | .mulHi => .vectorMulHi
  | .min => .vectorMin
  | .max => .vectorMax
  | .and => .vectorAnd
  | .or => .vectorOr
  | .xor => .vectorXor
  | .not => .vectorNot
  | .shl => .vectorShl
  | .shr => .vectorShr
  | .sra => .vectorSra

/-- An integer operation on words of `n` bits (R99). -/
def IntOp.onWords (o : IntOp) (signed : Bool) (n : Nat) (a b : BitVec n) : BitVec n :=
  match o with
  | .add => a + b
  | .sub => a - b
  | .mulLo => a * b
  | .mulHi =>
    if signed then ((a.signExtend (2 * n) * b.signExtend (2 * n)) >>> n).setWidth n
    else ((a.setWidth (2 * n) * b.setWidth (2 * n)) >>> n).setWidth n
  | .min => if (if signed then b.slt a else b.ult a) then b else a
  | .max => if (if signed then a.slt b else a.ult b) then b else a
  | .and => a &&& b
  | .or => a ||| b
  | .xor => a ^^^ b
  | .not => ~~~a
  | .shl => a <<< (b.toNat % n)
  | .shr => a >>> (b.toNat % n)
  | .sra => a.sshiftRight (b.toNat % n)

/-- An integer operation of a TYPE on two operands, as a number. -/
def IntOp.value (o : IntOp) (type a b : Nat) : Nat :=
  (o.onWords (signedType type) (typeBits type) (BitVec.ofNat _ a) (BitVec.ofNat _ b)).toNat

/-- A condition of `cmp` on words of `n` bits: 0 eq, 1 ne, 2 lt, 3 le, 4 gt, 5 ge (R100). -/
def condOnWords (signed : Bool) (n cond : Nat) (a b : BitVec n) : Bool :=
  match cond with
  | 0 => a == b
  | 1 => a != b
  | 2 => if signed then a.slt b else a.ult b
  | 3 => if signed then a.sle b else a.ule b
  | 4 => if signed then b.slt a else b.ult a
  | _ => if signed then b.sle a else b.ule a

end Sys2Proof.Machine
end

