-- ==== Sys2Proof/Certificates/Slice0/Obligations.lean ====
section
/-! DEFINITION. The statements about the model for the provers. -/

open Sys2Proof Sys2Proof.Machine


/-! ### The machine as a whole -/

/-- A command at the front of the queue is carried out with the queue's rest. Where the spec leaves a point open, this is the reading or the choice of the model: log 5. -/
def Obligations.StepRunsFrontCommand : Prop :=
  ∀ (c : Instr) (rest : List Instr) (s : State),
    step { s with pending := c :: rest } = exec c { s with pending := rest }

/-! ### Instructions of the cores (04) -/

/-- The integer instructions of class 0x00 write the result of R99, modulo 2 to the width of TYPE, to sD, zero-extended. `sel`, `mov`, `cmp` of class 0x00 and the special registers. What the special registers read (R119). -/
def Obligations.ScalarResults : Prop :=
  (∀ (o : IntOp) (w : Who) (i : FmtR) (s t : State) (grp : Grp), s.issuesR t w grp (scalarForm o) i →
     exec (o.scalar w i) s =
       (t.setS w.group i.d.val (o.value i.type.val (t.sReg w.group i.a.val) (t.secondS w.group i i.type.val))).doneR w i) ∧
  (∀ (w : Who) (i : FmtR) (s t : State) (grp : Grp),
     let g := w.group
     (s.issuesR t w grp (selForm true) i →
       exec (.scalarSel w i) s =
         (t.setS g i.d.val
           (if t.pReg g i.c.val &&& s.lanesR w grp (selForm true) i ≠ 0 then t.sReg g i.a.val % 2 ^ typeBits i.type.val
            else t.secondS g i i.type.val)).doneR w i) ∧
     (s.issuesR t w grp (movForm true) i →
       exec (.scalarMov w i) s = (t.setS g i.d.val (t.secondS g i i.type.val)).doneR w i) ∧
     (s.issuesR t w grp { types := intTypes, d := .p, a := .s, sec := .scalar, mods := 6 } i →
       exec (.scalarCmp w i) s =
         (t.setP g i.d.val
           (if condOnWords (signedType i.type.val) (typeBits i.type.val) i.mod.val (BitVec.ofNat _ (t.sReg g i.a.val))
               (BitVec.ofNat _ (t.secondS g i i.type.val)) then 0xFFFFFFFF else 0)).doneR w i) ∧
     (s.issuesR t w grp { d := .s, sec := .literal } i → i.b ≠ 0 → specialNumbers.contains i.b.val →
       exec (.srRd w i) s = (t.setS g i.d.val (t.special g grp i.b.val)).doneR w i) ∧
     (s.issuesR t w grp { d := .v, sec := .literal } i → i.b = 0 →
       exec (.srRd w i) s =
         (t.setLanes32 g 0 i.d.val (s.lanesR w grp { d := .v, sec := .literal } i) (fun l => l)).doneR w i) ∧
     (s.issuesR t w grp { a := .s, sec := .literal } i → i.b = 0x18 →
       exec (.srWr w i) s = (t.updGrp g (fun x => { x with flags := t.sReg g i.a.val % 32 })).doneR w i)) ∧
  (∀ (s : State) (g : Nat) (grp : Grp) (b : Blk) (x : BClus), s.blk (blockKey g grp) = some b →
     SMap.find s.cmp.bclus b.bc = some x →
     s.special g grp 0x01 = grp.index ∧ s.special g grp 0x02 = x.number * x.size + b.rank ∧
     s.special g grp 0x03 = x.number ∧ s.special g grp 0x04 = b.rank ∧
     s.special g grp 0x05 = x.grid.1 ∧ s.special g grp 0x06 = x.grid.2.1 ∧ s.special g grp 0x07 = x.grid.2.2 ∧
     s.special g grp 0x08 = g / 32 ∧ s.special g grp 0x09 = grp.ctx ∧
     s.special g grp 0x10 = s.now ∧ s.special g grp 0x12 = s.now / 250000 ∧
     s.special g grp 0x14 = s.cycles ∧ s.special g grp 0x16 = grp.active ∧ s.special g grp 0x17 = grp.exited ∧
     s.special g grp 0x18 = grp.flags)

/-- The vector integer instructions of class 0x04 write each lane they act on. A predicate with the bits of `m` taken from `v`; a write to p0 is ignored (R54, R94). -/
def Obligations.VectorResults : Prop :=
  (∀ (w : Who) (i : FmtR) (s t : State) (grp : Grp),
     let g := w.group
     let ty := i.type.val
     (∀ o : IntOp, s.issuesR t w grp (vectorForm o) i →
       exec (o.vector w i) s =
         (t.setLanes32 g ty i.d.val (s.lanesR w grp (vectorForm o) i) (fun l =>
           o.value ty (t.vVal g ty i.a.val l) (t.secondV g i ty l))).doneR w i) ∧
     (s.issuesR t w grp (selForm false) i →
       exec (.vectorSel w i) s =
         (t.setLanes32 g ty i.d.val (s.lanesR w grp (selForm false) i) (fun l =>
           if (t.pReg g i.c.val).testBit l then t.vVal g ty i.a.val l else t.secondV g i ty l)).doneR w i) ∧
     (s.issuesR t w grp (movForm false) i →
       exec (.vectorMov w i) s =
         (t.setLanes32 g ty i.d.val (s.lanesR w grp (movForm false) i) (fun l => t.secondV g i ty l)).doneR w i) ∧
     (s.issuesR t w grp { types := [0, 1], d := .v, a := .v, sec := .vector, c := .v } i →
       exec (.vectorMadLo w i) s =
         (t.setLanes32 g 0 i.d.val (s.lanesR w grp { types := [0, 1], d := .v, a := .v, sec := .vector, c := .v } i) (fun l =>
           (t.vReg g i.a.val l * t.secondV g i 0 l + t.vReg g i.c.val l) % 2 ^ 32)).doneR w i)) ∧
  (∀ (w : Who) (i : FmtR) (s t : State) (grp : Grp),
     let g := w.group
     let one : Form := { d := .p, a := .p }
     let two : Form := { d := .p, a := .p, sec := .pred }
     let cmp : Form := { types := [0, 1, 2, 3, 4, 5, 6, 7, 8], d := .p, a := .v, sec := .vector, mods := 6 }
     let put := fun (m v : Nat) => t.setP g i.d.val ((t.pReg g i.d.val &&& (m ^^^ 0xFFFFFFFF)) ||| (v &&& m))
     (s.issuesR t w grp two i →
       exec (.pand w i) s = (put (s.lanesR w grp two i) (t.pReg g i.a.val &&& t.pReg g i.b.val)).doneR w i ∧
       exec (.por w i) s = (put (s.lanesR w grp two i) (t.pReg g i.a.val ||| t.pReg g i.b.val)).doneR w i ∧
       exec (.pxor w i) s = (put (s.lanesR w grp two i) (t.pReg g i.a.val ^^^ t.pReg g i.b.val)).doneR w i) ∧
     (s.issuesR t w grp one i →
       exec (.pnot w i) s = (put (s.lanesR w grp one i) (t.pReg g i.a.val ^^^ 0xFFFFFFFF)).doneR w i) ∧
     (s.issuesR t w grp cmp i →
       exec (.vectorCmp w i) s =
         (put (s.lanesR w grp cmp i) (laneMask (s.lanesR w grp cmp i) (fun l =>
           cmpElem i.type.val i.mod.val (t.vVal g i.type.val i.a.val l) (t.secondV g i i.type.val l)))).doneR w i))

/-- `vote.any`, `vote.all`, `vote.ballot`, `mov.sv` and `mov.vs` (R104), and `shfl` (R103): an instruction that acts on no lane writes
nothing. -/
def Obligations.LaneExchangeResults : Prop :=
  ∀ (w : Who) (i : FmtR) (s t : State) (grp : Grp),
    let g := w.group
    let shf : Form := { types := [7], d := .v, a := .v, sec := .vector, mods := 4 }
    let vote : Form := { d := .p, a := .p }
    let ballot : Form := { d := .s, a := .p }
    let toScalar : Form := { d := .s, a := .v, sec := .lane }
    let toVector : Form := { d := .v, a := .s }
    let b := fun (l : Nat) => t.secondV g i 7 l
    (s.issuesR t w grp shf i →
      exec (.shfl w i) s =
        (t.setLanes32 g 7 i.d.val (s.lanesR w grp shf i) (fun l =>
          let src : Int := match i.mod.val with
            | 0 => ((b l % 32 : Nat) : Int)
            | 1 => (l : Int) - b l
            | 2 => (l : Int) + b l
            | _ => ((l ^^^ b l : Nat) : Int)
          if 0 ≤ src ∧ src ≤ 31 ∧ (s.lanesR w grp shf i).testBit src.toNat then t.vReg g i.a.val src.toNat
          else t.vReg g i.a.val l)).doneR w i) ∧
    (s.issuesR t w grp vote i →
      let m := s.lanesR w grp vote i
      exec (.voteAny w i) s = (t.setP g i.d.val (if t.pReg g i.a.val &&& m ≠ 0 then 0xFFFFFFFF else 0)).doneR w i ∧
      exec (.voteAll w i) s = (t.setP g i.d.val (if t.pReg g i.a.val &&& m = m then 0xFFFFFFFF else 0)).doneR w i) ∧
    (s.issuesR t w grp ballot i →
      exec (.voteBallot w i) s = (t.setS g i.d.val (t.pReg g i.a.val &&& s.lanesR w grp ballot i)).doneR w i) ∧
    (s.issuesR t w grp toScalar i →
      exec (.movSv w i) s = (t.setS g i.d.val (t.vReg g i.a.val (t.secondS g i 0 % 32))).doneR w i) ∧
    (s.issuesR t w grp toVector i →
      exec (.movVs w i) s =
        (t.setLanes32 g 0 i.d.val (s.lanesR w grp toVector i) (fun _ => t.sReg g i.a.val % 2 ^ 32)).doneR w i) ∧
    (∀ (c : Instr) (f : Form),
      (c, f) ∈ [(Instr.voteAny w i, vote), (.voteAll w i, vote), (.voteBallot w i, ballot), (.movSv w i, toScalar),
        (.movVs w i, toVector)] →
      s.fetched w (lenOf i.w) = some (grp, t) → f.reserved i = false →
      (t.pendingRefs g).any (fun r => (f.refs i).contains r) = false → s.lanesR w grp f i = 0 →
      exec c s = .next (t.finish g (lenOf i.w)))

/-- The floating-point instructions of class 0x05 and the special functions of class 0x06: each lane it acts on receives its
result, and the sticky flags of those lanes are added to FPFLAGS (R101, R102). `op` 0 to 3 are `add`, `sub`, `mul` and `fma`. `cvt` and the collective conversions (R171 to R176). Where the spec leaves a point open, this is the reading or the choice of the model: log 2. -/
def Obligations.FloatResults : Prop :=
  (∀ (w : Who) (i : FmtR) (s t : State) (grp : Grp),
     let g := w.group
     let ty := i.type.val
     let form := fun (binary ternary : Bool) (mods : Nat) =>
       ({ types := [4, 5, 6], d := .v, a := .v, sec := if binary then .vector else .none, c := if ternary then .v else .no,
          mods := mods } : Form)
     let a := fun (l : Nat) => t.vReg g i.a.val l
     let b := fun (l : Nat) => t.secondV g i ty l
     let c := fun (l : Nat) => t.vReg g i.c.val l
     let lanes := fun (f : Form) (r : Nat → Nat × Nat) =>
       let m := s.lanesR w grp f i
       ((t.setLanes32 g ty i.d.val m (fun l => (r l).1)).sticky g
         ((List.range 32).foldl (fun n l => if bit m l then n ||| (r l).2 else n) 0)).doneR w i
     let arith := fun (op : Nat) (third : Nat → Nat) (l : Nat) =>
       floatElem (fun f x y z => f.arith op i.mod.val x y z) ty (a l) (b l) (third l)
     (s.issuesR t w grp (form true false 4) i →
       exec (.floatAdd w i) s = lanes (form true false 4) (arith 0 (fun _ => 0)) ∧
       exec (.floatSub w i) s = lanes (form true false 4) (arith 1 (fun _ => 0)) ∧
       exec (.floatMul w i) s = lanes (form true false 4) (arith 2 (fun _ => 0))) ∧
     (s.issuesR t w grp (form true true 4) i →
       exec (.floatFma w i) s = lanes (form true true 4) (arith 3 c)) ∧
     (s.issuesR t w grp (form true false 1) i →
       exec (.floatMin w i) s = lanes (form true false 1) (fun l =>
         floatElem (fun f x y _ => (f.minMax false x y, 0)) ty (a l) (b l) 0) ∧
       exec (.floatMax w i) s = lanes (form true false 1) (fun l =>
         floatElem (fun f x y _ => (f.minMax true x y, 0)) ty (a l) (b l) 0)) ∧
     (s.issuesR t w grp (form false false 1) i →
       exec (.floatAbs w i) s = lanes (form false false 1) (fun l =>
         (if ty = 4 then a l &&& 0x7FFFFFFF else a l &&& 0x7FFF7FFF, 0)) ∧
       exec (.floatNeg w i) s = lanes (form false false 1) (fun l =>
         (if ty = 4 then a l ^^^ 0x80000000 else a l ^^^ 0x80008000, 0))) ∧
     (s.issuesR t w grp { types := [4], d := .v, a := .v } i →
       let special := fun (fn : Nat) => lanes { types := [4], d := .v, a := .v } (fun l => (specialElem fn (a l), specialFlags fn (a l)))
       exec (.rcp w i) s = special 0 ∧ exec (.rsqrt w i) s = special 1 ∧ exec (.exp2 w i) s = special 2 ∧
       exec (.log2 w i) s = special 3 ∧ exec (.sin w i) s = special 4 ∧ exec (.cos w i) s = special 5)) ∧
  (∀ (w : Who) (i : FmtR) (s t : State) (grp : Grp),
     let g := w.group
     let a := fun (l : Nat) => t.vReg g i.a.val l
     let n := i.b.val
     let cvt : Form := { d := .v, a := .v, mods := 4, auxs := 32 }
     let wide : Form := { d := .v, a := .v, sec := .imm8 }
     let all := fun (f : Nat → Nat) => t.setLanes32 g 0 i.d.val 0xFFFFFFFF f
     (∀ dst : Fin 16, s.issuesR t w grp cvt i → cvtPair dst.val (i.aux.val % 16) →
       let m := s.lanesR w grp cvt i
       let r := fun (l : Nat) => cvtElem dst.val (i.aux.val % 16) i.mod.val (decide (16 ≤ i.aux.val)) (a l)
       exec (.cvt w dst i) s =
         ((t.setLanes32 g 0 i.d.val m (fun l => (r l).1)).sticky g
           ((List.range 32).foldl (fun n l => if bit m l then n ||| (r l).2 else n) 0)).doneR w i) ∧
     (s.issuesAll t w grp wide i → n ∈ [1, 2, 4, 6, 8, 16] →
       exec (.pack w i) s =
         (t.setVImage g i.d.val ((List.range 32).foldl (fun v l => v + a l % 2 ^ n * 2 ^ (n * l)) 0)).doneR w i ∧
       exec (.unpack w i) s = (all (fun l => t.vImage g i.a.val n / 2 ^ (n * l) % 2 ^ n)).doneR w i) ∧
     (s.issuesAll t w grp { d := .v, a := .v, sec := .imm8, mods := 4, auxs := 2 } i → 1 ≤ n → n ≤ 8 →
       let r := grainEncode n (i.aux == 1) i.mod.val ((List.range 32).map (fun l => fp32.decode (a l)))
       exec (.grainEnc w i) s = ((t.setVImage g i.d.val r.1).sticky g r.2).doneR w i) ∧
     (s.issuesAll t w grp { d := .v, a := .v, mods := 4 } i →
       let r := fun (k : Nat) => fp32.ofNum i.mod.val (grainWeight (t.vImage g i.a.val 17) k)
       exec (.grainDec w i) s =
         ((all (fun k => (r k).1)).sticky g ((List.range 32).foldl (fun n k => n ||| (r k).2) 0)).doneR w i) ∧
     (s.issuesAll t w grp { d := .s, a := .v, sec := .imm8 } i → ∀ em, mxEmax n = some em →
       let l := (List.range 32).map (fun k => fp32.decode (a k))
       let big := maxMagnitude l
       (l.any Num.special → exec (.mxscale w i) s = ((t.setS g i.d.val 0xFF).sticky g 1).doneR w i) ∧
       (l.any Num.special = false → big.1 = 0 → exec (.mxscale w i) s = (t.setS g i.d.val 0).doneR w i) ∧
       (l.any Num.special = false → big.1 ≠ 0 →
         exec (.mxscale w i) s =
           (t.setS g i.d.val (max (-127) (min 127 (big.2 + (Nat.log2 big.1 : Int) - em)) + 127).toNat).doneR w i)))

/-- The encoding of a finite number m × 2^e, with its sign, in a format of R101 under a rounding mode: where it does not
overflow, what it decodes to is a number of the same sign that differs from m × 2^e by at most half a unit in the last place
(mode 0), or lies on the side the mode names and less than one unit away; inexact says that it differs. NaN and signed zeros of `min` and `max`, and the special cases of R102's table. Zeros are 0 and the sign bit, infinities
and NaN the patterns of binary32. Where the spec leaves a point open, this is the reading or the choice of the model: log 2. -/
def Obligations.RoundingAndSpecialCases : Prop :=
  (∀ (f : FloatFmt) (mode : Nat) (neg : Bool) (m : Nat) (e : Int), f ∈ [fp32, fp16, bf16] → mode < 4 →
     let r := f.encode mode neg m e
     (r.2 &&& 4 = 0 →
       ∃ (M : Nat) (E : Int), f.decode r.1 = .fin neg M E ∧
         (let k := min e E
          let exact : Int := (m * 2 ^ (e - k).toNat : Nat)
          let got : Int := (M * 2 ^ (E - k).toNat : Nat)
          let unit : Int := (2 ^ (E - k).toNat : Nat)
          (mode = 0 → 2 * (got - exact).natAbs ≤ unit) ∧
          (mode = 1 ∨ (mode = 2 ∧ neg = false) ∨ (mode = 3 ∧ neg = true) → got ≤ exact ∧ exact < got + unit) ∧
          ((mode = 2 ∧ neg = true) ∨ (mode = 3 ∧ neg = false) → exact ≤ got ∧ got < exact + unit) ∧
          (r.2 &&& 16 = 0 ↔ got = exact)))) ∧
  ((∀ f ∈ [fp32, fp16, bf16], ∀ (max : Bool) (a b : Nat),
     (f.decode a = .nan → f.decode b ≠ .nan → f.minMax max a b = b) ∧
     (f.decode a ≠ .nan → f.decode b = .nan → f.minMax max a b = a) ∧
     (f.decode a = .nan → f.decode b = .nan → f.minMax max a b = f.canonNan)) ∧
   (∀ f ∈ [fp32, fp16, bf16],
     f.minMax false 0 f.signBit = f.signBit ∧ f.minMax false f.signBit 0 = f.signBit ∧
     f.minMax true 0 f.signBit = 0 ∧ f.minMax true f.signBit 0 = 0) ∧
   (∀ (op mode : Nat) (a b c : Nat), ∀ f ∈ [fp32, fp16, bf16],
     f.decode a = .nan ∨ f.decode b = .nan → (f.arith op mode a b c).1 = f.canonNan) ∧
   (∀ fn < 6, ∀ x, fp32.decode x = .nan → specialElem fn x = 0x7FC00000) ∧
   (specialElem 0 0 = 0x7F800000 ∧ specialElem 0 0x80000000 = 0xFF800000 ∧ specialElem 0 0x7F800000 = 0 ∧
     specialElem 0 0xFF800000 = 0x80000000) ∧
   (specialElem 1 0 = 0x7F800000 ∧ specialElem 1 0x80000000 = 0xFF800000 ∧ specialElem 1 0x7F800000 = 0 ∧
     specialElem 1 0xFF800000 = 0x7FC00000) ∧
   (specialElem 2 0 = 0x3F800000 ∧ specialElem 2 0x80000000 = 0x3F800000 ∧ specialElem 2 0x7F800000 = 0x7F800000 ∧
     specialElem 2 0xFF800000 = 0) ∧
   (specialElem 3 0 = 0xFF800000 ∧ specialElem 3 0x80000000 = 0xFF800000 ∧ specialElem 3 0x7F800000 = 0x7F800000 ∧
     specialElem 3 0xFF800000 = 0x7FC00000) ∧
   (specialElem 4 0 = 0 ∧ specialElem 4 0x80000000 = 0x80000000 ∧ specialElem 4 0x7F800000 = 0x7FC00000 ∧
     specialElem 4 0xFF800000 = 0x7FC00000) ∧
   (specialElem 5 0 = 0x3F800000 ∧ specialElem 5 0x80000000 = 0x3F800000 ∧ specialElem 5 0x7F800000 = 0x7FC00000 ∧
     specialElem 5 0xFF800000 = 0x7FC00000) ∧
   (∀ x, (∃ m e, fp32.decode x = .fin true m e ∧ m ≠ 0) → specialElem 1 x = 0x7FC00000 ∧ specialElem 3 x = 0x7FC00000))

/-- The reconvergence instructions of class 0x10 as R62 and R64 to R68 give them: `bra` is uniform and raises divergent-branch where its
predicate differs between active lanes; `bra.div` pushes JOIN, and PENDING where it splits; `join` discards PENDING entries without
lanes and then takes the top, or raises reconvergence-mismatch; `loop.enter` pushes LOOP; `brk` takes lanes out of the active mask and
of the entries above the innermost LOOP, or raises reconvergence-mismatch; where `brk` or `exit` leaves no lane the group unwinds. A push
beyond 32 entries raises reconvergence-overflow. -/
def Obligations.ReconvergenceResults : Prop :=
  ∀ (w : Who) (i : FmtC) (s t : State) (grp : Grp),
    let g := w.group
    let low32 := decide (i.low.toNat < 2 ^ 32)
    let raises := fun (code : Nat) => Host.Outcome.next (φ := Fault) (ρ := Refusal) (t.raise g code grp.active noAddr)
    let becomes := fun (y : Grp) => Host.Outcome.next (φ := Fault) (ρ := Refusal) ((t.updGrp g (fun _ => y)).issued g)
    let p := t.guardMask g i.pg i.pneg
    let next := (grp.pc + 8) % 2 ^ 57
    let target := relTarget grp.pc (cOff i)
    let goOn := fun (y : Grp) => becomes (if y.active = 0 then unwindStack y.exited y y.stack.reverse else { y with pc := next })
    (s.issuesC t w grp i false true low32 [] →
      (p &&& grp.active ≠ 0 → p &&& grp.active ≠ grp.active → exec (.bra w i) s = raises 0x10) ∧
      (badTarget target = false → p &&& grp.active = 0 → exec (.bra w i) s = .next (t.finish g 8)) ∧
      (badTarget target = false → p &&& grp.active = grp.active → p &&& grp.active ≠ 0 →
        exec (.bra w i) s = .next ((t.goto g target).issued g))) ∧
    (s.issuesC t w grp i true true low32 [] →
      let meet := relTarget grp.pc (sgn 32 i.imm.toNat)
      let fall := (grp.pc + 16) % 2 ^ 57
      let yes := grp.active &&& p
      let no := grp.active &&& (p ^^^ 0xFFFFFFFF)
      let joined := grp.stack ++ [⟨.join, meet, grp.active⟩]
      (32 < grp.stack.length + (if yes ≠ 0 ∧ no ≠ 0 then 2 else 1) → exec (.braDiv w i) s = raises 0x11) ∧
      (badTarget target = false → badTarget meet = false →
        (yes ≠ 0 → no ≠ 0 → grp.stack.length ≤ 30 →
          exec (.braDiv w i) s =
            .next ((t.updGrp g (fun x =>
              { x with stack := joined ++ [⟨.pending, fall, no⟩], active := yes, pc := target })).issued g)) ∧
        (no = 0 → grp.stack.length ≤ 31 →
          exec (.braDiv w i) s = .next ((t.updGrp g (fun x => { x with stack := joined, pc := target })).issued g)) ∧
        (yes = 0 → no ≠ 0 → grp.stack.length ≤ 31 →
          exec (.braDiv w i) s = .next ((t.updGrp g (fun x => { x with stack := joined, pc := fall })).issued g)))) ∧
    (s.issuesC t w grp i false false (i.low == 0) [] →
      let empty := fun (e : StackEntry) => e.kind = .pending ∧ e.mask = 0
      ((∀ e ∈ grp.stack, empty e) → exec (.join w i) s = raises 0x12) ∧
      (∀ top rest gone, grp.stack = rest ++ [top] ++ gone → (∀ e ∈ gone, empty e) →
        (top.kind = .pending → top.mask ≠ 0 →
          exec (.join w i) s =
            .next ((t.updGrp g (fun x => { x with active := top.mask, pc := top.addr, stack := rest })).issued g)) ∧
        (top.kind = .join → top.addr = grp.pc →
          exec (.join w i) s =
            .next ((t.updGrp g (fun x => { x with active := top.mask, pc := next, stack := rest })).issued g)) ∧
        (top.kind = .loop ∨ (top.kind = .join ∧ top.addr ≠ grp.pc) → exec (.join w i) s = raises 0x12))) ∧
    (s.issuesC t w grp i false false low32 [] →
      (32 ≤ grp.stack.length → exec (.loopEnter w i) s = raises 0x11) ∧
      (grp.stack.length ≤ 31 → badTarget target = false →
        exec (.loopEnter w i) s =
          .next ((t.updGrp g (fun x => { x with stack := x.stack ++ [⟨.loop, target, x.active⟩] })).finish g 8))) ∧
    (s.issuesC t w grp i false true (i.low == 0) [] →
      let out := grp.active &&& p
      let without := fun (e : StackEntry) => { e with mask := e.mask &&& (out ^^^ 0xFFFFFFFF) }
      ((∀ e ∈ grp.stack, e.kind ≠ .loop) → exec (.brk w i) s = raises 0x12) ∧
      (∀ above l below, grp.stack = below ++ [l] ++ above → l.kind = .loop → (∀ e ∈ above, e.kind ≠ .loop) →
        exec (.brk w i) s =
          goOn { grp with
            stack := below ++ [l] ++ above.map without
            active := grp.active &&& (out ^^^ 0xFFFFFFFF) }) ∧
      exec (.exit w i) s =
        goOn { grp with
          exited := grp.exited ||| out
          active := grp.active &&& (out ^^^ 0xFFFFFFFF)
          stack := grp.stack.map without }) ∧
    (∀ (y : Grp) (exited : Nat),
      (unwindStack exited y []).complete = true ∧ (unwindStack exited y []).active = 0 ∧
      (∀ (e : StackEntry) (r : List StackEntry), e.mask &&& (exited ^^^ 0xFFFFFFFF) = 0 →
        unwindStack exited y (e :: r) = unwindStack exited y r) ∧
      (∀ (e : StackEntry) (r : List StackEntry), e.mask &&& (exited ^^^ 0xFFFFFFFF) ≠ 0 →
        unwindStack exited y (e :: r) =
          { y with
            active := e.mask &&& (exited ^^^ 0xFFFFFFFF)
            stack := r.reverse
            pc := if e.kind = .join then (e.addr + 8) % 2 ^ 57 else e.addr }))

/-- `bra.ind`, `call` and `ret` move the whole group to their target, and `call` writes the address after it to sD (R105, R106); a
target that is not a multiple of 8 or lies outside the 57-bit addresses raises misaligned-access. Where the spec leaves a point open, this is the reading or the choice of the model: log 24. -/
def Obligations.JumpResults : Prop :=
  ∀ (w : Who) (i : FmtC) (s t : State) (grp : Grp),
    let g := w.group
    let aOnly := decide (i.low.toNat = cA i * 2 ^ 23) && decide (cA i < 64)
    (s.issuesC t w grp i false false aOnly [.s (cA i)] →
      let target := t.sReg g (cA i)
      (badTarget target = false →
        exec (.braInd w i) s = .next ((t.goto g target).issued g) ∧ exec (.ret w i) s = .next ((t.goto g target).issued g)) ∧
      (badTarget target = true →
        exec (.braInd w i) s = .next (t.raise g 0x20 grp.active noAddr) ∧ exec (.ret w i) s = .next (t.raise g 0x20 grp.active noAddr))) ∧
    (s.issuesC t w grp i false false (decide (i.low.toNat < 2 ^ 39) && cA i == 0 && decide (cD i < 64)) [.s (cD i)] →
      let target := relTarget grp.pc (cOff23 i)
      (badTarget target = false →
        exec (.call w i) s = .next (((t.setS g (cD i) ((grp.pc + 8) % 2 ^ 64)).goto g target).issued g)) ∧
      (badTarget target = true → exec (.call w i) s = .next (t.raise g 0x20 grp.active noAddr)))

/-- Loads, stores and atomics of local memory (R107, R181, R185 to R188, R245), on the state in which the errors of the granules that they
read are found: those of the lanes' granules, for a store those it writes in part. Where the granules are sound, a load takes their
bytes, a store writes the lanes' bytes in ascending lane order, and an atomic is performed in ascending lane order, a scalar one once. An
access that an outstanding acquire or an atomic on its bytes holds back waits. The bytes that a local store writes: each location holds what the last listed lane that covers it stores, and every other byte of
every local memory is unchanged; no other part of the machine but local memory and its poison changes. Where the spec leaves a point open, this is the reading or the choice of the model: log 38. -/
def Obligations.LocalMemoryResults : Prop :=
  (∀ (w : Who) (i : FmtM) (s t : State) (grp : Grp) (l : List (Nat × Nat)),
     let g := w.group
     let n := 2 ^ i.size.val
     let m := s.lanesM w grp i
     (s.issuesM t w grp i (({ pair := false } : MForm).reserved i) (memVecs n false false i) [] →
       (t.localLanes g grp i (mOffset i) n m true false = .ok l →
         let u := t.lmFind (l.map (·.2))
         (t.localHeld g l n = false → (∀ x ∈ l, u.lmPoisoned x.2 = false) →
           exec (.ldL w i .none) s =
             (l.foldl (fun (v : State) x => v.putLoaded g ⟨x.1, 0, n, false, i.d.val⟩ (u.lmGet x.2 n)) u).doneM w i) ∧
         (t.localHeld g l n = true → exec (.ldL w i .none) s = .next (t.hold g 3))) ∧
       (t.localLanes g grp i (mOffset i) n m false true = .ok l →
         let part := lmPartial (l.map (fun x => (x.2, n)))
         let u := t.lmFind part
         (t.localHeld g l n = false → (∀ a ∈ part, u.lmPoisoned a = false) →
           exec (.stL w i .none) s = (u.lmWrite (l.map (fun x => (x.2, t.storeBytes g i.d.val x.1 n)))).doneM w i) ∧
         (t.localHeld g l n = true → exec (.stL w i .none) s = .next (t.hold g 3)))) ∧
     (∀ (o : AtomOp) (scalar : Bool) (t0 : State), o ≠ .loadRsv → o ≠ .storeCond →
       s.issuesM t w grp i (atomReserved o scalar i) (atomVecs o scalar false i) (atomRefs o scalar i) →
       let k := typeBytes i.size.val
       t.localLanes g grp i 0 k m true true = .ok l → t.localHeld g l k = false → t.atomReady t0 g i →
       let acts := if scalar then l.take 1 else l
       let v := t0.lmFind (acts.map (·.2))
       (∀ x ∈ acts, v.lmPoisoned x.2 = false) →
       let u := acts.foldl (fun (u : State) x =>
         (u.lmPut x.2 (toBytes (atomElem o i.size.val (u.lmGet x.2 k) (t.atomOperand g scalar i.size.val (mB i) x.1)
           (t.atomOperand g scalar i.size.val (mC i) x.1)) k)).putLoaded g ⟨x.1, 0, k, scalar, i.d.val⟩ (u.lmGet x.2 k)) v
       exec (atomCommand true o w scalar i) s =
         (if ordAcq (mOrd i) ∧ 2 ≤ i.scope.val then (u.acquireSide (g / 32)).pump else u).doneM w i)) ∧
  (∀ (s : State) (l : List (Nat × List Byte)) (a : Nat),
     let t := s.lmWrite l
     ((∀ x ∈ l, a < x.1 ∨ x.1 + x.2.length ≤ a) → t.lmByte a = s.lmByte a) ∧
     (∀ before x after k, l = before ++ [x] ++ after → a = x.1 + k → (hk : k < x.2.length) →
       (∀ y ∈ after, a < y.1 ∨ y.1 + y.2.length ≤ a) → t.lmByte a = x.2[k]) ∧
     { t with cmp := { t.cmp with lm := s.cmp.lm, lmPoison := s.cmp.lmPoison } } = s)

/-- Vector loads and stores of global memory whose lanes all translate: every line that the lanes address is read from the L1 or
becomes one access, which then makes its way (R107, R196, R245). Scalar loads and stores, reserved loads, conditional stores, and atomics of global memory (R107, R112 to R114, R197 to R202,
R263). Where the spec leaves a point open, this is the reading or the choice of the model: log 28, 31 and 35. -/
def Obligations.GlobalAccessResults : Prop :=
  (∀ (w : Who) (i : FmtM) (s t : State) (grp : Grp) (l : List (Nat × Nat × Dst)),
     let g := w.group
     let n := 2 ^ i.size.val
     let m := s.lanesM w grp i
     let hint : MForm := { hint := true }
     let scope : MForm := { scope := true }
     let read := fun (t : State) => t.globalLanes g grp i (mOffset i) n m .read true false
     let write := fun (t : State) => t.globalLanes g grp i (mOffset i) n m .write false true
     let phys := fun (t : State) => t.physicalLanes g i (mOffset i) n m
     let addrs := t.laneAddrs g i (mOffset i) m
     let u := t.looked g grp addrs
     (s.issuesM t w grp i (hint.reserved i) (memVecs n true false i) [] →
       (t.reaches g grp true addrs read l →
         exec (.ldG w i .none) s = (u.vectorLoad g grp i.d.val n { hint := mHint i } l).doneM w i) ∧
       (t.reaches g grp false addrs write l →
         exec (.stG w i .none) s = (u.vectorStore g grp i.d.val n { hint := mHint i } l).doneM w i)) ∧
     (s.issuesM t w grp i (scope.reserved i) (memVecs n true false i) [] →
       (t.reaches g grp true addrs read l →
         exec (.ldAcq w i) s = (u.vectorLoad g grp i.d.val n { acq := some i.scope.val } l).doneM w i) ∧
       (∀ v, t.reaches g grp false addrs write l → u.releaseFirst g i.scope.val = .done v →
         exec (.stRel w i) s = (v.vectorStore g grp i.d.val n { rel := some i.scope.val } l).doneM w i)) ∧
     (s.issuesM t w grp i (({} : MForm).reserved i) (memVecs n true false i) [] → t.serviceLevel grp →
       let v := t.looked g grp []
       (t.reaches g grp true [] phys l → exec (.ldP w i) s = (v.vectorLoad g grp i.d.val n {} l).doneM w i) ∧
       (t.reaches g grp false [] phys l → exec (.stP w i) s = (v.vectorStore g grp i.d.val n {} l).doneM w i))) ∧
  (∀ (w : Who) (i : FmtM) (s t : State) (grp : Grp) (lane va : Nat) (d : Dst) (rest : List (Nat × Nat × Dst)),
     let g := w.group
     let c := g / 32
     let n := 2 ^ i.size.val
     let m := s.lanesM w grp i
     let l := (lane, va, d) :: rest
     let addrs := t.laneAddrs g i (mOffset i) m
     let u := t.looked g grp addrs
     let sound := (t.swept g grp addrs).struck .scalar (ncKey c va) = false
     let r : LaneRead := ⟨lane, va % 128, n, true, i.d.val⟩
     let acc := fun (v : State) (k : AccKind) => mkAcc v g grp (v.cmp.accNo + 1) k va d m
     let mask := maskOf (va % 128) n
     let data := lineSet 0 (va % 128) n (u.sReg g i.d.val % 2 ^ (8 * n))
     let read := fun (t : State) => t.globalLanes g grp i (mOffset i) n m .read true false
     let write := fun (t : State) => t.globalLanes g grp i (mOffset i) n m .write false true
     (s.issuesM t w grp i (({ high := 3, scalar := true } : MForm).reserved i) (memVecs n true true i) [.s i.d.val] →
       (t.reaches g grp true addrs read l → sound → d.target = 0 → d.attr ≠ 3 → u.scFilling c va = false →
         (∀ v x lost, u.scHit c va = some (v, x, lost) →
           let e := ((v.scPut c va x).1.putLoaded g r (lineGet x.data (va % 128) n)).pump
           exec (.ldS w i .none) s = if lost then .next ((e.scFault g grp.pc m va).issued g) else e.doneM w i) ∧
         (u.scHit c va = none →
           let e := ((u.scRoom c).1.addAcc { acc u .load with reads := [r], fill := .scalar }).pump
           exec (.ldS w i .none) s =
             if (u.scRoom c).2 then .next ((e.scFault g grp.pc m va).issued g) else e.doneM w i)) ∧
       (t.reaches g grp true addrs read l → sound → d.target ≠ 0 ∨ d.attr = 3 →
         exec (.ldS w i .none) s =
           ((u.addAcc { acc u .load with reads := [r], mask := if d.target = 0 then 0 else mask }).pump).doneM w i) ∧
       (t.reaches g grp false addrs write l → sound → d.target ≠ 0 →
         exec (.stS w i .none) s = ((u.addAcc { acc u .store with mask := mask, data := data }).pump).doneM w i) ∧
       (t.reaches g grp true addrs read l → sound → d.target = 0 → d.attr ≠ 3 → u.scFilling c va = true →
         exec (.ldS w i .none) s = .next (u.hold g 3)) ∧
       (t.reaches g grp false addrs write l → sound → d.target = 0 →
         let v := (u.l1Drop c (fun v => v == va / 128)).dropFills c (fun v => v == va / 128) (fun x => x == .side)
         (d.attr = 3 → exec (.stS w i .none) s = ((v.addAcc { acc u .store with mask := mask, data := data }).pump).doneM w i) ∧
         (d.attr = 1 ∨ d.attr = 2 → v.scFilling c va = false → v.scHit c va = none →
           exec (.stS w i .none) s = ((v.addAcc { acc u .store with mask := mask, data := data }).pump).doneM w i) ∧
         (d.attr = 0 → v.scFilling c va = false →
           (∀ v1 x, v.scHit c va = some (v1, x, false) →
             let e := (v1.scPut c va { x with data := lineMerge x.data data mask, dirty := x.dirty ||| mask })
             exec (.stS w i .none) s = e.1.pump.doneM w i) ∧
           (v.scHit c va = none → (v.scRoom c).2 = false →
             exec (.stS w i .none) s =
               (((v.scRoom c).1.addAcc { acc u .load with mask := mask, data := data, fill := .scalar }).pump).doneM w i)))) ∧
     (s.issuesM t w grp i (({ low := 2, high := 3, scalar := true } : MForm).reserved i) (memVecs n true true i) [.s i.d.val] →
       t.reaches g grp true addrs (fun t => t.globalLanes g grp i (mOffset i) n m .loadRsv true true) l →
       let v := u.atomTouch c va
       exec (.ldRsv w i) s =
         ((v.addAcc { acc v .atomic with
           reads := [r]
           atom := some { op := .loadRsv, type := if n = 8 then 8 else 7, lanes := [⟨lane, va % 128, 0, 0⟩], owner := g } }).pump).doneM
           w i) ∧
     (let base : FmtM := { i with low := 2 ^ 22 }
      s.issuesM t w grp base (condReserved i) [] [.s i.d.val, .s (condSrc i)] →
       t.reaches g grp true (t.laneAddrs g base (condOffset i) m) (fun t => t.globalLanes g grp base (condOffset i) n m .storeCond true true) l →
       let u := t.looked g grp (t.laneAddrs g base (condOffset i) m)
       let v := u.atomTouch c va
       exec (.stCond w i) s =
         ((v.addAcc { acc v .atomic with
           reads := [r]
           atom := some { op := .storeCond, type := if n = 8 then 8 else 7,
                          lanes := [⟨lane, va % 128, u.sReg g (condSrc i) % 2 ^ (8 * n), 0⟩], owner := g } }).pump).doneM w i) ∧
     (∀ (o : AtomOp) (scalar : Bool) (v : State), o ≠ .loadRsv → o ≠ .storeCond →
       s.issuesM t w grp i (atomReserved o scalar i) (atomVecs o scalar true i) (atomRefs o scalar i) →
       t.reaches g grp false (t.laneAddrs g i 0 m) (fun t => t.globalLanes g grp i 0 (typeBytes i.size.val) m .atomic true true) l →
       let u := t.looked g grp (t.laneAddrs g i 0 m)
       (if ordRel (mOrd i) then u.releaseFirst g i.scope.val = .done v else v = u) →
       exec (atomCommand false o w scalar i) s =
         (((byElement (if scalar then [(lane, va, d)] else l)).foldl (fun (b : State) x =>
           let b1 := if x.2.1.target = 0 then b.atomTouch c x.1 else b
           b1.addAcc { mkAcc b1 g grp (v.cmp.accNo + 1) .atomic x.1 x.2.1
                         (if scalar then m else x.2.2.foldl (fun k y => k ||| 2 ^ y) 0) with
             reads := x.2.2.map (fun y => (⟨y, x.1 % 128, typeBytes i.size.val, scalar, i.d.val⟩ : LaneRead))
             acq := if ordAcq (mOrd i) then some i.scope.val else none
             rel := if ordRel (mOrd i) then some i.scope.val else none
             atom := some
               { op := o
                 type := i.size.val
                 lanes := x.2.2.map (fun y => (⟨y, x.1 % 128, u.atomOperand g scalar i.size.val (mB i) y,
                   u.atomOperand g scalar i.size.val (mC i) y⟩ : AtomLane)) } }) v).pump).doneM w i))

/-- A physical access by a context that is not at Service level takes a privilege exception before its checks (R108, R122, R124). An uncorrectable error in a register that a memory instruction reads raises poison and has no other effect on memory (R183,
R483). Where the spec leaves a point open, this is the reading or the choice of the model: log 23 and 34. -/
def Obligations.PhysicalAndRegisterErrors : Prop :=
  (∀ (w : Who) (i : FmtM) (s t : State) (grp : Grp),
     s.issuesM t w grp i (({} : MForm).reserved i) (memVecs (2 ^ i.size.val) true false i) [] → t.serviceLevel grp = false →
     exec (.ldP w i) s = .next (t.raise w.group 0x03 (s.lanesM w grp i) noAddr) ∧
     exec (.stP w i) s = .next (t.raise w.group 0x03 (s.lanesM w grp i) noAddr)) ∧
  (∀ (w : Who) (i : FmtM) (s t : State) (grp : Grp),
     let g := w.group
     let n := 2 ^ i.size.val
     let m := s.lanesM w grp i
     let out := Host.Outcome.next (φ := Fault) (ρ := Refusal) ((t.coreError (g / 32)).raise g 0x28 m noAddr)
     (s.issuesM t w grp i (({ hint := true } : MForm).reserved i) (memVecs n true false i) [] → t.acquiring g = false →
       exec (.ldG w i .registers) s = out ∧ exec (.stG w i .registers) s = out) ∧
     (s.issuesM t w grp i (({ high := 3, scalar := true } : MForm).reserved i) (memVecs n true true i) [.s i.d.val] →
       t.acquiring g = false → exec (.ldS w i .registers) s = out ∧ exec (.stS w i .registers) s = out))

/-- Fences whose waits are over and that cover no deferred exception (R115, R116, R204). A fence is not done while what it waits for is outstanding: the group's program counter stays, and its status shows that it waits. Where the spec leaves a point open, this is the reading or the choice of the model: log 26 and 27. -/
def Obligations.FenceResults : Prop :=
  (∀ (w : Who) (i : FmtR) (s t : State) (grp : Grp),
     let g := w.group
     let c := g / 32
     let sc := i.mod.val
     let wide := 2 ≤ sc
     let back := fun (u : State) => if wide then (u.releaseSide c).pump else u
     let front := fun (u : State) => if wide then (u.acquireSide c).pump else u
     let clear := fun (u : State) => u.errorsKnown g sc ∧ (u.grp g).bind (fun x => x.deferredIn sc) = none
     s.issuesR t w grp { mods := 6 } i →
       (t.loadsBack g → clear t → exec (.fenceLd w i) s = (front t).doneR w i) ∧
       ((back t).storesDone g sc → clear (back t) → exec (.fenceSt w i) s = (back t).doneR w i) ∧
       ((back t).loadsBack g → (back t).storesDone g sc → clear (back t) →
         exec (.fenceFull w i) s = (front (back t)).doneR w i)) ∧
  (∀ (w : Who) (i : FmtR) (s t : State) (grp : Grp), s.issuesR t w grp { mods := 6 } i → i.mod.val < 2 →
     let held := Host.Outcome.next (φ := Fault) (ρ := Refusal) (t.hold w.group 3)
     (t.loadsBack w.group = false → exec (.fenceLd w i) s = held ∧ exec (.fenceFull w i) s = held) ∧
     (t.storesDone w.group i.mod.val = false → exec (.fenceSt w i) s = held ∧ exec (.fenceFull w i) s = held) ∧
     (∀ u g k, (State.hold u g k).grp g = (u.grp g).map (fun x => { x with held := k })))

/-- Arrivals at barriers and their opening (R117, R118, R204, R250). A group that arrives with another n than the first arrival fixed takes barrier-mismatch (R117). -/
def Obligations.BarrierResults : Prop :=
  (∀ (w : Who) (i : FmtR) (s t : State) (grp : Grp) (b : Blk),
     let g := w.group
     let bk := blockKey g grp
     let n := if i.bmode = 3 then i.imm.toNat % 2 ^ 32 else i.b.val
     (s.issuesR t w grp { sec := .imm, auxs := 4 } i → n ≤ 32 → t.blk bk = some b →
       ∀ r, (SMap.find b.rounds i.aux.val).getD { n := n } = r → r.n = n → (n = 0 ∨ r.arrived.length < n) →
       exec (.barBlock w i) s =
         (((t.updBlk bk (fun b => { b with rounds := SMap.put b.rounds i.aux.val { r with arrived := r.arrived ++ [g % 32] } })).updGrp
           g (fun x => { x with wait := .barrier i.aux.val n }))).doneR w i) ∧
     (s.issuesR t w grp {} i →
       let u := (t.releaseSide (g / 32)).pump
       ∀ b1 x, u.blk bk = some b1 → SMap.find u.cmp.bclus b1.bc = some x → x.size ≠ 1 →
       exec (.barCluster w i) s =
         (((u.updBlk bk (fun b => { b with arrived := b.arrived ++ [g % 32] })).updGrp g (fun x => { x with wait := .cluster }))).doneR
           w i) ∧
     (∀ (core : Fin 8192) (block : Fin 16) (id : Fin 4) (r : Round),
       s.blk (core.val * 16 + block.val) = some b → SMap.find b.rounds id.val = some r → r.n ≠ 0 → r.n ≤ r.arrived.length →
       (∀ x ∈ r.arrived, s.storesDone (core.val * 32 + x) 1 = true ∧
         ((s.grp (core.val * 32 + x)).map (·.wait)) ≠ some .cluster) → r.arrived ≠ [] →
       exec (.barrierOpen core block (.block id)) s =
         .next ((r.arrived.map (fun x => core.val * 32 + x)).foldl (fun (u : State) g => u.leaveBarrier g)
           (s.updBlk (core.val * 16 + block.val) (fun b => { b with rounds := SMap.del b.rounds id.val }))).pump)) ∧
  (∀ (w : Who) (i : FmtR) (s t : State) (grp : Grp) (b : Blk) (r : Round),
     let n := if i.bmode = 3 then i.imm.toNat % 2 ^ 32 else i.b.val
     s.issuesR t w grp { sec := .imm, auxs := 4 } i → n ≤ 32 → t.blk (blockKey w.group grp) = some b →
     SMap.find b.rounds i.aux.val = some r → r.n ≠ n →
     exec (.barBlock w i) s =
       .next (t.raise w.group 0x14 (s.lanesR w grp { sec := .imm, auxs := 4 } i) noAddr))

/-- The cache-control instructions on all lines and on a range shorter than the cache (R208, R209), and the instructions of class
0x30 (R120, R121): `nop` and a tile mark with no pre-emption pending only pass; at a tile mark under a pre-emption the group waits;
`brkpt` and `trap` take their exception. Where the spec leaves a point open, this is the reading or the choice of the model: log 27 and 30. -/
def Obligations.CacheControlAndMiscResults : Prop :=
  ∀ (w : Who) (i : FmtR) (s t : State) (grp : Grp),
    let g := w.group
    let c := g / 32
    let f : Form := { a := .s, sec := .scalar, auxs := 2 }
    let base := t.sReg g i.a.val % 2 ^ 57
    let len := if i.bmode = 3 then i.imm.toNat % 2 ^ 32 else t.sReg g i.b.val % 2 ^ 32
    let range := fun (v : Nat) => decide (base / 128 ≤ v) && decide (v ≤ (base + len - 1) / 128)
    (s.issuesR t w grp f i → i.aux = 1 → i.a = 0 → i.b = 0 → i.bmode = 1 →
      exec (.cinvL1 w i) s = ((t.l1Drop c everyLine).pump).doneR w i ∧
      exec (.cinvSc w i) s = ((t.scDrop c everyLine).pump).doneR w i ∧
      exec (.cwbSc w i) s = ((t.scWriteBack c everyLine).pump).doneR w i ∧
      exec (.cinvI w i) s = ((t.icDrop c everyLine).pump).doneR w i) ∧
    (s.issuesR t w grp f i → i.aux = 0 → i.bmode ≠ 2 → 0 < len →
      (len < 131072 → exec (.cinvL1 w i) s = ((t.l1Drop c range).pump).doneR w i) ∧
      (len < 6144 → exec (.cinvSc w i) s = ((t.scDrop c range).pump).doneR w i ∧
        exec (.cwbSc w i) s = ((t.scWriteBack c range).pump).doneR w i) ∧
      (len < 32768 → exec (.cinvI w i) s = ((t.icDrop c range).pump).doneR w i)) ∧
    (s.issuesR t w grp {} i → exec (.nop w i) s = t.doneR w i) ∧
    (s.issuesR t w grp { sec := .literal } { i with c := 0 } →
      (t.preempt g = false → exec (.tileMark w i) s = t.doneR w i) ∧
      (t.preempt g = true → t.matrixBusy g = false →
        exec (.tileMark w i) s = .next ((t.updGrp g (fun x => { x with wait := .mark })).hold g 3)) ∧
      (t.preempt g = true → t.matrixBusy g = true → exec (.tileMark w i) s = .next (t.hold g 1))) ∧
    (s.issuesR t w grp {} i →
      exec (.brkpt w i) s = .next ((t.raise g 0x30 (s.lanesR w grp {} i) noAddr false 0 2).issued g)) ∧
    (s.issuesR t w grp { sec := .literal } i →
      exec (.trap w i) s = .next (t.raise g 0x31 (s.lanesR w grp { sec := .literal } i) noAddr false i.b.val))

/-! ### Matrix engines (05) -/

/-- Matrix instructions that pass their checks and find room enter the queues of their engines; `mx.stat` reads the status of its
engine, and `mx.wait` passes once the queues that it waits for have emptied (R141, R145 to R147). A matrix instruction while some lane that has not exited is inactive raises matrix collective under divergence, and touches no
engine (R140). `mx.cfg` with a valid word and `mx.mma` with valid operands enter the queues of the gang (R142 to R144). Where the spec leaves a point open, this is the reading or the choice of the model: log 42. -/
def Obligations.MatrixInstructionResults : Prop :=
  (∀ (w : Who) (i : FmtR) (s t : State) (grp : Grp) (b : Blk) (k : Nat) (e : Eng),
     let g := w.group
     let n := i.aux.val % 16
     let all := 16 ≤ i.aux.val
     b.engKey (g / 32) n = some k → t.eng k = some e →
     (s.issuesMx t w grp b {} i true [] →
       (¬ all → t.queueFree k → exec (.mxZero w i) s = (t.mxPush k (.zero (g % 32))).doneR w i) ∧
       (all → e.pend.leader = n → (∀ m ∈ b.gangKeys (g / 32) n e.pend.size, t.queueFree m) →
         exec (.mxZero w i) s =
           ((b.gangKeys (g / 32) n e.pend.size).foldl (fun (u : State) m => u.mxPush m (.zero (g % 32))) t).doneR w i) ∧
       (¬ all → grp.feedError (2 ^ n) = none → grp.engines = [] → e.queue = [] →
         exec (.mxWait w i) s = (t.updGrp g (fun x => { x with engines := [] })).doneR w i) ∧
       (¬ all → grp.feedError (2 ^ n) = none → grp.engines = [] → e.queue ≠ [] →
         exec (.mxWait w i) s = .next ((t.updGrp g (fun x => { x with engines := [(k, e.queue.length)] })).hold g 1))) ∧
     (s.issuesMx t w grp b { d := .v } i false (eight i.d.val) → i.d.val % 8 = 0 → grp.feedError (2 ^ n) = none → t.queueFree k →
       exec (.mxAccRd w i) s = (t.mxPush k (.accRd (g % 32) i.d.val)).doneR w i) ∧
     (s.issuesMx t w grp b { a := .v } i false (eight i.a.val) → i.a.val % 8 = 0 → t.accWrites (g / 32) < 2 → t.queueFree k →
       exec (.mxAccWr w i) s =
         (t.mxPush k (.accWr (g % 32) ((List.range 256).map (fun j =>
           BitVec.ofNat 32 (t.vReg g (i.a.val + j / 32) (j % 32)))))).doneR w i) ∧
     (s.issuesMx t w grp b { d := .s } i true [] →
       let word := nb e.running + 2 * nb (e.act.leader == n) + 4 * e.queue.length + 32 * nb (t.skipping k e) +
         64 * nb e.grainOvr + 128 * nb e.depthOvr + 65536 * e.lastT
       (¬ all → exec (.mxStat w i) s = (t.setS g i.d.val word).doneR w i) ∧
       (all → exec (.mxStat w i) s =
         ((t.setS g i.d.val word).updEng k (fun x => { x with grainOvr := false, depthOvr := false })).doneR w i))) ∧
  (∀ (w : Who) (i : FmtR) (s t : State) (grp : Grp) (b : Blk),
     let n := i.aux.val % 16
     s.fetched w (lenOf i.w) = some (grp, t) → grp.active ≠ grp.live → grp.active &&& 0xFFFFFFFF ≠ 0 →
     t.blk (blockKey w.group grp) = some b → n < b.engines.length →
     (t.pendingRefs w.group) = [] → ({ noGuard := true, auxs := 32 } : Form).reserved i = false →
     exec (.mxWait w i) s = .next (t.raise w.group 0x13 (grp.active &&& 0xFFFFFFFF) noAddr) ∧
     (i.aux.val < 16 → ((b.engKey (w.group / 32) n).bind t.eng).isSome →
       exec (.mxZero w i) s = .next (t.raise w.group 0x13 (grp.active &&& 0xFFFFFFFF) noAddr))) ∧
  (∀ (w : Who) (i : FmtR) (s t : State) (grp : Grp) (b : Blk),
     let g := w.group
     let c := g / 32
     let n := i.aux.val % 16
     (s.issuesMx t w grp b { a := .s } i false [] →
       let raw := t.sReg g i.a.val
       let word := if t.flag F.MXE_CTL_SKIP_ALLOW c then raw else setBits raw 5 1 0
       let gang := b.gangKeys c n (cfgSize raw)
       cfgReserved raw = false → (cfgMode raw = 0 → t.flag F.MXE_CTL_BCAST_ONLY c = false) → n % cfgSize raw = 0 →
       n + cfgSize raw ≤ b.engines.length → (∀ m ∈ gang, t.queueFree m) →
       exec (.mxCfg w i) s =
         (gang.foldl (fun (u : State) m => u.mxPush m (.cfg (g % 32) word gang))
           (t.regang (·.pend) (fun e x => { e with pend := x }) gang word)).doneR w i) ∧
     (s.issuesMx t w grp b { a := .s, sec := .sOnly, c := .s } i false [] →
       ∀ (k : Nat) (e : Eng) (abase wbase wstride kch : Nat), b.engKey c n = some k → t.eng k = some e → e.pend.leader = n →
       t.sReg g i.a.val = abase → t.sReg g i.b.val = wbase + wstride * 2 ^ 24 → t.sReg g i.c.val = kch →
       abase % 16 = 0 → wbase % 16 = 0 → wstride % 16 = 0 → wstride < 2 ^ 24 → abase < 2 ^ 23 → wbase < 2 ^ 23 → 0 < kch →
       kch < 2 ^ 16 → cfgW e.pend.word ≠ 19 → (cfgMode e.pend.word = 0 → t.flag F.MXE_CTL_BCAST_ONLY c = false) →
       abase + kch * cfgAch e.pend.word ≤ b.units.length * 32768 →
       (∀ m < e.pend.size, wbase + m * (if e.pend.size = 1 then 0 else wstride) + kch * cfgWch e.pend.word ≤
         b.units.length * 32768) →
       let gang := b.gangKeys c n e.pend.size
       (∀ m ∈ gang, t.queueFree m) →
       exec (.mxMma w i) s =
         (gang.foldl (fun (u : State) m =>
           u.mxPush m (if m = gang.headD 0 then .mma (g % 32) abase wbase wstride 0 kch grp.pc else .member (g % 32) (gang.headD 0)))
           t).doneR w i))

/-- Events of a matrix engine: a configuration takes effect in its whole gang, accumulators are cleared, loaded and read, and a
tile starts (R131, R142, R145, R146). A chunk closes into the accumulators of every member of the gang, one chunk after the other, and the tile ends after its last
chunk: the entry leaves the queue of every member (R128, R144, R147). Where the spec leaves a point open, this is the reading or the choice of the model: log 37 and 42. -/
def Obligations.MatrixEventResults : Prop :=
  (∀ (core : Fin 8192) (engine : Fin 16) (s : State) (e : Eng),
     let k := core.val * 16 + engine.val
     s.eng k = some e → s.enginesRun core.val →
     (∀ slot word gang, e.queue.head? = some (.cfg slot word gang) →
       (∀ m ∈ gang, (s.eng m).bind (fun x => x.queue.head?) = some (.cfg slot word gang)) →
       exec (.mxCfgTakeEffect core engine) s =
         .next (gang.foldl (fun (u : State) m => (u.mxPop m).mxCount m 0 1)
           (s.regang (·.act) (fun x c => { x with act := c }) gang word))) ∧
     (∀ slot rest, e.queue = .zero slot :: rest →
       exec (.mxQueueEntry core engine) s = .next (((s.updEng k (fun x => { x with acc := [] })).mxPop k).mxCount k 0 1)) ∧
     (∀ slot data rest, e.queue = .accWr slot data :: rest →
       ∃ acc, exec (.mxQueueEntry core engine) s = .next (((s.updEng k (fun x => { x with acc := acc })).mxPop k).mxCount k 0 8) ∧
         ∀ j, SMap.get acc 0 j = (data[j]?).getD 0) ∧
     (∀ slot dst rest grp, e.queue = .accRd slot dst :: rest → s.grp (core.val * 32 + slot) = some grp →
       grp.feedError (2 ^ e.handle) = none →
       exec (.mxQueueEntry core engine) s =
         .next ((List.range 256).foldl (fun (u : State) j =>
           u.setV (core.val * 32 + slot) (dst + j / 32) (j % 32) (SMap.get e.acc 0 j).toNat) ((s.mxPop k).mxCount k 0 8))) ∧
     (∀ slot pc tile, e.tile = some (slot, pc, tile) → e.running = false → (s.gangOf k e).Nodup → k ∈ s.gangOf k e →
       (∀ m ∈ s.gangOf k e, m ≠ k → ∃ x n, s.eng m = some x ∧ x.queue.head? = some (.member n k)) →
       ∃ t, exec (.mxTileStart core engine) s = .next t ∧
         (∀ m ∈ s.gangOf k e, ∀ x, s.eng m = some x → ∃ y, t.eng m = some y ∧ y.running = true ∧ y.queue = x.queue ∧ y.acc = x.acc) ∧
         (t.eng k).map (·.cycles) = some (if cfgMode e.act.word = 1 then 3 else 15))) ∧
  (∀ (core : Fin 8192) (engine : Fin 16) (s : State) (e : Eng) (slot pc : Nat) (tile : Tile),
     let k := core.val * 16 + engine.val
     let gang := s.gangOf k e
     s.eng k = some e → s.enginesRun core.val → e.tile = some (slot, pc, tile) → e.running = true → gang.Nodup → k ∈ gang →
     (e.chunk < tile.kch →
       let f := e.buffer.getD (s.feed (core.val * 16 + e.block) e.act.word e.act.size tile e.chunk e.pos)
       let c := f.chunk e.act.word tile e.chunk
       ∃ t, exec (.mxChunkClose core engine) s = .next t ∧ (t.eng k).map (·.chunk) = some (e.chunk + 1) ∧
         ∀ (m j : Nat) (x : Eng), gang[j]? = some m → s.eng m = some x → ∃ y, t.eng m = some y ∧ y.queue = x.queue ∧
           y.acc = accClose (cfgA e.act.word == 11) c.acts ((c.members[j]?).getD []) x.acc) ∧
     (∀ held : Nat, tile.kch ≤ e.chunk → (cfgMode e.act.word = 1 → held = 0) →
       ∃ t, exec (.mxTileEnd core engine held) s = .next t ∧ (t.eng k).map (·.chunk) = some 0 ∧
         ∀ (m : Nat) (x : Eng), m ∈ gang → s.eng m = some x → ∃ y, t.eng m = some y ∧ y.queue = x.queue.tail ∧ y.running = false ∧
           y.lastT = min (2 ^ 32 - 1) (e.cycles + (held + if cfgMode e.act.word = 1 then 0 else 15)) ∧ (e.bad = false → e.poison = false → y.acc = x.acc)))

/-! ### Registers and commit groups (01) -/

/-- What a write does to a field by its access code: RO, WO and SC fields keep their value, W1C clears the bits
written as 1, RW takes the bits written, and a CM field takes them in its shadow only (R4, R5, R27). Writes and reads of registers that have no row of their own: an offset that holds no register takes no write; out of its reach
a write has no effect and a read returns 0, and both send a REACH record to the owning die; within it a write reaches the fields
(R8, R25, R52, R386); a write through the window of a retired die has no effect, and one to the mailbox that is not of 32 bits, naturally
aligned, sets SEQERR and does nothing else (R25, R412). Where the spec leaves a point open, this is the reading or the choice of the model: log 22, 66 and 69. -/
def Obligations.RegisterAccessResults : Prop :=
  (∀ (s : State) (r : Reg) (i value mask : Nat) (f : FieldSpec), f ∈ r.spec.fields → i < 2 ^ 20 →
     let t := s.writeField r i value mask f
     let fld : Fld := ⟨r, f.lo, f.width⟩
     let old := fun (k : Nat) => (s.fget fld i).testBit k
     let new := fun (k : Nat) => (t.fget fld i).testBit k
     let hit := fun (k : Nat) => mask.testBit (f.lo + k)
     let v := fun (k : Nat) => value.testBit (f.lo + k)
     ((f.acc = .ro ∨ f.acc = .wo ∨ f.acc = .sc) → t = s) ∧
     (f.acc = .w1c → ∀ k < f.width, new k = (old k && !(hit k && v k))) ∧
     (f.acc = .rw → f.legal = none → ∀ k < f.width, new k = if hit k then v k else old k) ∧
     (f.acc = .cm → (∀ q j, t.reg q j = s.reg q j) ∧
       ∀ k < f.width, (t.shadowReg r i).toNat.testBit (f.lo + k) =
         if hit k then v k else (s.shadowReg r i).toNat.testBit (f.lo + k)) ∧
     (clearedWith fld = [] → f.acc ≠ .cm → ∀ k < 64, (k < f.lo ∨ f.lo + f.width ≤ k) →
       (t.reg r i).getLsbD k = (s.reg r i).getLsbD k)) ∧
  (∀ (who : Requester) (addr : Nat) (size : Fin 4) (value : W64) (s : State),
     (writeFormed who addr size.val = true → addr < 0x20000000 →
       let l := accessParts addr size.val value.toNat
       (mbxOdd addr size.val = true → exec (.registerWrite who addr size value) s = .next (s.mbxOddWrite who addr)) ∧
       (mbxOdd addr size.val = false → l = [] → exec (.registerWrite who addr size value) s = .next s) ∧
       (mbxOdd addr size.val = false → ∀ a, l = [a] → a.reg.plain = true →
         exec (.registerWrite who addr size value) s = .next
           (if reachOk a.reg.spec.wr who = false then s.reachRecord (a.reg.die a.inst) who (a.reg.addr a.inst) true
            else if a.gone s ∨ s.regOpen who a.reg a.inst = false then s
            else s.writeFields a.reg a.inst a.value a.mask))) ∧
     (accessFormed addr size.val = true → ∀ a, accessParts addr size.val 0 = [a] → readable who a.reg = false →
       exec (.outOfReachRead who addr size) s =
         .next ((s.reachRecord (a.reg.die a.inst) who (a.reg.addr a.inst) false).emit (.regRead who 0))) ∧
     (s.arrives who false false = true → (∀ v, who ≠ .vf v) →
       exec (.tbNowRead who .full) s = .next (s.emit (.regRead who (BitVec.ofNat 64 s.now))) ∧
       (∃ t, exec (.tbNowRead who .low) s = .next t ∧ t.out = .regRead who (BitVec.ofNat 64 (s.now % 2 ^ 32)) :: s.out ∧
         t.latchOf who = some (BitVec.ofNat 32 (s.now / 2 ^ 32)) ∧ ∀ q, q ≠ who → t.latchOf q = s.latchOf q) ∧
       (∀ h, s.latchOf who = some h →
         ∃ t, exec (.tbNowRead who .high) s = .next t ∧ t.out = .regRead who (BitVec.ofNat 64 h.toNat) :: s.out ∧
           t.latchOf who = none ∧ ∀ q, q ≠ who → t.latchOf q = s.latchOf q) ∧
       (s.latchOf who = none →
         exec (.tbNowRead who .high) s = .next (s.emit (.regRead who (BitVec.ofNat 64 (s.now / 2 ^ 32)))))))

/-- COMMIT takes a snapshot of the shadows, or sets REJECT where the new set breaks a validity rule, or OVERRUN while COMMIT reads
1; DISCARD makes the shadows follow the active set. Neither changes the active set (R27 to R30, R34). Each of the two commands acts by what
its word holds, and the place of a group that does not exist takes no write (R25). -/
def Obligations.CommitAndDiscardResults : Prop :=
  ∀ (who : Requester) (g : Group) (i : Nat) (word : W32) (s : State),
    let r := commitReg g
    let t := s.writeReg r i word.toNat r.full
    ∀ c ∈ [Instr.commit who g i word, .discard who g i word],
    (groupCount g ≤ i → exec c s = .next s) ∧
    (i < groupCount g → s.mayWrite who r i →
      (word.getLsbD 0 = true →
        (t.flag (fCommit g) i = true → exec c s = .next (t.fset (fOverrun g) 1 i)) ∧
        (t.flag (fCommit g) i = false →
          let valid := t.setValid (t.withSet g (t.snapshot g i)) g i
          valid = true ∨ word.getLsbD 2 = false →
          ∃ u, exec c s = .next u ∧ u.flag (fPending g) i = !valid ∧ u.flag (fCommit g) i = valid ∧
            (valid = true → SMap.find u.snaps (r.key i) = some (t.snapshot g i)) ∧
            (valid = false → u.flag (fReject g) i = true ∧ u.snaps = s.snaps) ∧ u.shadow = s.shadow ∧
            ∀ q ∈ groupRegs g, ∀ j < 2 ^ 20, u.reg q j = s.reg q j)) ∧
      (word.getLsbD 0 = false → word.getLsbD 2 = false → exec c s = .next t) ∧
      (word.getLsbD 0 = false → word.getLsbD 2 = true →
        (t.flag (fCommit g) i = true → exec c s = .next t) ∧
        (t.flag (fCommit g) i = false →
          ∃ u, exec c s = .next u ∧ u.flag (fPending g) i = false ∧ u.snaps = s.snaps ∧
            ∀ q ∈ groupRegs g, ∀ j < 2 ^ 20, u.reg q j = s.reg q j ∧ (groupInst g j = i → u.shadowReg q j = u.reg q j))))

/-- A snapshot that takes effect replaces the CM fields of the members as a whole; COMMIT returns to 0, REJECT clears and
COMMIT_COUNT rises; a set of TB_SRC or HOM_RSV takes effect at the next slot boundary (R53, R286). A committed EN = 0 waits until no command of the queue pair is outstanding, and then clears the pair (R28,
R34, R405). Where the spec leaves a point open, this is the reading or the choice of the model: log 47. -/
def Obligations.CommitApplyResults : Prop :=
  ∀ (g : Group) (i : Nat) (s : State),
    let snap := SMap.get s.snaps [] ((commitReg g).key i)
    i < groupCount g → s.flag (fCommit g) i = true →
    (s.qpStops g i snap = false → (atSlot g = true → s.pwr.pwrGood = true) →
      (g = .homRsv → ∀ h < 16, h ≠ i → s.flag F.HOM_RSV_COMMIT_COMMIT h = false) →
      ∃ t, exec (.commitApply g i) s = .next t ∧ t.flag (fCommit g) i = false ∧ t.flag (fReject g) i = false ∧
        t.fget (fCount g) i = (s.fget (fCount g) i + 1) % 65536 ∧ SMap.find t.snaps ((commitReg g).key i) = none ∧
        (∀ q ∈ groupRegs g, ∀ j < 2 ^ 20, t.reg q j = (s.withSet g snap).reg q j) ∧
        (g = .homRsv → s.flag F.TB_SRC_COMMIT_COMMIT = false → s.slotNo = s.ring.slot → s.ring.due = false →
          s.now + 250000 < 2 ^ 64 → s.ring.ringU < 2 ^ 64 * 110000 → t.now = (s.slotNo + 1) * 250000)) ∧
    (∀ q ∈ groupRegs g, ∀ j < 2 ^ 20, ∀ w, snap = [(q.key j, w)] → (s.withSet g snap).reg q j = q.withCm (s.reg q j) w) ∧
    (g = .cnpQp → s.qpStops g i snap = true → (s.qp i).stopping = true → (s.qp i).started = [] → (s.qp i).held = none →
      (s.qp i).waiting = [] → (s.qp i).fetching = false →
      ∃ t, exec (.queuePairStop (Fin.ofNat 4096 i)) s = .next t ∧ t.flag (fCommit g) i = false ∧
        t.flag F.CNP_QP_CFG_EN i = false ∧ t.reg .CNP_QP_STATUS i = 0 ∧ t.qp i = {})

/-! ### Ring time (02) -/

/-- Samples, losses and switches of the time sources (R36 to R43, R432). A lock from Unlocked steps the Ring count to the source; later an offset of up to 10 µs is slewed and a larger one is stepped;
a step counts in STEP_COUNT, and the count runs at the rate of the source from then on (R35, R42, R43). Where the spec leaves a point open, this is the reading or the choice of the model: log 72. -/
def Obligations.RingResults : Prop :=
  (∀ (s : State),
     (∀ (p : Fin 32) (t : W64) (corr : W32) (master : Fin 16384) (hop : Fin 256) (steps : W16),
       let taken := s.flag F.TB_SRC_CFG_EN_GRIGA = true ∧ s.flag F.TB_SRC_CFG_MASTER = false ∧
         (s.fget F.TB_GRIGA_PORTS_PORTS).testBit p = true ∧ hop.val < 16
       (¬ taken → exec (.beat p t corr master hop steps) s = .next s) ∧
       (taken → ∃ u, exec (.beat p t corr master hop steps) s = .next u ∧
         u.portTrack p = { ((s.portTrack p).sample s.localNs
           (t.toNat + (corr.toNat + s.fget F.GRG_PORT_DELAY_DELAY p) / 16)).1 with hop := hop.val, master := master.val } ∧
         ∀ q, q ≠ p.val → u.portTrack q = s.portTrack q)) ∧
     (s.flag F.TB_SRC_CFG_EN_PTM = true → (s.func 0).ptmEnable = true → exec .ptmRequest s = .next (s.emit .ptmRequest)) ∧
     (s.flag F.TB_SRC_CFG_EN_PTM = true → ∀ m : W64, ∃ u, exec (.ptmDialogue m) s = .next u ∧
       u.ring.ptm = (s.ring.ptm.sample s.localNs ((m.toNat + s.fget F.TB_PTM_OFFSET_OFFSET) % 2 ^ 64)).1) ∧
     (s.flag F.TB_SRC_CFG_EN_PTM = false → exec .ptmRequest s = .next s ∧ ∀ m : W64, exec (.ptmDialogue m) s = .next s) ∧
     (s.flag F.TB_SRC_CFG_EN_PPS0 = true → ∀ old, s.secHeld = (old, true) → ∃ u, exec (.ppsPulse false) s = .next u ∧
       u.ring.pps0 = (s.ring.pps0.sample s.localNs (old * 1000000000 % 2 ^ 64)).1 ∧
       u.fget F.TB_PPS_NEXT_SEC_SEC = s.fget F.TB_PPS_NEXT_SEC_SEC) ∧
     (s.flag F.TB_SRC_CFG_EN_PPS0 = true → s.ring.secWrites = [] → ∃ u, exec (.ppsPulse false) s = .next u ∧
       u.ring.pps0 = (s.ring.pps0.sample s.localNs (s.fget F.TB_PPS_NEXT_SEC_SEC * 1000000000 % 2 ^ 64)).1 ∧
       u.fget F.TB_PPS_NEXT_SEC_SEC = (s.fget F.TB_PPS_NEXT_SEC_SEC + 1) % 2 ^ F.TB_PPS_NEXT_SEC_SEC.width) ∧
     (s.flag F.TB_SRC_CFG_EN_PPS2 = true → ∃ u, exec (.ppsPulse true) s = .next u ∧ u.ring.pps0 = s.ring.pps0) ∧
     (∀ p : Fin 32, (s.portTrack p).last.isSome → ∃ u, exec (.sourceLost (.port p)) s = .next u ∧ u.portTrack p = {}) ∧
     (s.ring.ptm.last.isSome → ∃ u, exec (.sourceLost .ptm) s = .next u ∧ u.ring.ptm = {}) ∧
     (∀ p q t, s.preferredPort = some p → s.ring.pref = some (q, t) → s.fget F.TB_STATUS_SRC = 1 → q ≠ s.ring.port →
       ∃ u, exec .portPreferenceSwitch s = .next u ∧ u.ring.port = p ∧ u.fget F.TB_STATUS_SRC = 1 ∧ u.fget F.TB_STATUS_STATE = 1 ∧
         t + 2000000000 ≤ u.localNs) ∧
     (s.higherSources ≠ [] →
       ∃ u, ∃ k ∈ s.higherSources, exec .sourceSwitch s = .next u ∧ u.fget F.TB_STATUS_SRC = k ∧ u.fget F.TB_STATUS_STATE = 1 ∧
         SMap.get s.ring.since 0 k + 2000000000 ≤ u.localNs ∧
         ∀ j ∈ s.higherSources, j < k → u.localNs < SMap.get s.ring.since 0 j + 2000000000) ∧
     (s.fget F.TB_STATUS_STATE = 2 →
       ∃ u, exec .holdoverExpiry s = .next u ∧ u.fget F.TB_STATUS_STATE = 0 ∧ u.ring.rate = 0 ∧ u.ring.slew = 0 ∧
         s.ring.holdSince + s.fget F.TB_SRC_CFG_HOLD_MS * 1000000 ≤ u.discNs)) ∧
  (∀ (s : State) (k : Nat), 0 < k → k ≤ 4 →
     let time := (if k = 1 then { s with ring := { s.ring with port := s.preferredPort.getD 0 } } else s).srcTime k
     let off : Int := (time : Int) - s.now
     let u := s.lockTo k
     u.fget F.TB_STATUS_STATE = 1 ∧ u.fget F.TB_STATUS_SRC = k ∧
     u.ring.rate = (match k with
       | 1 => (s.portTrack (s.preferredPort.getD 0)).rate
       | 2 => s.ring.ptm.rate
       | 3 => s.ring.pps0.rate
       | _ => s.ring.pps2.rate) ∧
     (s.fget F.TB_STATUS_STATE = 0 ∨ off < -10000 ∨ 10000 < off →
       u.now = time % 2 ^ 64 ∧ u.ring.slew = 0 ∧ u.fget F.TB_STATUS_STEP_COUNT = (s.fget F.TB_STATUS_STEP_COUNT + 1) % 65536) ∧
     (s.fget F.TB_STATUS_STATE ≠ 0 → -10000 ≤ off → off ≤ 10000 →
       u.ring.ringU = s.ring.ringU ∧ u.ring.slew = off * 110000 ∧
         u.fget F.TB_STATUS_STEP_COUNT = s.fget F.TB_STATUS_STEP_COUNT))

/-- A slot boundary comes at the next multiple of 250,000 ns of Ring time; the BEATs of the master and a DELAY exchange of each
port that is Up leave with it (R41, R46, R431). A step with an empty queue lets one cycle of the 1.1 GHz clock pass: 10/11 ns (R3, R119; the choice of log 14). The Ring count advances
at the rate of its source, and a slew moves it by 100 ppm meanwhile (R35, R43). Where the spec leaves a point open, this is the reading or the choice of the model: log 14 and 65. -/
def Obligations.SlotAndIdleResults : Prop :=
  (∀ (s : State), s.pwr.pwrGood = true → s.flag F.TB_SRC_COMMIT_COMMIT = false → (∀ h < 16, s.flag F.HOM_RSV_COMMIT_COMMIT h = false) →
     s.duty.announced = none → s.flag F.CNP_CTL_EN = false → s.flag F.CNP_CTL_ACCT_EN = false →
     ∃ t, exec .slotBoundary s = .next t ∧ t.ring.slot = t.slotNo ∧
       (s.slotNo = s.ring.slot → s.ring.due = false → s.now + 250000 < 2 ^ 64 → s.ring.ringU < 2 ^ 64 * 110000 →
         t.now = (s.slotNo + 1) * 250000) ∧
       (s.slotNo ≠ s.ring.slot ∨ s.ring.due = true → t.now = s.now) ∧
       (∀ p < 32, s.fget F.GRG_PORT_STATUS_STATE p = 4 →
         (.flit p 3 (s.gport p).txSeq (((s.gport p).rxSeq + 4095) % 4096)) ∈ t.out ∧
         (s.flag F.TB_SRC_CFG_MASTER = true → s.fget F.TB_STATUS_STATE ≠ 0 → (s.fget F.TB_GRIGA_PORTS_PORTS).testBit p = true →
           (.beat p (t.slotNo * 250000) ((t.now - t.slotNo * 250000) * 16 % 2 ^ 32) (s.fget F.GRG_PKG_ID_ID) 0
             (s.fget F.TB_STATUS_STEP_COUNT)) ∈ t.out))) ∧
  (∀ (s : State), s.pending = [] →
     ∃ t, step s = .next t ∧ t.cycles = (s.cycles + 1) % 2 ^ 64 ∧ t.ring.localU = s.ring.localU + 100000 ∧
       (∀ drift : Int, drift = ((s.ring.phase : Int) + 100000 * s.ring.rate) / 1000000000 → -99990 ≤ drift →
         t.ring.phase = (((s.ring.phase : Int) + 100000 * s.ring.rate) % 1000000000).toNat ∧
         (s.ring.slew = 0 → (t.ring.ringU : Int) = s.ring.ringU + 100000 + drift) ∧
         (10 ≤ s.ring.slew → (t.ring.ringU : Int) = s.ring.ringU + 100010 + drift ∧ t.ring.slew = s.ring.slew - 10) ∧
         (s.ring.slew ≤ -10 → (t.ring.ringU : Int) = s.ring.ringU + 99990 + drift ∧ t.ring.slew = s.ring.slew + 10)) ∧
       t.regs = s.regs ∧ t.out = s.out ∧ t.pending = [] ∧ t.cmp.mem = s.cmp.mem ∧ t.cmp.groups = s.cmp.groups)

/-! ### Stream engines, placement and local-memory service (06, 07, 12, 13) -/

/-- `ste.sub` queues a sound descriptor and returns its ticket; the waits and tests return the status of a ticket; a descriptor at
a misaligned or remote address, or with a fault, raises (R253, R326, R327). A row of at most 32 KiB is copied within local memory by one chunk: its issue reads the row, and its completion writes it and
frees the chunk; a full PREFETCH ring is looked at again (R323, R324, R333, R335). Where the spec leaves a point open, this is the reading or the choice of the model: log 41. -/
def Obligations.StreamResults : Prop :=
  (∀ (w : Who) (i : FmtR) (s t : State) (grp : Grp),
     let g := w.group
     let bk := blockKey g grp
     let a := t.sReg g i.a.val
     let ticket := a % 2 ^ 33
     let t1 := (t.steFirst g).1
     let held := Host.Outcome.next (φ := Fault) (ρ := Refusal) (t1.hold g 1)
     ((t.steFirst g).2 = false →
       (s.issuesR t w grp { d := .s, a := .s, auxs := 2, noGuard := true } i → exec (.steSub w i) s = held) ∧
       (s.issuesR t w grp { d := .s, a := .s, noGuard := true } i → exec (.steWait w i) s = held ∧ exec (.steTest w i) s = held) ∧
       (s.issuesR t w grp { auxs := 4, noGuard := true } i → exec (.steWaitAll w i) s = held)) ∧
     ((t.steFirst g).2 = true →
     (s.issuesR t w grp { d := .s, a := .s, auxs := 2, noGuard := true } i → (t1.steq (bk * 2 + i.aux.val)).xfers.length < 8 →
       let m := s.lanesR w grp { d := .s, a := .s, auxs := 2, noGuard := true } i
       (a % 64 ≠ 0 → exec (.steSub w i) s = .next (t1.raise g 0x20 m a)) ∧
       (a % 64 = 0 → 2 ^ 23 ≤ a → exec (.steSub w i) s = .next (t1.raise g 0x21 m a)) ∧
       (a % 64 = 0 → a < 2 ^ 23 → ∀ (t2 : State) (b : List Byte), t1.lmFetch bk a 64 = some (t2, b, false) →
         (∀ code : Nat, t2.descFault bk (Desc.of b) = some code → exec (.steSub w i) s = .next (t2.raise g code m a)) ∧
         (t2.descFault bk (Desc.of b) = none →
           let k := bk * 2 + i.aux.val
           let seq := ((t2.steq k).seq + 1) % 2 ^ 32
           exec (.steSub w i) s =
             ((t2.updSteq k (fun q => { q with
               seq := seq
               xfers := q.xfers ++ [{ desc := b, seq := seq, ctx := grp.ctx, core := g / 32, slot := g % 32 }] })).setS g i.d.val
                 (k % 2 * 2 ^ 32 + seq)).doneR w i))) ∧
     (s.issuesR t w grp { d := .s, a := .s, noGuard := true } i →
       exec (.steTest w i) s = (t1.setS g i.d.val ((t1.ticketStatus bk ticket).getD 0)).doneR w i ∧
       (grp.streamError (fun p => p == ticket) = none →
         (∀ v : Nat, t1.ticketStatus bk ticket = some v → exec (.steWait w i) s = (t1.setS g i.d.val v).doneR w i) ∧
         (t1.ticketStatus bk ticket = none → exec (.steWait w i) s = held))) ∧
     (s.issuesR t w grp { auxs := 4, noGuard := true } i →
       let es := if 2 ≤ i.aux.val then [0, 1] else [i.aux.val]
       grp.streamError (fun p => es.contains (p / 2 ^ 32)) = none →
       ((∀ e ∈ es, (t1.steq (bk * 2 + e)).xfers = []) → exec (.steWaitAll w i) s = t1.doneR w i) ∧
       ((∃ e ∈ es, (t1.steq (bk * 2 + e)).xfers ≠ []) → exec (.steWaitAll w i) s = held)))) ∧
  (∀ (s : State),
     (∀ (cluster : Fin 1024) (engine : Fin 2) (k p q : Nat) (later : List Nat) (x : Xfer) (xs : List Xfer),
       let d := Desc.of x.desc
       s.rotationOf cluster engine = k :: later → k < 2 ^ 20 → (s.steq k).xfers = x :: xs → x.wait = .none → x.err = none →
       x.full = false → x.row = 0 → x.pos = 0 → s.inFlight k = [] → s.streamReady (k / 2) = true → d.op = 0 → d.srcL = true →
       d.dstL = true → d.chkS = false → d.chkD = false → d.red = 0 → 0 < d.rows → 0 < d.rowlen →
       d.src % 32768 + d.rowlen ≤ 32768 → d.dst % 32768 + d.rowlen ≤ 32768 → d.src < 2 ^ 24 → d.dst < 2 ^ 24 →
       s.blkPlace (k / 2) d.src = some p → s.blkPlace (k / 2) d.dst = some q → (s.engineChunks (cluster.val * 2 + engine.val)).length < 64 →
       (∀ j < d.rowlen, (s.lmFind ((List.range d.rowlen).map (fun j => p + j))).lmPoisoned (p + j) = false) →
       ∃ (t : State) (c : Chunk), exec (.steChunkIssue cluster engine) s = .next t ∧ SMap.find t.cmp.chunks (s.cmp.accNo + 1) = some c ∧
         c.queue = k ∧ c.srcs = [some ((List.range d.rowlen).map (fun j => s.lmByte (p + j)))] ∧ c.dsts = [(.lm q, d.rowlen)] ∧
         c.due = 0 ∧ c.putting = true ∧ c.err = none ∧ t.cmp.lm = s.cmp.lm ∧ t.cmp.mem = s.cmp.mem ∧
         ((t.steq k).xfers.map (fun y => (y.row, y.pos, y.next))).head? = some (1, 0, x.next + 1)) ∧
     (∀ (n id a m : Nat) (c : Chunk) (x : Xfer) (xs : List Xfer), s.cmp.chunks[n]? = some (id, c) → c.due = 0 →
       c.putting = true → c.queue < 2 ^ 20 → (s.steq c.queue).xfers = x :: xs → (Desc.of x.desc).op ≠ 4 →
       (Desc.of x.desc).doneEn = false → (c.chkD = false ∨ c.lead = 0) →
       (c.err = none → c.checked = false → c.dsts = [(.lm a, m)] → c.bytes.length = m →
         ∃ t : State, exec (.steChunkComplete n) s = .next t ∧ SMap.find t.cmp.chunks id = none ∧ t.cmp.mem = s.cmp.mem ∧
           ∀ j < m, t.lmByte (a + j) = c.bytes.getD j 0) ∧
       (∀ code : Nat, code ≠ 0 → c.err = some code →
         exec (.steChunkComplete n) s =
           .next ((s.delChunk id).xferFail c.queue code (if code = 0x29 then c.mismatch.getD c.first else c.index) c.va))) ∧
     (∀ (core : Fin 8192) (block : Fin 16) (engine : Fin 2) (x : Xfer) (xs : List Xfer) (t : State) (b : List Byte),
       let k := (core.val * 16 + block.val) * 2 + engine.val
       let d := Desc.of x.desc
       (s.steq k).xfers = x :: xs → x.full = true → x.err = none → s.streamReady (k / 2) = true →
       s.lmFetch (k / 2) d.creditAt 4 = some (t, b, false) →
       exec (.prefetchCreditPoll core block engine) s =
         .next (t.updHead k (fun y => { y with full := decide (d.slots ≤ (x.row + 2 ^ 32 - ofBytes b) % 2 ^ 32) }))))

/-- A block cluster is placed on the free cores of one hardware cluster, and its groups start in the state of R84 (R73, R79, R84,
R340, R347). A block whose groups have exited, whose accesses and transfers are done and that holds no deferred exception writes the dirty scalar bytes of its core back, and leaves the core once these write-backs are taken;
a kernel whose block clusters are all done completes; a Guaranteed kernel that passes its deadline is LATE (R85, R86, R123, R347,
R355). Where the spec leaves a point open, this is the reading or the choice of the model: log 43. -/
def Obligations.PlacementResults : Prop :=
  (∀ (s : State),
     (∀ (ctx : BitVec 16) (cluster : Fin 1024) (x : Ctx) (kern : Kernel) (rest : List Kernel),
       let c := ctx.toNat
       let k := cluster.val
       s.ctx c = some x → x.launches = kern :: rest → (x.state = .queued ∨ x.state = .running) → x.suspended = false →
       kern.next < kern.gridX * kern.gridY * kern.gridZ →
       (s.mayTake c x k = true ∨ ((s.cluster k).state = .running ∧ (s.cluster k).ctx = c ∧ (s.cluster k).grace = none ∧
         s.canopyActs k = true ∧ s.clusterSound k = true)) →
       kern.cluster ≤ ((coresOfCluster k).filter (fun core => s.coreFits core kern.needs)).length →
       ∃ (u : State) (y : Ctx) (b : BClus), exec (.blockClusterPlace ctx cluster) s = .next u.pump ∧ u.ctx c = some y ∧ y.state = .running ∧
         y.launches = { kern with next := kern.next + 1 } :: rest ∧ (u.cluster k).state = .running ∧ (u.cluster k).ctx = c ∧
         SMap.find u.cmp.bclus (SMap.fresh s.cmp.bclus) = some b ∧ b.ctx = c ∧ b.kernel = kern.number ∧
         b.number = kern.next ∧ b.cluster = k ∧ b.size = kern.cluster ∧ b.grid = (kern.gridX, kern.gridY, kern.gridZ) ∧
         b.blocks.length = kern.cluster ∧ ∀ e ∈ b.blocks, e.1 / 8 = k ∧ s.coreFits e.1 kern.needs = true) ∧
     (∀ (g args index n rank i entry : Nat),
       let u := s.groupStart g args index n rank i entry
       u.sReg g 0 = args % 2 ^ 64 ∧ u.sReg g 1 = index % 2 ^ 64 ∧ u.sReg g 2 = n % 2 ^ 64 ∧ u.sReg g 3 = rank % 2 ^ 64 ∧
       u.sReg g 4 = i % 2 ^ 64 ∧ (∀ l < 32, u.vReg g 0 l = (i * 32 + l) % 2 ^ 32) ∧ ∀ x ∈ u.grp g, x.pc = entry) ∧
     (∀ core : Fin 8192, s.groupsUsed core = [] → core.val ∉ s.health.retiredCores → core.val / 128 ∉ s.pwr.diesOff →
       ((s.core core).gated = true → exec (.coreGate core) s = .next (s.retainFrom core)) ∧
       ((s.core core).gated = false →
         ∃ t : State, exec (.coreGate core) s = .next t ∧ (t.core core).gated = true ∧ t.cmp.groups = s.cmp.groups ∧ t.regs = s.regs))) ∧
  (∀ (s : State),
     (∀ (core : Fin 8192) (block : Fin 16) (b : Blk) (x : BClus),
       let bk := core.val * 16 + block.val
       let gs := b.groupKeys core
       s.blk bk = some b → SMap.find s.cmp.bclus b.bc = some x → (∀ g ∈ gs, ∀ y : Grp, s.grp g = some y → y.complete = true ∧ y.halted = false) →
       x.restoring = false → (∀ a ∈ s.cmp.accs, a.core * 32 + a.slot ∉ gs) →
       (∀ e ∈ s.cmp.engs, e.1 / 16 = core.val → e.2.block = block.val → e.2.queue = []) →
       (s.steq (bk * 2)).xfers = [] → (s.steq (bk * 2 + 1)).xfers = [] →
       let first := (s.releaseSide core).pump
       let left := first.sideWrites core
       let gone := ∃ t : State, exec (.blockComplete core block) s = .next t ∧ t.blk bk = none ∧
         (∀ g ∈ gs, t.grp g = none) ∧ (∀ e ∈ t.cmp.engs, e.1 / 16 = core.val → e.2.block ≠ block.val) ∧
         (∀ g ∈ gs, ∀ n < 64, t.sReg g n = 0)
       (s.blockDeferred gs = none → b.draining = none →
         (left = [] → gone) ∧
         (left ≠ [] →
           exec (.blockComplete core block) s = .next (first.updBlk bk (fun y => { y with draining := some left })))) ∧
       (∀ ids : List Nat, s.blockDeferred gs = none → b.draining = some ids → (∀ n ∈ ids, n ∉ s.sideWrites core) → gone) ∧
       (∀ (g : Nat) (d : Deferred), s.blockDeferred gs = some (g, d) → exec (.blockComplete core block) s = .next (s.raiseDeferred g d))) ∧
     (∀ (ctx : BitVec 16) (x : Ctx),
       let c := ctx.toNat
       s.ctx c = some x →
       (∀ (k : Kernel) (rest : List Kernel), x.launches = k :: rest → x.state = .running → k.gridX * k.gridY * k.gridZ ≤ k.next →
         (∀ e ∈ s.cmp.bclus, e.2.ctx = c → e.2.kernel ≠ k.number) → x.slots = [] → (∀ a ∈ s.cmp.accs, a.ctx = c → a.kind = .load) →
         ∃ (t : State) (y : Ctx), exec (.kernelComplete ctx) s = .next t ∧ t.ctx c = some y ∧ y.launches = rest ∧
           y.state = (if rest = [] then .idle else .running) ∧
           (k.qp < 4096 → (t.qp k.qp).waiting = (s.qp k.qp).waiting ++ [⟨k.cid, 0, k.late, k.startSlot, s.now, s.uFlag⟩]) ∧
           t.cmp.mem = s.cmp.mem ∧ t.cmp.groups = s.cmp.groups) ∧
       (∀ k : Kernel, x.launches.find? (fun k => !k.late) = some k → x.cls = 0 →
         ∃ (t : State) (y : Ctx), exec (.kernelDeadline ctx) s = .next t ∧ t.ctx c = some y ∧ t.flag F.CNP_CTX_STATE_LATE c = true ∧
           y.launches = x.launches.map (fun j => if j.number = k.number then { j with late := true } else j) ∧
           (k.deadline < 2 ^ 63 → s.ring.ringU < 2 ^ 64 * 110000 → k.deadline ≤ t.now))))

/-- Service of local memory: unit power, zero-fill, the bank test, repair slots and corrected granules (R187 to R194). Where the spec leaves a point open, this is the reading or the choice of the model: log 23. -/
def Obligations.LocalMemoryServiceResults : Prop :=
  ∀ (who : Requester) (core : Fin 8192) (s : State),
    let k := core.val
    (∀ word : W64, s.mayWrite who .CORE_LM_POWER k → (∀ u < 32, bits word.toNat (2 * u) 2 ≠ 3) →
      ∃ t : State, exec (.lmPowerWrite who core word) s = .next t ∧ ∀ u < 32,
        t.unitPower k u = (if u ∈ s.unitsUsed k then s.unitPower k u
          else if (s.core k).retain = true ∧ bits word.toNat (2 * u) 2 = 0 then 1 else bits word.toNat (2 * u) 2) ∧
        (u ∉ s.unitsUsed k → bits word.toNat (2 * u) 2 = 2 → ∀ a, a / 2 ^ 15 = k * 32 + u → t.lmByte a = 0) ∧
        (u ∈ s.unitsUsed k → bits word.toNat (2 * u) 2 ≠ 0 → t.flag F.CORE_LM_STATUS_REFUSED k = true)) ∧
    (∀ unit : Fin 32, unit.val ∈ (s.core k).waking → ∃ t : State, exec (.lmUnitWakeDone core unit) s = .next t ∧
      unit.val ∉ (t.core k).waking ∧ (∀ u ∈ (s.core k).waking, u ≠ unit.val → u ∈ (t.core k).waking) ∧ t.regs = s.regs) ∧
    (∀ word : W32, s.mayWrite who .CORE_LM_ZERO k → ∃ t : State, exec (.lmZeroRequest who core word) s = .next t ∧ t.cmp = s.cmp ∧
      ∀ u < 32,
        let ok := u ∉ s.unitsUsed k ∧ s.unitPower k u = 0 ∧ u ∉ (s.core k).waking
        (ok → (t.fget F.CORE_LM_ZERO_UNITS k).testBit u = ((s.fget F.CORE_LM_ZERO_UNITS k).testBit u || word.getLsbD u)) ∧
        (¬ ok → (t.fget F.CORE_LM_ZERO_UNITS k).testBit u = (s.fget F.CORE_LM_ZERO_UNITS k).testBit u ∧
          (word.getLsbD u = true → t.flag F.CORE_LM_STATUS_REFUSED k = true))) ∧
    (∀ unit : Fin 32, (s.fget F.CORE_LM_ZERO_UNITS k).testBit unit = true → s.lmQuiet k [unit.val] = true → ∃ t : State, exec (.lmZeroDone core unit) s = .next t ∧
      (∀ u < 32, (t.fget F.CORE_LM_ZERO_UNITS k).testBit u = ((s.fget F.CORE_LM_ZERO_UNITS k).testBit u && u != unit.val)) ∧
      ∀ a, if a / 2 ^ 15 = k * 32 + unit.val then t.lmByte a = 0 ∧ t.lmPoisoned a = false
        else t.lmByte a = s.lmByte a ∧ t.lmPoisoned a = s.lmPoisoned a) ∧
    (∀ word : W64, s.mayWrite who .CORE_LM_TEST k → word.getLsbD 32 = true →
      ∃ t : State, exec (.lmTestStart who core word) s = .next t ∧ t.fget F.CORE_LM_TEST_BANKS k = word.toNat % 2 ^ 32 ∧
        (s.lmIdle k = true → (t.core k).testing = true ∧ t.flag F.CORE_LM_TEST_START k = true ∧ t.flag F.CORE_LM_TEST_DONE k = false) ∧
        (s.lmIdle k = false → t.cmp = s.cmp ∧ t.flag F.CORE_LM_STATUS_REFUSED k = true)) ∧
    (∀ failing : List (Fin 32 × Fin 137), (s.core k).testing = true → s.lmQuiet k (List.range 32) = true → ∃ t : State, exec (.lmTestDone core failing) s = .next t ∧ (t.core k).testing = false ∧
      t.flag F.CORE_LM_TEST_START k = false ∧ t.flag F.CORE_LM_TEST_DONE k = true ∧ (∀ a, a / 2 ^ 20 = k → t.lmByte a = 0) ∧
      ∀ b < 32, (s.fget F.CORE_LM_TEST_BANKS k).testBit b = true →
        ((t.reg .CORE_LM_TEST_RESULT (k * 32 + b)).toNat % 2 ^ 8 = 0 ↔
          ∀ f ∈ failing, f.1.val = b → f.2.val ∈ s.repaired k b)) ∧
    (∀ (bank : Fin 32) (word : W64),
      let i := k * 32 + bank.val
      s.regOpen .taproot .CORE_LM_REPAIR i = true → s.lmIdle k = true → (∀ j < 4, bits word.toNat (16 * j) 8 ≤ 136) →
      ∃ t : State, exec (.lmRepairWrite .taproot core bank word) s = .next t ∧
        (∀ j < 4, bits (t.reg .CORE_LM_REPAIR i).toNat (16 * j) 9 =
          bits (if (s.reg .CORE_LM_REPAIR i).getLsbD (16 * j + 9) then s.reg .CORE_LM_REPAIR i else word).toNat (16 * j) 9) ∧
        (t.reg .CORE_LM_REPAIR i ≠ s.reg .CORE_LM_REPAIR i → (t.core k).refill = true)) ∧
    (∀ granule : Fin 65536, granule.val ∈ (s.core k).corrected → ∃ t : State, exec (.lmCeWriteback core granule) s = .next t ∧
      (t.core k).corrected = (s.core k).corrected.erase granule ∧
      t.fget F.CORE_LM_CE_COUNT (k * 32 + granule.val % 32) = min 65535 (s.fget F.CORE_LM_CE_COUNT (k * 32 + granule.val % 32) + 1))

/-! ### Coherence (08) -/

/-- Requests at their home: reads answer with data, invalidating writes and atomics act on memory, holders are snooped first, and a
request whose set is full and busy is told to retry (R219, R225 to R230, R264). What a quadrant cache answers to a snoop, by the state of the line: the table of R224 for the stable states; a cache without
the line misses, and one that a tag failure stopped answers SnpPoison (R224, R226, R233). Where the spec leaves a point open, this is the reading or the choice of the model: log 28 and 29. -/
def Obligations.HomeResults : Prop :=
  (∀ (k : Nat) (s s1 : State) (m : Msg),
     let line := m.line
     let data := fun (kind : MsgKind) => ({ kind := kind, line := line, quad := m.quad, acc := m.acc, data := s.memLine line,
                                            poison := s.isPoisoned line } : Msg)
     let snp := fun (kind : MsgKind) (q : Nat) => ({ kind := kind, line := line, quad := q, fwd := some m.quad, fwdAcc := m.acc,
                                                     part := m.part } : Msg)
     s.dirFound line = .none →
     (s.populated (line * 128) = true → s.hwRefused (line * 128) = none → s.struck .mem line = false → s.dirEntry line = none →
       s.fifoHeld line = false → (s.dirWays line).length < 16 →
       (s.startable .getS k = some (m, s1) → m.kind = .getS → ∃ (t : State) (e : DirEntry), exec (.gets k .none) s = .next t ∧
         t.dirEntry line = some e ∧ e.busy = true ∧ t.lineBusy line = true ∧
         ((∀ r ∈ s.cmp.rsvs, r.line ≠ line) → e.kind = .x ∧ e.owner = m.quad ∧ t.cmp.net = s1.cmp.net ++ [data .dataE]) ∧
         ((∃ r ∈ s.cmp.rsvs, r.line = line) → e.kind = .s ∧ e.sharers = [m.quad] ∧ t.cmp.net = s1.cmp.net ++ [data .dataS])) ∧
       (s.startable .getM k = some (m, s1) → m.kind = .getM → ∃ (t : State) (e : DirEntry), exec (.getm k .none) s = .next t ∧
         t.dirEntry line = some e ∧ e.kind = .x ∧ e.owner = m.quad ∧ t.cmp.net = s1.cmp.net ++ [data .dataM] ∧
         ∀ r ∈ t.cmp.rsvs, r.line ≠ line) ∧
       (s.startable .readOnce k = some (m, s1) → m.kind = .readOnce → ∃ t : State, exec (.readonce k .none) s = .next t ∧
         t.cmp.net = s1.cmp.net ++ [data .dataOnce] ∧ t.lineBusy line = false ∧ t.cmp.dir = s.cmp.dir) ∧
       ((s.startable .writeInvFull k = some (m, s1) ∧ m.kind = .writeInvFull) ∨
           (s.startable .writeInvPart k = some (m, s1) ∧ m.kind = .writeInvPart) →
         ∃ t : State, (m.kind = .writeInvFull → exec (.writeinvfull k) s = .next t) ∧
           (m.kind = .writeInvPart → exec (.writeinvpart k .none) s = .next t) ∧
           t.cmp.net = s1.cmp.net ++ [{ kind := .comp, line := line, quad := m.quad, acc := m.acc }] ∧ t.lineBusy line = false ∧
           (∀ i < 128, t.memByte (line * 128 + i) = if m.mask.testBit i then lineByte m.data i else s.memByte (line * 128 + i)) ∧
           (∀ a, a / 128 ≠ line → t.memByte a = s.memByte a) ∧ ∀ r ∈ t.cmp.rsvs, r.line ≠ line) ∧
       (∀ a : Atom, s.startable .atomic k = some (m, s1) → m.kind = .atomic → m.atom = some a → a.op ≠ .loadRsv → a.op ≠ .storeCond →
         s.isPoisoned line = false → ∃ t : State, exec (.atomicHome k .none) s = .next t ∧
           t.cmp.net = s1.cmp.net ++ [{ kind := .atomResult, line := line, quad := m.quad, acc := m.acc, atom := some { a with
             lanes := (a.apply (s.memLine line)).2.map (fun x => ⟨x.1, 0, x.2, 0⟩) } }] ∧
           t.memLine line = (a.apply (s.memLine line)).1 ∧ ∀ b, b / 128 ≠ line → t.memByte b = s.memByte b)) ∧
     (∀ (e : DirEntry) (o : Nat), s.dirEntry line = some e → e.owned = some o →
       (s.startable .getS k = some (m, s1) → m.kind = .getS → ∃ t : State, exec (.gets k .none) s = .next t ∧
         t.cmp.net = s1.cmp.net ++ [snp .snpShared o] ∧ t.cmp.mem = s.cmp.mem ∧ t.dirEntry line = some { e with busy := true }) ∧
       (s.startable .getM k = some (m, s1) → m.kind = .getM → o ≠ m.quad → ∃ t : State, exec (.getm k .none) s = .next t ∧
         t.cmp.net = s1.cmp.net ++ snp .snpInvFwd o ::
           (e.sharerQuads.filter (fun q => q != m.quad)).map (fun q => snp .snpInv q) ∧ t.cmp.mem = s.cmp.mem) ∧
       (s.startable .readOnce k = some (m, s1) → m.kind = .readOnce → ∃ t : State, exec (.readonce k .none) s = .next t ∧
         t.cmp.net = s1.cmp.net ++ [snp .snpOnce o] ∧ t.cmp.mem = s.cmp.mem) ∧
       (s.startable .writeInvFull k = some (m, s1) → m.kind = .writeInvFull → ∃ t : State, exec (.writeinvfull k) s = .next t ∧
         t.cmp.net = s1.cmp.net ++ snp .snpInv o :: e.sharerQuads.map (fun q => snp .snpInv q) ∧ t.cmp.mem = s.cmp.mem) ∧
       (s.startable .atomic k = some (m, s1) → m.kind = .atomic → ∃ t : State, exec (.atomicHome k .none) s = .next t ∧
         t.cmp.net = s1.cmp.net ++ snp .snpRecall o :: e.sharerQuads.map (fun q => snp .snpInv q) ∧ t.cmp.mem = s.cmp.mem)) ∧
     (s.startable .getS k = some (m, s1) → m.kind = .getS → m.atom = none → s.dirEntry line = none → s.fifoHeld line = false →
       16 ≤ (s.dirWays line).length → (∀ w ∈ s.dirWays line, w.2.busy = true) →
       ∃ t : State, exec (.gets k .none) s = .next t ∧ t.cmp.parked = s.cmp.parked ++ [m] ∧
         t.cmp.net = s1.cmp.net ++ [{ kind := .retry, line := line, quad := m.quad }] ∧ t.cmp.mem = s.cmp.mem)) ∧
  (∀ (k r : Nat) (s s1 : State) (m : Msg) (kind : MsgKind), s.arrival kind k = some (m, s1) →
     kind ∈ [.snpShared, .snpInvFwd, .snpOnce, .snpInv, .snpRecall] → (m.fwd = some r ∨ kind = .snpInv ∨ kind = .snpRecall) →
     let command : Instr := match kind with
       | .snpShared => .snpshared k
       | .snpInvFwd => .snpinvfwd k
       | .snpOnce => .snponce k
       | .snpInv => .snpinv k
       | _ => .snprecall k
     let line := m.line
     let q := m.quad
     (q ∈ s.cmp.qdead → ∃ t : State, exec command s = .next t ∧
       t.cmp.net = s1.cmp.net ++ [{ kind := .snpPoison, line := line, quad := q }] ∧ t.cmp.qlines = s.cmp.qlines) ∧
     (q ∉ s.cmp.qdead → s.qline q line = none → ∃ t : State, exec command s = .next t ∧
       t.cmp.net = s1.cmp.net ++ [{ kind := if kind = .snpInv ∨ kind = .snpRecall then .snpAck else .snpMiss, line := line, quad := q }] ∧
       t.cmp.qlines = s.cmp.qlines) ∧
     (∀ l : QLine, q ∉ s.cmp.qdead → s.qline q line = some l → l.st.stable = true →
       let own := l.st ≠ .s
       let fwd := fun (kind : MsgKind) => ({ kind := kind, line := line, quad := r, acc := m.fwdAcc, fwd := some q, data := l.data,
                                             poison := l.poison, hw := l.hw } : Msg)
       let ans := fun (kind : MsgKind) (st : Option LState) => ({ kind := kind, line := line, quad := q, data := l.data,
                                                                  poison := l.poison, state := st } : Msg)
       ∃ t : State, exec command s = .next t ∧ t.cmp.mem = s.cmp.mem ∧
         (kind = .snpShared → own →
           let st := if l.st = .e then LState.s else .o
           t.cmp.net = s1.cmp.net ++ [fwd .dataS, ans .snpRspFwd (some st)] ∧ t.qline q line = some { l with st := st }) ∧
         (kind = .snpInvFwd → own → t.cmp.net = s1.cmp.net ++ [fwd .dataM, ans .snpRspFwd none] ∧ t.qline q line = none) ∧
         (kind = .snpOnce → own → t.cmp.net = s1.cmp.net ++ [fwd .dataOnce, ans .snpRspFwd (some l.st)] ∧ t.qline q line = some l) ∧
         (kind = .snpInv → t.cmp.net = s1.cmp.net ++ [ans .snpAck none] ∧ t.qline q line = none) ∧
         (kind = .snpRecall → t.cmp.net = s1.cmp.net ++ [ans (if l.st = .m ∨ l.st = .o then .snpRspData else .snpAck) none] ∧
           t.qline q line = none) ∧
         (¬ own → (kind = .snpShared ∨ kind = .snpOnce) → t.cmp.net = s1.cmp.net ++ [ans .snpAck none] ∧ t.qline q line = some l)))

/-- Answers at a home: each answer is no longer due; the transaction goes on when none is; CompAck ends it; WbData without a
transaction goes to memory and is acknowledged; a parked request takes a way that has become free (R225 to R228, R231). Answers at a requester: data that carries Comp, and data of an owner after the home's Comp, make the line stable, CompAck leaves
and the access is served; results end accesses; WbAck frees the buffer (R220, R224, R229). Where the spec leaves a point open, this is the reading or the choice of the model: log 28 and 29. -/
def Obligations.AnswerResults : Prop :=
  (∀ (k : Nat) (s s1 : State) (m : Msg) (x : Txn),
     let line := m.line
     let left := x.wait.erase m.quad
     let own := s.isOwner line m.quad
     (SMap.find s.cmp.txns line = some x →
       (∀ (kind : MsgKind) (c : Instr) (y : Txn), (kind, c, y) ∈
           [(.snpMiss, .snpmiss k, if own then { x with wait := left, missed := true } else { x with wait := left }),
            (.snpMissWbp, .snpmisswbp k, { x with wait := left, wbp := true }),
            (.snpRspFwd, .snprspfwd k, { x with wait := left, forwarded := true, ownerState := some (m.state.getD .is) }),
            (.snpRspData, .snprspdata k, { x with wait := left, back := some (m.data, m.poison) })] →
         s.arrival kind k = some (m, s1) →
         exec c s = .next ((s1.updTxn line (fun _ => y)).settle line) ∧
         (left ≠ [] → ∃ t : State, exec c s = .next t ∧ SMap.find t.cmp.txns line = some y ∧ t.cmp.net = s1.cmp.net ∧
           t.cmp.dir = s.cmp.dir ∧ t.cmp.mem = s.cmp.mem)) ∧
       (left ≠ [] → own = false → s.arrival .snpAck k = some (m, s1) → ∃ t : State, exec (.snpack k) s = .next t ∧
         SMap.find t.cmp.txns line = some { x with wait := left } ∧ t.cmp.dir = s.cmp.dir ∧ t.cmp.mem = s.cmp.mem) ∧
       (left ≠ [] → own = true → s.arrival .snpPoison k = some (m, s1) → ∃ t : State, exec (.snppoison k) s = .next t ∧
         SMap.find t.cmp.txns line = some { x with wait := left, missed := true } ∧ t.isPoisoned line = true) ∧
       (∀ (req : Msg) (e : DirEntry), s.arrival .snpRspFwd k = some (m, s1) → x = { req := some req, wait := [m.quad] } →
         req.kind = .getS → req.line = line → m.state = some .o → s.dirEntry line = some e → e.kind = .x → e.owner = m.quad →
         e.sharers = [] → e.coarse = false → ∃ t : State, exec (.snprspfwd k) s = .next t ∧
           t.dirEntry line = some { e with kind := .o, sharers := [req.quad] } ∧ t.cmp.mem = s.cmp.mem ∧
           t.cmp.net = s1.cmp.net ++ [{ kind := .comp, line := line, quad := req.quad, acc := req.acc, fwd := some m.quad }]) ∧
       (s.arrival .compAck k = some (m, s1) → x.answered = true → x.req.map (·.quad) = some m.quad →
         ∃ t : State, exec (.compack k) s = .next t ∧ t.lineBusy line = false ∧
           t.dirEntry line = (s.dirEntry line).map (fun e => { e with busy := false }) ∧ t.cmp.mem = s.cmp.mem)) ∧
     (s.lineBusy line = false → s.arrival .wbData k = some (m, s1) → s.populated (line * 128) = true →
       s.hwRefused (line * 128) = none → own = true → s.struck .memWrite line = false → ∃ t : State, exec (.wbdata k) s = .next t ∧ t.memLine line = m.data ∧
         t.isPoisoned line = m.poison ∧ (∀ a, a / 128 ≠ line → t.memByte a = s.memByte a) ∧
         t.cmp.net = s1.cmp.net ++ [{ kind := .wbAck, line := line, quad := m.quad }] ∧
         ∀ e, s.dirEntry line = some e → t.dirEntry line =
           if e.kind = .o ∧ e.sharers ≠ [] then some { e with kind := .s } else none) ∧
     (∀ (home : Fin 16) (set : Fin 262144) (rest : List Msg),
       takeFirst (fun m => s.setKey m.line == home.val * 2 ^ 18 + set.val) s.cmp.parked = some (m, rest) →
       s.lineBusy line = false → s.dirEntry line = none → (s.dirWays line).length < 16 →
       exec (.retryFifoGrant home set) s =
         .next (((({ s with cmp := { s.cmp with parked := rest } } : State).startCancels m).openTxn line (some m) []).settle line))) ∧
  (∀ (k : Nat) (s s1 : State) (m : Msg),
     let line := m.line
     let q := m.quad
     let stable := fun (l : QLine) (st : LState) =>
       (((s1.setQ q line { l with st := st, got := none, comp := none }).send { kind := .compAck, line := line, quad := q }).lineReady q
         line).pump
     (∀ (kind : MsgKind) (c : Instr) (st : LState), (kind, c, st) ∈
         [(.dataS, .datas k, .s), (.dataE, .datae k, .e), (.dataM, .datam k, .m)] →
       s.arrival kind k = some (m, s1) → ∀ l : QLine, s1.qline q line = some l → l.st.stable = false → l.st ≠ .wb →
         let l' := { l with data := m.data, poison := m.poison, hw := m.hw }
         (m.fwd = none ∨ l.comp ≠ none → exec c s = .next (stable l' st)) ∧
         (m.fwd ≠ none → l.comp = none → exec c s = .next (s1.setQ q line { l' with got := some st }))) ∧
     (s.arrival .comp k = some (m, s1) → m.acc = 0 → ∀ l : QLine, s1.qline q line = some l → l.st.stable = false → l.st ≠ .wb →
       (m.fwd = none → exec (.comp k) s = .next (stable l .m)) ∧
       (∀ st, m.fwd ≠ none → l.got = some st → exec (.comp k) s = .next (stable l st)) ∧
       (m.fwd ≠ none → l.got = none → exec (.comp k) s = .next (s1.setQ q line { l with comp := some true }))) ∧
     (∀ a : Access, s1.accOf m.acc = some a →
       (s.arrival .comp k = some (m, s1) → m.acc ≠ 0 → exec (.comp k) s = .next (s1.finishStore a m.code).pump) ∧
       (s.arrival .dataOnce k = some (m, s1) →
         exec (.dataonce k) s = .next (s1.finishLoad a m.data (if m.poison then 0x28 else 0)).pump) ∧
       (s.arrival .atomResult k = some (m, s1) → ∀ t, m.atom = some t →
         exec (.atomicResult k) s = .next (s1.finishAtomic a (t.lanes.map (fun l => (l.lane, l.b))) m.code).pump)) ∧
     (s.arrival .retry k = some (m, s1) → ∃ t : State, exec (.retryMsg k) s = .next t ∧ t.cmp.qlines = s.cmp.qlines ∧
       t.cmp.accs = s.cmp.accs ∧ t.cmp.net = s1.cmp.net) ∧
     (s.arrival .wbAck k = some (m, s1) → ∀ l : QLine, s1.qline q line = some l → l.st = .wb →
       exec (.wback k) s = .next (s1.delQ q line).pump ∧ (s1.delQ q line).qline q line = none))

/-- A flush ends with none of the lines left that it found when it began and that it covers, the lines that it does not cover as they
were, and DONE set; the recall of a directory set ends with the set empty (R217, R233, R234). Where the spec leaves a point open, this is the reading or the choice of the model: log 30. -/
def Obligations.FlushAndRecallResults : Prop :=
  ∀ (s : State),
    (∀ (quad : Fin 256) (f : Flush), s.cmp.flushing.find? (fun f => f.quad == quad.val) = some f →
      (∀ e ∈ s.cmp.qlines, e.1 / 2 ^ 39 = quad.val → f.covers e.2 = true → e.2.st.stable = true ∧ s.lineBusy (e.1 % 2 ^ 39) = false) →
      ∃ t : State, exec (.qdcFlushDone quad) s = .next t ∧
        (∀ line ∈ f.lines, line < 2 ^ 39 → (∀ e ∈ s.cmp.qlines, e.1 = qkey quad line → f.covers e.2 = true) → t.qline quad line = none) ∧
        (∀ line < 2 ^ 39, (∀ e ∈ s.cmp.qlines, e.1 = qkey quad line → f.covers e.2 = false) → t.qline quad line = s.qline quad line) ∧
        (∀ g ∈ t.cmp.flushing, g.quad ≠ quad.val) ∧ t.flag F.QDC_FLUSH_START quad = false ∧ t.flag F.QDC_FLUSH_DONE quad = true ∧
        ∀ e ∈ s.cmp.qlines, e.1 / 2 ^ 39 ≠ quad.val → SMap.find t.cmp.qlines e.1 = SMap.find s.cmp.qlines e.1) ∧
    (∀ (home : Fin 16) (set : Fin 262144),
      let key := home.val * 2 ^ 18 + set.val
      key ∈ s.cmp.recalls →
      (∀ e ∈ s.cmp.qlines, s.setKey (e.1 % 2 ^ 39) = key → e.2.st.stable = true ∧ s.lineBusy (e.1 % 2 ^ 39) = false) →
      ∃ t : State, exec (.directorySetRecallDone home set) s = .next t ∧ key ∉ t.cmp.recalls ∧
        (∀ line, s.setKey line = key → t.dirEntry line = none) ∧ ∀ e ∈ t.cmp.qlines, s.setKey (e.1 % 2 ^ 39) ≠ key)

/-! ### The memory of the home dies in service (10, 19) -/

/-- Scrub, temperature, map-out, post-package repair and the loss of a home die (R272, R282 to R289, R497, R498). Where the spec leaves a point open, this is the reading or the choice of the model: log 32. -/
def Obligations.MemoryServiceResults : Prop :=
  ∀ (who : Requester) (s : State),
    (∀ (quad : Fin 256) (word : W32), s.mayWrite who .QDC_FLUSH quad → word.getLsbD 15 = true →
      ((∀ f ∈ s.cmp.flushing, f.quad ≠ quad.val) → ∃ (t : State) (f : Flush), exec (.qdcFlush who quad word) s = .next t ∧
        t.cmp.flushing = s.cmp.flushing ++ [f] ∧ f.quad = quad.val ∧ f.part = word.toNat % 1024 ∧
        (∀ line, line ∈ f.lines ↔ ∃ e ∈ s.cmp.qlines, e.1 / 2 ^ 39 = quad.val ∧ e.1 % 2 ^ 39 = line) ∧
        t.flag F.QDC_FLUSH_START quad = true ∧ t.flag F.QDC_FLUSH_DONE quad = false ∧
        t.fget F.QDC_FLUSH_PART quad = word.toNat % 1024 ∧ t.fget F.QDC_FLUSH_MODE quad = f.mode) ∧
      ((∃ f ∈ s.cmp.flushing, f.quad = quad.val) → ∃ t : State, exec (.qdcFlush who quad word) s = .next t ∧ t.cmp = s.cmp)) ∧
    (∀ (home : Fin 16) (corrected : Nat) (failing : List Nat),
      (∀ l ∈ failing, s.homeOf l = home.val ∧ s.populated (l * 128) = true ∧ s.isPoisoned l = false) →
      ∃ t : State, exec (.patrolScrub home corrected failing) s = .next t ∧
        (∀ l, t.isPoisoned l = (failing.contains l || s.isPoisoned l)) ∧ t.cmp.mem = s.cmp.mem ∧
        t.fget F.HOM_MEM_CE_COUNT home = min 65535 (s.fget F.HOM_MEM_CE_COUNT home + min corrected 65536) ∧
        (failing ≠ [] → t.flag F.HOM_MEM_ERRLOG_VALID home = true)) ∧
    (∀ (stack : Fin 32) (temp : W16),
      let old := s.fget (levelFld stack) (stack.val / 2)
      ∃ t : State, exec (.stackTemperatureRead stack temp) s = .next t ∧
        t.fget (tempFld stack) (stack.val / 2) = temp.toNat ∧
        let new := t.fget (levelFld stack) (stack.val / 2)
        (105 * 16 ≤ temp.toInt → new = 3) ∧ (temp.toInt ≤ 82 * 16 → new = 0) ∧
        (95 * 16 ≤ temp.toInt → temp.toInt ≤ 102 * 16 → new = 2) ∧
        (85 * 16 ≤ temp.toInt → temp.toInt ≤ 92 * 16 → new = 1) ∧
        (92 * 16 < temp.toInt → temp.toInt < 95 * 16 → new = if old < 2 then 1 else 2) ∧
        (82 * 16 < temp.toInt → temp.toInt < 85 * 16 → new = min old 1) ∧
        (102 * 16 < temp.toInt → temp.toInt < 105 * 16 → new = if old < 3 then 2 else 3)) ∧
    (∀ (home : Fin 16) (word : W32), s.mayWrite who .HOM_PC_MAPOUT home → word.getLsbD 31 = true →
      ∃ t : State, exec (.pcMapout who home word) s = .next t ∧ t.flag F.HOM_PC_MAPOUT_GO home = true ∧
        t.fget F.HOM_PC_MAPOUT_TARGET home = word.toNat % 64 ∧ t.cmp = s.cmp) ∧
    (∀ home : Fin 16, s.flag F.HOM_PC_MAPOUT_GO home = true →
      let c := chanOf home (if s.flag F.HOM_PC_MAPOUT_PORT home then none else some (s.fget F.HOM_PC_MAPOUT_TARGET home))
      ∃ t : State, exec (.pcMapoutDone home) s = .next t ∧ t.chanState c = 2 ∧ t.flag F.HOM_PC_MAPOUT_GO home = false ∧
        (s.chanState c ≠ 2 → t.fget F.HOM_CAP_HBM_MIB home = t.hbmMib home)) ∧
    (∀ (home : Fin 16) (target : Option (Fin 64)),
      let c := chanOf home (target.map (·.val))
      s.chanState c < 2 → ∃ t : State, exec (.channelStopsAnswering home target) s = .next t ∧ t.chanState c = 2 ∧
        t.fget F.HOM_CAP_HBM_MIB home = t.hbmMib home) ∧
    (∀ (pc : Fin 1024) (lines lost : List Nat), (∀ l ∈ lines ++ lost, s.chanAt l = .pc pc) →
      (lines = [] → s.pcState pc = 0 → ∃ t : State, exec (.postPackageRepair pc lines lost) s = .next t ∧ t.pcState pc = 1) ∧
      (lines ≠ [] → ∃ t : State, exec (.postPackageRepair pc lines lost) s = .next t ∧
        (∀ l, t.isPoisoned l = (lost.contains l || s.isPoisoned l)) ∧ t.cmp.mem = s.cmp.mem)) ∧
    (∀ home : Fin 16, s.fget F.TAP_DIE_HEALTH_STATE (64 + home.val) ≠ 2 →
      ∃ u : State, exec (.homeDieLoss home) s = .next u.pump ∧ u.fget F.TAP_DIE_HEALTH_STATE (64 + home.val) = 2 ∧
        u.fget F.TAP_DIE_HEALTH_CAUSE (64 + home.val) = 7 ∧ (∀ j < 64, 2 ≤ u.pcState (home.val * 64 + j)) ∧
        (∀ e ∈ u.cmp.qlines, s.homeOf (e.1 % 2 ^ 39) ≠ home.val) ∧ (∀ e ∈ u.cmp.txns, s.homeOf e.1 ≠ home.val) ∧
        ∀ r ∈ u.cmp.rsvs, s.homeOf r.line ≠ home.val)

/-- The commands of a Heartwood region, each acting by the CMD that its word holds, and its repair, by its state (R292, R295, R487 to R490). Where the spec leaves a point open, this is the reading or the choice of the model: log 33. -/
def Obligations.HeartwoodResults : Prop :=
  ∀ (who : Requester) (region : Fin 64) (word : W64) (s : State),
    let r := region.val
    let cmds := [Instr.hwSeal who region word, .hwRelease who region word, .hwReload who region word]
    let ready := s.mayWrite who .HOM_HW_CTL r ∧ s.fget F.HOM_HW_CTL_CMD r = 0
    let ends := fun (c : Instr) (state cmd err : Nat) =>
      ∃ t : State, exec c s = .next t ∧ t.hwState r = state ∧ t.fget F.HOM_HW_CTL_CMD r = cmd ∧
        (err = 1 → t.flag F.HOM_HW_CTL_ERR r = true) ∧ t.cmp.mem = s.cmp.mem ∧ (state = 0 ∨ state = 2 → r ∉ t.cmp.qfilter ∨ err = 1)
    let snooped := fun (t : State) (p : Nat → Bool) => ∀ (line : Nat) (e : DirEntry), p line = true → s.dirEntry line = some e →
      e.busy = false → ∀ x ∈ e.invalidate false, ∃ m ∈ t.cmp.net, m.kind = x.1 ∧ m.line = line ∧ m.quad = x.2
    (ready → bits word.toNat 4 3 = 1 → ∀ c ∈ cmds,
      (s.hwState r = 1 → ends c 1 1 0) ∧ (s.hwState r ≠ 1 → ends c (s.hwState r) 0 1)) ∧
    (ready → bits word.toNat 4 3 = 2 → ∀ c ∈ cmds,
      (s.hwState r ≠ 0 → (∀ e ∈ s.cmp.dir, s.hwLine r e.1 = true → e.2.busy = true ∨ e.2.invalidate false ≠ []) →
        ends c 0 2 0 ∧ ∃ t : State, exec c s = .next t ∧
          t.reg .HOM_HW_CNT r = 0 ∧ snooped t (fun line => s.hwLine r line)) ∧
      (s.hwState r = 0 → ends c 0 0 1)) ∧
    (ready → bits word.toNat 4 3 = 3 → ∀ c ∈ cmds,
      (s.hwState r = 4 → ends c 1 0 0) ∧ (s.hwState r ≠ 4 → ends c (s.hwState r) 0 1)) ∧
    (s.fget F.HOM_HW_CTL_CMD r = 1 →
      ((∀ b < s.fget F.HOM_HW_LEN_LEN r * 32, (s.hwBlockGood r 0 b).1 = true ∧ (s.hwBlockGood r 1 b).1 = true) →
        ends (.hwSealDone region) 2 0 0) ∧
      (∀ b c, s.hwFirstBad r = some (b, c) → ∃ t : State, exec (.hwSealDone region) s = .next t ∧ t.hwState r = s.hwState r ∧
        t.flag F.HOM_HW_CTL_ERR r = true ∧ t.fget F.HOM_HW_CTL_FAIL_BLOCK r = b % 2 ^ 25 ∧ t.fget F.HOM_HW_CTL_FAIL_COPY r = c)) ∧
    (s.fget F.HOM_HW_CTL_CMD r = 2 → (∀ e ∈ s.cmp.txns, s.hwLine r e.1 = false) → (∀ m ∈ s.cmp.net, m.hw = true → s.hwLine r m.line = false) →
      let left := fun (line : Nat) => s.cmp.qlines.any (fun e => e.2.hw && s.hwLine r (e.1 % 2 ^ 39) && e.1 % 2 ^ 39 == line)
      ((∀ line, left line = false) → ∃ t : State, exec (.hwReleaseDone region) s = .next t ∧ t.fget F.HOM_HW_CTL_CMD r = 0 ∧
        t.cmp = s.cmp) ∧
      ((∃ line, left line = true) → ∃ t : State, exec (.hwReleaseDone region) s = .next t ∧ t.fget F.HOM_HW_CTL_CMD r = 2 ∧
        snooped t left)) ∧
    (s.hwState r = 2 → s.fget F.HOM_HW_CNT_FALLBACKS r ≠ 0 → ∃ t : State, exec (.repairStart region) s = .next t ∧ t.hwState r = 3) ∧
    (s.hwState r = 3 →
      (∀ b < s.fget F.HOM_HW_LEN_LEN r * 32, (s.hwBlockGood r 0 b).1 = true ∧ (s.hwBlockGood r 1 b).1 = true) →
      ∃ t : State, exec (.repairEnd region) s = .next t ∧ t.hwState r = 2 ∧ t.cmp.mem = s.cmp.mem ∧
        t.fget F.HOM_HW_CNT_REPAIRS r = min (2 ^ 32 - 1) (s.fget F.HOM_HW_CNT_REPAIRS r + 1))

/-! ### Address translation (11) -/

/-- What a translation answers for a cached leaf: the rights, the target and the address; without one a walk, and beyond 57 bits a
decode error (R303, R304, R310). Walks, host translations and their responses: the entry that is found fills the TLBs and what waits for the page goes on; what is
not translated is an outcome of the access (R305 to R311, R318). Where the spec leaves a point open, this is the reading or the choice of the model: log 16 and 39. -/
def Obligations.TranslationResults : Prop :=
  (∀ (s : State) (cluster ctx va : Nat) (misses : List Miss) (r : Right),
     (2 ^ 57 ≤ va → s.translate cluster ctx misses r va = .fault 0x24) ∧
     (va < 2 ^ 57 → (∀ m ∈ misses, ¬ (m.base ≤ va ∧ va < m.base + m.size)) →
       (s.flag F.XLT_CTT_BASE_EN = false → s.translate cluster ctx misses r va = .fault 0x24) ∧
       (s.flag F.XLT_CTT_BASE_EN = true →
         (s.leaf cluster ctx va = none → s.translate cluster ctx misses r va = .walk) ∧
         (∀ (t : Tlb) (b : Bool), s.leaf cluster ctx va = some (t, b) →
           let out := t.out + (va - t.base)
           (r = .read ∧ t.rd = false ∨ r = .write ∧ t.wr = false ∨ r = .fetch ∧ (t.rd = false ∨ t.target = 1 ∨ t.target = 2) ∨
               r = .atomic ∧ (t.at' = false ∨ (t.attr = 3 ∧ t.target ≠ 1) ∨ t.target = 2) ∨
               (r = .loadRsv ∨ r = .storeCond) ∧ (t.at' = false ∨ t.attr = 3 ∨ t.target = 1 ∨ t.target = 2) →
             s.translate cluster ctx misses r va = .fault 0x23) ∧
           ((r = .read ∧ t.rd = true ∨ r = .write ∧ t.wr = true ∨ r = .fetch ∧ t.rd = true ∧ t.target = 0) →
             (t.target = 0 → (∀ x ∈ s.ctx ctx, x.service = true) → (s.ctx ctx).isSome → s.populated out = true →
               s.translate cluster ctx misses r va = .hit ⟨0, t.attr, out⟩) ∧
             (t.target = 0 → (∀ x ∈ s.ctx ctx, x.service = true) → (s.ctx ctx).isSome → s.populated out = false →
               s.translate cluster ctx misses r va = .fault 0x24) ∧
             (t.target = 0 → (∀ x ∈ s.ctx ctx, x.service = false) → (∃ q ∈ s.cmp.qfilter, q < 64 ∧
                 s.hwBase q 0 ≤ out ∧ out < s.hwBase q 0 + hwCopyLen (s.fget F.HOM_HW_LEN_LEN q)) →
               s.translate cluster ctx misses r va = .fault 0x27) ∧
             (t.target = 1 → s.ownStand out = true → (∀ x ∈ s.ctx ctx, x.service = true) → (s.ctx ctx).isSome →
               s.populated (out % 2 ^ 46) = true → s.translate cluster ctx misses r va = .hit ⟨0, 0, out % 2 ^ 46⟩) ∧
             (t.target = 1 → s.ownStand out = false → s.translate cluster ctx misses r va = .hit ⟨1, t.attr, out⟩)))))) ∧
  (∀ (k : Nat) (s : State),
     (∀ w : Walk, s.cmp.walks[k]? = some w →
       let va := w.page * 65536
       let f := (({ s with cmp := { s.cmp with walks := s.cmp.walks.eraseIdx k } } : State).walk w.quad w.ctx va).2
       let woken := fun (t : State) (miss : Option Miss) => ∀ g x, s.grp g = some x → x.ctx = w.ctx → x.wait = .walk w.page →
         g / 32 / 8 / 4 = w.quad → t.grp g = some { x with wait := .none, misses := miss.toList ++ x.misses }
       (w.again = true → ∃ t : State, exec (.walkComplete k) s = .next t ∧
         t.cmp.walks = s.cmp.walks.set k { w with again := false } ∧ t.cmp.groups = s.cmp.groups) ∧
       (w.again = false →
         (∀ e level, f = .leaf e level → ∃ t : State, exec (.walkComplete k) s = .next t ∧ woken t none ∧
           (∃ x ∈ t.cmp.tlbs, x.quad = false ∧ x.unit = w.cluster ∧ x.ctx = w.ctx ∧ x.base = va / ptSpan level * ptSpan level ∧
             x.size = ptSpan level ∧ x.rd = e.testBit 2 ∧ x.wr = e.testBit 3 ∧ x.at' = e.testBit 4 ∧ x.attr = bits e 5 2 ∧
             x.target = bits e 8 2 ∧ x.out = bits e 16 44 * 65536)) ∧
         (∀ code, f = .fault code → ∃ t : State, exec (.walkComplete k) s = .next t ∧ woken t (some ⟨va, 65536, code⟩)) ∧
         (∀ pa level, f = .bad pa level → ∃ t : State, exec (.walkComplete k) s = .next t ∧ woken t (some ⟨va, 65536, 0x24⟩)))) ∧
     (∀ (h : HostXlt) (s1 : State), s.hostNth (fun h => h.phase != 1 && h.phase != 3) k = some (h, s1) →
       (∀ (r w : Bool) (log : Fin 19) (addr : W64), (if h.write then w else r) = true →
         let bytes := 4096 * 2 ^ log.val
         ∃ t : State, exec (.atsCompletion k (.granted r w log addr)) s = .next t ∧
           (∃ x ∈ t.cmp.tlbs, x.quad = false ∧ x.unit = h.cluster ∧ x.ctx = h.ctx ∧ x.host = true ∧ x.size = bytes ∧ x.rd = r ∧
             x.wr = w ∧ x.out = addr.toNat / bytes * bytes ∧ x.base = h.page * 4096 / bytes * bytes) ∧
           ∀ g x, s.grp g = some x → x.ctx = h.ctx → x.wait = .host h.page → g / 32 / 8 = h.cluster →
             t.grp g = some { x with wait := .none }) ∧
       (∀ (r w : Bool) (log : Fin 19) (addr : W64), (if h.write then w else r) = false →
         exec (.atsCompletion k (.granted r w log addr)) s = exec (.atsCompletion k .denied) s) ∧
       (h.cluster = hostAgent → exec (.atsCompletion k .denied) s = .next (s1.hostPut { h with phase := 3 })) ∧
       (h.cluster ≠ hostAgent → h.phase ≠ 2 → h.func ∉ s.cmp.priFailed →
         (s.cmp.hostXlt.filter (fun x => x.func == h.func && x.phase == 1)).length < 512 →
         ∃ (t : State) (n : Nat), n < 512 ∧ exec (.atsCompletion k .denied) s = .next t ∧
           t.out = .pageRequest h.func h.pasid n (h.page * 4096) h.write :: s.out ∧ { h with phase := 1 } ∈ t.cmp.hostXlt) ∧
       (h.cluster ≠ hostAgent → h.phase = 2 →
         exec (.atsCompletion k .denied) s = .next (s1.wakeHost h (some ⟨h.page * 4096, 4096, 0x22⟩)))) ∧
     (∀ res, s.hostNth (fun h => h.phase != 1 && h.phase != 3) k = none → exec (.atsCompletion k res) s = .next s) ∧
     (∀ res, s.hostNth (fun h => h.phase == 1) k = none → exec (.prgResponse k res) s = .next s) ∧
     (∀ (h : HostXlt) (s1 : State), s.hostNth (fun h => h.phase == 1) k = some (h, s1) →
       (∃ t : State, exec (.prgResponse k .success) s = .next t ∧ { h with phase := 2 } ∈ t.cmp.hostXlt ∧
         t.out = .atsRequest h.func h.pasid (h.page * 4096) h.write :: s.out) ∧
       exec (.prgResponse k .invalid) s = .next (s1.wakeHost h (some ⟨h.page * 4096, 4096, 0x22⟩)) ∧
       (∃ t : State, exec (.prgResponse k .failure) s = .next t ∧ h.func ∈ t.cmp.priFailed ∧
         t.flag F.XLT_PRI_STATUS_RF = true ∧ t.fget F.XLT_PRI_STATUS_RF_FUNC = h.func % 256 ∧
         ∀ x ∈ t.cmp.hostXlt, x.func ≠ h.func)))

/-- `XLT_RESUME` makes what waits on a covered record go on, or faults its context; a low half is held for its requester (R314). The invalidation queue and the host's invalidations: covered entries leave the TLBs and the walk caches, overlapping walks start
again, and completion is reported once what used a dropped entry is over (R312, R315 to R320). Where the spec leaves a point open, this is the reading or the choice of the model: log 39. -/
def Obligations.ResumeAndInvalidationResults : Prop :=
  (∀ (who : Requester) (s : State), s.mayWrite who .XLT_RESUME 0 →
     (∀ word : W64,
       let c := word.toNat % 65536
       let seq := word.toNat / 2 ^ 32
       (word.getLsbD 16 = false → ∃ t : State, exec (.resumeRetranslate who word) s = .next t ∧ t.regs = s.regs ∧
         (SMap.sorted s.cmp.groups = true → ∀ g x, s.grp g = some x → t.grp g = some
           (if x.ctx = c ∧ x.wait.covered seq = true then { x with wait := .none, misses := [], settling := true } else x))) ∧
       (word.getLsbD 16 = true → ∀ (x : Ctx) (g : Nat) (grp : Grp), s.ctx c = some x → s.attOf c = none → x.state = .running →
         s.grp g = some grp → grp.ctx = c → grp.wait.covered seq = true →
         ∃ (t : State) (y : Ctx), exec (.resumeUnresolvable who word) s = .next t ∧ t.ctx c = some y ∧ y.state = .faulted)) ∧
     (∀ word : W32, ∃ t : State, exec (.xltResumeLowHalf who word) s = .next t ∧ t.cmp.resumeLow.lookup who = some word ∧
       t.regs = s.regs ∧ t.cmp.groups = s.cmp.groups)) ∧
  (∀ (who : Requester) (s : State),
     (∀ word : W32, s.mayWrite who .XLT_IQ_TAIL 0 → ∃ t : State, exec (.iqTailWrite who word) s = .next t ∧
       t.fget F.XLT_IQ_TAIL_TAIL = word.toNat % 65536 ∧ t.cmp = s.cmp) ∧
     (∀ word : W64, s.mayWrite who .XLT_IQ_BASE 0 → 6 ≤ word.toNat % 32 → word.toNat % 32 ≤ 16 → ∃ t : State,
       exec (.iqEnable who word) s = .next t ∧ t.flag F.XLT_IQ_BASE_EN = word.getLsbD 63 ∧
         (s.flag F.XLT_IQ_BASE_EN = false → t.fget F.XLT_IQ_BASE_BASE = bits word.toNat 12 34 ∧
           t.fget F.XLT_IQ_BASE_SIZE = word.toNat % 32) ∧
         (s.flag F.XLT_IQ_BASE_EN = true → t.fget F.XLT_IQ_BASE_BASE = s.fget F.XLT_IQ_BASE_BASE ∧
           t.fget F.XLT_IQ_BASE_SIZE = s.fget F.XLT_IQ_BASE_SIZE ∧ t.fget F.XLT_IQ_HEAD_HEAD = s.fget F.XLT_IQ_HEAD_HEAD) ∧
         (s.flag F.XLT_IQ_BASE_EN = false → word.getLsbD 63 = true →
           t.fget F.XLT_IQ_HEAD_HEAD = 0 ∧ t.fget F.XLT_IQ_TAIL_TAIL = 0)) ∧
     (∀ (s1 : State) (b : List Byte) (i : Inv) (c : Instr),
       let size := 2 ^ s.fget F.XLT_IQ_BASE_SIZE
       let head := s.fget F.XLT_IQ_HEAD_HEAD
       let w := fun (k : Nat) => ofBytes ((b.drop (8 * k)).take 8)
       s.flag F.XLT_IQ_BASE_EN = true → s.fget F.XLT_IQ_BASE_SIZE ≤ 16 → head % size ≠ s.fget F.XLT_IQ_TAIL_TAIL % size →
       s.iqHead = (s1, b, 0) → invOf (w 0) (w 1) (w 2) (w 3) = some i →
       (i.op, c) ∈ [(1, .invRange), (2, .invContext), (3, .invAll), (4, .invSync)] →
       ∃ (t : State) (j : Inv), exec c s = .next t ∧ t.fget F.XLT_IQ_HEAD_HEAD = (head + 1) % size ∧
         t.flag F.XLT_IQ_STATUS_BUSY = true ∧ (∀ x ∈ t.cmp.tlbs, i.covers x.ctx x.base x.size = false) ∧
         (∀ x ∈ t.cmp.walks, i.covers x.ctx (x.page * 65536) 65536 = true → x.again = true) ∧
         t.cmp.invs.getLast? = some j ∧ j.op = i.op ∧ j.ctxs = i.ctxs ∧ j.va = i.va ∧ j.len = i.len ∧ j.irq = i.irq) ∧
     (∀ (i : Inv) (c : Instr) (done : State → State), (c = .invDescriptorComplete ∧ s.cmp.invs.find? (fun i => i.tag.isNone) = some i ∧
         done = (fun s => s.invDone i)) ∨
         (∃ (func : Fin 256) (tag : Fin 32), c = .invalidateCompletion func tag ∧
           s.cmp.invs.find? (fun i => i.tag == some (func.val, tag.val)) = some i ∧
           done = (fun s => s.emit (.invalidateCompletion func tag))) →
       let u := s.invNear i
       let put := fun (s : State) (l : List Inv) => ({ s with cmp := { s.cmp with invs := l } } : State)
       (∀ l, i.backs = some l → (∀ a ∈ l, ∀ x ∈ s.cmp.accs, x.id ≠ a) → exec c s = .next (done (put s (s.cmp.invs.erase i)))) ∧
       (i.backs = none → s.invDue i = true → u.invBacks i = [] → exec c s = .next (done (put u (u.cmp.invs.erase i)))) ∧
       (i.backs = none → s.invDue i = true → u.invBacks i ≠ [] → exec c s =
         .next (put u (u.cmp.invs.map (fun x => if x = i then { x with backs := some (u.invBacks i) } else x))))) ∧
     (∀ i : Inv, (s.invDone i).fget F.XLT_IQ_DONE_SEQ = i.seq % 2 ^ 32) ∧
     (∀ (func : Fin 256) (tag : Fin 32) (pasid : Option (BitVec 20)) (va : W64) (bytes : Nat), s.funcExists func = true →
       (∀ i ∈ s.cmp.invs, i.tag ≠ some (func.val, tag.val)) →
       let first := va.toNat / 4096 * 4096
       ∃ (t : State) (j : Inv), exec (.atsInvalidateRequest func tag pasid va bytes) s = .next t ∧
         t.cmp.invs.getLast? = some j ∧ j.tag = some (func.val, tag.val) ∧ j.va = first ∧
         j.len = (va.toNat + bytes + 4095) / 4096 * 4096 - first ∧
         ∀ x ∈ t.cmp.tlbs, SMap.has s.cmp.ctxs x.ctx = true →
           (∀ p, pasid = some p → s.ctxFunc x.ctx = (func.val, p.toNat) → ¬ (x.base < first + j.len ∧ first < x.base + x.size)) ∧
           (pasid = none → (s.ctxFunc x.ctx).1 ≠ func.val)))

/-! ### Contexts, launches, saves and accounting (07) -/

/-- A command of Canopy while another is being accepted is ignored and sets OVERRUN; a context in another state than the command
allows gives RESULT 1, a malformed argument 2; otherwise the command does what the table says, with RESULT 0 (R345 to R348, R366,
R369). Where the spec leaves a point open, this is the reading or the choice of the model: log 45. -/
def Obligations.ContextCommandResults : Prop :=
  ∀ (who : Requester) (ctx : BitVec 16) (s : State), s.mayWrite who .CNP_CMD 0 →
    let c := ctx.toNat
    let at_ := fun (op : Nat) => s.writeReg .CNP_CMD 0 (op + c * 16 + 2 ^ 63) (Reg.full .CNP_CMD)
    let answer := fun (t : State) (r : Nat) => t.fset F.CNP_CMD_STATUS_RESULT r
    let free := fun (op : Nat) => (at_ op).flag F.CNP_CMD_STATUS_BUSY = false
    let arg0 := fun (op : Nat) => (at_ op).fget F.CNP_CMD_ARG0_ARG0 = 0
    (∀ p ∈ [(1, Instr.registerCtx who ctx), (2, .unregisterCtx who ctx), (3, .suspendCtx who ctx), (4, .resumeCtx who ctx),
        (5, .killCtx who ctx), (6, .pruneCtx who ctx)],
      (¬ free p.1 → exec p.2 s = .next ((at_ p.1).fset F.CNP_CMD_STATUS_OVERRUN 1)) ∧
      (free p.1 → p.1 ≠ 1 → (at_ p.1).ctx c = none → exec p.2 s = .next (answer (at_ p.1) 1))) ∧
    (free 1 → (at_ 1).ctx c ≠ none → exec (.registerCtx who ctx) s = .next (answer (at_ 1) 1)) ∧
    (free 1 → (at_ 1).ctx c = none → arg0 1 → ∀ (t : State) (l : List Byte) (code : Nat),
      (at_ 1).readBytes (2 ^ 22 * (at_ 1).fget F.CNP_CTX_BASE_BASE + 64 * c) 64 = (t, l, code) →
      let e := entryCtx l ((at_ 1).fget F.CNP_CTL_DEF_GRACE)
      let x := { e with service := e.service && (t.ctxFunc c).1 == 0 }
      (code ≠ 0 ∨ entryBad l = true → exec (.registerCtx who ctx) s = .next (answer t 2)) ∧
      (code = 0 → entryBad l = false →
        (t.flag F.CNP_PART_EN x.partition = false → exec (.registerCtx who ctx) s = .next (answer t 3)) ∧
        (t.flag F.CNP_PART_EN x.partition = true → t.saveAreaBad x = true → exec (.registerCtx who ctx) s = .next (answer t 4)) ∧
        (t.flag F.CNP_PART_EN x.partition = true → t.saveAreaBad x = false → t.faultRingBad c x = true →
          exec (.registerCtx who ctx) s = .next (answer t 2)) ∧
        (t.flag F.CNP_PART_EN x.partition = true → t.saveAreaBad x = false → t.faultRingBad c x = false →
          bit (wordAt l 0 8) 4 = false →
          ∃ (u : State) (y : Ctx), exec (.registerCtx who ctx) s = .next (answer u 0) ∧
            u = (t.putCtx c { x with state := .idle }).cttLoad c ∧ u.ctx c = some y ∧ y = { x with state := .idle, ctt := y.ctt } ∧
            (∀ j, j ≠ c → u.ctx j = t.ctx j) ∧ u.cmp.groups = t.cmp.groups ∧
            (t.flag F.XLT_CTT_BASE_EN = false → u.regs = t.regs)))) ∧
    (∀ x : Ctx, (at_ 2).ctx c = some x → free 2 → x.leaving = false →
      (x.state = .idle ∨ x.state = .faulted ∨ x.state = .exported ∨ x.state = .killed) →
      (¬ arg0 2 → exec (.unregisterCtx who ctx) s = .next (answer (at_ 2) 2)) ∧
      (arg0 2 → x.finalWait = [] → (at_ 2).flag F.CNP_CTL_ACCT_EN = false →
        ∃ u : State, exec (.unregisterCtx who ctx) s = .next (answer u 0) ∧ u.ctx c = none ∧
          ∀ j, j ≠ c → u.ctx j = (at_ 2).ctx j)) ∧
    (∀ x : Ctx, (at_ 3).ctx c = some x → free 3 → arg0 3 →
      ((x.state = .queued ∨ x.state = .saved) →
        exec (.suspendCtx who ctx) s = .next (answer ((at_ 3).updCtx c (fun y => { y with suspended := true })) 0)) ∧
      ((x.state = .running ∨ x.state = .restoring) → SMap.sorted (at_ 3).cmp.clus = true →
        ∃ (u : State) (y : Ctx), exec (.suspendCtx who ctx) s = .next (answer u 0) ∧
        u.ctx c = some y ∧ y.suspended = true ∧ (y.state = .stopping ∨ y.state = .saved ∨ y.state = .pruning) ∧
        ∀ k ∈ (at_ 3).clustersOf c, ((at_ 3).cluster k).state = .running → (u.cluster k).state = .stopping ∧
          (u.cluster k).grace = some ((at_ 3).discNs + x.grace * 1000)) ∧
      ((x.state = .idle ∨ x.state = .stopping ∨ x.state = .faulted ∨ x.state = .killed ∨ x.state = .exported ∨
          x.state = .pruning) →
        exec (.suspendCtx who ctx) s = .next (answer (at_ 3) 1))) ∧
    (∀ x : Ctx, (at_ 4).ctx c = some x → free 4 →
      (x.suspended = true → arg0 4 →
        exec (.resumeCtx who ctx) s = .next (answer ((at_ 4).updCtx c (fun y => { y with suspended := false })) 0)) ∧
      (x.suspended = false → exec (.resumeCtx who ctx) s = .next (answer (at_ 4) 1))) ∧
    (∀ x : Ctx, (at_ 5).ctx c = some x → free 5 → arg0 5 → (at_ 5).flag F.CNP_CTL_ACCT_EN = false →
      ∃ (u : State) (y : Ctx), exec (.killCtx who ctx) s = .next (answer u 0) ∧ u.ctx c = some y ∧ y.state = .killed ∧
        y.launches = [] ∧ y.ended = 3 ∧ (∀ e ∈ u.cmp.groups, e.2.ctx ≠ c) ∧ (∀ e ∈ u.cmp.bclus, e.2.ctx ≠ c) ∧
        (∀ k ∈ x.launches, k.qp < 4096 → ∃ e ∈ (u.qp k.qp).waiting, e.cid = k.cid ∧ e.status = 5) ∧
        u.cmp.mem = (at_ 5).cmp.mem) ∧
    (∀ x : Ctx, (at_ 6).ctx c = some x → free 6 →
      (x.cls ≠ 2 → exec (.pruneCtx who ctx) s = .next (answer (at_ 6) 1)) ∧
      (x.cls = 2 → x.state = .idle → ∀ (t : State) (l : List Byte) (code : Nat),
        let n := (at_ 6).fget F.CNP_CMD_ARG1_ENTRIES
        let es := (List.range n).map (fun i => (l.drop (32 * i)).take 32)
        (at_ 6).readBytes ((at_ 6).fget F.CNP_CMD_ARG1_LIST * 32) (n * 32) = (t, l, code) →
        (n = 0 ∨ code ≠ 0 ∨ es.any exportBad = true → exec (.pruneCtx who ctx) s = .next (answer t 2)) ∧
        (n ≠ 0 → code = 0 → es.any exportBad = false → t.ctx c = some x → x.launches = [] →
          ∃ (u : State) (y : Ctx), exec (.pruneCtx who ctx) s = .next (answer u 0) ∧ u.ctx c = some y ∧ y.state = .pruning ∧
            y.exportList = es ∧ (u.steq (2 ^ 20 + c)).xfers.length = n ∧
            y.deadline = (if t.fget F.CNP_CMD_ARG0_ARG0 = 0 then t.now + t.fget F.CNP_CTL_PRUNE_DEFAULT * 1000000000
              else t.fget F.CNP_CMD_ARG0_ARG0))))

/-- A LAUNCH of a context that runs no further launch completes with the status of its state; an invalid descriptor completes it
with INVALID; a Guaranteed launch is rejected for its time or its volume, or has its deadline at a slot boundary; a Borrowed one
joins its context's queue (R82, R347, R353 to R355, R408). Where the spec leaves a point open, this is the reading or the choice of the model: log 44 and 70. -/
def Obligations.LaunchResults : Prop :=
  ∀ (q : Fin 4096) (s s1 : State) (b : List Byte) (x : Ctx),
    let k := q.val
    let p := Packet.of b
    let c := s1.fget F.CNP_QP_CFG_CONTEXT k
    s.fetchCmd k = some (s1, some b) → p.op = 1 → p.bad = false → s1.pairAllowed k = true → s1.ctx c = some x →
    (p.badLaunch x.cls = true → exec (.launchKernel q) s = .next ((s1.popCmd k).qpPost k p.cid 8)) ∧
    (p.badLaunch x.cls = false →
      (64 ≤ (s1.qp k).started.length → exec (.launchKernel q) s = .next s1) ∧
      ((s1.qp k).started.length < 64 →
        (x.state = .faulted → exec (.launchKernel q) s = .next ((s1.popCmd k).qpPost k p.cid 4)) ∧
        (x.state = .killed → exec (.launchKernel q) s = .next ((s1.popCmd k).qpPost k p.cid 5)) ∧
        (x.state = .exported ∨ x.state = .pruning → exec (.launchKernel q) s = .next ((s1.popCmd k).qpPost k p.cid 6)) ∧
        (x.state = .idle → x.pruning = false → ∀ (s2 : State) (l : List Byte), s1.pairRead k c p.addr 64 = (s2, .bytes l) →
          let t := s2.popCmd k
          let rule := descRule l x.cls
          let kern := descKernel l t.cmp.launchNo k p.cid p.addr
          (rule ≠ 0 → ∃ u : State, exec (.launchKernel q) s = .next u ∧
            (u.qp k).waiting = (t.qp k).waiting ++ [⟨p.cid, 3, false, rule, t.now, t.uFlag⟩] ∧ u.cmp = t.cmp) ∧
          (rule = 0 → x.cls = 2 → t.ctx c = some x → ∃ (u : State) (y : Ctx), exec (.launchKernel q) s = .next u ∧
            u.ctx c = some y ∧ y.state = .queued ∧ y.launches = x.launches ++ [kern] ∧
            (u.qp k).started = (t.qp k).started ++ [{ cid := p.cid, op := 1, addr := p.addr, launch := kern.number }] ∧
            u.cmp.mem = t.cmp.mem ∧ u.cmp.groups = t.cmp.groups) ∧
          (rule = 0 → x.cls = 0 → ∀ n : Nat, t.worstCase x.partition kern = some n →
            (p.d * 274958 < n → t.overVolume x.partition p.v p.ot = false →
              exec (.launchKernel q) s = .next (t.qpPost k p.cid 1 false n)) ∧
            (n ≤ p.d * 274958 → t.overVolume x.partition p.v p.ot = true →
              exec (.launchKernel q) s = .next (t.qpPost k p.cid 2)) ∧
            (n ≤ p.d * 274958 → t.overVolume x.partition p.v p.ot = false → t.ctx c = some x →
              let slot := (max t.now (SMap.get t.cmp.guarEnds 0 x.partition) + 249999) / 250000
              ∃ (u : State) (y : Ctx), exec (.launchKernel q) s = .next u ∧ u.ctx c = some y ∧
                y.launches = x.launches ++ [{ kern with startSlot := slot, deadline := (slot + p.d) * 250000 }])))))

/-- Pre-emption and save: a block cluster at its tile marks is saved once its stores are performed, and leaves its cores; the end
of the grace interval saves by force; the cluster then waits idle, or is cleaned for its owner (R151, R343, R357 to R362). What the record of a group holds comes back with it: its registers, its address, its lanes, its stack, its flags, its place at a
barrier and its vector register units; a group that waited on a translation fault issues the instruction again (R126, R364,
R365). Where the spec leaves a point open, this is the reading or the choice of the model: log 40 and 74. -/
def Obligations.SaveResults : Prop :=
  (∀ (s : State),
     (∀ (bc : Nat) (x : BClus), SMap.find s.cmp.bclus bc = some x →
       ((s.cluster x.cluster).state = .stopping ∨ (s.cluster x.cluster).state = .saving) →
       (s.cluster x.cluster).grace.isSome = true →
       (∀ g ∈ s.groupsOfBc bc, ∀ grp : Grp, s.grp g = some grp → grp.halted = false ∧ grp.stepping = false ∧ grp.trapped = none ∧
         (grp.complete = true ∨ grp.wait = .mark)) →
       (∀ b ∈ s.blocksOfBc bc, s.lmQuiet (b / 16) [] = true) →
       ((s.cleanForSave bc).drained bc = false → exec (.tileMarkSave bc) s = .next (s.cleanForSave bc)) ∧
       ((s.cleanForSave bc).drained bc = true → ∃ t : State, exec (.tileMarkSave bc) s = .next t ∧
         SMap.find t.cmp.bclus bc = none)) ∧
     (∀ (cluster : Fin 1024) (g : Nat), (s.cluster cluster).grace = some g →
       ((s.cluster cluster).state = .stopping ∨ (s.cluster cluster).state = .saving) →
       ∃ t : State, exec (.graceExpiry cluster) s = .next t) ∧
     (∀ cluster : Fin 1024,
       let k := cluster.val
       let c := (s.cluster k).ctx
       (s.cluster k).state = .saving → (s.cluster k).saved = true → SMap.sorted s.cmp.clus = true → (∀ e ∈ s.cmp.bclus, e.2.cluster ≠ k) →
       ∀ x : Ctx, s.ctx c = some x → ∃ (t : State) (y : Ctx), exec (.saveComplete cluster) s = .next t ∧ t.ctx c = some y ∧
         y.slots = x.slots ++ [(s.cluster k).slot] ∧ (t.cluster k).ctx = 0 ∧ (t.cluster k).saved = false ∧
         (t.cluster k).grace = none ∧
         (t.cluster k).state = (if s.owner k = (s.cluster k).holder then .idle else .cleaning) ∧
         (s.clustersOf c = [k] → x.state = .stopping → y.state = (if x.pruning then .pruning else .saved))) ∧
     (∀ (cluster : Fin 1024) (p : Nat) (t : State),
       let k := cluster.val
       (s.cluster k).holder = some p → ((s.cluster k).state = .cleaning ∨ (s.cluster k).state = .idle) →
       (s.flushLines (fun q _ l => q == k / 4 && !l.hw && l.part == p) = none → exec (.clusterCleanComplete cluster) s = .refused .notEnabled) ∧
       (s.flushLines (fun q _ l => q == k / 4 && !l.hw && l.part == p) = some t →
         ∃ u : State, exec (.clusterCleanComplete cluster) s = .next u ∧ (u.cluster k).state = .idle ∧ (u.cluster k).ctx = 0 ∧
           (u.cluster k).holder = none))) ∧
  (∀ (s : State) (g gen : Nat) (grp : Grp) (ctx block index : Nat) (kept : Kept),
     grp.pc < 2 ^ 64 → grp.active < 2 ^ 32 → grp.exited < 2 ^ 32 → grp.flags < 32 → grp.stack.length ≤ 32 →
     (∀ e ∈ grp.stack, e.addr < 2 ^ 57 ∧ e.mask < 2 ^ 32) → gen < 4 → grp.block < 128 →
     (∀ id n, grp.wait = .barrier id n → id < 4 ∧ n < 64) → grp.vunits.length ≤ 32 → (∀ u ∈ grp.vunits, u < 256) →
     let rec_ := s.groupRecord g grp gen
     let back := groupOf_ rec_ ctx block index grp.vunits.length kept
     rec_.length = 1024 ∧ back.pc = grp.pc ∧ back.active = grp.active ∧ back.exited = grp.exited ∧ back.stack = grp.stack ∧
       back.flags = grp.flags ∧ back.gen = gen ∧ back.stepping = grp.stepping ∧ back.vunits = grp.vunits ∧
       back.wait = (match grp.wait with
         | .barrier id n => .barrier id n
         | .cluster => .cluster
         | _ => .none) ∧
       back.ctx = ctx ∧ back.block = block ∧ back.index = index ∧
       (∀ k < 64, wordAt rec_ (8 * k) 8 = s.sReg g k % 2 ^ 64) ∧
       (∀ k < 16, wordAt rec_ (0x200 + 4 * k) 4 = s.pReg g k % 2 ^ 32) ∧ bits (wordAt rec_ 0x250 8) 25 7 = grp.block)

/-- The end of a restore, of an export and of a prune order (R347, R365, R367, R368). Energy calibration ends UNCAL and adds a context's share to its energy; a final record waits while the ring is full, and is
written at TAIL once there is room (R371 to R373). Where the spec leaves a point open, this is the reading or the choice of the model: log 45, 71 and 73. -/
def Obligations.RestoreExportAccountingResults : Prop :=
  (∀ (s : State),
     (∀ (ctx : BitVec 16) (slot cluster : Fin 1024) (x : Ctx),
       let c := ctx.toNat
       s.ctx c = some x → (x.state = .saved ∨ x.state = .running ∨ x.state = .restoring) → x.suspended = false →
       x.slots.contains slot.val = true → s.mayTake c x cluster = true →
       (s.slotBlocks x slot).length ≤ ((coresOfCluster cluster).filter (fun k => s.coreOpen k)).length →
       ∃ t : State, exec (.restoreStart ctx slot cluster) s = .next t ∧
         ∀ y : Ctx, t.ctx c = some y → slot.val ∉ y.slots ∧ y.held = true ∧ y.state ≠ .saved) ∧
     (∀ cluster : Fin 1024,
       let k := cluster.val
       (s.cluster k).state = .restoring → ∃ t : State, exec (.restoreComplete cluster) s = .next t ∧
         (t.cluster k).state = .running ∧ (t.cluster k).ctx = (s.cluster k).ctx ∧
         (∀ e ∈ t.cmp.bclus, e.2.cluster = k → e.2.restoring = false) ∧ t.cmp.groups = s.cmp.groups ∧ t.cmp.mem = s.cmp.mem ∧
         ∀ x : Ctx, s.ctx (s.cluster k).ctx = some x → x.state = .restoring →
           ∃ y : Ctx, t.ctx (s.cluster k).ctx = some y ∧ y.state = .running) ∧
     (∀ (ctx : BitVec 16) (x : Ctx),
       let c := ctx.toNat
       s.ctx c = some x → x.state = .pruning → s.flag F.CNP_CTL_ACCT_EN = false →
       ((s.steq (2 ^ 20 + c)).xfers = [] → ∃ (t : State) (y : Ctx), exec (.exportComplete ctx) s = .next t ∧ t.ctx c = some y ∧
         y.state = .exported ∧ y.launches = [] ∧ y.ended = 2) ∧
       ((∀ e ∈ s.cmp.ctxs, e.2.state = .pruning → x.deadline ≤ e.2.deadline) →
         ∃ (t : State) (y : Ctx), exec (.pruneDeadline ctx) s = .next t ∧ t.ctx c = some y ∧ y.state = .killed ∧
         y.launches = [] ∧ y.ended = 4 ∧ (t.steq (2 ^ 20 + c)).xfers = []))) ∧
  (∀ (s : State),
     (∀ shares : List (BitVec 16 × Nat), ∃ t : State, exec (.energyCalibration shares) s = .next t ∧ t.cmp.calibrated = true ∧
       t.flag F.CNP_STATUS_UNCAL = false ∧ t.cmp.groups = s.cmp.groups ∧ t.cmp.mem = s.cmp.mem ∧
       (∀ (c : BitVec 16) (n : Nat) (x : Ctx), shares = [(c, n)] → s.ctx c.toNat = some x →
         ∃ y : Ctx, t.ctx c.toNat = some y ∧ y = { x with acct := { x.acct with energy := x.acct.energy + n } })) ∧
     (∀ (ctx : BitVec 16) (x : Ctx) (e : Nat) (rest : List Nat),
       let c := ctx.toNat
       let size := 2 ^ s.fget F.CNP_ACCT_BASE_SIZE
       let tail := s.fget F.CNP_ACCT_TAIL_TAIL
       s.ctx c = some x → x.finalWait = e :: rest →
       ((tail + 1) % size = s.fget F.CNP_ACCT_HEAD_HEAD % size → exec (.acctFinalRecord ctx) s = .next s) ∧
       ((tail + 1) % size ≠ s.fget F.CNP_ACCT_HEAD_HEAD % size → x.leaving = false →
         ∃ (t : State) (y : Ctx), exec (.acctFinalRecord ctx) s = .next t ∧ t.ctx c = some y ∧ y.finalWait = rest ∧
           t.cmp.acctSeq = s.cmp.acctSeq + 1 ∧ t.fget F.CNP_ACCT_TAIL_TAIL = (tail + 1) % size % 2 ^ F.CNP_ACCT_TAIL_TAIL.width)) ∧
     (∀ (c : Nat) (x : Ctx) (final : Bool) (ended : Nat), c < 2 ^ 16 → x.partition < 2 ^ 10 → x.cls < 4 → ended < 256 →
       let l := s.acctBytes c x final ended
       l.length = 128 ∧ bits (wordAt l 0 8) 0 16 = c ∧ bits (wordAt l 0 8) 16 10 = x.partition ∧ bits (wordAt l 0 8) 26 2 = x.cls ∧
         bit (wordAt l 0 8) 28 = final ∧ wordAt l 4 4 = s.cmp.acctSeq % 2 ^ 32 ∧ wordAt l 8 8 = s.now % 2 ^ 64 ∧
         wordAt l 72 8 = x.acct.energy % 2 ^ 64 ∧ wordAt l 96 1 = ended))

/-! ### Event controllers and fault records (08) -/

/-- An edge event: an Off die catches nothing; a stopped clock latches the edge once; otherwise the counts rise, the source becomes
pending, and a source that is routed to the host and not masked is delivered at once, by one message or by DROPPED, and is no
longer pending. The timer of a steward is source 32 (R375, R377, R378, R382, R384). A write of `EVC_PEND` replaces the pending word, for the sources that exist, and counts what it turns on; a restarted clock
delivers the latched edges, each with ASYNC; a device fault record takes the next of 255 slots, then one summary, and is only
counted after that (R377 to R379, R384, R391). Where the spec leaves a point open, this is the reading or the choice of the model: log 52. -/
def Obligations.EventResults : Prop :=
  (∀ (s : State) (die : Fin 84) (src : Nat), src < 1024 →
     let t := s.event die src
     let k := srcKey die src
     let f := s.fget F.EVC_ROUTE_FUNC k
     let v := s.fget F.EVC_ROUTE_VECTOR k
     let masked := bit (s.fget F.EVC_MASK_MASK (srcWord die src)) (src % 32)
     exec (.stewardTimer die) s = .next (s.event die 32) ∧
     (s.pwr.diesOff.contains die.val = true → t = s) ∧
     (s.pwr.diesOff.contains die.val = false → s.evc.stopped.contains die.val = true → t.regs = s.regs ∧
       t.evc.latched.contains k = true ∧ t.out = s.out) ∧
     (s.pwr.diesOff.contains die.val = false → s.evc.stopped.contains die.val = false →
       t.fget F.EVC_RAW_EDGES k = (s.fget F.EVC_RAW_EDGES k + 1) % 65536 ∧ t.flag F.EVC_RAW_ASYNC k = false ∧
       t.fget F.EVC_SETCNT_COUNT (srcWord die src) = (s.fget F.EVC_SETCNT_COUNT (srcWord die src) + 1) % 2 ^ 32 ∧
       t.cmp = s.cmp ∧ t.tap = s.tap ∧ t.ring = s.ring ∧
       (∀ d < 84, ∀ n < 1024, (d ≠ die.val ∨ n ≠ src) → t.srcPending d n = s.srcPending d n) ∧
       (masked = true ∨ s.fget F.EVC_ROUTE_TARGET k ≠ 2 → t.srcPending die src = true ∧ t.out = s.out ∧ t.host = s.host) ∧
       (masked = false → s.fget F.EVC_ROUTE_TARGET k = 2 → t.srcPending die src = false ∧
         (s.msixTaken f v = false → t.flag F.EVC_ROUTE_DROPPED k = true ∧ t.out = s.out) ∧
         (s.msixTaken f v = true → (s.func f).functionMask = false → (s.msixVec f v).masked = false →
           t.out = .msix f v (s.msixVec f v).addr (s.msixVec f v).data :: s.out) ∧
         (s.msixTaken f v = true → ((s.func f).functionMask = true ∨ (s.msixVec f v).masked = true) →
           (t.msixVec f v).pending = true ∧ t.out = s.out)))) ∧
  (∀ (s : State) (die : Fin 84),
     (∀ (who : Requester) (word : Fin 32) (value : W32), s.arrives who false false = true →
       s.fget F.TAP_DIE_HEALTH_STATE die.val ≠ 2 → s.pwr.diesOff.contains die.val = false →
       (reachOk .all who = false → exec (.evcPendWrite who die word value) s =
         .next (s.reachRecord die.val who (0x1000000 + die.val * 0x400000 + word.val * 4) true)) ∧
       (reachOk .all who = true → word.val ≠ 31 → (∀ b < 32, s.fget F.EVC_ROUTE_TARGET (srcKey die (word.val * 32 + b)) ≠ 2) →
         ∃ t : State, exec (.evcPendWrite who die word value) s = .next t ∧
           ∀ b < 32, t.srcPending die (word.val * 32 + b) = (value.getLsbD b && sourceExists die (word.val * 32 + b)) ∧
             t.fget F.EVC_RAW_EDGES (srcKey die (word.val * 32 + b)) =
               (s.fget F.EVC_RAW_EDGES (srcKey die (word.val * 32 + b)) +
                 nb (t.srcPending die (word.val * 32 + b) && !s.srcPending die (word.val * 32 + b))) % 65536)) ∧
     (∃ t : State, exec (.controlClockRestart die) s = .next t ∧ t.evc.stopped.contains die.val = false ∧
       (∀ k ∈ t.evc.latched, k / 1024 ≠ die.val) ∧
       (∀ k ∈ s.evc.latched, k / 1024 = die.val → t.flag F.EVC_RAW_ASYNC k = true) ∧
       (∀ k ∈ s.evc.latched, k / 1024 ≠ die.val → k ∈ t.evc.latched)) ∧
     (∀ r : FaultRec, s.evc.stopped.contains die.val = true →
       exec (.deviceFaultRecord die r) s = exec (.deviceFaultRecord die r) (s.restartClock die)) ∧
     (∀ r : FaultRec, s.evc.stopped.contains die.val = false → ∃ t : State, exec (.deviceFaultRecord die r) s = .next t ∧
       let tail := s.fget F.EVC_DFQ_TAIL_TAIL die
       let slot := die.val * 256 + tail % 256
       (s.pwr.diesOff.contains die.val = true → t = s) ∧
       (s.pwr.diesOff.contains die.val = false →
         (s.dfqHeld die < 255 →
           SMap.find t.evc.dfq slot = some { r with seq := tail, time := s.now, u := s.uFlag, die := die.val } ∧
           t.fget F.EVC_DFQ_TAIL_TAIL die = (tail + 1) % 65536) ∧
         (s.dfqHeld die = 255 → s.flag F.EVC_DFQ_TAIL_SUMMARY die = false →
           SMap.find t.evc.dfq slot =
             some { cls := 0x1F, code := r.cls, seq := tail, time := s.now, u := s.uFlag, die := die.val } ∧
           t.fget F.EVC_DFQ_TAIL_TAIL die = (tail + 1) % 65536 ∧ t.flag F.EVC_DFQ_TAIL_SUMMARY die = true) ∧
         (255 < s.dfqHeld die → 0x10 ≤ r.cls → r.cls ≤ 0x17 → t.evc = s.evc ∧
           t.fget F.EVC_DFQ_OVF_COUNT (die.val * 8 + (r.cls - 0x10)) =
             min (2 ^ F.EVC_DFQ_OVF_COUNT.width - 1) (s.fget F.EVC_DFQ_OVF_COUNT (die.val * 8 + (r.cls - 0x10)) + 1) ∧
           t.fget F.EVC_DFQ_TAIL_TAIL die = tail))))

/-- The writer of a context's fault ring: a record takes the next place and WRITTEN follows it; a full ring holds the record of a
translation fault and loses the others; a poll or KICK reads CONSUMED again (R387 to R389). The 64 bytes of a fault record hold its fields at the places of R385. Where the spec leaves a point open, this is the reading or the choice of the model: log 48. -/
def Obligations.FaultRingResults : Prop :=
  (∀ (s : State),
     (∀ (k : Nat) (r : FaultRec) (x : Ctx), s.evc.flight[k]? = some r → s.ctx r.context = some x → x.ringLost = false →
       s.storesOut r.context = false →
       (∀ q ∈ s.evc.flight.take k, ¬ (q.core = r.core ∧ q.slot = r.slot ∧ q.ticket = r.ticket)) →
       let behind := s.evc.waiting.any (fun q => q.context == r.context)
       (x.ringFull = false → behind = false →
         let seq := (x.written + 1) % 2 ^ 32
         ∃ (t : State) (y : Ctx), exec (.faultRingRecord k) s = .next t ∧ t.ctx r.context = some y ∧ y.written = seq ∧
           t.evc.flight = s.evc.flight.eraseIdx k ∧ t.evc.waiting = s.evc.waiting) ∧
       (x.ringFull = false → behind = true → r.code = 0x22 → r.deferred = false →
         ∃ t : State, exec (.faultRingRecord k) s = .next t ∧ t.evc.waiting = s.evc.waiting ++ [r] ∧
           t.evc.flight = s.evc.flight.eraseIdx k ∧ t.cmp.mem = s.cmp.mem) ∧
       (x.ringFull = false → behind = true → r.cls = 1 → r.code ≠ 0x22 → x.state = .faulted →
         ∃ (t : State) (y : Ctx), exec (.faultRingRecord k) s = .next t ∧ t.evc.waiting = s.evc.waiting ∧
           t.ctx r.context = some y ∧ y.ringLost = true ∧ y.written = x.written)) ∧
     (∀ (ctx : BitVec 16) (r : FaultRec), r ∈ s.evc.waiting → r.context = ctx.toNat →
       ∃ t : State, exec (.faultRingPoll ctx) s = .next t ∧ (∀ q ∈ t.evc.waiting, q ∈ s.evc.waiting) ∧
         t.evc.flight = s.evc.flight ∧ t.cmp.groups.length = s.cmp.groups.length) ∧
     (∀ (who : Requester) (ctx : BitVec 16), s.mayWrite who .EVC_FR_KICK 0 →
       ∃ t : State, exec (.frKick who ctx) s = .next t ∧ (∀ q ∈ t.evc.waiting, q ∈ s.evc.waiting) ∧ t.evc.flight = s.evc.flight) ∧
     (∀ (ctx : BitVec 16) (x : Ctx),
       let c := ctx.toNat
       s.ctx c = some x →
       (SMap.find s.evc.interval c = some false → ∃ t : State, exec (.faultRingIrqInterval ctx) s = .next t ∧
         SMap.find t.evc.interval c = none ∧ t.out = s.out) ∧
       (SMap.find s.evc.interval c = some true → x.irqEn = true → ∃ t : State, exec (.faultRingIrqInterval ctx) s = .next t ∧
         SMap.find t.evc.interval c = some false ∧
         ∀ f, (s.ctxFunc c).1 = f → s.msixTaken f x.vector = true → (s.func f).functionMask = false →
           (s.msixVec f x.vector).masked = false →
           t.out = .msix f x.vector (s.msixVec f x.vector).addr (s.msixVec f x.vector).data :: s.out))) ∧
  (∀ r : FaultRec,
     let l := recBytes r
     let w := fun (i : Nat) => wordAt l (8 * i) 8
     l.length = 64 ∧ bits (w 0) 0 8 = r.cls % 2 ^ 8 ∧ bits (w 0) 8 8 = r.code % 2 ^ 8 ∧ bit (w 0) 16 = r.u ∧ bit (w 0) 17 = r.fetch ∧
       bit (w 0) 18 = r.deferred ∧ bit (w 0) 19 = r.ticket ∧ bits (w 0) 32 32 = r.seq % 2 ^ 32 ∧ w 1 = r.time % 2 ^ 64 ∧
       bits (w 2) 0 16 = r.context % 2 ^ 16 ∧ bits (w 2) 16 10 = r.partition % 2 ^ 10 ∧ bits (w 2) 26 13 = r.core % 2 ^ 13 ∧
       bits (w 2) 39 5 = r.slot % 2 ^ 5 ∧ bits (w 2) 44 8 = r.die % 2 ^ 8 ∧ w 3 = r.instr % 2 ^ 64 ∧
       bits (w 4) 0 32 = r.active % 2 ^ 32 ∧ bits (w 4) 32 32 = r.lanes % 2 ^ 32 ∧ w 5 = r.addr % 2 ^ 64 ∧
       w 6 = r.info0 % 2 ^ 64 ∧ w 7 = r.info1 % 2 ^ 64)

/-! ### Queue pairs, the host attachment and the mailbox (09) -/

/-- Doorbells move the tail and the head within the ring, or put the pair into Error; a NOP completes at once, a malformed packet
with BAD_COMMAND, one that is not allowed with NOT_ALLOWED; SIGNAL and WAIT hold the pair until they complete (R404 to R408). A completion waits for room in the CQ; then its entry is written, CQ_TAIL moves on and the phase turns at the end of the ring,
and the message follows it, at most one in an interval (R409, R410). Where the spec leaves a point open, this is the reading or the choice of the model: log 47. -/
def Obligations.QueueResults : Prop :=
  (∀ (q : Fin 4096) (s : State),
     let k := q.val
     (∀ (page : DoorPage) (value : W32),
       (s.pagePair page = none → exec (.doorbellSqTail page value) s = .next s ∧ exec (.doorbellCqHead page value) s = .next s) ∧
       (s.pagePair page = some k →
         (s.sqSize k ≤ value.toNat → exec (.doorbellSqTail page value) s = .next (s.qpError k 3)) ∧
         (value.toNat < s.sqSize k → ∃ t : State, exec (.doorbellSqTail page value) s = .next t ∧
           t.qp k = { s.qp k with sqTail := value.toNat } ∧ (∀ j, j ≠ k → t.qp j = s.qp j) ∧ t.regs = s.regs) ∧
         (s.cqSize k ≤ value.toNat → exec (.doorbellCqHead page value) s = .next (s.qpError k 4)) ∧
         (value.toNat < s.cqSize k → value.toNat = (s.qp k).cqHead → exec (.doorbellCqHead page value) s = .next
           (s.updQp k (fun p => { p with cqHead := value.toNat }))))) ∧
     (∀ code : Nat, 0 < code → code < 8 → s.fget F.CNP_QP_STATUS_ERR k = 0 → (s.qpError k code).fget F.CNP_QP_STATUS_ERR k = code) ∧
     (∀ s1 : State, s.fetchCmd k = some (s1, none) → exec (.queueNop q) s = .next s1 ∧ exec (.queueSignal q) s = .next s1 ∧
       exec (.queueWait q) s = .next s1 ∧ exec (.launchKernel q) s = .next s1) ∧
     (∀ (s1 : State) (b : List Byte), s.fetchCmd k = some (s1, some b) →
       let p := Packet.of b
       (4 ≤ p.op → exec (.queueNop q) s = .next ((s1.popCmd k).qpPost k p.cid 8)) ∧
       (p.bad = true → ∀ e ∈ [(0, Instr.queueNop q), (1, .launchKernel q), (2, .queueSignal q), (3, .queueWait q)], p.op = e.1 →
         exec e.2 s = .next ((s1.popCmd k).qpPost k p.cid 8)) ∧
       (p.bad = false → s1.pairAllowed k = false →
         ∀ e ∈ [(0, Instr.queueNop q), (1, .launchKernel q), (2, .queueSignal q), (3, .queueWait q)], p.op = e.1 →
           exec e.2 s = .next ((s1.popCmd k).qpPost k p.cid 7)) ∧
       (p.bad = false → s1.pairAllowed k = true →
         (p.op = 0 → exec (.queueNop q) s = .next ((s1.popCmd k).qpPost k p.cid 0)) ∧
         (p.op = 2 → ∃ (t : State) (c : QCmd), exec (.queueSignal q) s = .next t ∧ (t.qp k).held = some c ∧ c.op = 2 ∧
           c.cid = p.cid ∧ c.addr = p.addr ∧ c.value = p.value ∧ (t.qp k).waiting = (s1.qp k).waiting ∧ t.cmp = s1.cmp) ∧
         (p.op = 3 → ∃ t : State, exec (.queueWait q) s = .next t))) ∧
     (∀ c : QCmd, (s.qp k).held = some c →
       (c.op = 2 → (s.qp k).started = [] → ∀ (t : State) (g : Got),
         s.pairWrite k (s.fget F.CNP_QP_CFG_CONTEXT k) c.addr (toBytes c.value 8) = (t, g) →
         exec (.signalWrite q) s = .next (match g with
           | .later => t
           | .bytes _ => t.heldDone k 0
           | .bad => t.heldDone k 9)) ∧
       (c.op = 3 → ∀ (t : State) (g : Got), s.pairRead k (s.fget F.CNP_QP_CFG_CONTEXT k) c.addr 8 = (t, g) →
         exec (.waitPoll q) s = .next (match g with
           | .later => t
           | .bytes b => if c.value ≤ ofBytes b then t.heldDone k 0 else t
           | .bad => t.heldDone k 9)) ∧
       (c.op = 3 → c.timeout ≠ 0 → ∃ (t : State) (e : Cqe), exec (.waitTimeout q) s = .next t ∧ (t.qp k).held = none ∧
         (t.qp k).waiting = (s.qp k).waiting ++ [e] ∧ e.cid = c.cid ∧ e.status = 10 ∧ c.due ≤ t.localNs ∧ t.cmp.mem = s.cmp.mem) ∧
       (∀ status : Nat, ((s.heldDone k status).qp k).held = none ∧
         ((s.heldDone k status).qp k).waiting = (s.qp k).waiting ++ [⟨c.cid, status, false, 0, s.now, s.uFlag⟩]))) ∧
  (∀ (q : Fin 4096) (s : State),
     let k := q.val
     (∀ (e : Cqe) (rest : List Cqe), (s.qp k).waiting = e :: rest → s.storesOut (s.fget F.CNP_QP_CFG_CONTEXT k) = false →
       let tail := s.fget F.CNP_QP_STATUS_CQ_TAIL k
       let n := (tail + 1) % s.cqSize k
       let a := s.fget F.CNP_QP_CQ_ADDR k * 4096 + tail * 32
       let b := e.bytes (s.qp k).phase (s.fget F.CNP_QP_STATUS_SQ_HEAD k)
       ((s.flag F.CNP_QP_CFG_EN k = false ∨ s.cqFull k = true) → exec (.completionEntryWrite q) s = .next s) ∧
       (s.flag F.CNP_QP_CFG_EN k = true → s.cqFull k = false → s.flag F.CNP_QP_CQ_HOST k = true →
         ∃ t : State, exec (.completionEntryWrite q) s = .next t ∧
           t.fget F.CNP_QP_STATUS_CQ_TAIL k = n % 2 ^ F.CNP_QP_STATUS_CQ_TAIL.width ∧ (t.qp k).waiting = rest ∧
           (t.qp k).phase = (if n = 0 then !(s.qp k).phase else (s.qp k).phase) ∧ t.cmp = s.cmp ∧
           .hostWrite (s.fget F.CNP_QP_CFG_FUNC k) none a b ∈ t.out ∧
           (s.flag F.CNP_QP_CFG_IRQ_EN k = false → t.out = .hostWrite (s.fget F.CNP_QP_CFG_FUNC k) none a b :: s.out) ∧
           (s.flag F.CNP_QP_CFG_IRQ_EN k = true → (s.qp k).interval = true → (t.qp k).covered = true ∧
             t.out = .hostWrite (s.fget F.CNP_QP_CFG_FUNC k) none a b :: s.out))) ∧
     ((s.qp k).interval = true → (s.qp k).covered = false → exec (.qpIrqInterval q) s =
       .next (s.updQp k (fun p => { p with interval := false }))) ∧
     ((s.qp k).interval = true → (s.qp k).covered = true → ∃ t : State, exec (.qpIrqInterval q) s = .next t ∧
       (t.qp k).covered = false ∧ (t.qp k).interval = true ∧
       let f := s.fget F.CNP_QP_CFG_FUNC k
       let v := s.fget F.CNP_QP_CFG_VECTOR k
       (s.msixTaken f v = true → (s.func f).functionMask = false → (s.msixVec f v).masked = false →
         t.out = .msix f v (s.msixVec f v).addr (s.msixVec f v).data :: s.out)) ∧
     (∀ (e : Cqe) (phase : Bool) (head : Nat), e.cid < 2 ^ 16 → e.status < 2 ^ 8 → head < 2 ^ 32 →
       let l := e.bytes phase head
       l.length = 32 ∧ bits (wordAt l 0 8) 0 16 = e.cid ∧ bits (wordAt l 0 8) 16 8 = e.status ∧ bit (wordAt l 0 8) 24 = e.late ∧
         bit (wordAt l 0 8) 25 = e.u ∧ bit (wordAt l 0 8) 31 = phase ∧ bits (wordAt l 0 8) 32 32 = head ∧
         wordAt l 8 8 = e.time % 2 ^ 64 ∧ wordAt l 16 8 = e.info % 2 ^ 64))

/-- Requests of the host: configuration words, the windows of BAR4 and the completions of device reads (R393 to R398, R401, R402,
R406, R411). Resets of functions, VF Enable, power states and the link (R393, R394, R397 to R399, R405, R411). Where the spec leaves a point open, this is the reading or the choice of the model: log 6, 21 and 49. -/
def Obligations.HostPortResults : Prop :=
  (∀ (s : State),
     (∀ (f : Fin 256) (reg : CfgReg) (w : Option W32),
       (s.funcExists f = false → exec (.configRequest f reg w) s = .next (s.emit (.barUnsupported f))) ∧
       (s.funcExists f = true → s.configServed f = false → exec (.configRequest f reg w) s = .next (s.emit (.config f none))) ∧
       (s.funcExists f = true → s.configServed f = true →
         (w = none → exec (.configRequest f reg w) s = .next (s.emit (.config f (some (BitVec.ofNat 32 (s.configWord f reg)))))) ∧
         (∀ v : W32, w = some v → ∃ t : State, exec (.configRequest f reg w) s = .next t ∧
           (reg ≠ .sriovControl → reg ≠ .sriovNumVfs → t.cmp.mem = s.cmp.mem ∧ t.regs = s.regs) ∧
           t.out.head? = some (.config f (some 0)) ∧
           (reg = .atsControl → (t.func f).atsEnable = v.getLsbD 31) ∧ (reg = .priControl → (t.func f).priEnable = v.getLsbD 0) ∧
           (reg = .pasidControl → (t.func f).pasidEnable = v.getLsbD 16) ∧
           (reg = .msixControl → (t.func f).msixEnable = v.getLsbD 31 ∧ (t.func f).functionMask = v.getLsbD 30) ∧
           (reg = .pmControl → bits v.toNat 0 2 = 3 → (t.func f).d3hot = true) ∧
           (reg = .pmControl → bits v.toNat 0 2 = 0 → (t.func f).d3hot = false) ∧
           (reg = .aerUncorrectable → ∀ b < 32, (t.func f).aer.testBit b = ((s.func f).aer.testBit b && !v.getLsbD b)) ∧
           (reg = .rebarControl → f.val = 0 → 10 ≤ bits v.toNat 8 6 → bits v.toNat 8 6 ≤ 23 → t.host.bar4 = bits v.toNat 8 6) ∧
           (reg = .sriovControl → f.val = 0 → t.host.vfEnable = v.getLsbD 0)))) ∧
     (∀ (offset : Nat) (acc : BarAcc),
       let pa := s.fget F.CNP_BAR4_WIN_BASE 0 * 65536 + offset
       ((2 ^ (20 + s.host.bar4) ≤ offset ∨ s.decodes 0 = false ∨ s.flag F.CNP_BAR4_WIN_EN 0 = false ∨ s.flag F.TAP_READY_HBM = false) →
         exec (.pfBar4Access offset acc) s = .next (s.barRefused 0 acc false)) ∧
       (offset < 2 ^ (20 + s.host.bar4) → s.decodes 0 = true → s.flag F.CNP_BAR4_WIN_EN 0 = true → s.flag F.TAP_READY_HBM = true →
         exec (.pfBar4Access offset acc) s = .next (s.barAccess 0 [(pa, barSize acc)] acc)) ∧
       (∀ v : Fin 256,
         let wr := match acc with
           | .read _ => false
           | .write _ _ => true
         let cuts := barCuts offset (barSize acc)
         let u := cuts.foldl (fun (s : State) c => s.windowWalk v c.1) s
         (2 ^ (20 + s.host.vfBar4) ≤ offset → exec (.vfBar4Access v offset acc) s = .next (s.barRefused v acc false)) ∧
         (offset < 2 ^ (20 + s.host.vfBar4) → (v.val = 0 ∨ s.decodes v = false ∨ s.flag F.TAP_READY_HBM = false) →
           exec (.vfBar4Access v offset acc) s = .next (u.barRefused v acc false)) ∧
         (offset < 2 ^ (20 + s.host.vfBar4) → v.val ≠ 0 → s.decodes v = true → s.flag F.TAP_READY_HBM = true →
           ((∃ c ∈ cuts, u.vfWindow v c.1 wr = none) → exec (.vfBar4Access v offset acc) s = .next (u.barRefused v acc true)) ∧
           (∀ places : List (Nat × Nat), cuts.map (fun c => u.vfWindow v c.1 wr) = places.map (fun p => some p.1) →
             places.map (·.2) = cuts.map (·.2) → exec (.vfBar4Access v offset acc) s = .next (u.barAccess v places acc))))) ∧
     (∀ (f pa : Nat) (t : State) (b : List Byte) (code len : Nat), s.readBytes pa len = (t, b, code) →
       (code = 0 → s.barAccess f [(pa, len)] (.read len) = t.emit (.barRead f b false)) ∧
       (code = 0x24 → s.barAccess f [(pa, len)] (.read len) = ((t.event edge0 518).aerLog f 20).emit (.barUnsupported f)) ∧
       (code = 0x28 → ∃ (u : State) (d : List Byte), s.barAccess f [(pa, len)] (.read len) = u.emit (.barRead f d true) ∧ d.length = len)) ∧
     (∀ (f pa : Nat) (t : State) (code : Nat) (data : List Byte), s.writeBytes pa data = (t, code) →
       (code = 0 → s.barAccess f [(pa, data.length)] (.write data false) = t) ∧
       (code = 0x24 → s.barAccess f [(pa, data.length)] (.write data false) = (t.event edge0 518).aerLog f 20)) ∧
     (∀ (tag q : Nat), SMap.find s.host.reads tag = some (.sqEntry q) →
       (∀ data : List Byte, ∃ t : State, exec (.hostReadCompletion tag .ok data) s = .next t ∧ (t.qp q).fetched = some data ∧
         (t.qp q).fetching = false ∧ SMap.find t.host.reads tag = none ∧ t.cmp = s.cmp) ∧
       (s.fget F.CNP_QP_STATUS_ERR q = 0 → q < 4096 →
         ∃ t : State, exec (.completionTimeout tag) s = .next t ∧ t.fget F.CNP_QP_STATUS_ERR q = 1 ∧ (t.qp q).fetching = false ∧
           SMap.find t.host.reads tag = none)) ∧
     (∀ (tag : Nat) (w : HostWant), SMap.find s.host.reads tag = some w →
       ∀ (st : HostStatus) (data : List Byte), Completes (.hostReadCompletion tag st data) s ∧ Completes (.completionTimeout tag) s)) ∧
  (∀ (f : Fin 256) (s : State),
     (s.funcExists f = true → (s.func f).inFlr = false → ∃ t : State, exec (.functionLevelReset f) s = .next t ∧
       (f.val ≠ 0 → s.flag F.CNP_CTL_ACCT_EN = false → (t.func f).inFlr = true ∧ (t.func f).msixEnable = false ∧
         (∀ v < 2048, t.msixVec f v = {}) ∧
         (∀ q < 4096, s.flag F.CNP_QP_CFG_EN q = true → s.fget F.CNP_QP_CFG_FUNC q = f.val →
           (t.qp q).stopping = true ∧ (t.qp q).started = [] ∧ (t.qp q).held = none) ∧
         (∀ (c : Nat) (x : Ctx), s.ctx c = some x → ((s.event edge0 515).ctxFunc c).1 = f.val →
           ∃ y : Ctx, t.ctx c = some y ∧ y.state = .killed ∧ y.launches = []))) ∧
     (s.funcExists f = true → (s.func f).inFlr = true → ∃ t : State, exec (.flrComplete f) s = .next t ∧ t.func f = {} ∧
       t.out.head? = some (.functionReady f) ∧
       (∀ q < 4096, s.flag F.CNP_QP_CFG_EN q = true → s.fget F.CNP_QP_CFG_FUNC q = f.val →
         t.flag F.CNP_QP_CFG_EN q = false ∧ t.qp q = {})) ∧
     (∀ (enable : Bool) (num : Fin 256), (enable ≠ s.host.vfEnable ∨ num.val ≠ s.host.numVfs) →
       ∃ t : State, exec (.vfEnableChange enable num) s = .next t ∧ t.host.vfEnable = enable ∧ t.host.numVfs = num) ∧
     (∀ d3 : Bool, s.funcExists f = true → exec (.powerStateChange f d3) s = .next (s.setFunc f { s.func f with d3hot := d3 })) ∧
     (∀ (up : Bool) (rate : Fin 8) (width : Fin 4), (up ≠ s.host.linkUp ∨ rate.val ≠ s.host.linkRate ∨ width.val ≠ s.host.linkWidth) →
       ∃ t : State, exec (.linkStateChange up rate width) s = .next t ∧ t.host.linkUp = up ∧ t.host.linkRate = rate ∧
         t.host.linkWidth = width ∧ t.cmp = s.cmp))

/-- The words of the mailbox: a request is received word by word, a response is read word by word, ABORT discards both, and an
access out of order sets SEQERR (R412, R413). The operations of the mailbox: information, the logs, certificates, and the image in flash (R459, R460, R464, R466, R467,
R470). Where the spec leaves a point open, this is the reading or the choice of the model: log 9, 13 and 60. -/
def Obligations.MailboxResults : Prop :=
  (∀ (who : Requester) (s : State), reachOk .pfTaproot who = true → s.arrives who true true = true →
     let n := s.fget F.TAP_MBX_CMD_COUNT
     (∀ word : W32,
       (s.fget F.TAP_MBX_CMD_STATE = 1 → 1 < n → ∃ t : State, exec (.mbxDataWrite who word) s = .next t ∧
         t.host.mbxReq = s.host.mbxReq ++ [word] ∧ t.fget F.TAP_MBX_CMD_COUNT = n - 1 ∧ t.fget F.TAP_MBX_CMD_STATE = 1) ∧
       (s.fget F.TAP_MBX_CMD_STATE = 1 → n = 1 → s.mbxServed s.host.mbxOp = true →
         ∃ t : State, exec (.mbxDataWrite who word) s = .next t ∧ t.host.mbxReq = s.host.mbxReq ++ [word] ∧
           t.fget F.TAP_MBX_CMD_COUNT = 0 ∧ t.fget F.TAP_MBX_CMD_STATE = 2) ∧
       (s.fget F.TAP_MBX_CMD_STATE = 1 → n = 1 → s.mbxServed s.host.mbxOp = false →
         ∃ t : State, exec (.mbxDataWrite who word) s = .next t ∧ t.fget F.TAP_MBX_CMD_RESULT = 2 ∧
           t.fget F.TAP_MBX_CMD_STATE = 0 ∧ t.host.mbxReq = [] ∧ t.host.mbxRsp = []) ∧
       (s.fget F.TAP_MBX_CMD_STATE ≠ 1 → exec (.mbxDataWrite who word) s = .next s.seqErr)) ∧
     (∀ (w : W32) (r : List W32), s.fget F.TAP_MBX_CMD_STATE = 3 → s.host.mbxRsp = w :: r →
       ∃ t : State, exec (.mbxDataRead who) s = .next t ∧ t.host.mbxRsp = r ∧ t.out = .regRead who (w.setWidth 64) :: s.out ∧
         t.fget F.TAP_MBX_CMD_STATE = (if r = [] then 0 else 3)) ∧
     (s.fget F.TAP_MBX_CMD_STATE ≠ 3 → exec (.mbxDataRead who) s = .next (s.seqErr.emit (.regRead who 0))) ∧
     (∀ word : W64, ∃ t : State, exec (.mbxAbort who word) s = .next t ∧ t.fget F.TAP_MBX_CMD_STATE = 0 ∧
       t.fget F.TAP_MBX_CMD_COUNT = 0 ∧ t.host.mbxReq = [] ∧ t.host.mbxRsp = [] ∧ (word.getLsbD 63 = true → t.flag F.TAP_MBX_CMD_SEQERR = false)) ∧
     s.seqErr.flag F.TAP_MBX_CMD_SEQERR = true) ∧
  (∀ (s : State),
     let answers := fun (c : Instr) (result : Nat) (words : List W32) => ∃ t : State, exec c s = .next t ∧
       t.fget F.TAP_MBX_CMD_RESULT = result ∧ t.host.mbxRsp = words ∧
       t.fget F.TAP_MBX_CMD_STATE = (if words = [] then 0 else 3) ∧ t.cmp = s.cmp
     let n := s.host.mbxReq.length
     (s.mbxBusy 1 = true → (n = 1 → s.mbxWord 0 = 0 → answers .getInfo 0 s.infoWords) ∧ (n ≠ 1 → answers .getInfo 3 [])) ∧
     (s.mbxBusy 2 = true →
       let k := bits (s.mbxWord 0) 0 12
       ((n ≠ 1 ∨ k = 0 ∨ 2048 < k) → answers .readLog 3 []) ∧
       (n = 1 → 1 ≤ k → k ≤ 2048 →
         answers .readLog 0 ([BitVec.ofNat 32 (s.tap.log.take k).length, BitVec.ofNat 32 s.tap.overwritten] ++
           (s.tap.log.take k).flatMap (fun r => toWords (logBytes r))) ∧
         ∃ t : State, exec .readLog s = .next t ∧ t.tap.log = s.tap.log.drop k ∧ t.tap.overwritten = 0)) ∧
     (s.mbxBusy 3 = true →
       ((n ≠ 2 ∨ s.mbxWord 1 = 0 ∨ 2048 < s.mbxWord 1) → answers .readFlashLog 3 []) ∧
       (∀ (r : LogRec) (rs : List LogRec), n = 2 → 1 ≤ s.mbxWord 1 → s.mbxWord 1 ≤ 2048 → s.tap.flashLog = r :: rs →
         let out := (s.tap.flashLog.filter (fun r => !seqBefore r.seq (s.mbxWord 0))).take (s.mbxWord 1)
         answers .readFlashLog 0 ([BitVec.ofNat 32 out.length, BitVec.ofNat 32 r.seq] ++ out.flatMap (fun r => toWords (logBytes r))))) ∧
     (s.mbxBusy 4 = true →
       ((n ≠ 1 ∨ 1 < s.mbxWord 0) → answers .getCert 3 []) ∧
       (n = 1 → s.mbxWord 0 ≤ 1 → answers .getCert 0
         (BitVec.ofNat 32 (s.certChain (s.mbxWord 0)).length :: toWords (s.certChain (s.mbxWord 0))))) ∧
     (s.mbxBusy 5 = true →
       let data := wordBytes (s.host.mbxReq.drop 4)
       let off := s.mbxWord 0
       let len := s.mbxWord 1
       (s.imageBusy false = true → answers .imageWrite 4 []) ∧
       (s.imageBusy false = false → (crc32c data).toNat ≠ s.mbxWord 2 → answers .imageWrite 3 []) ∧
       (s.imageBusy false = false → (crc32c data).toNat = s.mbxWord 2 → n = 4 + len / 4 → 4 ≤ len → len ≤ 1048576 → len % 4 = 0 →
         s.mbxWord 3 = 0 →
         ((off % 4096 ≠ 0 ∨ 0x4000000 < off + len) → answers .imageWrite 3 []) ∧
         (off % 4096 = 0 → off + len ≤ 0x4000000 → s.tap.imageUpd.meets off len = false →
           answers .imageWrite 0 [BitVec.ofNat 32 len] ∧
           ∃ t : State, exec .imageWrite s = .next t ∧ t.flag F.TAP_FW_STATUS_FLASH_VALID = false ∧ t.tap.board = s.tap.board ∧
             flashRead t.tap.image off len = data))) ∧
     (s.mbxBusy 6 = true →
       let d := s.imageCheck (s.mbxWord 0)
       (s.imageBusy false = true → answers .imageCommit 4 []) ∧
       (s.imageBusy false = false → n = 2 → s.mbxWord 1 ≤ 1 →
         answers .imageCommit (if d = 0 then 0 else 1) [BitVec.ofNat 32 s.imageSvn, BitVec.ofNat 32 d] ∧
         ∃ t : State, exec .imageCommit s = .next t ∧ t.flag F.TAP_FW_STATUS_FLASH_VALID = decide (d = 0) ∧
           t.tap.image = s.tap.image ∧
           t.fget F.TAP_FW_STATUS_UPDATE = (if d = 0 ∧ s.fget F.TAP_READY_STATE ≠ 1 then 1 else s.fget F.TAP_FW_STATUS_UPDATE))))

/-! ### Griga (10) -/

/-- Training under the governor, and retrains: PRESENT and HOLD, the order of first requests, Up on a legal set of lanes, the third
failure, and what a retrain comes back on (R416, R417, R421, R434). Link-level retry: the expected flit is delivered and the next is expected; any other is dropped, with one NAK; an ACK frees
what it covers; a NAK or a timeout replays, and REPLAY_LIMIT replays without progress enter Retrain (R420, R421, R431). Where the spec leaves a point open, this is the reading or the choice of the model: log 50 and 51. -/
def Obligations.LinkResults : Prop :=
  (∀ (port : Fin 32) (s : State),
     let p := port.val
     let st := s.portState p
     let g := s.gport p
     (∀ q : Present,
       (st = 0 → exec (.presentSet port q) s = .next s ∧ exec (.holdSet port q) s = .next s) ∧
       (st = 1 → g.holdWait = false → g.asked = none → ∃ t : State, exec (.presentSet port q) s = .next t ∧
         (t.gport p).asked = some s.grg.order ∧ t.grg.order = s.grg.order + 1 ∧ t.fget F.GRG_PORT_STATUS_PARTNER_ID p = q.id ∧
         t.fget F.GRG_PORT_STATUS_PARTNER_PORT p = q.port ∧ t.portState p = (if 8 ≤ s.slotsUsed then 2 else 1) ∧
         (8 ≤ s.slotsUsed → t.out.head? = some (.present p true))) ∧
       (1 ≤ st → st ≤ 3 → ∃ t : State, exec (.holdSet port q) s = .next t ∧ t.portState p = 1 ∧ (t.gport p).slot = false ∧
         (t.gport p).asked = none ∧ (t.gport p).holdWait = true ∧ t.out.head? = some (.present p false))) ∧
     (st = 1 → g.holdWait = true → g.asked = none → SMap.sorted s.grg.ports = true → ∃ t : State, exec (.holdRetry port) s = .next t ∧
       (t.gport p).holdWait = false ∧ (t.gport p).asked = some s.grg.order ∧ t.portState p = (if 8 ≤ s.slotsUsed then 2 else 1)) ∧
     (∀ m : Nat, g.asked = some m → (∀ e ∈ s.grg.ports, ∀ a : Nat, e.2.asked = some a → m ≤ a) → s.slotsUsed < 8 → (st = 1 ∨ st = 2) →
       ∃ t : State, exec (.trainingGrant port) s = .next t ∧ t.portState p = 3 ∧ (t.gport p).slot = true ∧ (t.gport p).asked = none) ∧
     (∀ lanes : BitVec 4,
       (lanesLegal lanes.toNat = true → st = 3 → laneWidth lanes.toNat ≤ s.maxWidth p →
         ∃ t : State, exec (.portUp port lanes) s = .next t ∧ t.portState p = 4 ∧ t.fget F.GRG_PORT_STATUS_LANES p = lanes.toNat ∧
           t.fget F.GRG_PORT_STATUS_WIDTH p = laneWidth lanes.toNat ∧ t.gport p = {} ∧ t.flag F.GRG_PORT_CTL_RETRAIN p = false)) ∧
     (st = 3 → ∃ t : State, exec (.trainingTimeout port) s = .next t ∧
       let n := s.fget F.GRG_PORT_STATUS_TRAIN_FAILS p + 1
       t.fget F.GRG_PORT_STATUS_TRAIN_FAILS p = min n 3 ∧ (t.gport p).slot = false ∧
         (3 ≤ n → t.portState p = 6) ∧ (n < 3 → t.portState p = 1 ∨ t.portState p = 2)) ∧
     (∀ (who : Requester) (word : W32), s.mayWrite who .GRG_PORT_CTL p →
       let t := s.writeReg .GRG_PORT_CTL p word.toNat (Reg.full .GRG_PORT_CTL)
       s.flag F.GRG_PORT_CTL_EN p = true → t.flag F.GRG_PORT_CTL_EN p = true →
       (st = 4 → ∃ u : State, exec (.retrain who port word) s = .next u ∧ u.portState p = 5 ∧ (u.gport p).cand = 15 ∧
         u.flag F.GRG_PORT_DELAY_VALID p = false ∧
         u.flag F.GRG_PORT_CTL_RETRAIN p = true ∧ u.fget F.GRG_PORT_STATUS_TRAIN_FAILS p = 0) ∧
       (st = 6 → ∃ u : State, exec (.retrain who port word) s = .next u ∧ (u.portState p = 1 ∨ u.portState p = 2) ∧
         u.flag F.GRG_PORT_CTL_RETRAIN p = true ∧
         u.fget F.GRG_PORT_STATUS_TRAIN_FAILS p = 0)) ∧
     (st = 4 → ∃ t : State, exec (.fecAlignmentLoss port) s = .next t ∧ t.portState p = 5 ∧
       (t.gport p).cand = s.fget F.GRG_PORT_STATUS_LANES p ∧ t.flag F.GRG_PORT_DELAY_VALID p = false) ∧
     (∀ bad : BitVec 4, st = 4 →
       let lanes := s.fget F.GRG_PORT_STATUS_LANES p
       (lanes &&& bad.toNat = 0 → exec (.berMeasurement port bad) s = .next s) ∧
       (lanes &&& bad.toNat ≠ 0 → ∃ t : State, exec (.berMeasurement port bad) s = .next t ∧ t.portState p = 5 ∧
         (t.gport p).cand = lanes &&& (bad.toNat ^^^ 15))) ∧
     (∀ failed : BitVec 4, st = 5 →
       let widest := if s.flag F.GRG_PORT_CTL_RETRAIN p then s.maxWidth p else 3
       let lanes := retrainLanes widest (g.cand &&& (failed.toNat ^^^ 15))
       let narrower := laneWidth lanes < min widest (s.fget F.GRG_PORT_STATUS_WIDTH p)
       ∃ t : State, exec (.retrainComplete port failed) s = .next t ∧
         ((lanes = 0 ∨ (narrower ∧ s.flag F.GRG_PORT_CTL_DEGRADE p = false)) → t.portState p = 6) ∧
         (lanes ≠ 0 → (¬ narrower ∨ s.flag F.GRG_PORT_CTL_DEGRADE p = true) → t.portState p = 4 ∧
           t.fget F.GRG_PORT_STATUS_LANES p = lanes ∧ t.flag F.GRG_PORT_CTL_RETRAIN p = false)) ∧
     (∀ widest good : Nat, widest ∈ [1, 2, 3] → good < 16 → (good = 0 → retrainLanes widest good = 0) ∧
       (good ≠ 0 → lanesLegal (retrainLanes widest good) = true ∧ retrainLanes widest good &&& good = retrainLanes widest good ∧
         laneWidth (retrainLanes widest good) ≤ widest ∧
         ∀ l < 16, lanesLegal l = true → l &&& good = l → laneWidth l ≤ widest → laneWidth l ≤ laneWidth (retrainLanes widest good)))) ∧
  (∀ (port : Fin 32) (s : State),
     let p := port.val
     let g := s.gport p
     (s.portState p ≠ 4 → ∀ (a b : Fin 4096) (good : Bool), exec (.dataFlit port a b good) s = .next s ∧
       exec (.idleFlit port a b good) s = .next s ∧ exec (.nakFlit port a) s = .next s ∧
       ∀ t1 t2 t3 t4 : W64, exec (.delayFlit port t1 t2 t3 t4) s = .next s) ∧
     (s.portState p = 4 →
       (∀ seq ack : Fin 4096, seq.val = g.rxSeq → ∃ t : State, exec (.dataFlit port seq ack true) s = .next t ∧
         (t.gport p).rxSeq = (g.rxSeq + 1) % 4096 ∧ (t.gport p).nakSent = false ∧ t.out = s.out ∧
         let n := (ack.val + 4096 - g.acked) % 4096
         (0 < n → n ≤ g.unacked → (t.gport p).acked = ack ∧ (t.gport p).unacked = g.unacked - n ∧ (t.gport p).replays = 0) ∧
         ((n = 0 ∨ g.unacked < n) → (t.gport p).acked = g.acked ∧ (t.gport p).unacked = g.unacked)) ∧
       (∀ (seq ack : Fin 4096) (good : Bool), (good = false ∨ seq.val ≠ g.rxSeq) →
         ∀ c ∈ [Instr.dataFlit port seq ack good, .idleFlit port seq ack good], ∃ t : State, exec c s = .next t ∧
           (t.gport p).rxSeq = g.rxSeq ∧ (t.gport p).nakSent = true ∧ (t.gport p).acked = g.acked ∧ (t.gport p).unacked = g.unacked ∧
           (g.nakSent = false → t.out.head? = some (.flit p 2 g.txSeq ((g.rxSeq + 4095) % 4096)))) ∧
       (∀ seq ack : Fin 4096, seq.val = g.rxSeq → exec (.idleFlit port seq ack true) s = .next (s.takeAck p ack.val)) ∧
       (∀ expected : Fin 4096, g.unacked = 0 → exec (.nakFlit port expected) s = .next s) ∧
       (∀ expected : Fin 4096, 0 < g.unacked → (expected.val + 8191 - g.acked) % 4096 = 0 → g.acked < 4096 →
         exec (.nakFlit port expected) s = .next (s.replay p)) ∧
       (g.unacked ≠ 0 → ∃ t : State, exec (.replayTimeout port) s = .next t ∧
         (s.fget F.GRG_PORT_CTL_REPLAY_LIMIT p ≤ g.replays + 1 → t.portState p = 5 ∧
           (t.gport p).cand = s.fget F.GRG_PORT_STATUS_LANES p) ∧
         (g.replays + 1 < s.fget F.GRG_PORT_CTL_REPLAY_LIMIT p → t.portState p = 4 ∧ (t.gport p).replays = g.replays + 1 ∧
           t.out.head? = some (.flit p 0 ((g.acked + 1) % 4096) ((g.rxSeq + 4095) % 4096)))) ∧
       (∀ t1 t2 t3 t4 : W64, ∃ t : State, exec (.delayFlit port t1 t2 t3 t4) s = .next t ∧ t.flag F.GRG_PORT_DELAY_VALID p = true ∧
         t.fget F.GRG_PORT_DELAY_DELAY p = ((t4 - t1) - (t3 - t2)).toNat / 2 % 2 ^ 20)))

/-- A request at ingress: the first check that fails refuses it, with NACK, an INGRESS record and the count; otherwise it is performed
at the home and answered to its sender, with its tag and the rewritten ROUTE (R386, R422, R423, R426, R428). A response whose entry or generation does not match is discarded and counted; otherwise the entry is free and the issuer has
its answer; a request without one is abandoned 100 µs after its issue (R424, R427, R429, R430). Where the spec leaves a point open, this is the reading or the choice of the model: log 36 and 50. -/
def Obligations.IngressAndEgressResults : Prop :=
  (∀ (port : Fin 32) (msg m : GMsg) (s : State),
     let p := port.val
     (∀ e ∈ [(opRd, 1, Instr.rdReq port msg), (opGet, 0, .getReq port msg), (opWr, 1, .wrReq port msg), (opAt, 1, .atReq port msg),
         (opPut, 0, .putReq port msg), (opPutRed, 0, .putRedReq port msg)],
       let r := arrivedAs msg e.1 e.2.1
       (s.portState p ≠ 4 → exec e.2.2 s = .refused .notEnabled) ∧
       (s.portState p = 4 →
         (∀ n : Nat, s.ingressReason r = some n → exec e.2.2 s = .next (s.ingressRefuse p r n)) ∧
         (s.ingressReason r = none → Completes e.2.2 s))) ∧
     (s.portState p = 4 →
       (∀ e ∈ [(arrivedAs msg opRd 1, Instr.rdReq port msg), (arrivedAs msg opGet 0, .getReq port msg)],
         s.ingressReason e.1 = none → ∀ (t : State) (b : List Byte) (code : Nat),
           (s.ingressServe e.1).readBytes e.1.addr e.1.len = (t, b, code) →
           (code = 0 → exec e.2 s = .next (t.reply p e.1 opData 0 b)) ∧
           (code ≠ 0 → ∃ (u : State) (d : List Byte), exec e.2 s = .next (u.reply p e.1 opData 1 d) ∧ d.length = b.length)) ∧
       (let w := arrivedAs msg opWr 1
        s.ingressReason w = none → exec (.wrReq port msg) s = .next (((s.ingressServe w).putLine (w.addr / 128)
          (ofBytes (w.payload.take 16)) (lineOf (w.payload.drop 16))).1.reply p w opAck 0 [])) ∧
       (let w := arrivedAs msg opPut 0
        s.ingressReason w = none → exec (.putReq port msg) s =
          .next (((s.ingressServe w).writeBytes w.addr (w.payload.take w.len)).1.reply p w opAck 0 [])) ∧
       (let w := arrivedAs msg opPutRed 0
        s.ingressReason w = none → ∃ u : State, exec (.putRedReq port msg) s = .next (u.reply p w opAck 0 []) ∨
          exec (.putRedReq port msg) s = .next (u.reply p w opAck 1 [])) ∧
       (let w := arrivedAs msg opAt 1
        s.ingressReason w = none → ∀ (t : State) (old : List (Nat × Nat)),
          (s.ingressServe w).atomLine (w.addr / 128) (msgAtom w) = (t, old, 0) → exec (.atReq port msg) s = .next (t.reply p w opData 0
            ((msgAtom w).lanes.flatMap (fun l => toBytes (((old.find? (fun x => x.1 == l.lane)).map (·.2)).getD 0) 8))))) ∧
     (∀ (op x : Nat) (b : List Byte), (s.reply p m op x b).out.head? = some (.griga p
       { dst := m.src, src := s.pkgId, cls := 2, op := op, tag := m.tag, x := x, addr := m.addr, len := m.len, route := m.route
         hops := m.hops, ptr := 0, payload := b })) ∧
     (∀ r : Nat, s.ingressReason m = some r →
       (r = 1 ↔ ¬ (s.flag F.GRG_PKG_ID_V = true ∧ m.dst = s.pkgId)) ∧ (r = 2 → regBase < m.addr + m.len ∧ m.addr < regBase + regSize) ∧
         (r = 3 → s.windowed m (fun _ => true) = false) ∧ 1 ≤ r ∧ r ≤ 5)) ∧
  (∀ (port : Fin 32) (msg : GMsg) (s : State),
     let p := port.val
     let index := p / 8 * 8192 + msg.tag % 8192
     (∀ e ∈ [(opData, Instr.dataRsp port msg), (opAck, .ackRsp port msg), (opNack, .nackRsp port msg)],
       (s.portState p ≠ 4 → exec e.2 s = .refused .notEnabled) ∧
       (s.portState p = 4 →
         (SMap.find s.grg.egress index = none → exec e.2 s = .next (s.pkgCount 3 1)) ∧
         (∀ r : EgReq, SMap.find s.grg.egress index = some r →
           (r.msg.tag ≠ msg.tag % 65536 → exec e.2 s = .next (s.pkgCount 3 1)) ∧
           (r.msg.tag = msg.tag % 65536 → Completes e.2 s ∧
             (∀ q : Nat, r.issuer = .pair q → (s.qp q).aux = .due → s.grg.egWait = [] → ∃ t : State, exec e.2 s = .next t ∧
               SMap.find t.grg.egress index = none ∧ t.cmp = s.cmp ∧
               (t.qp q).aux = (if e.1 = opNack then .failed
                 else if bit msg.x 0 = true ∧ e.1 = opData then .failed
                 else if e.1 = opAck then .got []
                 else .got (maskedBytes (ofBytes (r.msg.payload.take 16)) msg.payload))))))) ∧
     (∀ (edge : Fin 4) (i : Fin 8192) (r : EgReq),
       let k := edge.val * 8192 + i.val
       SMap.find s.grg.egress k = some r → Completes (.remoteTimeout edge i) s ∧
         (∀ q : Nat, r.issuer = .pair q → (s.qp q).aux = .due → s.grg.egWait = [] →
           ∃ t : State, exec (.remoteTimeout edge i) s = .next t ∧ SMap.find t.grg.egress k = none ∧ (t.qp q).aux = .failed ∧
             r.issued + 100000 ≤ t.localNs)) ∧
     (∀ (who : Requester) (word : W32), s.mayWrite who .GRG_RT_SYNC 0 →
       (word.getLsbD 0 = true → ∃ t : State, exec (.rtSync who word) s = .next t ∧ t.flag F.GRG_RT_SYNC_SYNC = true ∧
         t.grg = s.grg) ∧
       (word.getLsbD 0 = false → ∃ t : State, exec (.rtSync who word) s = .next t ∧ t.grg = s.grg)) ∧
     (s.flag F.GRG_RT_SYNC_SYNC = true → s.grg.egWait = [] → ∃ t : State, exec .rtSyncDone s = .next t ∧ t.grg.routes = [] ∧
       t.flag F.GRG_RT_SYNC_SYNC = false ∧ t.grg.egress = s.grg.egress))

/-- Management messages: REPORT_REQ is answered with the report, a DUTY message counts only from the master that the selected
beats name, and a HEALTH message is logged (R443, R477, R478). Where the spec leaves a point open, this is the reading or the choice of the model: log 13 and 57. -/
def Obligations.ManagementMessageResults : Prop :=
  ∀ (port : Fin 32) (src : Fin 16384) (s : State), s.portState port.val = 4 →
    (s.fget F.TAP_READY_STATE ≠ 3 → ∀ (n : W32) (nonce : BitVec 256) (c : Fin 32) (slot a b : W64) (l : List Byte),
      exec (.reportReq port src n nonce) s = .next s ∧ exec (.reportMsg port src n l) s = .next s ∧
        exec (.dutyMsg port src c slot) s = .next s ∧ exec (.healthMsg port src a b) s = .next s) ∧
    (s.fget F.TAP_READY_STATE = 3 →
      (∀ (n : W32) (nonce : BitVec 256), exec (.reportReq port src n nonce) s =
        .next (s.emit (.mgmt src.val 2 n.toNat (s.report (toBytes nonce.toNat 32))))) ∧
      (∀ (n : W32) (l : List Byte), exec (.reportMsg port src n l) s = .next s) ∧
      (∀ (c : Fin 32) (slot : W64), ∃ t : State, exec (.dutyMsg port src c slot) s = .next t ∧
        (s.fget F.TB_STATUS_SRC = 1 → (s.portTrack s.ring.port).master = src.val →
          t.duty.announced = some (c.val, slot.toNat, s.fget F.TB_STATUS_STEP_COUNT) ∧ t.regs = s.regs) ∧
        (¬ (s.fget F.TB_STATUS_SRC = 1 ∧ (s.portTrack s.ring.port).master = src.val) → t = s)) ∧
      (∀ a b : W64, ∃ t : State, exec (.healthMsg port src a b) s = .next t ∧ t.cmp = s.cmp ∧
        (s.flag F.TAP_READY_TAPROOT = true → t.tap.logNext = s.tap.logNext + 1)))

/-! ### Power, bring-up and resets (11) -/

/-- A cold reset leaves the package as right after reset, but for the command queue, the test port, the flash devices, the flash log
and the fuses, with LAST_RESET as given and memory indeterminate; a power loss also takes PWR_GOOD away and records its stop (R267,
R436, R447, R451, R533). The 56 V input and PERST_N: soft-start, PWR_GOOD, the stops and what holds conversion off, and the cold reset at PERST_N (R435
to R437, R529, R533). Where the spec leaves a point open, this is the reading or the choice of the model: log 3, 53 and 62. -/
def Obligations.ColdResetResults : Prop :=
  (∀ (s : State) (code : Nat), code < 8 →
     let t := s.coldState code
     t.fget F.TAP_READY_LAST_RESET = code ∧ t.fget F.TAP_READY_STATE = 0 ∧ t.flag F.TAP_READY_TAPROOT = false ∧
       t.flag F.TAP_READY_STEWARDS = false ∧ t.flag F.TAP_READY_HBM = false ∧ t.flag F.TAP_READY_MCTP = false ∧
       (∀ (r : Reg) (i : Nat), r ≠ .TAP_READY → r ≠ .TAP_PWR_STATUS → i < 2 ^ 20 → t.reg r i = r.resetWord i) ∧
       t.fget F.TAP_PWR_STATUS_STOP = s.pwr.stopCause % 8 ∧ t.fget F.TAP_PWR_STATUS_UNIT = s.pwr.stopUnit % 256 ∧
       t.tap.image = s.tap.image ∧ t.tap.board = s.tap.board ∧ t.tap.fuses = s.tap.fuses ∧ t.tap.flashLog = s.tap.flashLog ∧
       t.tap.log = [] ∧ t.pending = s.pending ∧ t.jtag = s.jtag ∧ t.ring = {} ∧ t.evc = {} ∧ t.host = {} ∧ t.grg = {} ∧
       t.health = {} ∧ t.duty = {} ∧ t.halts = [] ∧ t.shadow = [] ∧ t.snaps = [] ∧
       t.cmp = { mem := [], poison := [], indet := (List.range 384).map (fun g => (g, s.free)) } ∧ t.pwr.pwrGood = s.pwr.pwrGood ∧
       t.pwr.perst = s.pwr.perst ∧
       (∀ (cause unit : Nat) (latch : Bool), let u := s.powerLoss cause unit latch
         u.pwr.converting = false ∧ u.pwr.pwrGood = false ∧ u.pwr.latchedOff = latch ∧ u.pwr.stopCause = cause ∧
           u.pwr.stopUnit = unit ∧ u.cmp = (s.coldState 0).cmp)) ∧
  (∀ (s : State),
     (s.pwr.converting = false → s.pwr.softStart = false → s.pwr.latchedOff = false →
       exec .powerOn s = .next { s with pwr := { s.pwr with softStart := true } }) ∧
     (s.pwr.latchedOff = true → exec .powerOn s = .refused .notEnabled) ∧
     (s.pwr.softStart = true → ∃ t : State, exec .softStartComplete s = .next t ∧ t.pwr.pwrGood = true ∧ t.pwr.converting = true ∧
       t.pwr.softStart = false ∧ (s.pwr.perst = true → t.regs = s.regs ∧ t.cmp = s.cmp) ∧
       (s.pwr.perst = false → t.pwr.inReset = none ∧ t.fget F.TAP_READY_LAST_RESET = 0)) ∧
     ((s.pwr.converting = true ∨ s.pwr.softStart = true) → ∀ c : StopCause, ∃ t : State, exec (.inputStop c) s = .next t ∧
       t.pwr.pwrGood = false ∧ t.pwr.converting = false ∧ t.pwr.softStart = false ∧
       t.pwr.stopCause = (match c with
         | .over300A => 3
         | .over400A => 4
         | .over62V => 5
         | .under46V => 6) ∧ t.pwr.latchedOff = decide (c ≠ .under46V)) ∧
     (s.pwr.converting = false → s.pwr.softStart = false → exec .inputBelow40v s =
       .next { s with pwr := { s.pwr with latchedOff := false, thermtrip := false } }) ∧
     (s.pwr.perst = false → ∃ t : State, exec .perstAssert s = .next t ∧ t.pwr.perst = true ∧ t.pwr.inReset.isSome = true ∧
       t.fget F.TAP_READY_LAST_RESET = (if s.pwr.pwrGood = true ∧ s.pwr.inReset ≠ some 0 then 1 else 0) ∧
       t.cmp.mem = [] ∧ t.cmp.groups = [] ∧ t.tap.fuses = s.tap.fuses) ∧
     (s.pwr.perst = true → ∃ t : State, exec .perstDeassert s = .next t ∧ t.pwr.perst = false ∧
       (s.pwr.pwrGood = true → t.pwr.inReset = none) ∧ (s.pwr.pwrGood = false → t.pwr.inReset = s.pwr.inReset ∧ t.regs = s.regs) ∧
       (s.jtag.ir = .extest ∨ s.jtag.ir = .clamp ∨ s.jtag.ir = .highz → t.jtag.ir = .bypass) ∧
       (s.jtag.ir = .idcode → t.jtag.ir = .idcode)))

/-- Bring-up: fuses and the device secret, the image and the alias keys, the self-tests of the stewards and the training of both tiers; the failures that lead to Recovery
and to Failed, and the retirement of what fails (R438 to R444,
R472, R473). Where the spec leaves a point open, this is the reading or the choice of the model: log 58. -/
def Obligations.BringUpResults : Prop :=
  ∀ (s : State), s.pwr.inReset = none →
    (∀ intact : Bool, s.pwr.pwrGood = true → s.fget F.TAP_READY_STATE = 0 → s.pwr.fusesLoaded = false →
      ∃ t : State, exec (.fuseLoadComplete intact) s = .next t ∧ t.cmp = s.cmp ∧
        (intact = true → s.tap.secretLocked = false → t.tap.secretLocked = true ∧
          t.tap.deviceSeeds = deviceSeedsOf Config.deviceSecret) ∧
        (intact = true → s.tap.secretLocked = true → t.tap.secret = s.tap.secret ∧ t.tap.deviceSeeds = s.tap.deviceSeeds) ∧
        (intact = true → t.pwr.fusesLoaded = true ∧ t.fget F.TAP_FW_STATUS_FUSE_SVN = s.tap.fuses.svnMin % 64 ∧
          t.fget F.TAP_READY_STATE = 0) ∧
        (intact = false → t.fget F.TAP_READY_STATE = 5 ∧ t.fget F.TAP_READY_FAIL = 1)) ∧
    (s.fget F.TAP_READY_STATE = 0 → s.pwr.fusesLoaded = true → ∃ t : State, exec .imageVerifyComplete s = .next t ∧
      let ok := s.imageCheck (flashWord s.tap.image 0x10) = 0
      (ok → t.flag F.TAP_READY_TAPROOT = true ∧ t.flag F.TAP_READY_MCTP = true ∧ t.fget F.TAP_READY_STATE = 2 ∧
        t.flag F.TAP_FW_STATUS_FLASH_VALID = true ∧ t.flag F.TAP_STATUS_STANDBY_OK = true ∧
        t.fget F.TAP_FW_STATUS_RUN_SVN = s.imageSvn ∧ t.tap.runMeas = s.imageMeasurement (flashWord s.tap.image 0x10) ∧
        t.tap.secret = none ∧ t.tap.boardRead = s.tap.board ∧
        t.tap.aliasSeeds = aliasSeedsOf s.tap.deviceSeeds (s.imageMeasurement (flashWord s.tap.image 0x10)) s.imageSvn) ∧
      (¬ ok → t.fget F.TAP_READY_STATE = 1 ∧ t.flag F.TAP_READY_TAPROOT = s.flag F.TAP_READY_TAPROOT)) ∧
    (∀ (die : Fin 84) (passed : Bool), s.fget F.TAP_READY_STATE = 2 → s.flag F.TAP_READY_TAPROOT = true →
      s.flag F.TAP_READY_STEWARDS = false → s.pwr.selfTested.contains die.val = false → s.fget F.TAP_DIE_HEALTH_STATE die.val ≠ 2 →
      s.pwr.edge0Failed = false → s.pwr.edge2Failed = false →
      ∃ t : State, exec (.stewardSelfTestComplete die passed) s = .next t ∧
        ((∃ e < 84, e ≠ die.val ∧ s.pwr.selfTested.contains e = false ∧ s.fget F.TAP_DIE_HEALTH_STATE e ≠ 2) → passed = true →
          t = { s with pwr := { s.pwr with selfTested := die.val :: s.pwr.selfTested } }) ∧
        ((∀ e < 84, e ≠ die.val → s.pwr.selfTested.contains e = true ∨ s.fget F.TAP_DIE_HEALTH_STATE e = 2) → passed = true →
          t.flag F.TAP_READY_STEWARDS = true ∧ t.host.served = true ∧ .deviceReady ∈ t.out) ∧
        (passed = false → 80 < die.val → t.fget F.TAP_DIE_HEALTH_STATE die.val = 2 ∧ t.fget F.TAP_DIE_HEALTH_CAUSE die.val = 1)) ∧
    (∀ (passed : Bool), s.fget F.TAP_READY_STATE = 2 → s.flag F.TAP_READY_TAPROOT = true → s.flag F.TAP_READY_STEWARDS = false →
      s.pwr.selfTested.contains edge2 = false → s.fget F.TAP_DIE_HEALTH_STATE edge2 ≠ 2 → s.pwr.edge0Failed = true → passed = false →
      ∃ t : State, exec (.stewardSelfTestComplete 82 passed) s = .next t ∧ t.fget F.TAP_READY_STATE = 5 ∧
        t.fget F.TAP_READY_FAIL = 2) ∧
    (∀ (failedPcs : List (Fin 1024)) (ports : List (Fin 16 × Fin 3)), s.fget F.TAP_READY_STATE = 2 →
      s.flag F.TAP_READY_STEWARDS = true → s.flag F.TAP_READY_HBM = false →
      ((∃ p < 1024, s.pcState p ≠ 2 ∧ ∀ q ∈ failedPcs, q.val ≠ p) →
        ∃ t : State, exec (.memoryTrainingComplete failedPcs ports) s = .next t ∧ t.flag F.TAP_READY_HBM = true ∧
          t.flag F.TAP_READY_OUTER = true ∧ (∀ q ∈ failedPcs, t.pcState q = 2) ∧
          (s.flag F.TAP_READY_TAPROOT = true → t.fget F.TAP_READY_STATE = 3)) ∧
      ((∀ p < 1024, s.pcState p = 2 ∨ ∃ q ∈ failedPcs, q.val = p) →
        ∃ t : State, exec (.memoryTrainingComplete failedPcs ports) s = .next t ∧ t.fget F.TAP_READY_STATE = 5 ∧
          t.fget F.TAP_READY_FAIL = 3 ∧ t.flag F.TAP_READY_HBM = false))

/-- The commands of `TAP_RESET_CTL`, each acting by the OP that its word holds: without its KEY a write does nothing; a reset or Standby that the state does not allow is
refused; otherwise it starts, and ends (R446 to R451). A warm reset keeps what R447 names and loses the rest; a PCIe Hot Reset also resets the configuration space; Standby writes every
dirty line back and switches the compute and home dies off, and RESUME comes back as after a warm reset (R446 to R450). Where the spec leaves a point open, this is the reading or the choice of the model: log 53 and 59. -/
def Obligations.ResetCommandResults : Prop :=
  (∀ (who : Requester) (word : W32) (s : State), s.mayWrite who .TAP_RESET_CTL 0 →
     let n := word.toNat
     let t := s.writeReg .TAP_RESET_CTL 0 n (Reg.full .TAP_RESET_CTL)
     let busy := t.cmp.ctxs.any (fun e => e.2.state == .running || e.2.state == .stopping || e.2.state == .restoring ||
       e.2.state == .pruning)
     (∀ c ∈ [Instr.warmReset who word, .coldReset who word, .standby who word, .standbyResume who word],
       (bits n 8 8 ≠ 0xA5 → exec c s = .next (s.writeReg .TAP_RESET_CTL 0 0 (Reg.full .TAP_RESET_CTL))) ∧
       (bits n 8 8 = 0xA5 →
         (bits n 0 3 = 1 →
           (t.resetOpen = false → exec c s = .next (t.fset F.TAP_RESET_CTL_REFUSED 1)) ∧
           (t.resetOpen = true → exec c s = .next (t.warmStart 3))) ∧
         (bits n 0 3 = 2 → exec c s = .next (t.coldState 2)) ∧
         (bits n 0 3 = 3 →
           ((t.resetOpen = false ∨ busy = true) → exec c s = .next (t.fset F.TAP_RESET_CTL_REFUSED 1)) ∧
           (t.resetOpen = true → busy = false → ∃ u : State, exec c s = .next u ∧ u.pwr.standbyEntry = true ∧
             u.flag F.TAP_RESET_CTL_BUSY = true ∧ u.cmp = t.cmp)) ∧
         (bits n 0 3 = 4 →
           (t.fget F.TAP_READY_STATE ≠ 4 → exec c s = .next t) ∧
           (t.fget F.TAP_READY_STATE = 4 → t.flag F.TAP_RESET_CTL_BUSY = false → t.pwr.edge0Failed = false →
             ∃ u : State, exec c s = .next u ∧ u.pwr.standbyExit = true ∧ u.flag F.TAP_RESET_CTL_BUSY = true)) ∧
         (bits n 0 3 = 0 ∨ 5 ≤ bits n 0 3 → exec c s = .next t))) ∧
     (s.resetOpen = true ↔ s.fget F.TAP_READY_STATE = 3 ∧ s.flag F.TAP_RESET_CTL_BUSY = false)) ∧
  (∀ (s : State),
     (∀ code : Nat, code < 8 → s.cmp.txns = [] →
       let t := s.warmStart code
       t.pwr.inReset = some code ∧ t.flag F.TAP_RESET_CTL_BUSY = true ∧ t.fget F.TAP_READY_STATE = 2 ∧
         t.flag F.TAP_READY_STEWARDS = false ∧ t.cmp = s.cmp.warm ∧ t.cmp.groups = [] ∧ t.cmp.ctxs = [] ∧ t.halts = [] ∧
         t.host.qps = [] ∧ t.grg.egress = [] ∧ t.grg.genBase = s.grg.genBase + 1 ∧ t.pending = s.pending ∧ t.ring = s.ring ∧
         t.tap.image = s.tap.image ∧
         t.cycles = 0 ∧ t.evc = {} ∧ t.duty = {} ∧ t.pwr.retainClus = [] ∧
         (code ≠ 4 → t.host.vfEnable = s.host.vfEnable ∧ t.host.bar4 = s.host.bar4 ∧ t.host.vfBar4 = s.host.vfBar4 ∧ (t.func 0).msixEnable = (s.func 0).msixEnable) ∧
         (code = 4 → t.host.vfEnable = false ∧ t.host.bar4 = 10 ∧ t.host.vfBar4 = 8 ∧ t.func 0 = {}) ∧
         (∀ (r : Reg) (i : Nat), i < 2 ^ 20 → r ∉ [.EVC_PEND, .EVC_RAW, .EVC_SETCNT, .EVC_ROUTE] →
           (keptWarm r = true → r ≠ .TAP_READY → t.reg r i = s.reg r i) ∧
           (keptWarm r = false → r ≠ .TAP_RESET_CTL → r ≠ .TAP_DUTY_STATUS → t.reg r i = r.resetWord i))) ∧
     ((s.flag F.TAP_READY_TAPROOT = true → s.fget F.TAP_READY_STATE ≠ 5 → exec .hotReset s = .next (s.warmStart 4)) ∧
       (s.flag F.TAP_READY_TAPROOT = false → exec .hotReset s =
         .next { s with host := { s.host with vfEnable := false, numVfs := 0, bar4 := 10, vfBar4 := 8, funcs := [], msix := [] } })) ∧
     (∀ code : Nat, s.pwr.inReset = some code → 3 ≤ code → code ≤ 5 → ∃ t : State, exec .warmResetComplete s = .next t ∧
       t.pwr.inReset = none ∧ t.flag F.TAP_RESET_CTL_BUSY = false ∧ t.fget F.TAP_READY_LAST_RESET = code ∧
       (s.host.served = true → t.flag F.TAP_READY_STEWARDS = true ∧ t.out.head? = some .deviceReady)) ∧
     (s.pwr.standbyEntry = true → ∀ u : State, s.flushLines (fun _ _ _ => true) = some u →
       ∃ t : State, exec .managedPowerDownComplete s = .next t ∧ t.fget F.TAP_READY_STATE = 4 ∧
         t.flag F.TAP_RESET_CTL_BUSY = false ∧ t.cmp.rsvs = [] ∧ (∀ d < 80, t.pwr.diesOff.contains d = true) ∧ t.cmp.mem = u.cmp.mem) ∧
     (s.pwr.standbyExit = true → s.cmp.txns = [] → ∃ t : State, exec .standbyExitComplete s = .next t ∧ t.fget F.TAP_READY_STATE = 3 ∧
       t.flag F.TAP_READY_STEWARDS = true ∧ t.fget F.TAP_READY_LAST_RESET = 6 ∧ t.flag F.TAP_RESET_CTL_BUSY = false ∧
       t.cmp.mem = s.cmp.mem ∧ t.cmp.groups = [] ∧ (∀ d < 80, t.pwr.diesOff.contains d = false)))

/-! ### Taproot (12) -/

/-- The two Taproots: heartbeat, journal, take-over and restart; the loss of edge dies (R446, R452 to R455, R467, R484). Sensors, the stewards of a live update, and fuses (R456, R457, R467, R468, R471, R485, R496). Where the spec leaves a point open, this is the reading or the choice of the model: log 13 and 61. -/
def Obligations.TaprootResults : Prop :=
  (∀ (s : State), s.taprootUp = true →
     (s.tap.fatal = false → ∃ t : State, exec .heartbeat s = .next t ∧ t.tap.lastBeat = s.localNs ∧ t.out = .heartbeat :: s.out) ∧
     (s.flag F.TAP_STATUS_STANDBY_OK = true → s.tap.journalApplied < s.tap.journalSent →
       ∃ t : State, exec .journalEntry s = .next t ∧ t.tap.journalApplied = s.tap.journalApplied + 1 ∧
         t.out = .journalAck (s.tap.journalApplied + 1) :: s.out) ∧
     (s.tap.fatal = false →
       (s.flag F.TAP_STATUS_STANDBY_OK = true → exec .primaryFatalFault s = .next { s with tap := { s.tap with fatal := true } }) ∧
       (s.flag F.TAP_STATUS_STANDBY_OK = false → exec .primaryFatalFault s = .next (s.warmStart 5))) ∧
     (∀ c : TakeoverCause, s.flag F.TAP_STATUS_STANDBY_OK = true →
       (c = .heartbeatLoss ∨ (c = .fatalFault ∧ s.tap.fatal = true)) →
       ∃ t : State, exec (.takeover c) s = .next t ∧ t.fget F.TAP_STATUS_ACTIVE = 1 - s.fget F.TAP_STATUS_ACTIVE ∧
         t.fget F.TAP_STATUS_TAKEOVERS = min 65535 (s.fget F.TAP_STATUS_TAKEOVERS + 1) ∧ t.flag F.TAP_STATUS_STANDBY_OK = false ∧
         t.tap.fatal = false ∧ t.tap.formerDown = true ∧ t.cmp.mem = s.cmp.mem ∧
         (c = .heartbeatLoss → s.tap.lastBeat + 5000000 ≤ t.localNs) ∧ t.fget F.TAP_MBX_CMD_STATE = 0) ∧
     (s.flag F.TAP_STATUS_STANDBY_OK = true → s.fget F.TAP_FW_STATUS_UPDATE = 1 → ∃ t : State, exec (.takeover .planned) s = .next t ∧
       t.fget F.TAP_STATUS_ACTIVE = 1 - s.fget F.TAP_STATUS_ACTIVE ∧ t.fget F.TAP_FW_STATUS_UPDATE = 2 ∧
       t.fget F.TAP_FW_STATUS_RUN_SVN = s.imageSvn ∧ t.tap.formerDown = true) ∧
     (s.flag F.TAP_STATUS_STANDBY_OK = true → s.fget F.TAP_FW_STATUS_UPDATE = 2 → s.tap.handBack = true →
       ∃ t : State, exec (.takeover .planned) s = .next t ∧ t.fget F.TAP_STATUS_ACTIVE = 1 - s.fget F.TAP_STATUS_ACTIVE ∧
         t.fget F.TAP_FW_STATUS_UPDATE = 3 ∧ t.fget F.TAP_FW_STATUS_DIE = 0) ∧
     (s.tap.formerDown = true → ∀ passed : Bool, ∃ t : State, exec (.formerPrimaryRestart passed) s = .next t ∧
       t.tap.formerDown = false ∧ (passed = true → t.flag F.TAP_STATUS_STANDBY_OK = true ∧ t.tap.journalApplied = s.tap.journalSent ∧
         t.tap.handBack = decide (s.fget F.TAP_FW_STATUS_UPDATE = 2)) ∧
       (passed = false → t.regs = s.regs)) ∧
     (s.pwr.edge0Failed = false → ∃ t : State, exec .edgeDie0Loss s = .next t ∧ t.fget F.TAP_DIE_HEALTH_STATE edge0 = 2 ∧
       t.host.linkUp = false ∧ t.host.served = false ∧ t.pwr.edge0Failed = true ∧ (∀ p < 8, t.portState p = 6) ∧
       ((s.flag F.TAP_STATUS_ACTIVE = true ∨ s.flag F.TAP_STATUS_STANDBY_OK = true) → s.flag F.CNP_CTL_ACCT_EN = false →
         t.flag F.TAP_STATUS_EDGE0_LOST = true ∧ t.pwr.standbyEntry = true ∧ t.flag F.TAP_RESET_CTL_BUSY = true ∧
         ∀ (c : Nat) (x : Ctx), s.ctx c = some x → ∃ y : Ctx, t.ctx c = some y ∧ y.state = .killed) ∧
       (s.flag F.TAP_STATUS_ACTIVE = false → s.flag F.TAP_STATUS_STANDBY_OK = false → t.flag F.TAP_READY_TAPROOT = false)) ∧
     (∀ e : Fin 4, e.val ≠ 0 → s.fget F.TAP_DIE_HEALTH_STATE (80 + e.val) ≠ 2 → ∃ t : State, exec (.edgeDieLoss e) s = .next t ∧
       t.fget F.TAP_DIE_HEALTH_STATE (80 + e.val) = 2 ∧ t.fget F.TAP_DIE_HEALTH_CAUSE (80 + e.val) = 7 ∧
       t.pwr.diesOff.contains (80 + e.val) = true ∧ ∀ p < 8, t.portState (8 * e.val + p) = 6)) ∧
  (∀ (s : State), s.taprootUp = true →
     (∀ (d : Fin 84) (n : Fin 8) (v : W16), n.val < sensorCount d → s.pwr.diesOff.contains d.val = false →
       s.fget F.TAP_DIE_HEALTH_STATE d.val ≠ 2 → ∃ t : State, exec (.sensorSample (.dieTemp d n v)) s = .next t ∧
         t.fget F.TAP_TEMP_TEMP (d.val * 8 + n.val) = v.toNat ∧ t.flag F.TAP_TEMP_VALID (d.val * 8 + n.val) = true) ∧
     (∀ (d : Fin 84) (n : Fin 8) (v : W16), sensorCount d ≤ n.val → exec (.sensorSample (.dieTemp d n v)) s = .refused .notEnabled) ∧
     (∀ mV cur : W16, ∃ t : State, exec (.sensorSample (.input mV cur)) s = .next t ∧ t.fget F.TAP_POWER_VIN = mV.toNat ∧
       t.fget F.TAP_POWER_IIN = cur.toNat ∧ t.tap.energyN = s.tap.energyN + mV.toNat * cur.toNat ∧
       (s.tap.inputs = [] → t.fget F.TAP_POWER_PIN = min 65535 (mV.toNat * cur.toNat / 100000))) ∧
     (s.fget F.TAP_FW_STATUS_UPDATE = 3 → ∃ t : State, exec .stewardUpdate s = .next t ∧
       (s.fget F.TAP_FW_STATUS_DIE < 83 → t.fget F.TAP_FW_STATUS_DIE = s.fget F.TAP_FW_STATUS_DIE + 1 ∧
         t.fget F.TAP_FW_STATUS_UPDATE = 3) ∧
       (83 ≤ s.fget F.TAP_FW_STATUS_DIE → t.fget F.TAP_FW_STATUS_UPDATE = 0 ∧ t.fget F.TAP_FW_STATUS_DIE = 0 ∧
         t.tap.aliasSvn = s.imageSvn ∧ t.tap.aliasSeeds = aliasSeedsOf s.tap.deviceSeeds t.tap.runMeas s.imageSvn) ∧
       (s.fget F.TAP_FW_STATUS_DIE < 84 → SMap.get t.tap.stewardsDown 0 (s.fget F.TAP_FW_STATUS_DIE) = s.localNs + 4000000)) ∧
     (∀ d : Fin 84, s.flag F.TAP_READY_STEWARDS = true → s.fget F.TAP_DIE_HEALTH_STATE d.val ≠ 2 →
       ∃ t : State, exec (.stewardHeartbeatMiss d) s = .next t ∧ t.cmp = s.cmp ∧ (∀ k : Nat, k / 16 = d.val → t.canopyActs k = false) ∧
         t.tap.stewardsDown = SMap.put s.tap.stewardsDown d.val (s.localNs + 4000000)) ∧
     (∀ f : FuseField, s.fget F.TAP_READY_STATE ≠ 0 → s.burnable f = true →
       (∃ t : State, exec (.fuseBurn f false) s = .next t ∧ t.tap.fuses = s.tap.fuses ∧
         t.tap.logNext = s.tap.logNext + 1 ∧ ∃ r ∈ t.tap.log, r.seq = s.tap.logNext ∧ r.severity = 3) ∧
       (∃ t : State, exec (.fuseBurn f true) s = .next t ∧
         (∀ c : Fin 8192, f = .retireCore c → t.tap.fuses.cores = s.tap.fuses.cores ++ [c.val]) ∧
         (∀ k : Fin 1024, f = .retireCluster k → t.tap.fuses.clusters = s.tap.fuses.clusters ++ [k.val]) ∧
         (∀ d : Fin 84, f = .retireDie d → t.tap.fuses.dies = s.tap.fuses.dies ++ [d.val]) ∧
         (f = .svnMinimum → t.tap.fuses.svnMin = max s.tap.fuses.svnMin (s.fget F.TAP_FW_STATUS_RUN_SVN) ∧
           t.tap.burnSvn = false))))

/-- The sideband answers once MCTP is up and the target has its address: endpoint and terminus numbers, types, sensors and state
(R443, R461, R462); before that it does not acknowledge. A firmware update over PLDM writes the image to flash and commits it, in Ready and in Recovery; an idle recovery session is
released after its timeout (R461, R466 to R469). Where the spec leaves a point open, this is the reading or the choice of the model: log 10 and 60. -/
def Obligations.SidebandAndUpdateResults : Prop :=
  (∀ (s : State),
     let up := s.flag F.TAP_READY_MCTP = true ∧ s.tap.i3cAddr.isSome = true ∧ s.pwr.edge0Failed = false
     let pldm := fun (typ code completion : Nat) (body : List Byte) => s.emit (.pldm typ code completion body)
     (∀ a : Fin 128, (s.pwr.fusesLoaded = true ∨ 25000000 ≤ s.localNs → exec (.entdaa a) s =
         .next { s with tap := { s.tap with i3cAddr := some a.val } }) ∧
       (s.pwr.fusesLoaded = false → s.localNs < 25000000 → exec (.entdaa a) s = .next s)) ∧
     (¬ up → ∀ c ∈ [Instr.setEndpointId 8, .getEndpointId, .getMctpVersionSupport 0, .getMessageTypeSupport, .getTid, .setTid 1,
         .getPldmVersion 0, .getPldmTypes, .getPldmCommands 0, .getPdr 0, .getSensorReading 0x300, .getStateSensorReadings 0x400,
         .setStateEffecterStates 1 1, .pollForPlatformEventMessage], exec c s = .next (s.emit .i3cNack)) ∧
     (up →
       (∀ e : Fin 256, (e.val = 0 ∨ e.val = 255 → exec (.setEndpointId e) s = .next (s.emit (.mctp 1 [2]))) ∧
         (e.val ≠ 0 → e.val ≠ 255 → ∃ t : State, exec (.setEndpointId e) s = .next t ∧ t.tap.eid = e.val ∧
           t.out.head? = some (.mctp 1 [0, BitVec.ofNat 8 e.val]))) ∧
       exec .getEndpointId s = .next (s.emit (.mctp 2 [0, BitVec.ofNat 8 s.tap.eid])) ∧
       (∀ m : Fin 256, exec (.getMctpVersionSupport m) s =
         .next (s.emit (.mctp 4 (0 :: Config.standardBody 0 4 [BitVec.ofNat 8 m.val])))) ∧
       exec .getMessageTypeSupport s = .next (s.emit (.mctp 5 [0, 2, 1, 5])) ∧
       exec .getTid s = .next (pldm 0 2 0 [BitVec.ofNat 8 s.tap.tid]) ∧
       (∀ t : Fin 256, t.val ≠ 0 → t.val ≠ 255 → ∃ u : State, exec (.setTid t) s = .next u ∧ u.tap.tid = t.val) ∧
       (∀ t : Fin 64, t.val = 0 ∨ t.val = 2 ∨ t.val = 5 →
         exec (.getPldmVersion t) s = .next (pldm 0 3 0 (Config.standardBody 1 3 [BitVec.ofNat 8 t.val]))) ∧
       (∀ t : Fin 64, t.val ≠ 0 → t.val ≠ 2 → t.val ≠ 5 → exec (.getPldmVersion t) s = .next (pldm 0 3 0x83 []) ∧
         exec (.getPldmCommands t) s = .next (pldm 0 5 0x83 [])) ∧
       exec .getPldmTypes s = .next (pldm 0 4 0 [0x25, 0, 0, 0, 0, 0, 0, 0]) ∧
       exec (.getPldmCommands 0) s = .next (pldm 0 5 0 (codeMap [1, 2, 3, 4, 5])) ∧
       (∀ h : W32, exec (.getPdr h) s = .next (pldm 2 0x51 0 (Config.pdr h.toNat))) ∧
       (∀ id : W16, exec (.getSensorReading id) s = .next (match s.sensor id.toNat with
         | some v => pldm 2 0x11 0 (toBytes (unsgn 64 v) 8)
         | none => pldm 2 0x11 0x80 [])) ∧
       exec (.getStateSensorReadings 0x400) s = .next (pldm 2 0x21 0 [BitVec.ofNat 8 (s.fget F.TAP_READY_STATE)]) ∧
       exec .pollForPlatformEventMessage s = .next (match s.tap.platformEvents with
         | [] => pldm 2 0x0B 0 []
         | e :: r => ({ s with tap := { s.tap with platformEvents := r } }).emit (.pldm 2 0x0B 0 (toBytes e 2))) ∧
       (s.standby.pwr.standbyEntry = true → s.pwr.standbyEntry = false →
         exec (.setStateEffecterStates 1 1) s = .next (s.standby.emit (.pldm 2 0x39 0 []))) ∧
       (s.resumeStandby.pwr.standbyExit = true → s.pwr.standbyExit = false →
         exec (.setStateEffecterStates 1 2) s = .next (s.resumeStandby.emit (.pldm 2 0x39 0 [])))) ∧
     (s.sensor 0x300 = some (s.fget F.TAP_POWER_VIN : Int) ∧ s.sensor 0x301 = some (s.fget F.TAP_POWER_IIN : Int) ∧
       s.sensor 0x302 = some (s.fget F.TAP_POWER_PIN : Int) ∧ s.sensor 0x401 = some (s.capacity.1 : Int) ∧
       s.sensor 0x402 = some (s.capacity.2 : Int) ∧ s.sensor 0x403 = some (s.clustersLeft : Int))) ∧
  (∀ (image : List Byte) (s : State),
     let st := s.fget F.TAP_READY_STATE
     let up := (s.flag F.TAP_READY_MCTP = true ∨ st = 1) ∧ s.tap.i3cAddr.isSome = true ∧ s.pwr.edge0Failed = false
     (¬ up → exec (.pldmFirmwareUpdate image) s = .next (s.emit .i3cNack)) ∧
     (up →
       ((st ≠ 3 ∧ st ≠ 1) ∨ s.imageBusy true = true →
         exec (.pldmFirmwareUpdate image) s = .next (s.emit (.pldm 5 0x10 0x81 []))) ∧
       (st = 3 ∨ st = 1 → s.imageBusy true = false → image ≠ [] → image.length ≤ 0x4000000 →
         ∃ t : State, exec (.pldmFirmwareUpdate image) s = .next t ∧ flashRead t.tap.image 0 image.length = image ∧
           t.tap.board = s.tap.board ∧ t.cmp = s.cmp ∧ t.tap.session = none ∧
           (t.imageCheck image.length = 0 ↔ t.flag F.TAP_FW_STATUS_FLASH_VALID = true) ∧
           (t.flag F.TAP_FW_STATUS_FLASH_VALID = true → st = 3 → t.fget F.TAP_FW_STATUS_UPDATE = 1))) ∧
     (st = 1 → s.tap.session.isSome = true →
       ∃ t : State, exec .recoverySessionTimeout s = .next t ∧ t.tap = { s.tap with session := none } ∧ t.cmp.mem = s.cmp.mem ∧ t.cmp.groups = s.cmp.groups ∧
         s.tap.sessionAt + 60000000000 ≤ t.localNs))

/-- Attestation over DOE and MCTP: what the SPDM requests answer (R473, R475, R476). The bodies of CAPABILITIES and ALGORITHMS, and the
signatures, are free values (log 12). Where the spec leaves a point open, this is the reading or the choice of the model: log 9 and 12. -/
def Obligations.AttestationResults : Prop :=
  ∀ (path : SpdmPath) (s : State),
    let via := fun (r : State) => match path with
      | .doe => if s.host.served then r.event edge0 519 else s.emit (.config 0 none)
      | .mctp =>
        if s.flag F.TAP_READY_MCTP = true ∧ s.tap.i3cAddr.isSome = true ∧ s.pwr.edge0Failed = false then r else s.emit .i3cNack
    let reply := fun (code : Nat) (body : List Byte) => via (s.emit (.spdm path code body))
    exec (.getVersion path) s = .next (reply 0x04 [0, 2, 0, 0x12, 0, 0x13]) ∧
    (∀ r : List Byte, exec (.getCapabilities path r) s = .next (reply 0x61 (Config.standardBody 2 0x61 r)) ∧
      exec (.negotiateAlgorithms path r) s = .next (reply 0x63 (Config.standardBody 2 0x63 r))) ∧
    exec (.getDigests path) s = .next (reply 0x01 (1 :: measBytes (Config.sha384 (s.certChain 0)))) ∧
    (∀ (slot : Fin 8) (off len : W16), slot.val ≠ 0 → exec (.getCertificate path slot off len) s = .next (reply 0x7F [1])) ∧
    (∀ (off len : W16), off.toNat + len.toNat ≤ (s.certChain 0).length → exec (.getCertificate path 0 off len) s =
      .next (reply 0x02 (toBytes len.toNat 2 ++ toBytes ((s.certChain 0).length - off.toNat - len.toNat) 2 ++
        ((s.certChain 0).drop off.toNat).take len.toNat))) ∧
    (∀ (slot : Fin 8) (nonce : BitVec 256),
      let body := measBytes (Config.sha384 (s.certChain 0)) ++ toBytes nonce.toNat 32
      (slot.val = 0 → exec (.challenge path slot nonce) s =
        .next (reply 0x03 (body ++ s.signEd25519 body))) ∧
      (slot.val ≠ 0 → exec (.challenge path slot nonce) s = .next (reply 0x7F [1]))) ∧
    (∀ (i : Fin 256) (nonce : BitVec 256),
      let one := fun (k : Nat) => BitVec.ofNat 8 k :: measBytes (s.measurement k)
      let signed := fun (b : List Byte) => b ++ s.signEd25519 b
      (i.val = 0 → exec (.getMeasurements path i nonce) s = .next (reply 0x60 [6])) ∧
      (1 ≤ i.val → i.val ≤ 6 → exec (.getMeasurements path i nonce) s =
        .next (reply 0x60 (signed (toBytes nonce.toNat 32 ++ one i.val)))) ∧
      (i.val = 255 → exec (.getMeasurements path i nonce) s =
        .next (reply 0x60 (signed (toBytes nonce.toNat 32 ++ one 1 ++ one 2 ++ one 3 ++ one 4 ++ one 5 ++ one 6)))) ∧
      (6 < i.val → i.val < 255 → exec (.getMeasurements path i nonce) s = .next (reply 0x7F [1])))

/-- A VENDOR_DEFINED_REQUEST with StandardID 3 and vendor ID 0x1F3B whose payload begins with 0x01 and a 32-byte nonce returns the
measurement report, over DOE once the host is served and over MCTP once it is up; the report holds its fields at the places of R477's
table. -/
def Obligations.MeasurementReportResults : Prop :=
  ∀ (s : State) (nonce rest : List Byte), nonce.length = 32 →
    let l := s.report nonce
    let body := l.take 0x168
    (s.host.served = true → exec (.vendorDefinedRequest .doe 3 0x1F3B (1 :: nonce ++ rest)) s =
      .next ((s.emit (.spdm .doe 0x7E l)).event edge0 519)) ∧
    (s.flag F.TAP_READY_MCTP = true → s.tap.i3cAddr.isSome = true → s.pwr.edge0Failed = false →
      exec (.vendorDefinedRequest .mctp 3 0x1F3B (1 :: nonce ++ rest)) s = .next (s.emit (.spdm .mctp 0x7E l))) ∧
    l.length = 0x168 + 64 + 3309 ∧
    (∀ m : List Byte, s.signEd25519 m = toBytes (Config.ed25519Sign s.tap.aliasSeeds.1 m).toNat 64 ∧
      s.signMlDsa m = toBytes (Config.mlDsaSign s.tap.aliasSeeds.2 m).toNat 3309) ∧ wordAt l 0 4 = 1 ∧ (l.drop 4).take 32 = nonce ∧
    wordAt l 0x24 8 = (s.reg .TAP_SERIAL 0).toNat ∧ wordAt l 0x2C 8 = s.now ∧ bit (wordAt l 0x34 8) 0 = s.uFlag ∧
    bits (wordAt l 0x34 8) 1 2 = s.fget F.TAP_STATUS_ACTIVE ∧ bits (wordAt l 0x34 8) 8 8 = s.fget F.TAP_FW_STATUS_RUN_SVN ∧
    (∀ i < 6, (l.drop (0x3C + 48 * i)).take 48 = measBytes (s.measurement (i + 1))) ∧
    wordAt l 0x15C 4 = s.capacity.1 % 2 ^ 32 ∧ wordAt l 0x160 4 = s.capacity.2 % 2 ^ 32 ∧
    wordAt l 0x164 4 = s.clustersLeft % 2 ^ 32 ∧
    (l.drop 0x168).take 64 = s.signEd25519 (measBytes (Config.sha384 body)) ∧
    l.drop 0x1A8 = s.signMlDsa (measBytes (Config.sha384 body))

/-! ### Sparing, retirement, power control, debug and the test port (13 to 16) -/

/-- Core tests, hangs, spare cores, retired clusters, die-to-die links and lost compute dies (R233, R492 to R495, R499, R501,
R504). Where the spec leaves a point open, this is the reading or the choice of the model: log 54 and 63. -/
def Obligations.RetirementResults : Prop :=
  ∀ (s : State),
    (∀ core : Fin 8192,
      let c := core.val
      let k := c / 8
      ((s.groupsUsed c).isEmpty = true → s.health.retiredCores.contains c = false → (s.cluster k).state ≠ .retired →
        s.pwr.diesOff.contains (dieOf c) = false →
        exec (.coreTest core true) s = .next s ∧ ∃ t : State, exec (.coreTest core false) s = .next t ∧
          t.health.failing.contains c = true ∧ t.health.confirmed = c :: s.health.confirmed.filter (fun e => e != c) ∧
          ((s.cluster k).state = .running → (t.cluster k).state = .stopping)) ∧
      (∀ (g : Nat) (grp : Grp), s.cmp.groups.find? (fun e => e.1 / 32 == c && s.ready e.1 e.2) = some (g, grp) →
        ∃ t : State, exec (.coreHangDetect core) s = .next t ∧ t.health.failing.contains c = true ∧
          (∃ r ∈ t.evc.flight, r.cls = 1 ∧ r.code = 0x28 ∧ r.context = grp.ctx ∧ r.core = c ∧ r.slot = g % 32 ∧ r.instr = grp.pc ∧ r.time = s.now ∧ r.u = s.uFlag) ∧
          ∀ x : Ctx, s.ctx grp.ctx = some x → x.state = .running → s.flag F.CNP_CTL_ACCT_EN = false →
            ∃ y : Ctx, t.ctx grp.ctx = some y ∧ y.state = .faulted) ∧
      (∀ pool : Nat, s.health.failing.contains c = true → (s.cluster k).state = .idle → (s.poolOf (c / 32)).contains pool = true →
        ∃ t : State, exec (.coreReplacement core pool) s = .next t ∧ SMap.find t.health.phys c = some pool ∧
          (t.poolOf (c / 32)).contains pool = false ∧ t.health.failing.contains c = false ∧
          (∀ a, a / 2 ^ 20 = c → t.lmByte a = 0)) ∧
      (∀ passing : BitVec 8, s.health.failing.contains c = true → s.poolOf (c / 32) = [] → (s.cluster k).state = .idle →
        ∃ t : State, exec (.clusterRetire core passing) s = .next t ∧ (t.cluster k).state = .retired ∧
          t.flag F.CNP_CLUSTER_OWNED k = false ∧ bit (t.fget F.TAP_QUAD_HEALTH_CL_RETIRED (c / 32)) (k % 4) = true ∧
          t.health.retiredCores.contains c = true ∧ t.health.failing.contains c = false)) ∧
    (∀ (die : Fin 84) (side : Fin 4) (restored : Bool), bit (outerSides die) side.val = false →
      s.fget F.TAP_DIE_HEALTH_STATE die.val ≠ 2 →
      let now := setBits (s.fget F.TAP_DIE_HEALTH_LINKS_DOWN die.val) side.val 1 (nb (!restored))
      Completes (.d2dLinkRetrain die side restored) s ∧
        (restored = true ∨ now ||| outerSides die ≠ 15 → ∃ t : State, exec (.d2dLinkRetrain die side restored) s = .next t ∧
          t.fget F.TAP_DIE_HEALTH_LINKS_DOWN die.val = now % 16 ∧ t.fget F.TAP_DIE_HEALTH_STATE die.val ≠ 2)) ∧
    (∀ (die : Fin 64) (cause : Fin 3), s.fget F.TAP_DIE_HEALTH_STATE die.val ≠ 2 →
      ∃ t : State, exec (.computeDieLoss die cause) s = .next t ∧ t.fget F.TAP_DIE_HEALTH_STATE die.val = 2 ∧
        t.fget F.TAP_DIE_HEALTH_CAUSE die.val = (if cause.val = 0 then 2 else if cause.val = 1 then 3 else 6) ∧
        (∀ k, k / 16 = die.val → (t.cluster k).state = .retired ∧
          ((s.cluster k).state ≠ .retired → ∀ c u : Nat, c / 8 = k → u < 32 → t.unitPower c u = 2)) ∧ (∀ q, q / 4 = die.val → t.cmp.qdead.contains q = true))

/-- The duty ceilings: what the power controller, the clamp and the thermal controller do in each of their milliseconds, and the duty
of a cluster as the lowest of its ceilings, as `TAP_DUTY_STATUS` shows them; a trip is an unmanaged power loss (R522 to R525, R531, R532,
R534). Where the spec leaves a point open, this is the reading or the choice of the model: log 57 and 62. -/
def Obligations.DutyResults : Prop :=
  ∀ (s : State), s.pwr.pwrGood = true →
    let d := s.duty
    (∃ t : State, exec .powerControllerTick s = .next t ∧ t.duty = d.powerMs s.overPin s.overIin s.calm ∧ t.cmp = s.cmp) ∧
    (s.overPin = true ∨ s.overIin = true →
      let e := d.powerMs s.overPin s.overIin s.calm
      e.calmMs = 0 ∧ (1 < d.other → e.other = d.other - 1 ∧ e.guar = d.guar) ∧
        (d.other ≤ 1 → 1 < d.guar → e.guar = d.guar - 1 ∧ e.other = d.other)) ∧
    (s.overPin = false → s.overIin = false → s.calm = true →
      let e := d.powerMs s.overPin s.overIin s.calm
      (d.calmMs < 9 → e = { d with calmMs := d.calmMs + 1 }) ∧
        (9 ≤ d.calmMs → e.calmMs = 0 ∧ e.guar + e.other ≤ d.guar + d.other + 1 ∧ (d.guar < 16 → e.guar = d.guar + 1 ∧ e.other = d.other))) ∧
    (d.clamp = false → ∃ t : State, exec .currentClamp s = .next t ∧ t.duty = { d with clamp := true } ∧
      t.fget F.TAP_DUTY_STATUS_CLAMPS = min 65535 (s.fget F.TAP_DUTY_STATUS_CLAMPS + 1) ∧ (∀ k, t.dutyOf k ≤ 8)) ∧
    (d.clamp = true → ∃ t : State, exec .clampRelease s = .next t ∧ t.duty.clamp = false ∧ t.duty.other = 8) ∧
    (∀ die : Fin 84, ∃ t : State, exec (.thermalControllerTick die) s = .next t ∧ t.cmp = s.cmp ∧
      (die.val < 64 → t.duty = d.thermalMs die (s.hotNow (d.hot.contains die.val) die) ∧
        (∀ x : Int, s.dieTemp die = some x → 1600 ≤ x →
          SMap.get t.duty.thermal 16 die.val = max 1 (SMap.get d.thermal 16 die.val - 1))) ∧
      (80 ≤ die.val → t = s)) ∧
    (∀ k : Nat, 1 ≤ s.dutyOf k ∧ s.dutyOf k ≤ max 1 (s.powerCeiling k) ∧ s.dutyOf k ≤ max 1 (s.heatCeiling k) ∧
      s.dutyOf k ≤ max 1 d.stand ∧ s.dutyOf k ≤ max 1 (s.hostCeiling k) ∧ (d.clamp = true → s.dutyOf k ≤ 8)) ∧
    (bits (s.view .TAP_DUTY_STATUS 0).toNat 0 6 = s.limitSet ∧ bits (s.view .TAP_DUTY_STATUS 0).toNat 35 5 = d.stand % 32 ∧
      bits (s.view .TAP_DUTY_STATUS 0).toNat 30 5 = s.lowestDuty s.clustersUp ∧ (∀ k ∈ s.clustersUp, s.lowestDuty s.clustersUp ≤ s.dutyOf k)) ∧
    (s.pwr.converting = true → ∀ u : TripUnit, ∃ t : State, exec (.thermalTrip u) s = .next t ∧ t.pwr.thermtrip = true ∧
      t.pwr.pwrGood = false ∧ t.pwr.latchedOff = true ∧ t.pwr.stopCause = (match u with
        | .die _ => 1
        | .stack _ => 2))

/-- The commands of `DBG_CMD`, each acting by the OP that its word holds where GO is 1: the results of ATTACH in the order of its checks, DETACH, HALT, RESUME and STEP of one group, DUMP and
LOAD of its image (R505 to R514, R517). A halt is reported once every store and atomic of the group is performed and no scalar byte of its core is dirty: CODE, the core,
the slot, the block and the address, with source 140 (R507, R508). The test port: its instructions shift out what their data register captures; those that take the lands act as BYPASS unless
PERST_N is asserted, and none touches anything else (R528, R529). Where the spec leaves a point open, this is the reading or the choice of the model: log 11 and 64. -/
def Obligations.DebugResults : Prop :=
  (∀ (who : Requester) (word : W64) (s : State), s.mayWrite who .DBG_CMD 0 →
     let n := word.toNat
     let a := bits n 4 4
     let t := s.writeReg .DBG_CMD 0 n (Reg.full .DBG_CMD)
     let answer := fun (u : State) (r : Nat) => u.fset F.DBG_CMD_STATUS_RESULT r
     let c := t.fget F.DBG_ATT_CONTEXT a
     let op := fun (k : Nat) => bits n 0 4 = k ∧ bit n 63 = true
     ∀ cmd ∈ [Instr.debugAttach who word, .debugDetach who word, .debugHalt who word, .debugResume who word, .debugStep who word,
         .debugDump who word, .debugLoad who word],
     (bit n 63 = false → exec cmd s = .next t) ∧
     (bit n 63 = true → Completes cmd s) ∧
     (∀ k : Nat, 2 ≤ k → k ≤ 7 → op k → t.flag F.DBG_ATT_VALID a = false → exec cmd s = .next (answer t 2)) ∧
     (op 1 →
       let v := bits (t.reg .DBG_CMD_ARG0 0).toNat 0 16
       (t.ctx v = none ∨ t.flag F.DBG_CTL_EN = false → exec cmd s = .next (answer t 1)) ∧
       (∀ x : Ctx, t.ctx v = some x → t.flag F.DBG_CTL_EN = true → x.state = .running → (x.cls ≠ 0 ∨ t.flag F.DBG_CTL_GUAR = true) →
         (t.flag F.DBG_ATT_VALID a = true ∨ (t.attOf v).isSome = true → exec cmd s = .next (answer t 2)) ∧
         (t.flag F.DBG_ATT_VALID a = false → t.attOf v = none → ∃ u : State, exec cmd s = .next (answer u 0) ∧
           u.flag F.DBG_ATT_VALID a = true ∧ u.fget F.DBG_ATT_CONTEXT a = v ∧ u.cmp = t.cmp))) ∧
     (t.flag F.DBG_ATT_VALID a = true →
       (op 2 → (∀ e ∈ t.cmp.groups, e.2.ctx = c → e.2.trapped = none) → ∃ u : State,
         exec cmd s = .next (answer u 0) ∧ u.flag F.DBG_ATT_VALID a = false ∧
         (∀ e ∈ u.cmp.groups, e.2.ctx = c → e.2.halted = false ∧ e.2.stepping = false) ∧ ∀ h ∈ u.halts, h.att ≠ a) ∧
       (t.flag F.DBG_CMD_ALL = false → ∀ (g : Nat) (grp : Grp), t.selected c = some (g, grp) → t.grp g = some grp →
         (op 3 →
           (grp.complete = true ∨ grp.halted = true → exec cmd s = .next (answer t 3)) ∧
           (grp.complete = false → grp.halted = false → t.flag F.DBG_ATT_STOPALL a = false →
             ∃ (u : State) (x : Grp), exec cmd s = .next (answer u 0) ∧ u.grp g = some x ∧ x.halted = true ∧
               x.pc = grp.pc ∧ (∀ j, j ≠ g → u.grp j = t.grp j) ∧ u.cmp.mem = t.cmp.mem ∧
               ∃ h ∈ u.halts, h.att = a ∧ h.core = g / 32 ∧ h.slot = g % 32 ∧ h.code = 0)) ∧
         (op 4 →
           (grp.halted = false → exec cmd s = .next (answer t 3)) ∧
           (grp.halted = true → grp.trapped = none → ∃ (u : State) (x : Grp),
             exec cmd s = .next (answer u 0) ∧ u.grp g = some x ∧ x.halted = false ∧ x.stepping = false ∧
               x.noMatch = decide (grp.cause = 1) ∧ x.pc = (if grp.cause = 2 then (grp.pc + 8) % 2 ^ 57 else grp.pc) ∧
               x.settling = true ∧
               (∀ j, j ≠ g → u.grp j = t.grp j) ∧ u.cmp.mem = t.cmp.mem)) ∧
         (op 5 →
           (grp.halted = false ∨ grp.trapped.isSome = true → exec cmd s = .next (answer t 3)) ∧
           (grp.halted = true → grp.trapped = none → t.preemptPending c = true →
             exec cmd s = .next (answer t 4)) ∧
           (grp.halted = true → grp.trapped = none → t.preemptPending c = false → ∃ (u : State) (x : Grp),
             exec cmd s = .next (answer u 0) ∧ u.grp g = some x ∧ x.halted = false ∧ x.stepping = true ∧
               ∀ j, j ≠ g → u.grp j = t.grp j)) ∧
         (op 6 → ∀ r : Nat, t.inspected c = .error r → exec cmd s = .next (answer t r)) ∧
         (op 7 → ∀ r : Nat, t.inspected c = .error r → exec cmd s = .next (answer t r)) ∧
         (∀ pa : Nat, t.inspected c = .ok (g, grp, pa) →
           (op 6 → ∃ u : State, exec cmd s = .next (answer u 0) ∧ u.cmp.groups = t.cmp.groups ∧
             u.cmp.sregs = t.cmp.sregs) ∧
           (op 7 → grp.trapped = none → t.flag F.DBG_CMD_LM = false → ∃ u : State,
             exec cmd s = .next (answer u 0) ∧ (∀ k < 64, u.sReg g k = wordAt (t.bytesAt pa 1024) (8 * k) 8) ∧
               u.cmp.mem = t.cmp.mem ∧ ∀ j, j ≠ g → u.grp j = t.grp j))))) ∧
  (∀ (att : Fin 16) (s : State) (h : Halt) (rest : List Halt),
     s.halts.filter (fun x => x.att == att.val) = h :: rest →
     (s.haltDrained h = true → s.scalarDirty h.core = false → ∃ t : State, exec (.haltReport att) s = .next t ∧
       t.flag F.DBG_EVENT_VALID att = true ∧ t.fget F.DBG_EVENT_CODE att = h.code % 2 ^ F.DBG_EVENT_CODE.width ∧
       t.fget F.DBG_EVENT_GROUP att = h.group % 2 ^ F.DBG_EVENT_GROUP.width ∧
       t.reg .DBG_EVENT_BLOCK att = BitVec.ofNat 64 h.block ∧
       (∀ grp : Grp, s.grp (h.core * 32 + h.slot) = some grp → t.reg .DBG_EVENT_PC att =
         BitVec.ofNat 64 (if grp.cause = 2 then (grp.pc + 8) % 2 ^ 57 else grp.pc)) ∧ t.halts.length + 1 = s.halts.length ∧
       t.cmp = s.cmp) ∧
     ((∀ x ∈ h :: rest, s.haltDrained x = false) → s.scalarDirty h.core = false → exec (.haltReport att) s = .next s)) ∧
  (∀ (s : State),
     let load := fun (i : JtagInstr) (bits : List Bool) =>
       ({ s with jtag := { s.jtag with ir := i }, out := .tdo bits :: s.out } : State)
     exec .jtagBypass s = .next (load .bypass [false]) ∧
     exec .jtagIdcode s = .next (load .idcode ((List.range 32).map (fun i => (0x16400E77 : W32).getLsbD i))) ∧
     (∀ pins preload : List Bool, exec (.jtagSamplePreload pins preload) s =
       .next { s with jtag := { s.jtag with ir := .samplePreload, preload := preload }, out := .tdo pins :: s.out }) ∧
     (s.pwr.perst = true → exec .jtagExtest s = .next (load .extest s.jtag.preload) ∧
       exec .jtagExtestPulse s = .next (load .extestPulse s.jtag.preload) ∧
       exec .jtagExtestTrain s = .next (load .extestTrain s.jtag.preload) ∧ exec .jtagClamp s = .next (load .clamp [false]) ∧
       exec .jtagHighz s = .next (load .highz [false])) ∧
     (s.pwr.perst = false → ∀ c ∈ [Instr.jtagExtest, .jtagExtestPulse, .jtagExtestTrain, .jtagClamp, .jtagHighz],
       exec c s = .next (load .bypass [false])) ∧
     exec .testPortReset s = .next { s with jtag := { s.jtag with ir := .idcode } } ∧
     (s.pwr.perst = true → s.jtag.ir ∈ [JtagInstr.extest, .extestPulse, .extestTrain, .clamp, .highz] →
       ∃ t, exec .perstDeassert s = .next t ∧ t.jtag.ir = .bypass))

/-! ### The machine as a whole: forms, issue, exceptions, frames, invariants -/

/-- A write or a read of a register whose form R9 leaves without a behaviour stops with the fault of its own name, and nothing else
ever ends in a fault: a command whose word is another's acts by its word. Where the spec leaves a point open, this is the reading or the choice of the model: log 19. -/
def Obligations.IllFormedCommandsFault : Prop :=
  ∀ (c : Instr) (s : State),
    (∀ (who : Requester) (addr : Nat) (size : Fin 4) (value : W64), c = .registerWrite who addr size value →
      writeFormed who addr size.val = false → exec c s = .fault .illFormed) ∧
    (∀ (who : Requester) (addr : Nat) (size : Fin 4), c = .outOfReachRead who addr size → accessFormed addr size.val = false →
      exec c s = .fault .illFormed) ∧
    (∀ f : Fault, exec c s = .fault f → c.wellFormed = false ∧
      ((∃ (who : Requester) (addr : Nat) (size : Fin 4) (value : W64), c = .registerWrite who addr size value) ∨
        ∃ (who : Requester) (addr : Nat) (size : Fin 4), c = .outOfReachRead who addr size))

/-- What happens before an integer instruction acts: a group that is not ready issues nothing, a register with a write pending
holds it back, a CLASS and OP pair that is not assigned and a reserved encoding are exceptions whatever the guard, and an instruction that acts on no lane only passes. Where the spec leaves a point open, this is the reading or the choice of the model: log 24 and 25. -/
def Obligations.IssueRules : Prop :=
  ∀ (o : IntOp) (w : Who) (i : FmtR) (s t : State) (grp : Grp) (c : Instr) (f : Form),
    (c = o.scalar w i ∧ f = scalarForm o ∨ c = o.vector w i ∧ f = vectorForm o) →
    (s.grp w.group = some grp → s.ready w.group grp = false → exec c s = .next s) ∧
    (illegal w = true → s.fetched { w with word := none } (lenOf i.w) = some (grp, t) →
      exec c s = .next (t.raise w.group 0x01 grp.active noAddr)) ∧
    (s.fetched w (lenOf i.w) = some (grp, t) →
      (f.reserved i = true → exec c s = .next (t.raise w.group 0x02 grp.active noAddr)) ∧
      (f.reserved i = false → (t.pendingRefs w.group).any (fun r => (f.refs i).contains r) = true →
        exec c s = .next (t.hold w.group 1)) ∧
      (f.reserved i = false → (t.pendingRefs w.group).any (fun r => (f.refs i).contains r) = false → s.lanesR w grp f i = 0 →
        exec c s = .next (t.finish w.group (lenOf i.w))))

/-- What an integer instruction leaves unchanged: every register but its destination, the flags, memory and local memory, the
other groups, and of its own group all but the program counter and what the end of an issue clears. -/
def Obligations.IntegerInstructionFrame : Prop :=
  ∀ (o : IntOp) (w : Who) (i : FmtR) (s t u : State) (grp : Grp),
    let g := w.group
    let rest :=
      u.pending = s.pending ∧ u.cmp.preds = s.cmp.preds ∧ u.cmp.lm = s.cmp.lm ∧ u.cmp.engs = s.cmp.engs ∧
      (∀ a : Nat, u.memByte a = s.memByte a) ∧
      (∃ y : Grp, u.grp g = some y ∧ y.ctx = grp.ctx ∧ y.active = grp.active ∧ y.exited = grp.exited ∧ y.stack = grp.stack ∧
        y.flags = grp.flags ∧ y.deferred = grp.deferred) ∧
      (grp.stepping = false → ∀ h : Nat, h ≠ g → u.grp h = s.grp h)
    (s.issuesR t w grp (scalarForm o) i → exec (o.scalar w i) s = .next u →
      rest ∧ u.cmp.vregs = s.cmp.vregs ∧
      (∀ h n : Nat, n < 64 → (h ≠ g ∨ n ≠ i.d.val) → u.sReg h n = s.sReg h n)) ∧
    (s.issuesR t w grp (vectorForm o) i → exec (o.vector w i) s = .next u →
      rest ∧ u.cmp.sregs = s.cmp.sregs ∧
      (∀ n l : Nat, n < 256 → l < 32 →
        (bit (s.lanesR w grp (vectorForm o) i) l = false ∨ (n ≠ i.d.val ∧ (wide i.type.val = true → n ≠ i.d.val + 1))) →
        u.vReg g n l = s.vReg g n l))

/-- The outcome of an exception of a group: its record is on its way to the context's fault ring. A translation that is not
present makes the group wait. Another exception of a context without an attachment puts the context into the faulted state, and
none of its groups is left; under an attachment, a breakpoint or a watchpoint, and with TRAPFAULT every other exception, halts the
group. Where the spec leaves a point open, this is the reading or the choice of the model: log 27. -/
def Obligations.ExceptionOutcomes : Prop :=
  ∀ (s : State) (g code lanes addr info cause : Nat) (fetch : Bool) (grp : Grp) (x : Ctx), s.grp g = some grp →
    s.ctx grp.ctx = some x →
    let r := s.excRecord g grp code grp.pc lanes addr fetch false false info
    let t := s.raise g code lanes addr fetch info cause
    t.evc.flight = s.evc.flight ++ [r] ∧
    (code = 0x22 →
      t.grp g = some { grp with wait := .fault none, misses := [] } ∧ ∀ h : Nat, h ≠ g → t.grp h = s.grp h) ∧
    (code ≠ 0x22 → s.attOf grp.ctx = none → x.state ≠ .faulted → x.state ≠ .killed → x.state ≠ .exported →
      (t.ctx grp.ctx).map (·.state) = some .faulted ∧
      ∀ (h : Nat) (y : Grp), t.grp h = some y → y.ctx ≠ grp.ctx) ∧
    (∀ a : Nat, s.attOf grp.ctx = some a →
      (code = 0x30 ∨ code = 0x32 →
        t.grp g = some { grp with halted := true, stepping := false, cause := cause } ∧
        ⟨a, g / 32, g % 32, s.blockIndex g grp, grp.index, code⟩ ∈ t.halts) ∧
      (code ≠ 0x22 → code ≠ 0x30 → code ≠ 0x32 → s.flag F.DBG_ATT_TRAPFAULT a = true →
        t.grp g = some { grp with halted := true, stepping := false, cause := 0, trapped := some r } ∧
        ⟨a, g / 32, g % 32, s.blockIndex g grp, grp.index, code⟩ ∈ t.halts))

/-- Reading an instruction from its words gives the instruction back, with every operand at every value that its fields hold; every
word whose CLASS and OP pair is assigned is the first word of one instruction, and no other word spells any (R91, R92, R93, R98). -/
def Obligations.WatrixWordsRoundTrip : Prop :=
  ∀ (who : Who) (x y : W64),
    (∀ (c : Instr) (o : Opcode) (f : Fields), c.parts = some (who, o, f) → plainFields f = f → meetsNoError c = true → c.word = some x →
      opcodeOf x = o ∧ o.listed = true ∧ decodeWatrix who x c.second = some c) ∧
    ((opcodeOf x).listed = true → ∃ (c : Instr) (o : Opcode) (f : Fields), decodeWatrix who x y = some c ∧
      c.parts = some (who, o, f) ∧ o = opcodeOf x ∧ c.word = some x ∧ plainFields f = f) ∧
    ((opcodeOf x).listed = false → decodeWatrix who x y = none)

/-- The canonical form of the package's memory is kept by every step. Where the spec leaves a point open, this is the reading or the choice of the model: log 3. -/
def Obligations.MemoryStaysCanonical : Prop :=
  ∀ (s t : State), s.memWf = true → step s = .next t → t.memWf = true

/-- Right after reset no command waits, no group is resident, every register has its reset word, a byte of memory reads as
log 3 says, memory has its canonical form, and the fixed routes of the event sources are as R392 gives them. Where the spec leaves a point open, this is the reading or the choice of the model: log 3, 7, 8 and 76. -/
def Obligations.ResetValues : Prop :=
  let s := State.reset
  s.pending = [] ∧ s.memWf = true ∧
  (∀ (r : Reg) (i : Nat), s.reg r i = r.resetWord i) ∧ (∀ g : Nat, s.grp g = none) ∧ (∀ c : Nat, s.ctx c = none) ∧
  (∀ a : Nat, s.memByte a = 0) ∧
  (∀ die src : Nat, src < 64 → s.reg .EVC_ROUTE (srcKey die src) = 0x20000000) ∧
  (∀ die : Nat, s.reg .EVC_ROUTE (srcKey die 1008) = 0x40000000) ∧
  (∀ src : Nat, 64 ≤ src → src < 128 →
    s.reg .EVC_ROUTE (srcKey 80 src) = 0x20080000 ∧ s.reg .EVC_ROUTE (srcKey 82 src) = 0x20080000)
end

