-- ==== Sys2Proof/Laws/Map.lean ====
section
/-! SUPPORT. The small lemmas of sparse tables: what a look-up answers after each operation, and that the operations keep the
canonical form. -/

namespace Sys2Proof.Machine

variable {α : Type}

theorem SMap.find_nil (k : Nat) : SMap.find ([] : SMap α) k = none := rfl

theorem SMap.find_cons (j : Nat) (w : α) (r : SMap α) (k : Nat) :
    SMap.find ((j, w) :: r) k = if k = j then some w else SMap.find r k := by
  simp only [SMap.find, List.lookup]
  by_cases h : k = j
  · subst h; simp
  · rw [if_neg h, show (k == j) = false by simpa using h]

@[simp] theorem SMap.find_put_self (m : SMap α) (k : Nat) (v : α) : SMap.find (SMap.put m k v) k = some v := by
  induction m with
  | nil => simp [SMap.put, SMap.find_cons]
  | cons e r ih =>
    obtain ⟨j, w⟩ := e
    simp only [SMap.put]
    split
    · simp [SMap.find_cons]
    split
    · simp [SMap.find_cons]
    · rename_i h
      simp [SMap.find_cons, h, ih]

theorem SMap.find_put_ne (m : SMap α) {k j : Nat} (v : α) (h : j ≠ k) : SMap.find (SMap.put m k v) j = SMap.find m j := by
  induction m with
  | nil => simp [SMap.put, SMap.find_cons, h, SMap.find_nil]
  | cons e r ih =>
    obtain ⟨i, w⟩ := e
    simp only [SMap.put]
    split
    · simp [SMap.find_cons, h]
    split
    · rename_i hk; subst hk; simp [SMap.find_cons, h]
    · simp [SMap.find_cons, ih]

theorem SMap.find_put (m : SMap α) (k j : Nat) (v : α) :
    SMap.find (SMap.put m k v) j = if j = k then some v else SMap.find m j := by
  split
  · rename_i h; subst h; simp
  · rename_i h; exact SMap.find_put_ne m v h

theorem SMap.find_keep (m : SMap α) (p : Nat → α → Bool) (k : Nat) (h : ∀ v, p k v = false) :
    SMap.find (SMap.keep m p) k = none := by
  induction m with
  | nil => rfl
  | cons e r ih =>
    obtain ⟨j, w⟩ := e
    simp only [SMap.keep, List.filter_cons] at ih ⊢
    split
    · rename_i hp
      rw [SMap.find_cons, if_neg (fun hk => by subst hk; simp [h] at hp)]
      exact ih
    · exact ih

theorem SMap.find_keep_all (m : SMap α) (p : Nat → α → Bool) (k : Nat) (h : ∀ v, p k v = true) :
    SMap.find (SMap.keep m p) k = SMap.find m k := by
  induction m with
  | nil => rfl
  | cons e r ih =>
    obtain ⟨j, w⟩ := e
    simp only [SMap.keep, List.filter_cons] at ih ⊢
    rw [SMap.find_cons]
    split
    · rw [SMap.find_cons, ih]
    · rename_i hp
      rw [if_neg (fun hk => by subst hk; simp [h] at hp)]
      exact ih

@[simp] theorem SMap.find_del_self (m : SMap α) (k : Nat) : SMap.find (SMap.del m k) k = none :=
  SMap.find_keep m (fun j _ => j != k) k (by simp)

theorem SMap.find_del_ne (m : SMap α) {k j : Nat} (h : j ≠ k) : SMap.find (SMap.del m k) j = SMap.find m j :=
  SMap.find_keep_all m (fun j _ => j != k) j (fun _ => by simpa using h)

@[simp] theorem SMap.get_set_self [DecidableEq α] (m : SMap α) (d : α) (k : Nat) (v : α) : SMap.get (SMap.set m d k v) d k = v := by
  simp only [SMap.get, SMap.set]
  split
  · rename_i h; subst h; simp
  · simp

theorem SMap.find_set_ne [DecidableEq α] (m : SMap α) (d : α) {k j : Nat} (v : α) (h : j ≠ k) :
    SMap.find (SMap.set m d k v) j = SMap.find m j := by
  simp only [SMap.set]
  split
  · exact SMap.find_del_ne m h
  · exact SMap.find_put_ne m v h

theorem SMap.get_set_ne [DecidableEq α] (m : SMap α) (d e : α) {k j : Nat} (v : α) (h : j ≠ k) :
    SMap.get (SMap.set m d k v) e j = SMap.get m e j := by
  simp only [SMap.get, SMap.find_set_ne m d v h]

theorem SMap.get_set [DecidableEq α] (m : SMap α) (d : α) (k j : Nat) (v : α) :
    SMap.get (SMap.set m d k v) d j = if j = k then v else SMap.get m d j := by
  split
  · rename_i h; subst h; simp
  · rename_i h; exact SMap.get_set_ne m d d v h

theorem SMap.find_upd (m : SMap α) (k j : Nat) (f : α → α) :
    SMap.find (SMap.upd m k f) j = if j = k then (SMap.find m j).map f else SMap.find m j := by
  induction m with
  | nil => simp [SMap.upd, SMap.find_nil]
  | cons e r ih =>
    obtain ⟨i, w⟩ := e
    simp only [SMap.upd, List.map_cons] at ih ⊢
    by_cases hi : i = k
    · subst hi
      rw [if_pos rfl, SMap.find_cons, SMap.find_cons, ih]
      by_cases hj : j = i
      · simp [hj]
      · simp [hj]
    · rw [if_neg hi, SMap.find_cons, SMap.find_cons, ih]
      by_cases hj : j = i
      · subst hj; simp [hi]
      · simp [hj]

theorem SMap.find_mapVals (m : SMap α) (f : Nat → α → α) (k : Nat) :
    SMap.find (SMap.mapVals m f) k = (SMap.find m k).map (f k) := by
  induction m with
  | nil => rfl
  | cons e r ih =>
    obtain ⟨i, w⟩ := e
    simp only [SMap.mapVals, List.map_cons] at ih ⊢
    rw [SMap.find_cons, SMap.find_cons, ih]
    split
    · rename_i h; subst h; rfl
    · rfl

/-! ### The canonical form -/

theorem SMap.sorted_iff (m : SMap α) : SMap.sorted m = true ↔ m.Pairwise (fun a b => a.1 < b.1) := by
  induction m with
  | nil => simp [SMap.sorted]
  | cons e r ih => obtain ⟨j, w⟩ := e; simp [SMap.sorted, ih]

theorem SMap.mem_put (m : SMap α) (k : Nat) (v : α) {e : Nat × α} (h : e ∈ SMap.put m k v) : e = (k, v) ∨ e ∈ m := by
  induction m with
  | nil => simpa [SMap.put] using h
  | cons x r ih =>
    obtain ⟨j, w⟩ := x
    simp only [SMap.put] at h
    split at h
    · simpa using h
    split at h
    · simp at h; rcases h with h | h <;> simp [h]
    · simp at h; rcases h with h | h
      · simp [h]
      · rcases ih h with h | h <;> simp [h]

theorem SMap.sorted_put (m : SMap α) (k : Nat) (v : α) (h : SMap.sorted m = true) : SMap.sorted (SMap.put m k v) = true := by
  induction m with
  | nil => simp [SMap.put, SMap.sorted]
  | cons x r ih =>
    obtain ⟨j, w⟩ := x
    simp only [SMap.sorted, Bool.and_eq_true, List.all_eq_true, decide_eq_true_eq] at h
    simp only [SMap.put]
    split
    · rename_i hk
      simp only [SMap.sorted, Bool.and_eq_true, List.all_eq_true, decide_eq_true_eq, List.mem_cons]
      refine ⟨?_, h⟩
      rintro e (rfl | he)
      · exact hk
      · exact Nat.lt_trans hk (h.1 e he)
    split
    · rename_i hk; subst hk
      simp only [SMap.sorted, Bool.and_eq_true, List.all_eq_true, decide_eq_true_eq]
      exact h
    · rename_i h1 h2
      simp only [SMap.sorted, Bool.and_eq_true, List.all_eq_true, decide_eq_true_eq]
      refine ⟨?_, ih h.2⟩
      intro e he
      rcases SMap.mem_put r k v he with rfl | he
      · exact Nat.lt_of_le_of_ne (Nat.le_of_not_lt h1) (Ne.symm h2)
      · exact h.1 e he

theorem SMap.sorted_filter (m : SMap α) (p : Nat × α → Bool) (h : SMap.sorted m = true) : SMap.sorted (m.filter p) = true := by
  rw [SMap.sorted_iff] at h ⊢
  exact h.filter p

theorem SMap.wf_keep [DecidableEq α] (m : SMap α) (d : α) (p : Nat → α → Bool) (h : SMap.wf m d = true) :
    SMap.wf (SMap.keep m p) d = true := by
  simp only [SMap.wf, Bool.and_eq_true, List.all_eq_true] at h ⊢
  exact ⟨SMap.sorted_filter m _ h.1, fun e he => h.2 e (List.mem_filter.mp he).1⟩

theorem SMap.wf_set [DecidableEq α] (m : SMap α) (d : α) (k : Nat) (v : α) (h : SMap.wf m d = true) :
    SMap.wf (SMap.set m d k v) d = true := by
  simp only [SMap.wf, Bool.and_eq_true, List.all_eq_true] at h ⊢
  simp only [SMap.set]
  split
  · exact ⟨SMap.sorted_filter m _ h.1, fun e he => h.2 e (List.mem_filter.mp he).1⟩
  · rename_i hv
    refine ⟨SMap.sorted_put m k v h.1, fun e he => ?_⟩
    rcases SMap.mem_put m k v he with rfl | he
    · simpa using hv
    · exact h.2 e he

end Sys2Proof.Machine
end

