-- ==== Sys2Proof/Laws/State.lean ====
section
/-! SUPPORT. The small lemmas of the basic updates of the state: what each leaves alone. -/

namespace Sys2Proof.Machine

/-! `State.setReg` -/

@[simp] theorem State.setReg_pending (s : State) (r : Reg) (i : Nat) (v : W64) : (s.setReg r i v).pending = s.pending := by exact (rfl)
@[simp] theorem State.setReg_free (s : State) (r : Reg) (i : Nat) (v : W64) : (s.setReg r i v).free = s.free := by exact (rfl)
@[simp] theorem State.setReg_cycles (s : State) (r : Reg) (i : Nat) (v : W64) : (s.setReg r i v).cycles = s.cycles := by exact (rfl)
@[simp] theorem State.setReg_out (s : State) (r : Reg) (i : Nat) (v : W64) : (s.setReg r i v).out = s.out := by exact (rfl)
@[simp] theorem State.setReg_shadow (s : State) (r : Reg) (i : Nat) (v : W64) : (s.setReg r i v).shadow = s.shadow := by exact (rfl)
@[simp] theorem State.setReg_snaps (s : State) (r : Reg) (i : Nat) (v : W64) : (s.setReg r i v).snaps = s.snaps := by exact (rfl)
@[simp] theorem State.setReg_ring (s : State) (r : Reg) (i : Nat) (v : W64) : (s.setReg r i v).ring = s.ring := by exact (rfl)
@[simp] theorem State.setReg_evc (s : State) (r : Reg) (i : Nat) (v : W64) : (s.setReg r i v).evc = s.evc := by exact (rfl)
@[simp] theorem State.setReg_host (s : State) (r : Reg) (i : Nat) (v : W64) : (s.setReg r i v).host = s.host := by exact (rfl)
@[simp] theorem State.setReg_grg (s : State) (r : Reg) (i : Nat) (v : W64) : (s.setReg r i v).grg = s.grg := by exact (rfl)
@[simp] theorem State.setReg_pwr (s : State) (r : Reg) (i : Nat) (v : W64) : (s.setReg r i v).pwr = s.pwr := by exact (rfl)
@[simp] theorem State.setReg_tap (s : State) (r : Reg) (i : Nat) (v : W64) : (s.setReg r i v).tap = s.tap := by exact (rfl)
@[simp] theorem State.setReg_health (s : State) (r : Reg) (i : Nat) (v : W64) : (s.setReg r i v).health = s.health := by exact (rfl)
@[simp] theorem State.setReg_duty (s : State) (r : Reg) (i : Nat) (v : W64) : (s.setReg r i v).duty = s.duty := by exact (rfl)
@[simp] theorem State.setReg_jtag (s : State) (r : Reg) (i : Nat) (v : W64) : (s.setReg r i v).jtag = s.jtag := by exact (rfl)
@[simp] theorem State.setReg_halts (s : State) (r : Reg) (i : Nat) (v : W64) : (s.setReg r i v).halts = s.halts := by exact (rfl)
@[simp] theorem State.setReg_cmp (s : State) (r : Reg) (i : Nat) (v : W64) : (s.setReg r i v).cmp = s.cmp := by exact (rfl)

/-! `State.fset` -/

@[simp] theorem State.fset_pending (s : State) (f : Fld) (n i : Nat) : (s.fset f n i).pending = s.pending := by simp only [State.fset, State.setReg_pending]
@[simp] theorem State.fset_free (s : State) (f : Fld) (n i : Nat) : (s.fset f n i).free = s.free := by simp only [State.fset, State.setReg_free]
@[simp] theorem State.fset_cycles (s : State) (f : Fld) (n i : Nat) : (s.fset f n i).cycles = s.cycles := by simp only [State.fset, State.setReg_cycles]
@[simp] theorem State.fset_out (s : State) (f : Fld) (n i : Nat) : (s.fset f n i).out = s.out := by simp only [State.fset, State.setReg_out]
@[simp] theorem State.fset_shadow (s : State) (f : Fld) (n i : Nat) : (s.fset f n i).shadow = s.shadow := by simp only [State.fset, State.setReg_shadow]
@[simp] theorem State.fset_snaps (s : State) (f : Fld) (n i : Nat) : (s.fset f n i).snaps = s.snaps := by simp only [State.fset, State.setReg_snaps]
@[simp] theorem State.fset_ring (s : State) (f : Fld) (n i : Nat) : (s.fset f n i).ring = s.ring := by simp only [State.fset, State.setReg_ring]
@[simp] theorem State.fset_evc (s : State) (f : Fld) (n i : Nat) : (s.fset f n i).evc = s.evc := by simp only [State.fset, State.setReg_evc]
@[simp] theorem State.fset_host (s : State) (f : Fld) (n i : Nat) : (s.fset f n i).host = s.host := by simp only [State.fset, State.setReg_host]
@[simp] theorem State.fset_grg (s : State) (f : Fld) (n i : Nat) : (s.fset f n i).grg = s.grg := by simp only [State.fset, State.setReg_grg]
@[simp] theorem State.fset_pwr (s : State) (f : Fld) (n i : Nat) : (s.fset f n i).pwr = s.pwr := by simp only [State.fset, State.setReg_pwr]
@[simp] theorem State.fset_tap (s : State) (f : Fld) (n i : Nat) : (s.fset f n i).tap = s.tap := by simp only [State.fset, State.setReg_tap]
@[simp] theorem State.fset_health (s : State) (f : Fld) (n i : Nat) : (s.fset f n i).health = s.health := by simp only [State.fset, State.setReg_health]
@[simp] theorem State.fset_duty (s : State) (f : Fld) (n i : Nat) : (s.fset f n i).duty = s.duty := by simp only [State.fset, State.setReg_duty]
@[simp] theorem State.fset_jtag (s : State) (f : Fld) (n i : Nat) : (s.fset f n i).jtag = s.jtag := by simp only [State.fset, State.setReg_jtag]
@[simp] theorem State.fset_halts (s : State) (f : Fld) (n i : Nat) : (s.fset f n i).halts = s.halts := by simp only [State.fset, State.setReg_halts]
@[simp] theorem State.fset_cmp (s : State) (f : Fld) (n i : Nat) : (s.fset f n i).cmp = s.cmp := by simp only [State.fset, State.setReg_cmp]

/-! `State.fsat` -/

@[simp] theorem State.fsat_pending (s : State) (f : Fld) (n i : Nat) : (s.fsat f n i).pending = s.pending := by simp only [State.fsat, State.fset_pending]
@[simp] theorem State.fsat_free (s : State) (f : Fld) (n i : Nat) : (s.fsat f n i).free = s.free := by simp only [State.fsat, State.fset_free]
@[simp] theorem State.fsat_cycles (s : State) (f : Fld) (n i : Nat) : (s.fsat f n i).cycles = s.cycles := by simp only [State.fsat, State.fset_cycles]
@[simp] theorem State.fsat_out (s : State) (f : Fld) (n i : Nat) : (s.fsat f n i).out = s.out := by simp only [State.fsat, State.fset_out]
@[simp] theorem State.fsat_shadow (s : State) (f : Fld) (n i : Nat) : (s.fsat f n i).shadow = s.shadow := by simp only [State.fsat, State.fset_shadow]
@[simp] theorem State.fsat_snaps (s : State) (f : Fld) (n i : Nat) : (s.fsat f n i).snaps = s.snaps := by simp only [State.fsat, State.fset_snaps]
@[simp] theorem State.fsat_ring (s : State) (f : Fld) (n i : Nat) : (s.fsat f n i).ring = s.ring := by simp only [State.fsat, State.fset_ring]
@[simp] theorem State.fsat_evc (s : State) (f : Fld) (n i : Nat) : (s.fsat f n i).evc = s.evc := by simp only [State.fsat, State.fset_evc]
@[simp] theorem State.fsat_host (s : State) (f : Fld) (n i : Nat) : (s.fsat f n i).host = s.host := by simp only [State.fsat, State.fset_host]
@[simp] theorem State.fsat_grg (s : State) (f : Fld) (n i : Nat) : (s.fsat f n i).grg = s.grg := by simp only [State.fsat, State.fset_grg]
@[simp] theorem State.fsat_pwr (s : State) (f : Fld) (n i : Nat) : (s.fsat f n i).pwr = s.pwr := by simp only [State.fsat, State.fset_pwr]
@[simp] theorem State.fsat_tap (s : State) (f : Fld) (n i : Nat) : (s.fsat f n i).tap = s.tap := by simp only [State.fsat, State.fset_tap]
@[simp] theorem State.fsat_health (s : State) (f : Fld) (n i : Nat) : (s.fsat f n i).health = s.health := by simp only [State.fsat, State.fset_health]
@[simp] theorem State.fsat_duty (s : State) (f : Fld) (n i : Nat) : (s.fsat f n i).duty = s.duty := by simp only [State.fsat, State.fset_duty]
@[simp] theorem State.fsat_jtag (s : State) (f : Fld) (n i : Nat) : (s.fsat f n i).jtag = s.jtag := by simp only [State.fsat, State.fset_jtag]
@[simp] theorem State.fsat_halts (s : State) (f : Fld) (n i : Nat) : (s.fsat f n i).halts = s.halts := by simp only [State.fsat, State.fset_halts]
@[simp] theorem State.fsat_cmp (s : State) (f : Fld) (n i : Nat) : (s.fsat f n i).cmp = s.cmp := by simp only [State.fsat, State.fset_cmp]

/-! `State.fadd` -/

@[simp] theorem State.fadd_pending (s : State) (f : Fld) (n i : Nat) : (s.fadd f n i).pending = s.pending := by simp only [State.fadd, State.fset_pending]
@[simp] theorem State.fadd_free (s : State) (f : Fld) (n i : Nat) : (s.fadd f n i).free = s.free := by simp only [State.fadd, State.fset_free]
@[simp] theorem State.fadd_cycles (s : State) (f : Fld) (n i : Nat) : (s.fadd f n i).cycles = s.cycles := by simp only [State.fadd, State.fset_cycles]
@[simp] theorem State.fadd_out (s : State) (f : Fld) (n i : Nat) : (s.fadd f n i).out = s.out := by simp only [State.fadd, State.fset_out]
@[simp] theorem State.fadd_shadow (s : State) (f : Fld) (n i : Nat) : (s.fadd f n i).shadow = s.shadow := by simp only [State.fadd, State.fset_shadow]
@[simp] theorem State.fadd_snaps (s : State) (f : Fld) (n i : Nat) : (s.fadd f n i).snaps = s.snaps := by simp only [State.fadd, State.fset_snaps]
@[simp] theorem State.fadd_ring (s : State) (f : Fld) (n i : Nat) : (s.fadd f n i).ring = s.ring := by simp only [State.fadd, State.fset_ring]
@[simp] theorem State.fadd_evc (s : State) (f : Fld) (n i : Nat) : (s.fadd f n i).evc = s.evc := by simp only [State.fadd, State.fset_evc]
@[simp] theorem State.fadd_host (s : State) (f : Fld) (n i : Nat) : (s.fadd f n i).host = s.host := by simp only [State.fadd, State.fset_host]
@[simp] theorem State.fadd_grg (s : State) (f : Fld) (n i : Nat) : (s.fadd f n i).grg = s.grg := by simp only [State.fadd, State.fset_grg]
@[simp] theorem State.fadd_pwr (s : State) (f : Fld) (n i : Nat) : (s.fadd f n i).pwr = s.pwr := by simp only [State.fadd, State.fset_pwr]
@[simp] theorem State.fadd_tap (s : State) (f : Fld) (n i : Nat) : (s.fadd f n i).tap = s.tap := by simp only [State.fadd, State.fset_tap]
@[simp] theorem State.fadd_health (s : State) (f : Fld) (n i : Nat) : (s.fadd f n i).health = s.health := by simp only [State.fadd, State.fset_health]
@[simp] theorem State.fadd_duty (s : State) (f : Fld) (n i : Nat) : (s.fadd f n i).duty = s.duty := by simp only [State.fadd, State.fset_duty]
@[simp] theorem State.fadd_jtag (s : State) (f : Fld) (n i : Nat) : (s.fadd f n i).jtag = s.jtag := by simp only [State.fadd, State.fset_jtag]
@[simp] theorem State.fadd_halts (s : State) (f : Fld) (n i : Nat) : (s.fadd f n i).halts = s.halts := by simp only [State.fadd, State.fset_halts]
@[simp] theorem State.fadd_cmp (s : State) (f : Fld) (n i : Nat) : (s.fadd f n i).cmp = s.cmp := by simp only [State.fadd, State.fset_cmp]

/-! `State.resetRegs` -/

@[simp] theorem State.resetRegs_pending (s : State) (p : Reg → Nat → Bool) : (s.resetRegs p).pending = s.pending := by exact (rfl)
@[simp] theorem State.resetRegs_free (s : State) (p : Reg → Nat → Bool) : (s.resetRegs p).free = s.free := by exact (rfl)
@[simp] theorem State.resetRegs_cycles (s : State) (p : Reg → Nat → Bool) : (s.resetRegs p).cycles = s.cycles := by exact (rfl)
@[simp] theorem State.resetRegs_out (s : State) (p : Reg → Nat → Bool) : (s.resetRegs p).out = s.out := by exact (rfl)
@[simp] theorem State.resetRegs_ring (s : State) (p : Reg → Nat → Bool) : (s.resetRegs p).ring = s.ring := by exact (rfl)
@[simp] theorem State.resetRegs_evc (s : State) (p : Reg → Nat → Bool) : (s.resetRegs p).evc = s.evc := by exact (rfl)
@[simp] theorem State.resetRegs_host (s : State) (p : Reg → Nat → Bool) : (s.resetRegs p).host = s.host := by exact (rfl)
@[simp] theorem State.resetRegs_grg (s : State) (p : Reg → Nat → Bool) : (s.resetRegs p).grg = s.grg := by exact (rfl)
@[simp] theorem State.resetRegs_pwr (s : State) (p : Reg → Nat → Bool) : (s.resetRegs p).pwr = s.pwr := by exact (rfl)
@[simp] theorem State.resetRegs_tap (s : State) (p : Reg → Nat → Bool) : (s.resetRegs p).tap = s.tap := by exact (rfl)
@[simp] theorem State.resetRegs_health (s : State) (p : Reg → Nat → Bool) : (s.resetRegs p).health = s.health := by exact (rfl)
@[simp] theorem State.resetRegs_duty (s : State) (p : Reg → Nat → Bool) : (s.resetRegs p).duty = s.duty := by exact (rfl)
@[simp] theorem State.resetRegs_jtag (s : State) (p : Reg → Nat → Bool) : (s.resetRegs p).jtag = s.jtag := by exact (rfl)
@[simp] theorem State.resetRegs_halts (s : State) (p : Reg → Nat → Bool) : (s.resetRegs p).halts = s.halts := by exact (rfl)
@[simp] theorem State.resetRegs_cmp (s : State) (p : Reg → Nat → Bool) : (s.resetRegs p).cmp = s.cmp := by exact (rfl)

/-! `State.emit` -/

@[simp] theorem State.emit_pending (o : Out) (s : State) : (s.emit o).pending = s.pending := by exact (rfl)
@[simp] theorem State.emit_free (o : Out) (s : State) : (s.emit o).free = s.free := by exact (rfl)
@[simp] theorem State.emit_cycles (o : Out) (s : State) : (s.emit o).cycles = s.cycles := by exact (rfl)
@[simp] theorem State.emit_regs (o : Out) (s : State) : (s.emit o).regs = s.regs := by exact (rfl)
@[simp] theorem State.emit_shadow (o : Out) (s : State) : (s.emit o).shadow = s.shadow := by exact (rfl)
@[simp] theorem State.emit_snaps (o : Out) (s : State) : (s.emit o).snaps = s.snaps := by exact (rfl)
@[simp] theorem State.emit_ring (o : Out) (s : State) : (s.emit o).ring = s.ring := by exact (rfl)
@[simp] theorem State.emit_evc (o : Out) (s : State) : (s.emit o).evc = s.evc := by exact (rfl)
@[simp] theorem State.emit_host (o : Out) (s : State) : (s.emit o).host = s.host := by exact (rfl)
@[simp] theorem State.emit_grg (o : Out) (s : State) : (s.emit o).grg = s.grg := by exact (rfl)
@[simp] theorem State.emit_pwr (o : Out) (s : State) : (s.emit o).pwr = s.pwr := by exact (rfl)
@[simp] theorem State.emit_tap (o : Out) (s : State) : (s.emit o).tap = s.tap := by exact (rfl)
@[simp] theorem State.emit_health (o : Out) (s : State) : (s.emit o).health = s.health := by exact (rfl)
@[simp] theorem State.emit_duty (o : Out) (s : State) : (s.emit o).duty = s.duty := by exact (rfl)
@[simp] theorem State.emit_jtag (o : Out) (s : State) : (s.emit o).jtag = s.jtag := by exact (rfl)
@[simp] theorem State.emit_halts (o : Out) (s : State) : (s.emit o).halts = s.halts := by exact (rfl)
@[simp] theorem State.emit_cmp (o : Out) (s : State) : (s.emit o).cmp = s.cmp := by exact (rfl)

/-! `State.take_2` -/

@[simp] theorem State.take_2_pending (w : Nat) (s : State) : ((s.take w).2).pending = s.pending := by exact (rfl)
@[simp] theorem State.take_2_cycles (w : Nat) (s : State) : ((s.take w).2).cycles = s.cycles := by exact (rfl)
@[simp] theorem State.take_2_out (w : Nat) (s : State) : ((s.take w).2).out = s.out := by exact (rfl)
@[simp] theorem State.take_2_regs (w : Nat) (s : State) : ((s.take w).2).regs = s.regs := by exact (rfl)
@[simp] theorem State.take_2_shadow (w : Nat) (s : State) : ((s.take w).2).shadow = s.shadow := by exact (rfl)
@[simp] theorem State.take_2_snaps (w : Nat) (s : State) : ((s.take w).2).snaps = s.snaps := by exact (rfl)
@[simp] theorem State.take_2_ring (w : Nat) (s : State) : ((s.take w).2).ring = s.ring := by exact (rfl)
@[simp] theorem State.take_2_evc (w : Nat) (s : State) : ((s.take w).2).evc = s.evc := by exact (rfl)
@[simp] theorem State.take_2_host (w : Nat) (s : State) : ((s.take w).2).host = s.host := by exact (rfl)
@[simp] theorem State.take_2_grg (w : Nat) (s : State) : ((s.take w).2).grg = s.grg := by exact (rfl)
@[simp] theorem State.take_2_pwr (w : Nat) (s : State) : ((s.take w).2).pwr = s.pwr := by exact (rfl)
@[simp] theorem State.take_2_tap (w : Nat) (s : State) : ((s.take w).2).tap = s.tap := by exact (rfl)
@[simp] theorem State.take_2_health (w : Nat) (s : State) : ((s.take w).2).health = s.health := by exact (rfl)
@[simp] theorem State.take_2_duty (w : Nat) (s : State) : ((s.take w).2).duty = s.duty := by exact (rfl)
@[simp] theorem State.take_2_jtag (w : Nat) (s : State) : ((s.take w).2).jtag = s.jtag := by exact (rfl)
@[simp] theorem State.take_2_halts (w : Nat) (s : State) : ((s.take w).2).halts = s.halts := by exact (rfl)
@[simp] theorem State.take_2_cmp (w : Nat) (s : State) : ((s.take w).2).cmp = s.cmp := by exact (rfl)

/-! `State.pick_2` -/

@[simp] theorem State.pick_2_pending (n : Nat) (s : State) : ((State.pick n s).2).pending = s.pending := by exact (rfl)
@[simp] theorem State.pick_2_cycles (n : Nat) (s : State) : ((State.pick n s).2).cycles = s.cycles := by exact (rfl)
@[simp] theorem State.pick_2_out (n : Nat) (s : State) : ((State.pick n s).2).out = s.out := by exact (rfl)
@[simp] theorem State.pick_2_regs (n : Nat) (s : State) : ((State.pick n s).2).regs = s.regs := by exact (rfl)
@[simp] theorem State.pick_2_shadow (n : Nat) (s : State) : ((State.pick n s).2).shadow = s.shadow := by exact (rfl)
@[simp] theorem State.pick_2_snaps (n : Nat) (s : State) : ((State.pick n s).2).snaps = s.snaps := by exact (rfl)
@[simp] theorem State.pick_2_ring (n : Nat) (s : State) : ((State.pick n s).2).ring = s.ring := by exact (rfl)
@[simp] theorem State.pick_2_evc (n : Nat) (s : State) : ((State.pick n s).2).evc = s.evc := by exact (rfl)
@[simp] theorem State.pick_2_host (n : Nat) (s : State) : ((State.pick n s).2).host = s.host := by exact (rfl)
@[simp] theorem State.pick_2_grg (n : Nat) (s : State) : ((State.pick n s).2).grg = s.grg := by exact (rfl)
@[simp] theorem State.pick_2_pwr (n : Nat) (s : State) : ((State.pick n s).2).pwr = s.pwr := by exact (rfl)
@[simp] theorem State.pick_2_tap (n : Nat) (s : State) : ((State.pick n s).2).tap = s.tap := by exact (rfl)
@[simp] theorem State.pick_2_health (n : Nat) (s : State) : ((State.pick n s).2).health = s.health := by exact (rfl)
@[simp] theorem State.pick_2_duty (n : Nat) (s : State) : ((State.pick n s).2).duty = s.duty := by exact (rfl)
@[simp] theorem State.pick_2_jtag (n : Nat) (s : State) : ((State.pick n s).2).jtag = s.jtag := by exact (rfl)
@[simp] theorem State.pick_2_halts (n : Nat) (s : State) : ((State.pick n s).2).halts = s.halts := by exact (rfl)
@[simp] theorem State.pick_2_cmp (n : Nat) (s : State) : ((State.pick n s).2).cmp = s.cmp := by exact (rfl)

/-! `State.setFunc` -/

@[simp] theorem State.setFunc_pending (s : State) (f : Nat) (v : Func) : (s.setFunc f v).pending = s.pending := by exact (rfl)
@[simp] theorem State.setFunc_free (s : State) (f : Nat) (v : Func) : (s.setFunc f v).free = s.free := by exact (rfl)
@[simp] theorem State.setFunc_cycles (s : State) (f : Nat) (v : Func) : (s.setFunc f v).cycles = s.cycles := by exact (rfl)
@[simp] theorem State.setFunc_out (s : State) (f : Nat) (v : Func) : (s.setFunc f v).out = s.out := by exact (rfl)
@[simp] theorem State.setFunc_regs (s : State) (f : Nat) (v : Func) : (s.setFunc f v).regs = s.regs := by exact (rfl)
@[simp] theorem State.setFunc_shadow (s : State) (f : Nat) (v : Func) : (s.setFunc f v).shadow = s.shadow := by exact (rfl)
@[simp] theorem State.setFunc_snaps (s : State) (f : Nat) (v : Func) : (s.setFunc f v).snaps = s.snaps := by exact (rfl)
@[simp] theorem State.setFunc_ring (s : State) (f : Nat) (v : Func) : (s.setFunc f v).ring = s.ring := by exact (rfl)
@[simp] theorem State.setFunc_evc (s : State) (f : Nat) (v : Func) : (s.setFunc f v).evc = s.evc := by exact (rfl)
@[simp] theorem State.setFunc_grg (s : State) (f : Nat) (v : Func) : (s.setFunc f v).grg = s.grg := by exact (rfl)
@[simp] theorem State.setFunc_pwr (s : State) (f : Nat) (v : Func) : (s.setFunc f v).pwr = s.pwr := by exact (rfl)
@[simp] theorem State.setFunc_tap (s : State) (f : Nat) (v : Func) : (s.setFunc f v).tap = s.tap := by exact (rfl)
@[simp] theorem State.setFunc_health (s : State) (f : Nat) (v : Func) : (s.setFunc f v).health = s.health := by exact (rfl)
@[simp] theorem State.setFunc_duty (s : State) (f : Nat) (v : Func) : (s.setFunc f v).duty = s.duty := by exact (rfl)
@[simp] theorem State.setFunc_jtag (s : State) (f : Nat) (v : Func) : (s.setFunc f v).jtag = s.jtag := by exact (rfl)
@[simp] theorem State.setFunc_halts (s : State) (f : Nat) (v : Func) : (s.setFunc f v).halts = s.halts := by exact (rfl)
@[simp] theorem State.setFunc_cmp (s : State) (f : Nat) (v : Func) : (s.setFunc f v).cmp = s.cmp := by exact (rfl)

/-! `State.setMsixVec` -/

@[simp] theorem State.setMsixVec_pending (s : State) (f v : Nat) (e : MsixVec) : (s.setMsixVec f v e).pending = s.pending := by exact (rfl)
@[simp] theorem State.setMsixVec_free (s : State) (f v : Nat) (e : MsixVec) : (s.setMsixVec f v e).free = s.free := by exact (rfl)
@[simp] theorem State.setMsixVec_cycles (s : State) (f v : Nat) (e : MsixVec) : (s.setMsixVec f v e).cycles = s.cycles := by exact (rfl)
@[simp] theorem State.setMsixVec_out (s : State) (f v : Nat) (e : MsixVec) : (s.setMsixVec f v e).out = s.out := by exact (rfl)
@[simp] theorem State.setMsixVec_regs (s : State) (f v : Nat) (e : MsixVec) : (s.setMsixVec f v e).regs = s.regs := by exact (rfl)
@[simp] theorem State.setMsixVec_shadow (s : State) (f v : Nat) (e : MsixVec) : (s.setMsixVec f v e).shadow = s.shadow := by exact (rfl)
@[simp] theorem State.setMsixVec_snaps (s : State) (f v : Nat) (e : MsixVec) : (s.setMsixVec f v e).snaps = s.snaps := by exact (rfl)
@[simp] theorem State.setMsixVec_ring (s : State) (f v : Nat) (e : MsixVec) : (s.setMsixVec f v e).ring = s.ring := by exact (rfl)
@[simp] theorem State.setMsixVec_evc (s : State) (f v : Nat) (e : MsixVec) : (s.setMsixVec f v e).evc = s.evc := by exact (rfl)
@[simp] theorem State.setMsixVec_grg (s : State) (f v : Nat) (e : MsixVec) : (s.setMsixVec f v e).grg = s.grg := by exact (rfl)
@[simp] theorem State.setMsixVec_pwr (s : State) (f v : Nat) (e : MsixVec) : (s.setMsixVec f v e).pwr = s.pwr := by exact (rfl)
@[simp] theorem State.setMsixVec_tap (s : State) (f v : Nat) (e : MsixVec) : (s.setMsixVec f v e).tap = s.tap := by exact (rfl)
@[simp] theorem State.setMsixVec_health (s : State) (f v : Nat) (e : MsixVec) : (s.setMsixVec f v e).health = s.health := by exact (rfl)
@[simp] theorem State.setMsixVec_duty (s : State) (f v : Nat) (e : MsixVec) : (s.setMsixVec f v e).duty = s.duty := by exact (rfl)
@[simp] theorem State.setMsixVec_jtag (s : State) (f v : Nat) (e : MsixVec) : (s.setMsixVec f v e).jtag = s.jtag := by exact (rfl)
@[simp] theorem State.setMsixVec_halts (s : State) (f v : Nat) (e : MsixVec) : (s.setMsixVec f v e).halts = s.halts := by exact (rfl)
@[simp] theorem State.setMsixVec_cmp (s : State) (f v : Nat) (e : MsixVec) : (s.setMsixVec f v e).cmp = s.cmp := by exact (rfl)

/-! `State.setPend` -/

@[simp] theorem State.setPend_pending (s : State) (die src : Nat) (b : Bool) : (s.setPend die src b).pending = s.pending := by simp only [State.setPend, State.fset_pending]
@[simp] theorem State.setPend_free (s : State) (die src : Nat) (b : Bool) : (s.setPend die src b).free = s.free := by simp only [State.setPend, State.fset_free]
@[simp] theorem State.setPend_cycles (s : State) (die src : Nat) (b : Bool) : (s.setPend die src b).cycles = s.cycles := by simp only [State.setPend, State.fset_cycles]
@[simp] theorem State.setPend_out (s : State) (die src : Nat) (b : Bool) : (s.setPend die src b).out = s.out := by simp only [State.setPend, State.fset_out]
@[simp] theorem State.setPend_shadow (s : State) (die src : Nat) (b : Bool) : (s.setPend die src b).shadow = s.shadow := by simp only [State.setPend, State.fset_shadow]
@[simp] theorem State.setPend_snaps (s : State) (die src : Nat) (b : Bool) : (s.setPend die src b).snaps = s.snaps := by simp only [State.setPend, State.fset_snaps]
@[simp] theorem State.setPend_ring (s : State) (die src : Nat) (b : Bool) : (s.setPend die src b).ring = s.ring := by simp only [State.setPend, State.fset_ring]
@[simp] theorem State.setPend_evc (s : State) (die src : Nat) (b : Bool) : (s.setPend die src b).evc = s.evc := by simp only [State.setPend, State.fset_evc]
@[simp] theorem State.setPend_host (s : State) (die src : Nat) (b : Bool) : (s.setPend die src b).host = s.host := by simp only [State.setPend, State.fset_host]
@[simp] theorem State.setPend_grg (s : State) (die src : Nat) (b : Bool) : (s.setPend die src b).grg = s.grg := by simp only [State.setPend, State.fset_grg]
@[simp] theorem State.setPend_pwr (s : State) (die src : Nat) (b : Bool) : (s.setPend die src b).pwr = s.pwr := by simp only [State.setPend, State.fset_pwr]
@[simp] theorem State.setPend_tap (s : State) (die src : Nat) (b : Bool) : (s.setPend die src b).tap = s.tap := by simp only [State.setPend, State.fset_tap]
@[simp] theorem State.setPend_health (s : State) (die src : Nat) (b : Bool) : (s.setPend die src b).health = s.health := by simp only [State.setPend, State.fset_health]
@[simp] theorem State.setPend_duty (s : State) (die src : Nat) (b : Bool) : (s.setPend die src b).duty = s.duty := by simp only [State.setPend, State.fset_duty]
@[simp] theorem State.setPend_jtag (s : State) (die src : Nat) (b : Bool) : (s.setPend die src b).jtag = s.jtag := by simp only [State.setPend, State.fset_jtag]
@[simp] theorem State.setPend_halts (s : State) (die src : Nat) (b : Bool) : (s.setPend die src b).halts = s.halts := by simp only [State.setPend, State.fset_halts]
@[simp] theorem State.setPend_cmp (s : State) (die src : Nat) (b : Bool) : (s.setPend die src b).cmp = s.cmp := by simp only [State.setPend, State.fset_cmp]

/-! `State.evcCount` -/

@[simp] theorem State.evcCount_pending (s : State) (die src : Nat) (async : Bool) : (s.evcCount die src async).pending = s.pending := by simp only [State.evcCount, State.fadd_pending, State.fset_pending]
@[simp] theorem State.evcCount_free (s : State) (die src : Nat) (async : Bool) : (s.evcCount die src async).free = s.free := by simp only [State.evcCount, State.fadd_free, State.fset_free]
@[simp] theorem State.evcCount_cycles (s : State) (die src : Nat) (async : Bool) : (s.evcCount die src async).cycles = s.cycles := by simp only [State.evcCount, State.fadd_cycles, State.fset_cycles]
@[simp] theorem State.evcCount_out (s : State) (die src : Nat) (async : Bool) : (s.evcCount die src async).out = s.out := by simp only [State.evcCount, State.fadd_out, State.fset_out]
@[simp] theorem State.evcCount_shadow (s : State) (die src : Nat) (async : Bool) : (s.evcCount die src async).shadow = s.shadow := by simp only [State.evcCount, State.fadd_shadow, State.fset_shadow]
@[simp] theorem State.evcCount_snaps (s : State) (die src : Nat) (async : Bool) : (s.evcCount die src async).snaps = s.snaps := by simp only [State.evcCount, State.fadd_snaps, State.fset_snaps]
@[simp] theorem State.evcCount_ring (s : State) (die src : Nat) (async : Bool) : (s.evcCount die src async).ring = s.ring := by simp only [State.evcCount, State.fadd_ring, State.fset_ring]
@[simp] theorem State.evcCount_evc (s : State) (die src : Nat) (async : Bool) : (s.evcCount die src async).evc = s.evc := by simp only [State.evcCount, State.fadd_evc, State.fset_evc]
@[simp] theorem State.evcCount_host (s : State) (die src : Nat) (async : Bool) : (s.evcCount die src async).host = s.host := by simp only [State.evcCount, State.fadd_host, State.fset_host]
@[simp] theorem State.evcCount_grg (s : State) (die src : Nat) (async : Bool) : (s.evcCount die src async).grg = s.grg := by simp only [State.evcCount, State.fadd_grg, State.fset_grg]
@[simp] theorem State.evcCount_pwr (s : State) (die src : Nat) (async : Bool) : (s.evcCount die src async).pwr = s.pwr := by simp only [State.evcCount, State.fadd_pwr, State.fset_pwr]
@[simp] theorem State.evcCount_tap (s : State) (die src : Nat) (async : Bool) : (s.evcCount die src async).tap = s.tap := by simp only [State.evcCount, State.fadd_tap, State.fset_tap]
@[simp] theorem State.evcCount_health (s : State) (die src : Nat) (async : Bool) : (s.evcCount die src async).health = s.health := by simp only [State.evcCount, State.fadd_health, State.fset_health]
@[simp] theorem State.evcCount_duty (s : State) (die src : Nat) (async : Bool) : (s.evcCount die src async).duty = s.duty := by simp only [State.evcCount, State.fadd_duty, State.fset_duty]
@[simp] theorem State.evcCount_jtag (s : State) (die src : Nat) (async : Bool) : (s.evcCount die src async).jtag = s.jtag := by simp only [State.evcCount, State.fadd_jtag, State.fset_jtag]
@[simp] theorem State.evcCount_halts (s : State) (die src : Nat) (async : Bool) : (s.evcCount die src async).halts = s.halts := by simp only [State.evcCount, State.fadd_halts, State.fset_halts]
@[simp] theorem State.evcCount_cmp (s : State) (die src : Nat) (async : Bool) : (s.evcCount die src async).cmp = s.cmp := by simp only [State.evcCount, State.fadd_cmp, State.fset_cmp]

/-! `State.journal` -/

@[simp] theorem State.journal_pending (s : State) : (s.journal).pending = s.pending := by exact (rfl)
@[simp] theorem State.journal_free (s : State) : (s.journal).free = s.free := by exact (rfl)
@[simp] theorem State.journal_cycles (s : State) : (s.journal).cycles = s.cycles := by exact (rfl)
@[simp] theorem State.journal_out (s : State) : (s.journal).out = s.out := by exact (rfl)
@[simp] theorem State.journal_regs (s : State) : (s.journal).regs = s.regs := by exact (rfl)
@[simp] theorem State.journal_shadow (s : State) : (s.journal).shadow = s.shadow := by exact (rfl)
@[simp] theorem State.journal_snaps (s : State) : (s.journal).snaps = s.snaps := by exact (rfl)
@[simp] theorem State.journal_ring (s : State) : (s.journal).ring = s.ring := by exact (rfl)
@[simp] theorem State.journal_evc (s : State) : (s.journal).evc = s.evc := by exact (rfl)
@[simp] theorem State.journal_host (s : State) : (s.journal).host = s.host := by exact (rfl)
@[simp] theorem State.journal_grg (s : State) : (s.journal).grg = s.grg := by exact (rfl)
@[simp] theorem State.journal_pwr (s : State) : (s.journal).pwr = s.pwr := by exact (rfl)
@[simp] theorem State.journal_health (s : State) : (s.journal).health = s.health := by exact (rfl)
@[simp] theorem State.journal_duty (s : State) : (s.journal).duty = s.duty := by exact (rfl)
@[simp] theorem State.journal_jtag (s : State) : (s.journal).jtag = s.jtag := by exact (rfl)
@[simp] theorem State.journal_halts (s : State) : (s.journal).halts = s.halts := by exact (rfl)
@[simp] theorem State.journal_cmp (s : State) : (s.journal).cmp = s.cmp := by exact (rfl)

/-- A fold of updates that each leave a part of the state alone leaves it alone. -/
theorem foldl_keeps {α β : Type} (p : State → β) (f : State → α → State) (h : ∀ s a, p (f s a) = p s) (l : List α) (s : State) :
    p (l.foldl f s) = p s := by
  induction l generalizing s with
  | nil => rfl
  | cons a r ih => rw [List.foldl_cons, ih, h]

/-! `State.msixSend` -/

@[simp] theorem State.msixSend_pending (s : State) (f v : Nat) : (s.msixSend f v).pending = s.pending := by
  simp only [State.msixSend]
  repeat' split
  all_goals simp
@[simp] theorem State.msixSend_cycles (s : State) (f v : Nat) : (s.msixSend f v).cycles = s.cycles := by
  simp only [State.msixSend]
  repeat' split
  all_goals simp
@[simp] theorem State.msixSend_snaps (s : State) (f v : Nat) : (s.msixSend f v).snaps = s.snaps := by
  simp only [State.msixSend]
  repeat' split
  all_goals simp
@[simp] theorem State.msixSend_ring (s : State) (f v : Nat) : (s.msixSend f v).ring = s.ring := by
  simp only [State.msixSend]
  repeat' split
  all_goals simp
@[simp] theorem State.msixSend_grg (s : State) (f v : Nat) : (s.msixSend f v).grg = s.grg := by
  simp only [State.msixSend]
  repeat' split
  all_goals simp
@[simp] theorem State.msixSend_pwr (s : State) (f v : Nat) : (s.msixSend f v).pwr = s.pwr := by
  simp only [State.msixSend]
  repeat' split
  all_goals simp
@[simp] theorem State.msixSend_health (s : State) (f v : Nat) : (s.msixSend f v).health = s.health := by
  simp only [State.msixSend]
  repeat' split
  all_goals simp
@[simp] theorem State.msixSend_duty (s : State) (f v : Nat) : (s.msixSend f v).duty = s.duty := by
  simp only [State.msixSend]
  repeat' split
  all_goals simp
@[simp] theorem State.msixSend_jtag (s : State) (f v : Nat) : (s.msixSend f v).jtag = s.jtag := by
  simp only [State.msixSend]
  repeat' split
  all_goals simp
@[simp] theorem State.msixSend_halts (s : State) (f v : Nat) : (s.msixSend f v).halts = s.halts := by
  simp only [State.msixSend]
  repeat' split
  all_goals simp
@[simp] theorem State.msixSend_cmp (s : State) (f v : Nat) : (s.msixSend f v).cmp = s.cmp := by
  simp only [State.msixSend]
  repeat' split
  all_goals simp

/-! `State.msixRelease` -/

@[simp] theorem State.msixRelease_pending (s : State) (f v : Nat) : (s.msixRelease f v).pending = s.pending := by
  simp only [State.msixRelease]
  repeat' split
  all_goals simp
@[simp] theorem State.msixRelease_cycles (s : State) (f v : Nat) : (s.msixRelease f v).cycles = s.cycles := by
  simp only [State.msixRelease]
  repeat' split
  all_goals simp
@[simp] theorem State.msixRelease_snaps (s : State) (f v : Nat) : (s.msixRelease f v).snaps = s.snaps := by
  simp only [State.msixRelease]
  repeat' split
  all_goals simp
@[simp] theorem State.msixRelease_ring (s : State) (f v : Nat) : (s.msixRelease f v).ring = s.ring := by
  simp only [State.msixRelease]
  repeat' split
  all_goals simp
@[simp] theorem State.msixRelease_grg (s : State) (f v : Nat) : (s.msixRelease f v).grg = s.grg := by
  simp only [State.msixRelease]
  repeat' split
  all_goals simp
@[simp] theorem State.msixRelease_pwr (s : State) (f v : Nat) : (s.msixRelease f v).pwr = s.pwr := by
  simp only [State.msixRelease]
  repeat' split
  all_goals simp
@[simp] theorem State.msixRelease_health (s : State) (f v : Nat) : (s.msixRelease f v).health = s.health := by
  simp only [State.msixRelease]
  repeat' split
  all_goals simp
@[simp] theorem State.msixRelease_duty (s : State) (f v : Nat) : (s.msixRelease f v).duty = s.duty := by
  simp only [State.msixRelease]
  repeat' split
  all_goals simp
@[simp] theorem State.msixRelease_jtag (s : State) (f v : Nat) : (s.msixRelease f v).jtag = s.jtag := by
  simp only [State.msixRelease]
  repeat' split
  all_goals simp
@[simp] theorem State.msixRelease_halts (s : State) (f v : Nat) : (s.msixRelease f v).halts = s.halts := by
  simp only [State.msixRelease]
  repeat' split
  all_goals simp
@[simp] theorem State.msixRelease_cmp (s : State) (f v : Nat) : (s.msixRelease f v).cmp = s.cmp := by
  simp only [State.msixRelease]
  repeat' split
  all_goals simp

/-! `State.evcDeliver` -/

@[simp] theorem State.evcDeliver_pending (s : State) (die src : Nat) : (s.evcDeliver die src).pending = s.pending := by
  simp only [State.evcDeliver]
  repeat' split
  all_goals simp
@[simp] theorem State.evcDeliver_cycles (s : State) (die src : Nat) : (s.evcDeliver die src).cycles = s.cycles := by
  simp only [State.evcDeliver]
  repeat' split
  all_goals simp
@[simp] theorem State.evcDeliver_snaps (s : State) (die src : Nat) : (s.evcDeliver die src).snaps = s.snaps := by
  simp only [State.evcDeliver]
  repeat' split
  all_goals simp
@[simp] theorem State.evcDeliver_ring (s : State) (die src : Nat) : (s.evcDeliver die src).ring = s.ring := by
  simp only [State.evcDeliver]
  repeat' split
  all_goals simp
@[simp] theorem State.evcDeliver_grg (s : State) (die src : Nat) : (s.evcDeliver die src).grg = s.grg := by
  simp only [State.evcDeliver]
  repeat' split
  all_goals simp
@[simp] theorem State.evcDeliver_pwr (s : State) (die src : Nat) : (s.evcDeliver die src).pwr = s.pwr := by
  simp only [State.evcDeliver]
  repeat' split
  all_goals simp
@[simp] theorem State.evcDeliver_health (s : State) (die src : Nat) : (s.evcDeliver die src).health = s.health := by
  simp only [State.evcDeliver]
  repeat' split
  all_goals simp
@[simp] theorem State.evcDeliver_duty (s : State) (die src : Nat) : (s.evcDeliver die src).duty = s.duty := by
  simp only [State.evcDeliver]
  repeat' split
  all_goals simp
@[simp] theorem State.evcDeliver_jtag (s : State) (die src : Nat) : (s.evcDeliver die src).jtag = s.jtag := by
  simp only [State.evcDeliver]
  repeat' split
  all_goals simp
@[simp] theorem State.evcDeliver_halts (s : State) (die src : Nat) : (s.evcDeliver die src).halts = s.halts := by
  simp only [State.evcDeliver]
  repeat' split
  all_goals simp
@[simp] theorem State.evcDeliver_cmp (s : State) (die src : Nat) : (s.evcDeliver die src).cmp = s.cmp := by
  simp only [State.evcDeliver]
  repeat' split
  all_goals simp

/-! `State.event` -/

@[simp] theorem State.event_pending (s : State) (die src : Nat) : (s.event die src).pending = s.pending := by
  simp only [State.event]
  repeat' split
  all_goals simp
@[simp] theorem State.event_cycles (s : State) (die src : Nat) : (s.event die src).cycles = s.cycles := by
  simp only [State.event]
  repeat' split
  all_goals simp
@[simp] theorem State.event_snaps (s : State) (die src : Nat) : (s.event die src).snaps = s.snaps := by
  simp only [State.event]
  repeat' split
  all_goals simp
@[simp] theorem State.event_ring (s : State) (die src : Nat) : (s.event die src).ring = s.ring := by
  simp only [State.event]
  repeat' split
  all_goals simp
@[simp] theorem State.event_grg (s : State) (die src : Nat) : (s.event die src).grg = s.grg := by
  simp only [State.event]
  repeat' split
  all_goals simp
@[simp] theorem State.event_pwr (s : State) (die src : Nat) : (s.event die src).pwr = s.pwr := by
  simp only [State.event]
  repeat' split
  all_goals simp
@[simp] theorem State.event_health (s : State) (die src : Nat) : (s.event die src).health = s.health := by
  simp only [State.event]
  repeat' split
  all_goals simp
@[simp] theorem State.event_duty (s : State) (die src : Nat) : (s.event die src).duty = s.duty := by
  simp only [State.event]
  repeat' split
  all_goals simp
@[simp] theorem State.event_jtag (s : State) (die src : Nat) : (s.event die src).jtag = s.jtag := by
  simp only [State.event]
  repeat' split
  all_goals simp
@[simp] theorem State.event_halts (s : State) (die src : Nat) : (s.event die src).halts = s.halts := by
  simp only [State.event]
  repeat' split
  all_goals simp
@[simp] theorem State.event_cmp (s : State) (die src : Nat) : (s.event die src).cmp = s.cmp := by
  simp only [State.event]
  repeat' split
  all_goals simp

/-! `State.levelSource` -/

@[simp] theorem State.levelSource_pending (s : State) (die : Nat) : (s.levelSource die).pending = s.pending := by
  simp only [State.levelSource]
  repeat' split
  all_goals simp
@[simp] theorem State.levelSource_cycles (s : State) (die : Nat) : (s.levelSource die).cycles = s.cycles := by
  simp only [State.levelSource]
  repeat' split
  all_goals simp
@[simp] theorem State.levelSource_snaps (s : State) (die : Nat) : (s.levelSource die).snaps = s.snaps := by
  simp only [State.levelSource]
  repeat' split
  all_goals simp
@[simp] theorem State.levelSource_ring (s : State) (die : Nat) : (s.levelSource die).ring = s.ring := by
  simp only [State.levelSource]
  repeat' split
  all_goals simp
@[simp] theorem State.levelSource_grg (s : State) (die : Nat) : (s.levelSource die).grg = s.grg := by
  simp only [State.levelSource]
  repeat' split
  all_goals simp
@[simp] theorem State.levelSource_pwr (s : State) (die : Nat) : (s.levelSource die).pwr = s.pwr := by
  simp only [State.levelSource]
  repeat' split
  all_goals simp
@[simp] theorem State.levelSource_health (s : State) (die : Nat) : (s.levelSource die).health = s.health := by
  simp only [State.levelSource]
  repeat' split
  all_goals simp
@[simp] theorem State.levelSource_duty (s : State) (die : Nat) : (s.levelSource die).duty = s.duty := by
  simp only [State.levelSource]
  repeat' split
  all_goals simp
@[simp] theorem State.levelSource_jtag (s : State) (die : Nat) : (s.levelSource die).jtag = s.jtag := by
  simp only [State.levelSource]
  repeat' split
  all_goals simp
@[simp] theorem State.levelSource_halts (s : State) (die : Nat) : (s.levelSource die).halts = s.halts := by
  simp only [State.levelSource]
  repeat' split
  all_goals simp
@[simp] theorem State.levelSource_cmp (s : State) (die : Nat) : (s.levelSource die).cmp = s.cmp := by
  simp only [State.levelSource]
  repeat' split
  all_goals simp

/-! `State.flashRecord` -/

@[simp] theorem State.flashRecord_pending (s : State) (r : LogRec) : (s.flashRecord r).pending = s.pending := by
  simp only [State.flashRecord]
  repeat' split
  all_goals simp
@[simp] theorem State.flashRecord_cycles (s : State) (r : LogRec) : (s.flashRecord r).cycles = s.cycles := by
  simp only [State.flashRecord]
  repeat' split
  all_goals simp
@[simp] theorem State.flashRecord_snaps (s : State) (r : LogRec) : (s.flashRecord r).snaps = s.snaps := by
  simp only [State.flashRecord]
  repeat' split
  all_goals simp
@[simp] theorem State.flashRecord_ring (s : State) (r : LogRec) : (s.flashRecord r).ring = s.ring := by
  simp only [State.flashRecord]
  repeat' split
  all_goals simp
@[simp] theorem State.flashRecord_grg (s : State) (r : LogRec) : (s.flashRecord r).grg = s.grg := by
  simp only [State.flashRecord]
  repeat' split
  all_goals simp
@[simp] theorem State.flashRecord_pwr (s : State) (r : LogRec) : (s.flashRecord r).pwr = s.pwr := by
  simp only [State.flashRecord]
  repeat' split
  all_goals simp
@[simp] theorem State.flashRecord_health (s : State) (r : LogRec) : (s.flashRecord r).health = s.health := by
  simp only [State.flashRecord]
  repeat' split
  all_goals simp
@[simp] theorem State.flashRecord_duty (s : State) (r : LogRec) : (s.flashRecord r).duty = s.duty := by
  simp only [State.flashRecord]
  repeat' split
  all_goals simp
@[simp] theorem State.flashRecord_jtag (s : State) (r : LogRec) : (s.flashRecord r).jtag = s.jtag := by
  simp only [State.flashRecord]
  repeat' split
  all_goals simp
@[simp] theorem State.flashRecord_halts (s : State) (r : LogRec) : (s.flashRecord r).halts = s.halts := by
  simp only [State.flashRecord]
  repeat' split
  all_goals simp
@[simp] theorem State.flashRecord_cmp (s : State) (r : LogRec) : (s.flashRecord r).cmp = s.cmp := by
  simp only [State.flashRecord]
  repeat' split
  all_goals simp

/-! `State.logRecord` -/

@[simp] theorem State.logRecord_pending (s : State) (severity die kind : Nat) (fault : Option FaultRec) : (s.logRecord severity die kind fault).pending = s.pending := by
  simp only [State.logRecord]
  repeat' split
  all_goals simp
@[simp] theorem State.logRecord_cycles (s : State) (severity die kind : Nat) (fault : Option FaultRec) : (s.logRecord severity die kind fault).cycles = s.cycles := by
  simp only [State.logRecord]
  repeat' split
  all_goals simp
@[simp] theorem State.logRecord_snaps (s : State) (severity die kind : Nat) (fault : Option FaultRec) : (s.logRecord severity die kind fault).snaps = s.snaps := by
  simp only [State.logRecord]
  repeat' split
  all_goals simp
@[simp] theorem State.logRecord_ring (s : State) (severity die kind : Nat) (fault : Option FaultRec) : (s.logRecord severity die kind fault).ring = s.ring := by
  simp only [State.logRecord]
  repeat' split
  all_goals simp
@[simp] theorem State.logRecord_grg (s : State) (severity die kind : Nat) (fault : Option FaultRec) : (s.logRecord severity die kind fault).grg = s.grg := by
  simp only [State.logRecord]
  repeat' split
  all_goals simp
@[simp] theorem State.logRecord_pwr (s : State) (severity die kind : Nat) (fault : Option FaultRec) : (s.logRecord severity die kind fault).pwr = s.pwr := by
  simp only [State.logRecord]
  repeat' split
  all_goals simp
@[simp] theorem State.logRecord_health (s : State) (severity die kind : Nat) (fault : Option FaultRec) : (s.logRecord severity die kind fault).health = s.health := by
  simp only [State.logRecord]
  repeat' split
  all_goals simp
@[simp] theorem State.logRecord_duty (s : State) (severity die kind : Nat) (fault : Option FaultRec) : (s.logRecord severity die kind fault).duty = s.duty := by
  simp only [State.logRecord]
  repeat' split
  all_goals simp
@[simp] theorem State.logRecord_jtag (s : State) (severity die kind : Nat) (fault : Option FaultRec) : (s.logRecord severity die kind fault).jtag = s.jtag := by
  simp only [State.logRecord]
  repeat' split
  all_goals simp
@[simp] theorem State.logRecord_halts (s : State) (severity die kind : Nat) (fault : Option FaultRec) : (s.logRecord severity die kind fault).halts = s.halts := by
  simp only [State.logRecord]
  repeat' split
  all_goals simp
@[simp] theorem State.logRecord_cmp (s : State) (severity die kind : Nat) (fault : Option FaultRec) : (s.logRecord severity die kind fault).cmp = s.cmp := by
  simp only [State.logRecord]
  repeat' split
  all_goals simp

/-! `State.logEvent` -/

@[simp] theorem State.logEvent_pending (s : State) (e : LogEvent) (die : Nat) (severity : Option Nat) : (s.logEvent e die severity).pending = s.pending := by
  simp only [State.logEvent]
  repeat' split
  all_goals simp
@[simp] theorem State.logEvent_cycles (s : State) (e : LogEvent) (die : Nat) (severity : Option Nat) : (s.logEvent e die severity).cycles = s.cycles := by
  simp only [State.logEvent]
  repeat' split
  all_goals simp
@[simp] theorem State.logEvent_snaps (s : State) (e : LogEvent) (die : Nat) (severity : Option Nat) : (s.logEvent e die severity).snaps = s.snaps := by
  simp only [State.logEvent]
  repeat' split
  all_goals simp
@[simp] theorem State.logEvent_ring (s : State) (e : LogEvent) (die : Nat) (severity : Option Nat) : (s.logEvent e die severity).ring = s.ring := by
  simp only [State.logEvent]
  repeat' split
  all_goals simp
@[simp] theorem State.logEvent_grg (s : State) (e : LogEvent) (die : Nat) (severity : Option Nat) : (s.logEvent e die severity).grg = s.grg := by
  simp only [State.logEvent]
  repeat' split
  all_goals simp
@[simp] theorem State.logEvent_pwr (s : State) (e : LogEvent) (die : Nat) (severity : Option Nat) : (s.logEvent e die severity).pwr = s.pwr := by
  simp only [State.logEvent]
  repeat' split
  all_goals simp
@[simp] theorem State.logEvent_health (s : State) (e : LogEvent) (die : Nat) (severity : Option Nat) : (s.logEvent e die severity).health = s.health := by
  simp only [State.logEvent]
  repeat' split
  all_goals simp
@[simp] theorem State.logEvent_duty (s : State) (e : LogEvent) (die : Nat) (severity : Option Nat) : (s.logEvent e die severity).duty = s.duty := by
  simp only [State.logEvent]
  repeat' split
  all_goals simp
@[simp] theorem State.logEvent_jtag (s : State) (e : LogEvent) (die : Nat) (severity : Option Nat) : (s.logEvent e die severity).jtag = s.jtag := by
  simp only [State.logEvent]
  repeat' split
  all_goals simp
@[simp] theorem State.logEvent_halts (s : State) (e : LogEvent) (die : Nat) (severity : Option Nat) : (s.logEvent e die severity).halts = s.halts := by
  simp only [State.logEvent]
  repeat' split
  all_goals simp
@[simp] theorem State.logEvent_cmp (s : State) (e : LogEvent) (die : Nat) (severity : Option Nat) : (s.logEvent e die severity).cmp = s.cmp := by
  simp only [State.logEvent]
  repeat' split
  all_goals simp

/-! `State.catchUp` -/

@[simp] theorem State.catchUp_pending (die : Nat) (s : State) (k : Nat) : (State.catchUp die s k).pending = s.pending := by
  simp only [State.catchUp]
  repeat' split
  all_goals simp
@[simp] theorem State.catchUp_cycles (die : Nat) (s : State) (k : Nat) : (State.catchUp die s k).cycles = s.cycles := by
  simp only [State.catchUp]
  repeat' split
  all_goals simp
@[simp] theorem State.catchUp_snaps (die : Nat) (s : State) (k : Nat) : (State.catchUp die s k).snaps = s.snaps := by
  simp only [State.catchUp]
  repeat' split
  all_goals simp
@[simp] theorem State.catchUp_ring (die : Nat) (s : State) (k : Nat) : (State.catchUp die s k).ring = s.ring := by
  simp only [State.catchUp]
  repeat' split
  all_goals simp
@[simp] theorem State.catchUp_grg (die : Nat) (s : State) (k : Nat) : (State.catchUp die s k).grg = s.grg := by
  simp only [State.catchUp]
  repeat' split
  all_goals simp
@[simp] theorem State.catchUp_pwr (die : Nat) (s : State) (k : Nat) : (State.catchUp die s k).pwr = s.pwr := by
  simp only [State.catchUp]
  repeat' split
  all_goals simp
@[simp] theorem State.catchUp_health (die : Nat) (s : State) (k : Nat) : (State.catchUp die s k).health = s.health := by
  simp only [State.catchUp]
  repeat' split
  all_goals simp
@[simp] theorem State.catchUp_duty (die : Nat) (s : State) (k : Nat) : (State.catchUp die s k).duty = s.duty := by
  simp only [State.catchUp]
  repeat' split
  all_goals simp
@[simp] theorem State.catchUp_jtag (die : Nat) (s : State) (k : Nat) : (State.catchUp die s k).jtag = s.jtag := by
  simp only [State.catchUp]
  repeat' split
  all_goals simp
@[simp] theorem State.catchUp_halts (die : Nat) (s : State) (k : Nat) : (State.catchUp die s k).halts = s.halts := by
  simp only [State.catchUp]
  repeat' split
  all_goals simp
@[simp] theorem State.catchUp_cmp (die : Nat) (s : State) (k : Nat) : (State.catchUp die s k).cmp = s.cmp := by
  simp only [State.catchUp]
  repeat' split
  all_goals simp

/-! `State.restartClock` -/

@[simp] theorem State.restartClock_pending (s : State) (die : Nat) : (s.restartClock die).pending = s.pending := by
  simp only [State.restartClock]
  exact (foldl_keeps (fun t : State => t.pending) (State.catchUp die) (State.catchUp_pending die) _ _).trans rfl
@[simp] theorem State.restartClock_cycles (s : State) (die : Nat) : (s.restartClock die).cycles = s.cycles := by
  simp only [State.restartClock]
  exact (foldl_keeps (fun t : State => t.cycles) (State.catchUp die) (State.catchUp_cycles die) _ _).trans rfl
@[simp] theorem State.restartClock_snaps (s : State) (die : Nat) : (s.restartClock die).snaps = s.snaps := by
  simp only [State.restartClock]
  exact (foldl_keeps (fun t : State => t.snaps) (State.catchUp die) (State.catchUp_snaps die) _ _).trans rfl
@[simp] theorem State.restartClock_ring (s : State) (die : Nat) : (s.restartClock die).ring = s.ring := by
  simp only [State.restartClock]
  exact (foldl_keeps (fun t : State => t.ring) (State.catchUp die) (State.catchUp_ring die) _ _).trans rfl
@[simp] theorem State.restartClock_grg (s : State) (die : Nat) : (s.restartClock die).grg = s.grg := by
  simp only [State.restartClock]
  exact (foldl_keeps (fun t : State => t.grg) (State.catchUp die) (State.catchUp_grg die) _ _).trans rfl
@[simp] theorem State.restartClock_pwr (s : State) (die : Nat) : (s.restartClock die).pwr = s.pwr := by
  simp only [State.restartClock]
  exact (foldl_keeps (fun t : State => t.pwr) (State.catchUp die) (State.catchUp_pwr die) _ _).trans rfl
@[simp] theorem State.restartClock_health (s : State) (die : Nat) : (s.restartClock die).health = s.health := by
  simp only [State.restartClock]
  exact (foldl_keeps (fun t : State => t.health) (State.catchUp die) (State.catchUp_health die) _ _).trans rfl
@[simp] theorem State.restartClock_duty (s : State) (die : Nat) : (s.restartClock die).duty = s.duty := by
  simp only [State.restartClock]
  exact (foldl_keeps (fun t : State => t.duty) (State.catchUp die) (State.catchUp_duty die) _ _).trans rfl
@[simp] theorem State.restartClock_jtag (s : State) (die : Nat) : (s.restartClock die).jtag = s.jtag := by
  simp only [State.restartClock]
  exact (foldl_keeps (fun t : State => t.jtag) (State.catchUp die) (State.catchUp_jtag die) _ _).trans rfl
@[simp] theorem State.restartClock_halts (s : State) (die : Nat) : (s.restartClock die).halts = s.halts := by
  simp only [State.restartClock]
  exact (foldl_keeps (fun t : State => t.halts) (State.catchUp die) (State.catchUp_halts die) _ _).trans rfl
@[simp] theorem State.restartClock_cmp (s : State) (die : Nat) : (s.restartClock die).cmp = s.cmp := by
  simp only [State.restartClock]
  exact (foldl_keeps (fun t : State => t.cmp) (State.catchUp die) (State.catchUp_cmp die) _ _).trans rfl

/-! `State.dfqTake` -/

@[simp] theorem State.dfqTake_pending (s : State) (die : Nat) (r : FaultRec) : (s.dfqTake die r).pending = s.pending := by
  simp only [State.dfqTake]
  repeat' split
  all_goals simp
@[simp] theorem State.dfqTake_cycles (s : State) (die : Nat) (r : FaultRec) : (s.dfqTake die r).cycles = s.cycles := by
  simp only [State.dfqTake]
  repeat' split
  all_goals simp
@[simp] theorem State.dfqTake_snaps (s : State) (die : Nat) (r : FaultRec) : (s.dfqTake die r).snaps = s.snaps := by
  simp only [State.dfqTake]
  repeat' split
  all_goals simp
@[simp] theorem State.dfqTake_ring (s : State) (die : Nat) (r : FaultRec) : (s.dfqTake die r).ring = s.ring := by
  simp only [State.dfqTake]
  repeat' split
  all_goals simp
@[simp] theorem State.dfqTake_grg (s : State) (die : Nat) (r : FaultRec) : (s.dfqTake die r).grg = s.grg := by
  simp only [State.dfqTake]
  repeat' split
  all_goals simp
@[simp] theorem State.dfqTake_pwr (s : State) (die : Nat) (r : FaultRec) : (s.dfqTake die r).pwr = s.pwr := by
  simp only [State.dfqTake]
  repeat' split
  all_goals simp
@[simp] theorem State.dfqTake_health (s : State) (die : Nat) (r : FaultRec) : (s.dfqTake die r).health = s.health := by
  simp only [State.dfqTake]
  repeat' split
  all_goals simp
@[simp] theorem State.dfqTake_duty (s : State) (die : Nat) (r : FaultRec) : (s.dfqTake die r).duty = s.duty := by
  simp only [State.dfqTake]
  repeat' split
  all_goals simp
@[simp] theorem State.dfqTake_jtag (s : State) (die : Nat) (r : FaultRec) : (s.dfqTake die r).jtag = s.jtag := by
  simp only [State.dfqTake]
  repeat' split
  all_goals simp
@[simp] theorem State.dfqTake_halts (s : State) (die : Nat) (r : FaultRec) : (s.dfqTake die r).halts = s.halts := by
  simp only [State.dfqTake]
  repeat' split
  all_goals simp
@[simp] theorem State.dfqTake_cmp (s : State) (die : Nat) (r : FaultRec) : (s.dfqTake die r).cmp = s.cmp := by
  simp only [State.dfqTake]
  repeat' split
  all_goals simp

/-! `State.dfqWrite` -/

@[simp] theorem State.dfqWrite_pending (s : State) (die : Nat) (r : FaultRec) : (s.dfqWrite die r).pending = s.pending := by
  simp only [State.dfqWrite]
  repeat' split
  all_goals simp
@[simp] theorem State.dfqWrite_cycles (s : State) (die : Nat) (r : FaultRec) : (s.dfqWrite die r).cycles = s.cycles := by
  simp only [State.dfqWrite]
  repeat' split
  all_goals simp
@[simp] theorem State.dfqWrite_snaps (s : State) (die : Nat) (r : FaultRec) : (s.dfqWrite die r).snaps = s.snaps := by
  simp only [State.dfqWrite]
  repeat' split
  all_goals simp
@[simp] theorem State.dfqWrite_ring (s : State) (die : Nat) (r : FaultRec) : (s.dfqWrite die r).ring = s.ring := by
  simp only [State.dfqWrite]
  repeat' split
  all_goals simp
@[simp] theorem State.dfqWrite_grg (s : State) (die : Nat) (r : FaultRec) : (s.dfqWrite die r).grg = s.grg := by
  simp only [State.dfqWrite]
  repeat' split
  all_goals simp
@[simp] theorem State.dfqWrite_pwr (s : State) (die : Nat) (r : FaultRec) : (s.dfqWrite die r).pwr = s.pwr := by
  simp only [State.dfqWrite]
  repeat' split
  all_goals simp
@[simp] theorem State.dfqWrite_health (s : State) (die : Nat) (r : FaultRec) : (s.dfqWrite die r).health = s.health := by
  simp only [State.dfqWrite]
  repeat' split
  all_goals simp
@[simp] theorem State.dfqWrite_duty (s : State) (die : Nat) (r : FaultRec) : (s.dfqWrite die r).duty = s.duty := by
  simp only [State.dfqWrite]
  repeat' split
  all_goals simp
@[simp] theorem State.dfqWrite_jtag (s : State) (die : Nat) (r : FaultRec) : (s.dfqWrite die r).jtag = s.jtag := by
  simp only [State.dfqWrite]
  repeat' split
  all_goals simp
@[simp] theorem State.dfqWrite_halts (s : State) (die : Nat) (r : FaultRec) : (s.dfqWrite die r).halts = s.halts := by
  simp only [State.dfqWrite]
  repeat' split
  all_goals simp
@[simp] theorem State.dfqWrite_cmp (s : State) (die : Nat) (r : FaultRec) : (s.dfqWrite die r).cmp = s.cmp := by
  simp only [State.dfqWrite]
  repeat' split
  all_goals simp

/-! `State.reachRecord` -/

@[simp] theorem State.reachRecord_pending (s : State) (die : Nat) (who : Requester) (addr : Nat) (write : Bool) : (s.reachRecord die who addr write).pending = s.pending := by
  simp only [State.reachRecord]
  repeat' split
  all_goals simp
@[simp] theorem State.reachRecord_cycles (s : State) (die : Nat) (who : Requester) (addr : Nat) (write : Bool) : (s.reachRecord die who addr write).cycles = s.cycles := by
  simp only [State.reachRecord]
  repeat' split
  all_goals simp
@[simp] theorem State.reachRecord_snaps (s : State) (die : Nat) (who : Requester) (addr : Nat) (write : Bool) : (s.reachRecord die who addr write).snaps = s.snaps := by
  simp only [State.reachRecord]
  repeat' split
  all_goals simp
@[simp] theorem State.reachRecord_ring (s : State) (die : Nat) (who : Requester) (addr : Nat) (write : Bool) : (s.reachRecord die who addr write).ring = s.ring := by
  simp only [State.reachRecord]
  repeat' split
  all_goals simp
@[simp] theorem State.reachRecord_grg (s : State) (die : Nat) (who : Requester) (addr : Nat) (write : Bool) : (s.reachRecord die who addr write).grg = s.grg := by
  simp only [State.reachRecord]
  repeat' split
  all_goals simp
@[simp] theorem State.reachRecord_pwr (s : State) (die : Nat) (who : Requester) (addr : Nat) (write : Bool) : (s.reachRecord die who addr write).pwr = s.pwr := by
  simp only [State.reachRecord]
  repeat' split
  all_goals simp
@[simp] theorem State.reachRecord_health (s : State) (die : Nat) (who : Requester) (addr : Nat) (write : Bool) : (s.reachRecord die who addr write).health = s.health := by
  simp only [State.reachRecord]
  repeat' split
  all_goals simp
@[simp] theorem State.reachRecord_duty (s : State) (die : Nat) (who : Requester) (addr : Nat) (write : Bool) : (s.reachRecord die who addr write).duty = s.duty := by
  simp only [State.reachRecord]
  repeat' split
  all_goals simp
@[simp] theorem State.reachRecord_jtag (s : State) (die : Nat) (who : Requester) (addr : Nat) (write : Bool) : (s.reachRecord die who addr write).jtag = s.jtag := by
  simp only [State.reachRecord]
  repeat' split
  all_goals simp
@[simp] theorem State.reachRecord_halts (s : State) (die : Nat) (who : Requester) (addr : Nat) (write : Bool) : (s.reachRecord die who addr write).halts = s.halts := by
  simp only [State.reachRecord]
  repeat' split
  all_goals simp
@[simp] theorem State.reachRecord_cmp (s : State) (die : Nat) (who : Requester) (addr : Nat) (write : Bool) : (s.reachRecord die who addr write).cmp = s.cmp := by
  simp only [State.reachRecord]
  repeat' split
  all_goals simp

/-! `State.wrapCount` -/

@[simp] theorem State.wrapCount_pending (s : State) (f ovf : Fld) (i n die src : Nat) : (s.wrapCount f ovf i n die src).pending = s.pending := by
  simp only [State.wrapCount]
  repeat' split
  all_goals simp
@[simp] theorem State.wrapCount_cycles (s : State) (f ovf : Fld) (i n die src : Nat) : (s.wrapCount f ovf i n die src).cycles = s.cycles := by
  simp only [State.wrapCount]
  repeat' split
  all_goals simp
@[simp] theorem State.wrapCount_snaps (s : State) (f ovf : Fld) (i n die src : Nat) : (s.wrapCount f ovf i n die src).snaps = s.snaps := by
  simp only [State.wrapCount]
  repeat' split
  all_goals simp
@[simp] theorem State.wrapCount_ring (s : State) (f ovf : Fld) (i n die src : Nat) : (s.wrapCount f ovf i n die src).ring = s.ring := by
  simp only [State.wrapCount]
  repeat' split
  all_goals simp
@[simp] theorem State.wrapCount_grg (s : State) (f ovf : Fld) (i n die src : Nat) : (s.wrapCount f ovf i n die src).grg = s.grg := by
  simp only [State.wrapCount]
  repeat' split
  all_goals simp
@[simp] theorem State.wrapCount_pwr (s : State) (f ovf : Fld) (i n die src : Nat) : (s.wrapCount f ovf i n die src).pwr = s.pwr := by
  simp only [State.wrapCount]
  repeat' split
  all_goals simp
@[simp] theorem State.wrapCount_health (s : State) (f ovf : Fld) (i n die src : Nat) : (s.wrapCount f ovf i n die src).health = s.health := by
  simp only [State.wrapCount]
  repeat' split
  all_goals simp
@[simp] theorem State.wrapCount_duty (s : State) (f ovf : Fld) (i n die src : Nat) : (s.wrapCount f ovf i n die src).duty = s.duty := by
  simp only [State.wrapCount]
  repeat' split
  all_goals simp
@[simp] theorem State.wrapCount_jtag (s : State) (f ovf : Fld) (i n die src : Nat) : (s.wrapCount f ovf i n die src).jtag = s.jtag := by
  simp only [State.wrapCount]
  repeat' split
  all_goals simp
@[simp] theorem State.wrapCount_halts (s : State) (f ovf : Fld) (i n die src : Nat) : (s.wrapCount f ovf i n die src).halts = s.halts := by
  simp only [State.wrapCount]
  repeat' split
  all_goals simp
@[simp] theorem State.wrapCount_cmp (s : State) (f ovf : Fld) (i n die src : Nat) : (s.wrapCount f ovf i n die src).cmp = s.cmp := by
  simp only [State.wrapCount]
  repeat' split
  all_goals simp

/-! `State.quadCount` -/

@[simp] theorem State.quadCount_pending (s : State) (q i n : Nat) : (s.quadCount q i n).pending = s.pending := by
  simp only [State.quadCount]
  repeat' split
  all_goals simp
@[simp] theorem State.quadCount_cycles (s : State) (q i n : Nat) : (s.quadCount q i n).cycles = s.cycles := by
  simp only [State.quadCount]
  repeat' split
  all_goals simp
@[simp] theorem State.quadCount_snaps (s : State) (q i n : Nat) : (s.quadCount q i n).snaps = s.snaps := by
  simp only [State.quadCount]
  repeat' split
  all_goals simp
@[simp] theorem State.quadCount_ring (s : State) (q i n : Nat) : (s.quadCount q i n).ring = s.ring := by
  simp only [State.quadCount]
  repeat' split
  all_goals simp
@[simp] theorem State.quadCount_grg (s : State) (q i n : Nat) : (s.quadCount q i n).grg = s.grg := by
  simp only [State.quadCount]
  repeat' split
  all_goals simp
@[simp] theorem State.quadCount_pwr (s : State) (q i n : Nat) : (s.quadCount q i n).pwr = s.pwr := by
  simp only [State.quadCount]
  repeat' split
  all_goals simp
@[simp] theorem State.quadCount_health (s : State) (q i n : Nat) : (s.quadCount q i n).health = s.health := by
  simp only [State.quadCount]
  repeat' split
  all_goals simp
@[simp] theorem State.quadCount_duty (s : State) (q i n : Nat) : (s.quadCount q i n).duty = s.duty := by
  simp only [State.quadCount]
  repeat' split
  all_goals simp
@[simp] theorem State.quadCount_jtag (s : State) (q i n : Nat) : (s.quadCount q i n).jtag = s.jtag := by
  simp only [State.quadCount]
  repeat' split
  all_goals simp
@[simp] theorem State.quadCount_halts (s : State) (q i n : Nat) : (s.quadCount q i n).halts = s.halts := by
  simp only [State.quadCount]
  repeat' split
  all_goals simp
@[simp] theorem State.quadCount_cmp (s : State) (q i n : Nat) : (s.quadCount q i n).cmp = s.cmp := by
  simp only [State.quadCount]
  repeat' split
  all_goals simp

/-! `State.dirCount` -/

@[simp] theorem State.dirCount_pending (s : State) (h i : Nat) : (s.dirCount h i).pending = s.pending := by
  simp only [State.dirCount]
  repeat' split
  all_goals simp
@[simp] theorem State.dirCount_cycles (s : State) (h i : Nat) : (s.dirCount h i).cycles = s.cycles := by
  simp only [State.dirCount]
  repeat' split
  all_goals simp
@[simp] theorem State.dirCount_snaps (s : State) (h i : Nat) : (s.dirCount h i).snaps = s.snaps := by
  simp only [State.dirCount]
  repeat' split
  all_goals simp
@[simp] theorem State.dirCount_ring (s : State) (h i : Nat) : (s.dirCount h i).ring = s.ring := by
  simp only [State.dirCount]
  repeat' split
  all_goals simp
@[simp] theorem State.dirCount_grg (s : State) (h i : Nat) : (s.dirCount h i).grg = s.grg := by
  simp only [State.dirCount]
  repeat' split
  all_goals simp
@[simp] theorem State.dirCount_pwr (s : State) (h i : Nat) : (s.dirCount h i).pwr = s.pwr := by
  simp only [State.dirCount]
  repeat' split
  all_goals simp
@[simp] theorem State.dirCount_health (s : State) (h i : Nat) : (s.dirCount h i).health = s.health := by
  simp only [State.dirCount]
  repeat' split
  all_goals simp
@[simp] theorem State.dirCount_duty (s : State) (h i : Nat) : (s.dirCount h i).duty = s.duty := by
  simp only [State.dirCount]
  repeat' split
  all_goals simp
@[simp] theorem State.dirCount_jtag (s : State) (h i : Nat) : (s.dirCount h i).jtag = s.jtag := by
  simp only [State.dirCount]
  repeat' split
  all_goals simp
@[simp] theorem State.dirCount_halts (s : State) (h i : Nat) : (s.dirCount h i).halts = s.halts := by
  simp only [State.dirCount]
  repeat' split
  all_goals simp
@[simp] theorem State.dirCount_cmp (s : State) (h i : Nat) : (s.dirCount h i).cmp = s.cmp := by
  simp only [State.dirCount]
  repeat' split
  all_goals simp

/-! `State.qtlbCount` -/

@[simp] theorem State.qtlbCount_pending (s : State) (q i : Nat) : (s.qtlbCount q i).pending = s.pending := by
  simp only [State.qtlbCount]
  repeat' split
  all_goals simp
@[simp] theorem State.qtlbCount_cycles (s : State) (q i : Nat) : (s.qtlbCount q i).cycles = s.cycles := by
  simp only [State.qtlbCount]
  repeat' split
  all_goals simp
@[simp] theorem State.qtlbCount_snaps (s : State) (q i : Nat) : (s.qtlbCount q i).snaps = s.snaps := by
  simp only [State.qtlbCount]
  repeat' split
  all_goals simp
@[simp] theorem State.qtlbCount_ring (s : State) (q i : Nat) : (s.qtlbCount q i).ring = s.ring := by
  simp only [State.qtlbCount]
  repeat' split
  all_goals simp
@[simp] theorem State.qtlbCount_grg (s : State) (q i : Nat) : (s.qtlbCount q i).grg = s.grg := by
  simp only [State.qtlbCount]
  repeat' split
  all_goals simp
@[simp] theorem State.qtlbCount_pwr (s : State) (q i : Nat) : (s.qtlbCount q i).pwr = s.pwr := by
  simp only [State.qtlbCount]
  repeat' split
  all_goals simp
@[simp] theorem State.qtlbCount_health (s : State) (q i : Nat) : (s.qtlbCount q i).health = s.health := by
  simp only [State.qtlbCount]
  repeat' split
  all_goals simp
@[simp] theorem State.qtlbCount_duty (s : State) (q i : Nat) : (s.qtlbCount q i).duty = s.duty := by
  simp only [State.qtlbCount]
  repeat' split
  all_goals simp
@[simp] theorem State.qtlbCount_jtag (s : State) (q i : Nat) : (s.qtlbCount q i).jtag = s.jtag := by
  simp only [State.qtlbCount]
  repeat' split
  all_goals simp
@[simp] theorem State.qtlbCount_halts (s : State) (q i : Nat) : (s.qtlbCount q i).halts = s.halts := by
  simp only [State.qtlbCount]
  repeat' split
  all_goals simp
@[simp] theorem State.qtlbCount_cmp (s : State) (q i : Nat) : (s.qtlbCount q i).cmp = s.cmp := by
  simp only [State.qtlbCount]
  repeat' split
  all_goals simp

/-! `State.utlbCount` -/

@[simp] theorem State.utlbCount_pending (s : State) (k i : Nat) : (s.utlbCount k i).pending = s.pending := by
  simp only [State.utlbCount]
  repeat' split
  all_goals simp
@[simp] theorem State.utlbCount_cycles (s : State) (k i : Nat) : (s.utlbCount k i).cycles = s.cycles := by
  simp only [State.utlbCount]
  repeat' split
  all_goals simp
@[simp] theorem State.utlbCount_snaps (s : State) (k i : Nat) : (s.utlbCount k i).snaps = s.snaps := by
  simp only [State.utlbCount]
  repeat' split
  all_goals simp
@[simp] theorem State.utlbCount_ring (s : State) (k i : Nat) : (s.utlbCount k i).ring = s.ring := by
  simp only [State.utlbCount]
  repeat' split
  all_goals simp
@[simp] theorem State.utlbCount_grg (s : State) (k i : Nat) : (s.utlbCount k i).grg = s.grg := by
  simp only [State.utlbCount]
  repeat' split
  all_goals simp
@[simp] theorem State.utlbCount_pwr (s : State) (k i : Nat) : (s.utlbCount k i).pwr = s.pwr := by
  simp only [State.utlbCount]
  repeat' split
  all_goals simp
@[simp] theorem State.utlbCount_health (s : State) (k i : Nat) : (s.utlbCount k i).health = s.health := by
  simp only [State.utlbCount]
  repeat' split
  all_goals simp
@[simp] theorem State.utlbCount_duty (s : State) (k i : Nat) : (s.utlbCount k i).duty = s.duty := by
  simp only [State.utlbCount]
  repeat' split
  all_goals simp
@[simp] theorem State.utlbCount_jtag (s : State) (k i : Nat) : (s.utlbCount k i).jtag = s.jtag := by
  simp only [State.utlbCount]
  repeat' split
  all_goals simp
@[simp] theorem State.utlbCount_halts (s : State) (k i : Nat) : (s.utlbCount k i).halts = s.halts := by
  simp only [State.utlbCount]
  repeat' split
  all_goals simp
@[simp] theorem State.utlbCount_cmp (s : State) (k i : Nat) : (s.utlbCount k i).cmp = s.cmp := by
  simp only [State.utlbCount]
  repeat' split
  all_goals simp

/-! `State.steCount` -/

@[simp] theorem State.steCount_pending (s : State) (e i n : Nat) : (s.steCount e i n).pending = s.pending := by
  simp only [State.steCount]
  repeat' split
  all_goals simp
@[simp] theorem State.steCount_cycles (s : State) (e i n : Nat) : (s.steCount e i n).cycles = s.cycles := by
  simp only [State.steCount]
  repeat' split
  all_goals simp
@[simp] theorem State.steCount_snaps (s : State) (e i n : Nat) : (s.steCount e i n).snaps = s.snaps := by
  simp only [State.steCount]
  repeat' split
  all_goals simp
@[simp] theorem State.steCount_ring (s : State) (e i n : Nat) : (s.steCount e i n).ring = s.ring := by
  simp only [State.steCount]
  repeat' split
  all_goals simp
@[simp] theorem State.steCount_grg (s : State) (e i n : Nat) : (s.steCount e i n).grg = s.grg := by
  simp only [State.steCount]
  repeat' split
  all_goals simp
@[simp] theorem State.steCount_pwr (s : State) (e i n : Nat) : (s.steCount e i n).pwr = s.pwr := by
  simp only [State.steCount]
  repeat' split
  all_goals simp
@[simp] theorem State.steCount_health (s : State) (e i n : Nat) : (s.steCount e i n).health = s.health := by
  simp only [State.steCount]
  repeat' split
  all_goals simp
@[simp] theorem State.steCount_duty (s : State) (e i n : Nat) : (s.steCount e i n).duty = s.duty := by
  simp only [State.steCount]
  repeat' split
  all_goals simp
@[simp] theorem State.steCount_jtag (s : State) (e i n : Nat) : (s.steCount e i n).jtag = s.jtag := by
  simp only [State.steCount]
  repeat' split
  all_goals simp
@[simp] theorem State.steCount_halts (s : State) (e i n : Nat) : (s.steCount e i n).halts = s.halts := by
  simp only [State.steCount]
  repeat' split
  all_goals simp
@[simp] theorem State.steCount_cmp (s : State) (e i n : Nat) : (s.steCount e i n).cmp = s.cmp := by
  simp only [State.steCount]
  repeat' split
  all_goals simp

/-! `State.ceCount` -/

@[simp] theorem State.ceCount_pending (s : State) (cnt sat : Fld) (i : Nat) : (s.ceCount cnt sat i).pending = s.pending := by
  simp only [State.ceCount]
  repeat' split
  all_goals simp
@[simp] theorem State.ceCount_cycles (s : State) (cnt sat : Fld) (i : Nat) : (s.ceCount cnt sat i).cycles = s.cycles := by
  simp only [State.ceCount]
  repeat' split
  all_goals simp
@[simp] theorem State.ceCount_snaps (s : State) (cnt sat : Fld) (i : Nat) : (s.ceCount cnt sat i).snaps = s.snaps := by
  simp only [State.ceCount]
  repeat' split
  all_goals simp
@[simp] theorem State.ceCount_ring (s : State) (cnt sat : Fld) (i : Nat) : (s.ceCount cnt sat i).ring = s.ring := by
  simp only [State.ceCount]
  repeat' split
  all_goals simp
@[simp] theorem State.ceCount_grg (s : State) (cnt sat : Fld) (i : Nat) : (s.ceCount cnt sat i).grg = s.grg := by
  simp only [State.ceCount]
  repeat' split
  all_goals simp
@[simp] theorem State.ceCount_pwr (s : State) (cnt sat : Fld) (i : Nat) : (s.ceCount cnt sat i).pwr = s.pwr := by
  simp only [State.ceCount]
  repeat' split
  all_goals simp
@[simp] theorem State.ceCount_health (s : State) (cnt sat : Fld) (i : Nat) : (s.ceCount cnt sat i).health = s.health := by
  simp only [State.ceCount]
  repeat' split
  all_goals simp
@[simp] theorem State.ceCount_duty (s : State) (cnt sat : Fld) (i : Nat) : (s.ceCount cnt sat i).duty = s.duty := by
  simp only [State.ceCount]
  repeat' split
  all_goals simp
@[simp] theorem State.ceCount_jtag (s : State) (cnt sat : Fld) (i : Nat) : (s.ceCount cnt sat i).jtag = s.jtag := by
  simp only [State.ceCount]
  repeat' split
  all_goals simp
@[simp] theorem State.ceCount_halts (s : State) (cnt sat : Fld) (i : Nat) : (s.ceCount cnt sat i).halts = s.halts := by
  simp only [State.ceCount]
  repeat' split
  all_goals simp
@[simp] theorem State.ceCount_cmp (s : State) (cnt sat : Fld) (i : Nat) : (s.ceCount cnt sat i).cmp = s.cmp := by
  simp only [State.ceCount]
  repeat' split
  all_goals simp

/-! `State.ceEvent` -/

@[simp] theorem State.ceEvent_pending (s : State) (cnt sat : Fld) (i die src : Nat) : (s.ceEvent cnt sat i die src).pending = s.pending := by
  simp only [State.ceEvent]
  repeat' split
  all_goals simp
@[simp] theorem State.ceEvent_cycles (s : State) (cnt sat : Fld) (i die src : Nat) : (s.ceEvent cnt sat i die src).cycles = s.cycles := by
  simp only [State.ceEvent]
  repeat' split
  all_goals simp
@[simp] theorem State.ceEvent_snaps (s : State) (cnt sat : Fld) (i die src : Nat) : (s.ceEvent cnt sat i die src).snaps = s.snaps := by
  simp only [State.ceEvent]
  repeat' split
  all_goals simp
@[simp] theorem State.ceEvent_ring (s : State) (cnt sat : Fld) (i die src : Nat) : (s.ceEvent cnt sat i die src).ring = s.ring := by
  simp only [State.ceEvent]
  repeat' split
  all_goals simp
@[simp] theorem State.ceEvent_grg (s : State) (cnt sat : Fld) (i die src : Nat) : (s.ceEvent cnt sat i die src).grg = s.grg := by
  simp only [State.ceEvent]
  repeat' split
  all_goals simp
@[simp] theorem State.ceEvent_pwr (s : State) (cnt sat : Fld) (i die src : Nat) : (s.ceEvent cnt sat i die src).pwr = s.pwr := by
  simp only [State.ceEvent]
  repeat' split
  all_goals simp
@[simp] theorem State.ceEvent_health (s : State) (cnt sat : Fld) (i die src : Nat) : (s.ceEvent cnt sat i die src).health = s.health := by
  simp only [State.ceEvent]
  repeat' split
  all_goals simp
@[simp] theorem State.ceEvent_duty (s : State) (cnt sat : Fld) (i die src : Nat) : (s.ceEvent cnt sat i die src).duty = s.duty := by
  simp only [State.ceEvent]
  repeat' split
  all_goals simp
@[simp] theorem State.ceEvent_jtag (s : State) (cnt sat : Fld) (i die src : Nat) : (s.ceEvent cnt sat i die src).jtag = s.jtag := by
  simp only [State.ceEvent]
  repeat' split
  all_goals simp
@[simp] theorem State.ceEvent_halts (s : State) (cnt sat : Fld) (i die src : Nat) : (s.ceEvent cnt sat i die src).halts = s.halts := by
  simp only [State.ceEvent]
  repeat' split
  all_goals simp
@[simp] theorem State.ceEvent_cmp (s : State) (cnt sat : Fld) (i die src : Nat) : (s.ceEvent cnt sat i die src).cmp = s.cmp := by
  simp only [State.ceEvent]
  repeat' split
  all_goals simp

end Sys2Proof.Machine
end

