-- ==== Sys2Proof/Laws/Memory.lean ====
section
/-! SUPPORT. What the operations on the bytes of memory do, and that each keeps the canonical form. -/

namespace Sys2Proof.Machine

/-- Two states have the same memory: the bytes listed, and what an unlisted byte reads as. -/
def SameMem (s t : State) : Prop := t.cmp.mem = s.cmp.mem ∧ t.cmp.indet = s.cmp.indet

theorem SameMem.refl (s : State) : SameMem s s := ⟨rfl, rfl⟩

theorem SameMem.trans {s t u : State} (h : SameMem s t) (k : SameMem t u) : SameMem s u :=
  ⟨k.1.trans h.1, k.2.trans h.2⟩

theorem SameMem.memDefault {s t : State} (h : SameMem s t) (a : Nat) : t.memDefault a = s.memDefault a := by
  unfold State.memDefault
  rw [h.2]

/-- The same memory reads the same. -/
theorem SameMem.memByte {s t : State} (h : SameMem s t) (a : Nat) : t.memByte a = s.memByte a := by
  simp only [State.memByte, h.1, h.memDefault]

/-- The same memory is as canonical. -/
theorem SameMem.memWf {s t : State} (h : SameMem s t) : t.memWf = s.memWf := by
  simp only [State.memWf, h.1, h.memDefault]

theorem State.memDefault_setMemByte (s : State) (a b : Nat) (v : Byte) : (s.setMemByte a v).memDefault b = s.memDefault b := rfl

/-- A write changes the byte written and no other. -/
theorem State.memByte_setMemByte (s : State) (a b : Nat) (v : Byte) :
    (s.setMemByte a v).memByte b = if b = a then v else s.memByte b := by
  simp only [State.memByte, State.memDefault_setMemByte]
  split
  · rename_i h; subst h; exact SMap.get_set_self _ _ _ _
  · rename_i h; exact SMap.get_set_ne _ _ _ _ h

/-- A write keeps the canonical form. -/
theorem State.memWf_setMemByte (s : State) (a : Nat) (v : Byte) (h : s.memWf = true) : (s.setMemByte a v).memWf = true := by
  simp only [State.memWf, Bool.and_eq_true, List.all_eq_true, State.memDefault_setMemByte] at h ⊢
  simp only [State.setMemByte, SMap.set]
  split
  · exact ⟨SMap.sorted_filter _ _ h.1, fun e he => h.2 e (List.mem_filter.mp he).1⟩
  · rename_i hv
    refine ⟨SMap.sorted_put _ _ _ h.1, fun e he => ?_⟩
    rcases SMap.mem_put _ _ _ he with rfl | he
    · simpa using hv
    · exact h.2 e he

/-- A property that every step of a fold keeps holds at its end. -/
theorem fold_holds {α β : Type} (P : β → Prop) (f : β → α → β) (l : List α) (b : β) (hb : P b)
    (h : ∀ x y, P x → P (f x y)) : P (l.foldl f b) := by
  induction l generalizing b with
  | nil => exact hb
  | cons y r ih => exact ih (f b y) (h b y hb)

theorem State.memDefault_setMemBytes (s : State) (line mask : Nat) (d : Line) (a : Nat) :
    (s.setMemBytes line mask d).memDefault a = s.memDefault a := by
  unfold State.setMemBytes
  refine fold_holds (fun (t : State) => t.memDefault a = s.memDefault a) _ _ _ rfl (fun t i ht => ?_)
  split
  · rw [State.memDefault_setMemByte]; exact ht
  · exact ht

/-- A write of a part of a line keeps the canonical form. -/
theorem State.memWf_setMemBytes (s : State) (line mask : Nat) (d : Line) (h : s.memWf = true) :
    (s.setMemBytes line mask d).memWf = true := by
  unfold State.setMemBytes
  refine fold_holds (fun (t : State) => t.memWf = true) _ _ _ h (fun t i ht => ?_)
  split
  · exact State.memWf_setMemByte _ _ _ ht
  · exact ht

/-- The first `n` bytes of a write of a part of a line. -/
theorem State.memByte_setMemBytes_range (s : State) (line mask : Nat) (d : Line) (n a : Nat) :
    ((List.range n).foldl (fun (s : State) i => if bit mask i then s.setMemByte (line * 128 + i) (lineByte d i) else s) s).memByte a =
      if line * 128 ≤ a ∧ a < line * 128 + n ∧ bit mask (a - line * 128) = true then lineByte d (a - line * 128)
      else s.memByte a := by
  induction n with
  | zero => rw [if_neg (by omega)]; rfl
  | succ n ih =>
    rw [List.range_succ, List.foldl_append]
    simp only [List.foldl_cons, List.foldl_nil]
    by_cases hb : bit mask n = true
    · rw [if_pos hb, State.memByte_setMemByte, ih]
      by_cases ha : a = line * 128 + n
      · subst ha
        rw [if_pos rfl, if_pos ⟨by omega, by omega, by rw [show line * 128 + n - line * 128 = n by omega]; exact hb⟩]
        rw [show line * 128 + n - line * 128 = n by omega]
      · rw [if_neg ha]
        have : (line * 128 ≤ a ∧ a < line * 128 + n ∧ bit mask (a - line * 128) = true) ↔
            (line * 128 ≤ a ∧ a < line * 128 + (n + 1) ∧ bit mask (a - line * 128) = true) := by
          constructor
          · rintro ⟨h1, h2, h3⟩; exact ⟨h1, by omega, h3⟩
          · rintro ⟨h1, h2, h3⟩; exact ⟨h1, by omega, h3⟩
        simp only [this]
    · rw [if_neg hb, ih]
      have : (line * 128 ≤ a ∧ a < line * 128 + n ∧ bit mask (a - line * 128) = true) ↔
          (line * 128 ≤ a ∧ a < line * 128 + (n + 1) ∧ bit mask (a - line * 128) = true) := by
        constructor
        · rintro ⟨h1, h2, h3⟩; exact ⟨h1, by omega, h3⟩
        · rintro ⟨h1, h2, h3⟩
          refine ⟨h1, ?_, h3⟩
          refine Nat.lt_of_le_of_ne (by omega) (fun hc => hb ?_)
          rw [show n = a - line * 128 by omega]; exact h3
      simp only [this]

/-- A write of a part of a line changes the bytes of its mask and no other. -/
theorem State.memByte_setMemBytes (s : State) (line mask : Nat) (d : Line) (a : Nat) :
    (s.setMemBytes line mask d).memByte a =
      if line * 128 ≤ a ∧ a < line * 128 + 128 ∧ bit mask (a - line * 128) = true then lineByte d (a - line * 128)
      else s.memByte a :=
  s.memByte_setMemBytes_range line mask d 128 a

theorem SameMem.setPoison (s : State) (line : Nat) (b : Bool) : SameMem s (s.setPoison line b) := ⟨rfl, rfl⟩

/-! ### The errors that a write of a line finds leave its bytes alone -/

/-- What leaves the computing part alone leaves memory alone. -/
theorem SameMem.of_cmp {s t : State} (h : t.cmp = s.cmp) : SameMem s t := ⟨by rw [h], by rw [h]⟩

@[simp] theorem State.setChan_cmp (s : State) (c : Chan) (v : Nat) : (s.setChan c v).cmp = s.cmp := by
  cases c <;> simp [State.setChan, State.setPcState]

@[simp] theorem State.failing_cmp (s : State) (c : Chan) : (s.failing c).cmp = s.cmp := by
  unfold State.failing
  split <;> simp

@[simp] theorem State.memErrLog_cmp (s : State) (line src : Nat) : (s.memErrLog line src).cmp = s.cmp := by
  unfold State.memErrLog
  dsimp only
  split <;> simp

@[simp] theorem State.watchUe_cmp (s : State) (line : Nat) : (s.watchUe line).cmp = s.cmp := by
  unfold State.watchUe
  dsimp only
  split <;> simp

/-- The parity errors of a write leave the bytes of memory alone. -/
theorem State.writeFind_same (s : State) (line : Nat) : SameMem s (s.writeFind line) := by
  unfold State.writeFind
  dsimp only
  split
  · exact (SameMem.trans (t := s.foundUpset .memWrite (fun l => l == line)) ⟨rfl, rfl⟩ (SameMem.setPoison _ line true)).trans
      (SameMem.of_cmp (by simp))
  · exact ⟨rfl, rfl⟩
/-- What the home's write of a line does to memory. -/
theorem State.homeWrite_same (s : State) (line mask : Nat) (d : Line) (p : Bool) :
    SameMem (s.setMemBytes line mask d) (s.homeWrite line mask d p) := by
  unfold State.homeWrite
  dsimp only
  have h : SameMem (s.setMemBytes line mask d) (if p then (s.setMemBytes line mask d).setPoison line true
      else if mask = fullMask then (s.setMemBytes line mask d).setPoison line false else s.setMemBytes line mask d) := by
    repeat' split
    · exact SameMem.setPoison _ _ _
    · exact SameMem.setPoison _ _ _
    · exact SameMem.refl _
  split
  · exact h.trans (State.writeFind_same _ _)
  · exact h

/-- The home's write of a line keeps the canonical form. -/
theorem State.memWf_homeWrite (s : State) (line mask : Nat) (d : Line) (p : Bool) (h : s.memWf = true) :
    (s.homeWrite line mask d p).memWf = true := by
  rw [(s.homeWrite_same line mask d p).memWf]
  exact s.memWf_setMemBytes line mask d h

/-- The home's write of a line changes the bytes of its mask and no other. -/
theorem State.memByte_homeWrite (s : State) (line mask : Nat) (d : Line) (p : Bool) (a : Nat) :
    (s.homeWrite line mask d p).memByte a =
      if line * 128 ≤ a ∧ a < line * 128 + 128 ∧ bit mask (a - line * 128) = true then lineByte d (a - line * 128)
      else s.memByte a := by
  rw [(s.homeWrite_same line mask d p).memByte]
  exact s.memByte_setMemBytes line mask d a

/-- Memory without a byte listed is canonical, as right after reset and after a cold reset. -/
theorem State.memWf_nil (s : State) (h : s.cmp.mem = []) : s.memWf = true := by
  simp [State.memWf, h, SMap.sorted]

theorem State.memWf_reset : State.reset.memWf = true := State.memWf_nil _ rfl

theorem State.memWf_memLost (s : State) : s.memLost.memWf = true := State.memWf_nil _ rfl

/-- Marking groups leaves what the other groups hold. -/
theorem SMap.find_marks (l : List Nat) (v : Nat) (m : SMap Nat) (k : Nat) (h : k ∉ l) :
    SMap.find (l.foldl (fun (m : SMap Nat) n => SMap.put m n v) m) k = SMap.find m k := by
  induction l generalizing m with
  | nil => rfl
  | cons n r ih =>
    simp only [List.mem_cons, not_or] at h
    rw [List.foldl_cons, ih _ h.2, SMap.find_put_ne _ _ h.1]

/-- A change of the interleave mode drops the bytes of the groups changed and keeps the canonical form of the rest. -/
theorem State.memWf_homMap (old s : State) (i : Nat) (h : s.memWf = true) : (old.setApplied s .homMap i).memWf = true := by
  simp only [State.memWf, Bool.and_eq_true, List.all_eq_true] at h ⊢
  refine ⟨SMap.sorted_filter _ _ h.1, fun e he => ?_⟩
  obtain ⟨hm, hp⟩ := List.mem_filter.mp he
  have := h.2 e hm
  simp only [State.setApplied, State.memDefault] at this ⊢
  rw [SMap.find_marks _ _ _ _ (by simpa using hp)]
  exact this

end Sys2Proof.Machine
end

