-- ==== Sys2Proof/Laws/Canon.lean ====
section
/-! SUPPORT. What it says of an answer that the states in it have a canonical memory, shape by shape. -/

namespace Sys2Proof.Machine

/-- The canonical form of the bytes `m` where the groups `i` have indeterminate contents. -/
def memOk (m : List Host.Cell) (i : SMap Nat) : Bool := ({ cmp := { mem := m, indet := i } } : State).memWf

/-- The canonical form of what a package computes with. -/
def Compute.memWf (c : Compute) : Bool := memOk c.mem c.indet

theorem memWf_mk (a0 : List Instr) (a1 : Nat) (a2 : Nat) (a3 : List Out) (a4 : SMap W64) (a5 : SMap W64) (a6 : SMap (List (Nat × W64))) (a7 : Ring) (a8 : Evc) (a9 : HostIf) (a10 : Griga) (a11 : Power) (a12 : Taproot) (a13 : Health) (a14 : Duty) (a15 : Jtag) (a16 : List Halt) (c : Compute) : (State.mk a0 a1 a2 a3 a4 a5 a6 a7 a8 a9 a10 a11 a12 a13 a14 a15 a16 c).memWf = c.memWf := by exact Eq.trans rfl rfl

theorem cmpWf_mk (b0 : SMap CoreSt) (b1 : SMap Grp) (b2 : SMap W64) (b3 : SMap W32) (b4 : SMap W32) (b5 : SMap Blk) (b6 : SMap BClus) (b7 : SMap Byte) (b8 : SMap Nat) (b9 : List Nat) (b10 : Near) (b11 : List Upset) (b12 : Nat) (b13 : List Access) (b14 : Nat) (b15 : List Msg) (b16 : SMap QLine) (b17 : List Nat) (b18 : SMap DirEntry) (b19 : SMap Txn) (b20 : List Msg) (b21 : List Nat) (b22 : List Rsv) (b23 : List Nat) (b24 : SMap (List (Nat × Nat))) (b25 : SMap Nat) (i : SMap Nat) (m : List Host.Cell) (b28 : List Nat) (b29 : List Tlb) (b30 : List WalkEnt) (b31 : List Walk) (b32 : List HostXlt) (b33 : List Nat) (b34 : List Inv) (b35 : Nat) (b36 : List (Requester × W32)) (b37 : SMap Eng) (b38 : SMap SteQ) (b39 : SMap Chunk) (b40 : SMap Nat) (b41 : SMap Nat) (b42 : SMap Ctx) (b43 : SMap Clus) (b44 : Nat) (b45 : List Flush) (b46 : Bool) (b47 : Nat) (b48 : SMap Nat) : (Compute.mk b0 b1 b2 b3 b4 b5 b6 b7 b8 b9 b10 b11 b12 b13 b14 b15 b16 b17 b18 b19 b20 b21 b22 b23 b24 b25 i m b28 b29 b30 b31 b32 b33 b34 b35 b36 b37 b38 b39 b40 b41 b42 b43 b44 b45 b46 b47 b48).memWf = memOk m i := by exact Eq.trans rfl rfl

theorem memOk_cmp (c : Compute) : memOk c.mem c.indet = c.memWf := by exact Eq.trans rfl rfl

theorem cmpWf (s : State) : s.cmp.memWf = s.memWf := by exact Eq.trans rfl rfl

/-- What each shape of answer says of the states in it. -/
structure OCanon {α : Type} (p : α → State) (o : Option α) : Prop where
  keep : ∀ x, o = some x → (p x).memWf = true

structure XCanon {ε α : Type} (o : Except ε (State × α)) : Prop where
  keep : ∀ x, o = .ok x → x.1.memWf = true

structure RCanon (r : Res) : Prop where
  keep : ∀ t, r = .next t → t.memWf = true

structure CCanon (c : Checked) : Prop where
  keep : ∀ s, c = .wait s → s.memWf = true

structure ECanon (e : Eff) : Prop where
  done_keep : ∀ s, e = .done s → s.memWf = true
  jump_keep : ∀ s, e = .jump s → s.memWf = true
  wait_keep : ∀ s, e = .wait s → s.memWf = true
  busy_keep : ∀ s, e = .busy s → s.memWf = true
  raise_keep : ∀ s a b c d, e = .raise s a b c d → s.memWf = true

structure FCanon (f : Fetch) : Prop where
  ok_keep : ∀ s, f = .ok s → s.memWf = true
  wait_keep : ∀ s, f = .wait s → s.memWf = true

theorem FCanon.ok {s : State} (h : s.memWf = true) : FCanon (.ok s) := by constructor <;> intros <;> rename_i e <;> cases e <;> exact h
theorem FCanon.wait {s : State} (h : s.memWf = true) : FCanon (.wait s) := by constructor <;> intros <;> rename_i e <;> cases e <;> exact h
theorem FCanon.fault {c : Nat} : FCanon (.fault c) := by constructor <;> intros <;> rename_i e <;> cases e
theorem FCanon.ok_elim {f : Fetch} {s : State} (h : f = .ok s) (k : FCanon f) : s.memWf = true := k.ok_keep s h
theorem FCanon.wait_elim {f : Fetch} {s : State} (h : f = .wait s) (k : FCanon f) : s.memWf = true := k.wait_keep s h
theorem OCanon.none {α : Type} {p : α → State} : OCanon p none := ⟨fun _ h => nomatch h⟩
theorem OCanon.some {α : Type} {p : α → State} {x : α} (h : (p x).memWf = true) : OCanon p (some x) := ⟨fun _ e => by cases e; exact h⟩
theorem OCanon.someId {s : State} (h : s.memWf = true) : OCanon id (.some s) := ⟨fun _ e => by cases e; exact h⟩
theorem OCanon.map {α β : Type} {p : β → State} {f : α → β} {o : Option α} (h : ∀ x, (p (f x)).memWf = true) : OCanon p (o.map f) := by
  refine ⟨fun y e => ?_⟩
  cases o with
  | none => cases e
  | some x => cases e; exact h x
theorem OCanon.mapId {β : Type} {p : β → State} {f : State → β} {o : Option State} (h : OCanon id o)
    (k : ∀ x, x.memWf = true → (p (f x)).memWf = true) : OCanon p (o.map f) := by
  refine ⟨fun y e => ?_⟩
  cases o with
  | none => cases e
  | some x => cases e; exact k x (h.keep x rfl)
theorem OCanon.mapFst {α β : Type} {p : β → State} {f : State × α → β} {o : Option (State × α)} (h : OCanon Prod.fst o)
    (k : ∀ x, x.1.memWf = true → (p (f x)).memWf = true) : OCanon p (o.map f) := by
  refine ⟨fun y e => ?_⟩
  cases o with
  | none => cases e
  | some x => cases e; exact k x (h.keep x rfl)
theorem OCanon.findSome {α β : Type} {p : β → State} {f : α → Option β} {l : List α} (h : ∀ x, OCanon p (f x)) :
    OCanon p (l.findSome? f) := by
  refine ⟨fun y e => ?_⟩
  obtain ⟨x, _, hx⟩ := List.exists_of_findSome?_eq_some e
  exact (h x).keep y hx
theorem XCanon.map {ε α β : Type} {f : State × α → State × β} {o : Except ε (State × α)} (h : XCanon o)
    (k : ∀ x, x.1.memWf = true → (f x).1.memWf = true) : XCanon (o.map f) := by
  refine ⟨fun y e => ?_⟩
  cases o with
  | error => cases e
  | ok x => cases e; exact k x (h.keep x rfl)
theorem OCanon.mapSnd {α β : Type} {p : β → State} {f : α × State → β} {o : Option (α × State)} (h : OCanon Prod.snd o)
    (k : ∀ x, x.2.memWf = true → (p (f x)).memWf = true) : OCanon p (o.map f) := by
  refine ⟨fun y e => ?_⟩
  cases o with
  | none => cases e
  | some x => cases e; exact k x (h.keep x rfl)
theorem OCanon.id_ {o : Option State} {t : State} (e : o = .some t) (h : OCanon id o) : t.memWf = true := h.keep t e
theorem OCanon.fst {α : Type} {o : Option (State × α)} {t : State} {x : α} (e : o = .some (t, x)) (h : OCanon Prod.fst o) : t.memWf = true := h.keep (t, x) e
theorem OCanon.snd {α : Type} {o : Option (α × State)} {t : State} {x : α} (e : o = .some (x, t)) (h : OCanon Prod.snd o) : t.memWf = true := h.keep (x, t) e
theorem Canon.fst {α : Type} {p : State × α} {t : State} {x : α} (e : p = (t, x)) (h : p.1.memWf = true) : t.memWf = true := by cases e; exact h
theorem Canon.snd {α : Type} {p : α × State} {t : State} {x : α} (e : p = (x, t)) (h : p.2.memWf = true) : t.memWf = true := by cases e; exact h
theorem XCanon.error {ε α : Type} {e : ε} : XCanon (.error e : Except ε (State × α)) := ⟨fun _ h => nomatch h⟩
theorem XCanon.ok {ε α : Type} {x : State × α} (h : x.1.memWf = true) : XCanon (.ok x : Except ε (State × α)) := ⟨fun _ e => by cases e; exact h⟩
theorem XCanon.fst {ε α : Type} {o : Except ε (State × α)} {t : State} {x : α} (e : o = .ok (t, x)) (h : XCanon o) : t.memWf = true := h.keep (t, x) e
theorem RCanon.next {s : State} (h : s.memWf = true) : RCanon (.next s) := ⟨fun _ e => by cases e; exact h⟩
theorem RCanon.refused {r : Refusal} : RCanon (.refused r) := ⟨fun _ h => nomatch h⟩
theorem RCanon.fault {r : Fault} : RCanon (.fault r) := ⟨fun _ h => nomatch h⟩
theorem RCanon.elim {r : Res} {t : State} (e : r = .next t) (h : RCanon r) : t.memWf = true := h.keep t e
theorem ECanon.done {s : State} (h : s.memWf = true) : ECanon (.done s) := by constructor <;> intros <;> rename_i e <;> cases e <;> exact h
theorem ECanon.jump {s : State} (h : s.memWf = true) : ECanon (.jump s) := by constructor <;> intros <;> rename_i e <;> cases e <;> exact h
theorem ECanon.wait {s : State} (h : s.memWf = true) : ECanon (.wait s) := by constructor <;> intros <;> rename_i e <;> cases e <;> exact h
theorem ECanon.busy {s : State} (h : s.memWf = true) : ECanon (.busy s) := by constructor <;> intros <;> rename_i e <;> cases e <;> exact h
theorem ECanon.raise {s : State} {a b c d : Nat} (h : s.memWf = true) : ECanon (.raise s a b c d) := by
  constructor <;> intros <;> rename_i e <;> cases e <;> exact h
theorem ECanon.stop : ECanon .stop := by constructor <;> intros <;> rename_i e <;> cases e
theorem ECanon.done_elim {e : Eff} {s : State} (h : e = .done s) (k : ECanon e) : s.memWf = true := k.done_keep s h
theorem ECanon.jump_elim {e : Eff} {s : State} (h : e = .jump s) (k : ECanon e) : s.memWf = true := k.jump_keep s h
theorem ECanon.wait_elim {e : Eff} {s : State} (h : e = .wait s) (k : ECanon e) : s.memWf = true := k.wait_keep s h
theorem ECanon.busy_elim {e : Eff} {s : State} (h : e = .busy s) (k : ECanon e) : s.memWf = true := k.busy_keep s h
theorem ECanon.raise_elim {e : Eff} {s : State} {a b c d : Nat} (h : e = .raise s a b c d) (k : ECanon e) : s.memWf = true :=
  k.raise_keep s a b c d h
theorem ECanon.pair {α : Type} {p : Eff × α} {e : Eff} {x : α} (h : p = (e, x)) (k : ECanon p.1) : ECanon e := by cases h; exact k
theorem ECanon.pairDone {α : Type} {p : Eff × α} {s : State} {x : α} (h : p = (.done s, x)) (k : ECanon p.1) : s.memWf = true :=
  k.done_keep s (by cases h; rfl)
theorem OCanon.or {α : Type} {p : α → State} {o r : Option α} (h : OCanon p o) (k : OCanon p r) : OCanon p (o.or r) := by
  cases o with
  | none => exact k
  | some x => exact h
theorem CCanon.ok {l : List (Nat × Nat × Dst)} : CCanon (.ok l) := ⟨fun _ h => nomatch h⟩
theorem CCanon.fault {a b c : Nat} : CCanon (.fault a b c) := ⟨fun _ h => nomatch h⟩
theorem CCanon.wait {s : State} (h : s.memWf = true) : CCanon (.wait s) := ⟨fun _ e => by cases e; exact h⟩
theorem CCanon.elim {c : Checked} {s : State} (e : c = .wait s) (h : CCanon c) : s.memWf = true := h.keep s e

/-- A fold keeps the canonical form where its step does. -/
theorem fold_wf {α : Type} {f : State → α → State} {l : List α} {b : State} (hb : b.memWf = true)
    (h : ∀ x y, x.memWf = true → (f x y).memWf = true) : (l.foldl f b).memWf = true :=
  fold_holds (fun (s : State) => s.memWf = true) f l b hb h
theorem fold_wf1 {α β : Type} {f : State × β → α → State × β} {l : List α} {b : State × β} (hb : b.1.memWf = true)
    (h : ∀ x y, x.1.memWf = true → (f x y).1.memWf = true) : (l.foldl f b).1.memWf = true :=
  fold_holds (fun (s : State × β) => s.1.memWf = true) f l b hb h
theorem fold_wf2 {α β : Type} {f : β × State → α → β × State} {l : List α} {b : β × State} (hb : b.2.memWf = true)
    (h : ∀ x y, x.2.memWf = true → (f x y).2.memWf = true) : (l.foldl f b).2.memWf = true :=
  fold_holds (fun (s : β × State) => s.2.memWf = true) f l b hb h

end Sys2Proof.Machine
end

