-- ==== Sys2Proof/Laws/CanonOps.lean ====
section
/-! SUPPORT. Memory stays canonical under the shared operations: registers, events, fields, coherent accesses, contexts and groups, translation and issue. -/

set_option linter.unusedSimpArgs false
set_option linter.unusedVariables false

namespace Sys2Proof.Machine

/-! ### State -/

theorem State.reset_wf :
    State.reset.memWf = true := by
  exact State.memWf_reset

/-! ### Ops -/

theorem State.setReg_wf (s : State) (r : Reg) (i : Nat) (v : W64) (hs : s.memWf = true) :
    (State.setReg s r i v).memWf = true := by
  unfold State.setReg
  with_reducible repeat' (first
    | assumption | split | simp only | dsimp only | simp only [memWf_mk, cmpWf_mk, memOk_cmp, cmpWf])

theorem State.fset_wf (s : State) (f : Fld) (n i : Nat) (hs : s.memWf = true) :
    (State.fset s f n i).memWf = true := by
  unfold State.fset
  with_reducible repeat' (first
    | assumption | apply State.setReg_wf | split | simp only | dsimp only)

theorem State.fadd_wf (s : State) (f : Fld) (n i : Nat) (hs : s.memWf = true) :
    (State.fadd s f n i).memWf = true := by
  unfold State.fadd
  with_reducible repeat' (first
    | assumption | apply State.fset_wf | split | simp only | dsimp only)

theorem State.evcCount_wf (s : State) (die src : Nat) (async : Bool) (hs : s.memWf = true) :
    (State.evcCount s die src async).memWf = true := by
  unfold State.evcCount
  with_reducible repeat' (first
    | assumption | apply State.fadd_wf | apply State.fset_wf | split | simp only | dsimp only)

theorem State.emit_wf (o : Out) (s : State) (hs : s.memWf = true) :
    (State.emit o s).memWf = true := by
  unfold State.emit
  with_reducible repeat' (first
    | assumption | split | simp only | dsimp only | simp only [memWf_mk, cmpWf_mk, memOk_cmp, cmpWf])

theorem State.setMsixVec_wf (s : State) (f v : Nat) (e : MsixVec) (hs : s.memWf = true) :
    (State.setMsixVec s f v e).memWf = true := by
  unfold State.setMsixVec
  with_reducible repeat' (first
    | assumption | split | simp only | dsimp only | simp only [memWf_mk, cmpWf_mk, memOk_cmp, cmpWf])

theorem State.msixSend_wf (s : State) (f v : Nat) (hs : s.memWf = true) :
    (State.msixSend s f v).memWf = true := by
  unfold State.msixSend
  with_reducible repeat' (first
    | assumption | apply State.setMsixVec_wf | apply State.emit_wf | split | simp only | dsimp only)

theorem State.setPend_wf (s : State) (die src : Nat) (b : Bool) (hs : s.memWf = true) :
    (State.setPend s die src b).memWf = true := by
  unfold State.setPend
  with_reducible repeat' (first
    | assumption | apply State.fset_wf | split | simp only | dsimp only)

theorem State.evcDeliver_wf (s : State) (die src : Nat) (hs : s.memWf = true) :
    (State.evcDeliver s die src).memWf = true := by
  unfold State.evcDeliver
  with_reducible repeat' (first
    | assumption | apply State.setPend_wf | apply State.msixSend_wf | apply State.fset_wf | split | simp only | dsimp only)

theorem State.catchUp_wf (die : Nat) (s : State) (k : Nat) (hs : s.memWf = true) :
    (State.catchUp die s k).memWf = true := by
  unfold State.catchUp
  with_reducible repeat' (first
    | assumption | apply State.evcDeliver_wf | apply State.setPend_wf | apply State.evcCount_wf | split | simp only
    | dsimp only)

theorem State.ceCount_wf (s : State) (cnt sat : Fld) (i : Nat) (hs : s.memWf = true) :
    (State.ceCount s cnt sat i).memWf = true := by
  unfold State.ceCount
  with_reducible repeat' (first
    | assumption | apply State.fset_wf | split | simp only | dsimp only)

theorem State.event_wf (s : State) (die src : Nat) (hs : s.memWf = true) :
    (State.event s die src).memWf = true := by
  unfold State.event
  with_reducible repeat' (first
    | assumption | apply State.evcDeliver_wf | apply State.setPend_wf | apply State.evcCount_wf | split | simp only
    | dsimp only | simp only [memWf_mk, cmpWf_mk, memOk_cmp, cmpWf])

theorem State.ceEvent_wf (s : State) (cnt sat : Fld) (i die src : Nat) (hs : s.memWf = true) :
    (State.ceEvent s cnt sat i die src).memWf = true := by
  unfold State.ceEvent
  with_reducible repeat' (first
    | assumption | apply State.ceCount_wf | apply State.event_wf | split | simp only | dsimp only)

theorem State.fsat_wf (s : State) (f : Fld) (n i : Nat) (hs : s.memWf = true) :
    (State.fsat s f n i).memWf = true := by
  unfold State.fsat
  with_reducible repeat' (first
    | assumption | apply State.fset_wf | split | simp only | dsimp only)

theorem State.levelSource_wf (s : State) (die : Nat) (hs : s.memWf = true) :
    (State.levelSource s die).memWf = true := by
  unfold State.levelSource
  with_reducible repeat' (first
    | assumption | apply State.fset_wf | apply State.evcCount_wf | apply State.evcDeliver_wf | apply State.setPend_wf | split
    | simp only | dsimp only)

theorem State.flashRecord_wf (s : State) (r : LogRec) (hs : s.memWf = true) :
    (State.flashRecord s r).memWf = true := by
  unfold State.flashRecord
  with_reducible repeat' (first
    | assumption | exact OCanon.none | apply OCanon.someId | apply OCanon.some | apply OCanon.mapId | apply OCanon.mapFst
    | apply OCanon.map | split | intro _ _ _ | intro _ _ | intro _ | simp only | dsimp only | dsimp only [id]
    | simp only [memWf_mk, cmpWf_mk, memOk_cmp, cmpWf] | refine OCanon.snd (by assumption) ?_)

theorem State.journal_wf (s : State) (hs : s.memWf = true) :
    (State.journal s).memWf = true := by
  unfold State.journal
  with_reducible repeat' (first
    | assumption | split | simp only | dsimp only | simp only [memWf_mk, cmpWf_mk, memOk_cmp, cmpWf])

theorem State.logRecord_wf (s : State) (severity die kind : Nat) (fault : Option FaultRec) (hs : s.memWf = true) :
    (State.logRecord s severity die kind fault).memWf = true := by
  unfold State.logRecord
  with_reducible repeat' (first
    | assumption | apply State.journal_wf | apply State.event_wf | apply State.flashRecord_wf | split | simp only | dsimp only
    | simp only [memWf_mk, cmpWf_mk, memOk_cmp, cmpWf])

theorem State.dfqTake_wf (s : State) (die : Nat) (r : FaultRec) (hs : s.memWf = true) :
    (State.dfqTake s die r).memWf = true := by
  unfold State.dfqTake
  with_reducible repeat' (first
    | assumption | apply State.fset_wf | apply State.fsat_wf | apply State.levelSource_wf | apply State.logRecord_wf
    | apply State.event_wf | split | simp only | dsimp only | simp only [memWf_mk, cmpWf_mk, memOk_cmp, cmpWf])

theorem State.restartClock_wf (s : State) (die : Nat) (hs : s.memWf = true) :
    (State.restartClock s die).memWf = true := by
  unfold State.restartClock
  with_reducible repeat' (first
    | assumption | apply State.catchUp_wf | apply fold_wf1 | apply fold_wf2 | apply fold_wf | split | intro _ _ _ | intro _ _
    | intro _ | simp only | dsimp only | simp only [memWf_mk, cmpWf_mk, memOk_cmp, cmpWf]
    | refine Canon.fst (by assumption) ?_)

theorem State.dfqWrite_wf (s : State) (die : Nat) (r : FaultRec) (hs : s.memWf = true) :
    (State.dfqWrite s die r).memWf = true := by
  unfold State.dfqWrite
  with_reducible repeat' (first
    | assumption | apply State.dfqTake_wf | apply State.restartClock_wf | split | simp only | dsimp only)

theorem State.foundUpset_wf (s : State) (a : Arr) (p : Nat → Bool) (hs : s.memWf = true) :
    (State.foundUpset s a p).memWf = true := by
  unfold State.foundUpset
  with_reducible repeat' (first
    | assumption | split | simp only | dsimp only | simp only [memWf_mk, cmpWf_mk, memOk_cmp, cmpWf])

theorem State.logEvent_wf (s : State) (e : LogEvent) (die : Nat) (severity : Option Nat) (hs : s.memWf = true) :
    (State.logEvent s e die severity).memWf = true := by
  unfold State.logEvent
  with_reducible repeat' (first
    | assumption | apply State.logRecord_wf | split | simp only | dsimp only)

theorem State.msixRelease_wf (s : State) (f v : Nat) (hs : s.memWf = true) :
    (State.msixRelease s f v).memWf = true := by
  unfold State.msixRelease
  with_reducible repeat' (first
    | assumption | apply State.emit_wf | apply State.setMsixVec_wf | split | simp only | dsimp only)

theorem State.pick_wf (n : Nat) (s : State) (hs : s.memWf = true) :
    (State.pick n s).2.memWf = true := by
  unfold State.pick
  with_reducible repeat' (first
    | assumption | split | simp only | dsimp only | simp only [memWf_mk, cmpWf_mk, memOk_cmp, cmpWf]
    | refine Canon.snd (by assumption) ?_)

theorem State.reachRecord_wf (s : State) (die : Nat) (who : Requester) (addr : Nat) (write : Bool) (hs : s.memWf = true) :
    (State.reachRecord s die who addr write).memWf = true := by
  unfold State.reachRecord
  with_reducible repeat' (first
    | assumption | apply State.dfqWrite_wf | split | simp only | dsimp only)

theorem State.resetRegs_wf (s : State) (p : Reg → Nat → Bool) (hs : s.memWf = true) :
    (State.resetRegs s p).memWf = true := by
  unfold State.resetRegs
  with_reducible repeat' (first
    | assumption | split | simp only | dsimp only | simp only [memWf_mk, cmpWf_mk, memOk_cmp, cmpWf])

theorem State.setFunc_wf (s : State) (f : Nat) (v : Func) (hs : s.memWf = true) :
    (State.setFunc s f v).memWf = true := by
  unfold State.setFunc
  with_reducible repeat' (first
    | assumption | split | simp only | dsimp only | simp only [memWf_mk, cmpWf_mk, memOk_cmp, cmpWf])

theorem State.strike_wf (s : State) (hs : s.memWf = true) :
    (State.strike s).memWf = true := by
  unfold State.strike
  with_reducible repeat' (first
    | assumption | exact OCanon.none | apply OCanon.someId | apply OCanon.some | apply OCanon.mapId | apply OCanon.mapFst
    | apply OCanon.map | split | intro _ _ _ | intro _ _ | intro _ | simp only | dsimp only | dsimp only [id]
    | simp only [memWf_mk, cmpWf_mk, memOk_cmp, cmpWf] | refine OCanon.snd (by assumption) ?_)

theorem State.take_wf (w : Nat) (s : State) (hs : s.memWf = true) :
    (State.take w s).2.memWf = true := by
  unfold State.take
  with_reducible repeat' (first
    | assumption | split | simp only | dsimp only | simp only [memWf_mk, cmpWf_mk, memOk_cmp, cmpWf]
    | refine Canon.snd (by assumption) ?_)

theorem stop_wf :
    RCanon (stop) := by
  unfold stop
  with_reducible repeat' (first
    | assumption | apply RCanon.next | apply RCanon.refused | apply RCanon.fault | split | simp only | dsimp only)

theorem need_wf (c : Bool) (r : Res) (hr : RCanon r) :
    RCanon (need c r) := by
  unfold need
  with_reducible repeat' (first
    | assumption | apply stop_wf | apply RCanon.next | apply RCanon.refused | apply RCanon.fault | split | simp only
    | dsimp only)

/-! ### BoundaryScan -/

theorem State.jtagLoad_wf (s : State) (i : JtagInstr) (captured : List Bool) (hs : s.memWf = true) :
    (State.jtagLoad s i captured).memWf = true := by
  unfold State.jtagLoad
  with_reducible repeat' (first
    | assumption | apply State.emit_wf | split | simp only | dsimp only | simp only [memWf_mk, cmpWf_mk, memOk_cmp, cmpWf])

theorem State.jtagBypassLoad_wf (s : State) (hs : s.memWf = true) :
    (State.jtagBypassLoad s).memWf = true := by
  unfold State.jtagBypassLoad
  with_reducible repeat' (first
    | assumption | apply State.jtagLoad_wf | split | simp only | dsimp only)

theorem State.jtagTest_wf (s : State) (i : JtagInstr) (captured : List Bool) (hs : s.memWf = true) :
    (State.jtagTest s i captured).memWf = true := by
  unfold State.jtagTest
  with_reducible repeat' (first
    | assumption | apply State.jtagLoad_wf | apply State.jtagBypassLoad_wf | split | simp only | dsimp only)

theorem execJtagBypass_wf (s : State) (hs : s.memWf = true) :
    RCanon (execJtagBypass s) := by
  unfold execJtagBypass
  with_reducible repeat' (first
    | assumption | apply State.jtagBypassLoad_wf | apply RCanon.next | apply RCanon.refused | apply RCanon.fault | split
    | simp only | dsimp only)

theorem execJtagClamp_wf (s : State) (hs : s.memWf = true) :
    RCanon (execJtagClamp s) := by
  unfold execJtagClamp
  with_reducible repeat' (first
    | assumption | apply State.jtagTest_wf | apply RCanon.next | apply RCanon.refused | apply RCanon.fault | split | simp only
    | dsimp only)

theorem execJtagExtest_wf (s : State) (hs : s.memWf = true) :
    RCanon (execJtagExtest s) := by
  unfold execJtagExtest
  with_reducible repeat' (first
    | assumption | apply State.jtagTest_wf | apply RCanon.next | apply RCanon.refused | apply RCanon.fault | split | simp only
    | dsimp only)

theorem execJtagExtestPulse_wf (s : State) (hs : s.memWf = true) :
    RCanon (execJtagExtestPulse s) := by
  unfold execJtagExtestPulse
  with_reducible repeat' (first
    | assumption | apply State.jtagTest_wf | apply RCanon.next | apply RCanon.refused | apply RCanon.fault | split | simp only
    | dsimp only)

theorem execJtagExtestTrain_wf (s : State) (hs : s.memWf = true) :
    RCanon (execJtagExtestTrain s) := by
  unfold execJtagExtestTrain
  with_reducible repeat' (first
    | assumption | apply State.jtagTest_wf | apply RCanon.next | apply RCanon.refused | apply RCanon.fault | split | simp only
    | dsimp only)

theorem execJtagHighz_wf (s : State) (hs : s.memWf = true) :
    RCanon (execJtagHighz s) := by
  unfold execJtagHighz
  with_reducible repeat' (first
    | assumption | apply State.jtagTest_wf | apply RCanon.next | apply RCanon.refused | apply RCanon.fault | split | simp only
    | dsimp only)

theorem execJtagIdcode_wf (s : State) (hs : s.memWf = true) :
    RCanon (execJtagIdcode s) := by
  unfold execJtagIdcode
  with_reducible repeat' (first
    | assumption | apply State.jtagLoad_wf | apply RCanon.next | apply RCanon.refused | apply RCanon.fault | split | simp only
    | dsimp only)

theorem execJtagSamplePreload_wf (pins preload : List Bool) (s : State) (hs : s.memWf = true) :
    RCanon (execJtagSamplePreload pins preload s) := by
  unfold execJtagSamplePreload
  with_reducible repeat' (first
    | assumption | apply State.jtagLoad_wf | apply RCanon.next | apply RCanon.refused | apply RCanon.fault | split | simp only
    | dsimp only | simp only [memWf_mk, cmpWf_mk, memOk_cmp, cmpWf])

theorem execTestPortReset_wf (s : State) (hs : s.memWf = true) :
    RCanon (execTestPortReset s) := by
  unfold execTestPortReset
  with_reducible repeat' (first
    | assumption | apply RCanon.next | apply RCanon.refused | apply RCanon.fault | split | simp only | dsimp only
    | simp only [memWf_mk, cmpWf_mk, memOk_cmp, cmpWf])

/-! ### Events -/

theorem State.afterPend_wf (s : State) (die word rising : Nat) (hs : s.memWf = true) :
    (State.afterPend s die word rising).memWf = true := by
  unfold State.afterPend
  with_reducible repeat' (first
    | assumption | apply State.evcCount_wf | apply State.evcDeliver_wf | apply fold_wf1 | apply fold_wf2 | apply fold_wf
    | split | intro _ _ _ | intro _ _ | intro _ | simp only | dsimp only | refine Canon.fst (by assumption) ?_)

theorem State.pendWrite_wf (s : State) (die word : Nat) (value : W32) (hs : s.memWf = true) :
    (State.pendWrite s die word value).memWf = true := by
  unfold State.pendWrite
  with_reducible repeat' (first
    | assumption | apply State.afterPend_wf | apply State.fset_wf | apply State.levelSource_wf | apply fold_wf1
    | apply fold_wf2 | apply fold_wf | split | intro _ _ _ | intro _ _ | intro _ | simp only | dsimp only
    | refine Canon.fst (by assumption) ?_)

theorem execControlClockRestart_wf (die : Fin 84) (s : State) (hs : s.memWf = true) :
    RCanon (execControlClockRestart die s) := by
  unfold execControlClockRestart
  with_reducible repeat' (first
    | assumption | apply State.restartClock_wf | apply RCanon.next | apply RCanon.refused | apply RCanon.fault | split
    | simp only | dsimp only)

theorem execDeviceFaultRecord_wf (die : Fin 84) (record : FaultRec) (s : State) (hs : s.memWf = true) :
    RCanon (execDeviceFaultRecord die record s) := by
  unfold execDeviceFaultRecord
  with_reducible repeat' (first
    | assumption | apply State.dfqWrite_wf | apply RCanon.next | apply RCanon.refused | apply RCanon.fault | split | simp only
    | dsimp only)

theorem execEvcPendWrite_wf (who : Requester) (die : Fin 84) (word : Fin 32) (value : W32) (s : State) (hs : s.memWf = true) :
    RCanon (execEvcPendWrite who die word value s) := by
  unfold execEvcPendWrite
  with_reducible repeat' (first
    | assumption | apply State.pendWrite_wf | apply State.reachRecord_wf | apply RCanon.next | apply RCanon.refused
    | apply RCanon.fault | split | simp only | dsimp only)

theorem execStewardTimer_wf (die : Fin 84) (s : State) (hs : s.memWf = true) :
    RCanon (execStewardTimer die s) := by
  unfold execStewardTimer
  with_reducible repeat' (first
    | assumption | apply State.event_wf | apply RCanon.next | apply RCanon.refused | apply RCanon.fault | split | simp only
    | dsimp only)

/-! ### Mailbox -/

theorem State.setUpdate_wf (s : State) (n : Nat) (hs : s.memWf = true) :
    (State.setUpdate s n).memWf = true := by
  unfold State.setUpdate
  with_reducible repeat' (first
    | assumption | apply State.event_wf | apply State.fset_wf | split | simp only | dsimp only)

theorem State.imageCommit_wf (s : State) (len : Nat) (burn : Bool) (hs : s.memWf = true) :
    (State.imageCommit s len burn).2.memWf = true := by
  unfold State.imageCommit
  with_reducible repeat' (first
    | assumption | apply State.fset_wf | apply State.setUpdate_wf | apply State.logEvent_wf | split | simp only | dsimp only
    | simp only [memWf_mk, cmpWf_mk, memOk_cmp, cmpWf] | refine Canon.snd (by assumption) ?_)

theorem State.imageWrite_wf (s : State) (board : Bool) (off : Nat) (l : List Byte) (hs : s.memWf = true) :
    (State.imageWrite s board off l).2.memWf = true := by
  unfold State.imageWrite
  with_reducible repeat' (first
    | assumption | apply State.fset_wf | split | simp only | dsimp only | simp only [memWf_mk, cmpWf_mk, memOk_cmp, cmpWf]
    | refine Canon.snd (by assumption) ?_)

theorem State.seqErr_wf (s : State) (hs : s.memWf = true) :
    (State.seqErr s).memWf = true := by
  unfold State.seqErr
  with_reducible repeat' (first
    | assumption | apply State.event_wf | apply State.fset_wf | split | simp only | dsimp only)

theorem State.sessionUse_wf (s : State) (pldm write : Bool) (hs : s.memWf = true) :
    (State.sessionUse s pldm write).memWf = true := by
  unfold State.sessionUse
  with_reducible repeat' (first
    | assumption | split | simp only | dsimp only | simp only [memWf_mk, cmpWf_mk, memOk_cmp, cmpWf])

theorem State.mbxCommand_wf (s : State) (op len : Nat) (hs : s.memWf = true) :
    (State.mbxCommand s op len).memWf = true := by
  unfold State.mbxCommand
  with_reducible repeat' (first
    | assumption | apply State.sessionUse_wf | apply State.fset_wf | apply State.seqErr_wf | split | simp only | dsimp only
    | simp only [memWf_mk, cmpWf_mk, memOk_cmp, cmpWf])

theorem State.mbxReset_wf (s : State) (hs : s.memWf = true) :
    (State.mbxReset s).memWf = true := by
  unfold State.mbxReset
  with_reducible repeat' (first
    | assumption | apply State.fset_wf | split | simp only | dsimp only | simp only [memWf_mk, cmpWf_mk, memOk_cmp, cmpWf])

theorem State.mbxRespond_wf (s : State) (result : Nat) (words : List W32) (hs : s.memWf = true) :
    (State.mbxRespond s result words).memWf = true := by
  unfold State.mbxRespond
  with_reducible repeat' (first
    | assumption | apply State.fset_wf | apply State.event_wf | split | simp only | dsimp only
    | simp only [memWf_mk, cmpWf_mk, memOk_cmp, cmpWf])

theorem execGetCert_wf (s : State) (hs : s.memWf = true) :
    RCanon (execGetCert s) := by
  unfold execGetCert
  with_reducible repeat' (first
    | assumption | apply need_wf | apply State.mbxRespond_wf | apply RCanon.next | apply RCanon.refused | apply RCanon.fault
    | split | simp only | dsimp only)

theorem execGetInfo_wf (s : State) (hs : s.memWf = true) :
    RCanon (execGetInfo s) := by
  unfold execGetInfo
  with_reducible repeat' (first
    | assumption | apply need_wf | apply State.mbxRespond_wf | apply RCanon.next | apply RCanon.refused | apply RCanon.fault
    | split | simp only | dsimp only)

theorem execImageCommit_wf (s : State) (hs : s.memWf = true) :
    RCanon (execImageCommit s) := by
  unfold execImageCommit
  with_reducible repeat' (first
    | assumption | apply need_wf | apply State.mbxRespond_wf | apply State.imageCommit_wf | apply RCanon.next
    | apply RCanon.refused | apply RCanon.fault | split | simp only | dsimp only | refine Canon.snd (by assumption) ?_)

theorem execImageWrite_wf (s : State) (hs : s.memWf = true) :
    RCanon (execImageWrite s) := by
  unfold execImageWrite
  with_reducible repeat' (first
    | assumption | apply need_wf | apply State.mbxRespond_wf | apply State.sessionUse_wf | apply State.imageWrite_wf
    | apply RCanon.next | apply RCanon.refused | apply RCanon.fault | split | simp only | dsimp only
    | refine Canon.snd (by assumption) ?_)

theorem execMbxAbort_wf (who : Requester) (word : W64) (s : State) (hs : s.memWf = true) :
    RCanon (execMbxAbort who word s) := by
  unfold execMbxAbort
  with_reducible repeat' (first
    | assumption | apply State.fset_wf | apply State.mbxReset_wf | apply State.reachRecord_wf | apply RCanon.next
    | apply RCanon.refused | apply RCanon.fault | split | simp only | dsimp only)

theorem execMbxDataRead_wf (who : Requester) (s : State) (hs : s.memWf = true) :
    RCanon (execMbxDataRead who s) := by
  unfold execMbxDataRead
  with_reducible repeat' (first
    | assumption | apply State.emit_wf | apply State.reachRecord_wf | apply State.fset_wf | apply State.seqErr_wf
    | apply RCanon.next | apply RCanon.refused | apply RCanon.fault | split | simp only | dsimp only
    | simp only [memWf_mk, cmpWf_mk, memOk_cmp, cmpWf])

theorem execMbxDataWrite_wf (who : Requester) (word : W32) (s : State) (hs : s.memWf = true) :
    RCanon (execMbxDataWrite who word s) := by
  unfold execMbxDataWrite
  with_reducible repeat' (first
    | assumption | apply State.reachRecord_wf | apply State.fset_wf | apply State.mbxRespond_wf | apply State.seqErr_wf
    | apply RCanon.next | apply RCanon.refused | apply RCanon.fault | split | simp only | dsimp only
    | simp only [memWf_mk, cmpWf_mk, memOk_cmp, cmpWf])

theorem execReadFlashLog_wf (s : State) (hs : s.memWf = true) :
    RCanon (execReadFlashLog s) := by
  unfold execReadFlashLog
  with_reducible repeat' (first
    | assumption | apply need_wf | apply State.take_wf | apply State.mbxRespond_wf | apply RCanon.next | apply RCanon.refused
    | apply RCanon.fault | split | simp only | dsimp only | refine Canon.snd (by assumption) ?_)

theorem execReadLog_wf (s : State) (hs : s.memWf = true) :
    RCanon (execReadLog s) := by
  unfold execReadLog
  with_reducible repeat' (first
    | assumption | apply need_wf | apply State.journal_wf | apply State.mbxRespond_wf | apply RCanon.next
    | apply RCanon.refused | apply RCanon.fault | split | simp only | dsimp only
    | simp only [memWf_mk, cmpWf_mk, memOk_cmp, cmpWf])

/-! ### Place -/

theorem State.account_wf (s : State) (ctx : Nat) (f : Acct → Acct) (hs : s.memWf = true) :
    (State.account s ctx f).memWf = true := by
  unfold State.account
  with_reducible repeat' (first
    | assumption | split | simp only | dsimp only | simp only [memWf_mk, cmpWf_mk, memOk_cmp, cmpWf])

theorem State.setPcState_wf (s : State) (pc v : Nat) (hs : s.memWf = true) :
    (State.setPcState s pc v).memWf = true := by
  unfold State.setPcState
  with_reducible repeat' (first
    | assumption | apply State.setReg_wf | split | simp only | dsimp only)

theorem State.setChan_wf (s : State) (c : Chan) (v : Nat) (hs : s.memWf = true) :
    (State.setChan s c v).memWf = true := by
  unfold State.setChan
  with_reducible repeat' (first
    | assumption | apply State.setPcState_wf | apply State.fset_wf | split | simp only | dsimp only)

theorem State.failing_wf (s : State) (c : Chan) (hs : s.memWf = true) :
    (State.failing s c).memWf = true := by
  unfold State.failing
  with_reducible repeat' (first
    | assumption | apply State.event_wf | apply State.setChan_wf | split | simp only | dsimp only)

theorem State.countCe_wf (s : State) (c : Chan) (hs : s.memWf = true) :
    (State.countCe s c).memWf = true := by
  unfold State.countCe
  with_reducible repeat' (first
    | assumption | apply State.failing_wf | split | simp only | dsimp only | simp only [memWf_mk, cmpWf_mk, memOk_cmp, cmpWf])

theorem State.countTier_wf (s : State) (ctx line n : Nat) (hs : s.memWf = true) :
    (State.countTier s ctx line n).memWf = true := by
  unfold State.countTier
  with_reducible repeat' (first
    | assumption | apply State.account_wf | split | simp only | dsimp only)

theorem State.dropVerified_wf (s : State) (r : Nat) (hs : s.memWf = true) :
    (State.dropVerified s r).memWf = true := by
  unfold State.dropVerified
  with_reducible repeat' (first
    | assumption | split | simp only | dsimp only | simp only [memWf_mk, cmpWf_mk, memOk_cmp, cmpWf])

theorem State.setMemByte_wf (s : State) (a : Nat) (b : Byte) (hs : s.memWf = true) :
    (State.setMemByte s a b).memWf = true := by
  exact State.memWf_setMemByte _ _ _ hs

theorem State.setMemBytes_wf (s : State) (line mask : Nat) (d : Line) (hs : s.memWf = true) :
    (State.setMemBytes s line mask d).memWf = true := by
  exact State.memWf_setMemBytes _ _ _ _ hs

theorem State.setPoison_wf (s : State) (line : Nat) (b : Bool) (hs : s.memWf = true) :
    (State.setPoison s line b).memWf = true := by
  unfold State.setPoison
  with_reducible repeat' (first
    | assumption | split | simp only | dsimp only | simp only [memWf_mk, cmpWf_mk, memOk_cmp, cmpWf])

theorem State.memErrLog_wf (s : State) (line src : Nat) (hs : s.memWf = true) :
    (State.memErrLog s line src).memWf = true := by
  unfold State.memErrLog
  with_reducible repeat' (first
    | assumption | apply State.fset_wf | apply State.event_wf | split | simp only | dsimp only)

theorem State.watchUe_wf (s : State) (line : Nat) (hs : s.memWf = true) :
    (State.watchUe s line).memWf = true := by
  unfold State.watchUe
  with_reducible repeat' (first
    | assumption | apply State.failing_wf | split | simp only | dsimp only | simp only [memWf_mk, cmpWf_mk, memOk_cmp, cmpWf])

theorem State.writeFind_wf (s : State) (line : Nat) (hs : s.memWf = true) :
    (State.writeFind s line).memWf = true := by
  unfold State.writeFind
  with_reducible repeat' (first
    | assumption | apply State.foundUpset_wf | apply State.watchUe_wf | apply State.memErrLog_wf | apply State.setPoison_wf
    | split | simp only | dsimp only)

theorem State.homeWrite_wf (s : State) (line mask : Nat) (d : Line) (poison : Bool) (hs : s.memWf = true) :
    (State.homeWrite s line mask d poison).memWf = true := by
  exact State.memWf_homeWrite _ _ _ _ _ hs

theorem State.hwEvent_wf (s : State) (r block copy outcome : Nat) (poisoned : Bool) (hs : s.memWf = true) :
    (State.hwEvent s r block copy outcome poisoned).memWf = true := by
  unfold State.hwEvent
  with_reducible repeat' (first
    | assumption | apply State.event_wf | apply State.dfqWrite_wf | split | simp only | dsimp only)

theorem State.memCe_wf (s : State) (h : Nat) (hs : s.memWf = true) :
    (State.memCe s h).memWf = true := by
  unfold State.memCe
  with_reducible repeat' (first
    | assumption | apply State.ceEvent_wf | split | simp only | dsimp only)

theorem State.memFind_wf (s : State) (line src : Nat) (hs : s.memWf = true) :
    (State.memFind s line src).memWf = true := by
  unfold State.memFind
  with_reducible repeat' (first
    | assumption | apply State.watchUe_wf | apply State.memErrLog_wf | apply State.setPoison_wf | apply State.countCe_wf
    | apply State.memCe_wf | apply State.foundUpset_wf | apply fold_wf1 | apply fold_wf2 | apply fold_wf | split | intro _ _ _
    | intro _ _ | intro _ | simp only | dsimp only | refine Canon.fst (by assumption) ?_)

theorem State.hwFetch_wf (s : State) (r copy block : Nat) (hs : s.memWf = true) :
    (State.hwFetch s r copy block).memWf = true := by
  unfold State.hwFetch
  with_reducible repeat' (first
    | assumption | apply State.memFind_wf | apply fold_wf1 | apply fold_wf2 | apply fold_wf | split | intro _ _ _ | intro _ _
    | intro _ | simp only | dsimp only | refine Canon.fst (by assumption) ?_)

theorem State.hwQuarantine_wf (s : State) (r block : Nat) (poisoned : Bool) (hs : s.memWf = true) :
    (State.hwQuarantine s r block poisoned).memWf = true := by
  unfold State.hwQuarantine
  with_reducible repeat' (first
    | assumption | apply State.fset_wf | apply State.dropVerified_wf | apply State.hwEvent_wf | split | simp only | dsimp only
    | simp only [memWf_mk, cmpWf_mk, memOk_cmp, cmpWf])

theorem State.hwVerify_wf (s : State) (r block : Nat) (hs : s.memWf = true) :
    (State.hwVerify s r block).1.memWf = true := by
  unfold State.hwVerify
  with_reducible repeat' (first
    | assumption | apply State.hwFetch_wf | apply State.hwEvent_wf | apply State.fsat_wf | apply State.hwQuarantine_wf | split
    | simp only | dsimp only | refine Canon.fst (by assumption) ?_)

theorem State.hwPiece_wf (s : State) (pieces : List (Nat × Nat)) (hs : s.memWf = true) :
    (State.hwPiece s pieces).1.memWf = true := by
  unfold State.hwPiece
  with_reducible repeat' (first
    | assumption | apply State.hwVerify_wf | apply fold_wf1 | apply fold_wf2 | apply fold_wf | split | intro _ _ _ | intro _ _
    | intro _ | simp only | dsimp only | refine Canon.fst (by assumption) ?_)

theorem State.keepVerified_wf (s : State) (home block copy : Nat) (hs : s.memWf = true) :
    (State.keepVerified s home block copy).memWf = true := by
  unfold State.keepVerified
  with_reducible repeat' (first
    | assumption | split | simp only | dsimp only | simp only [memWf_mk, cmpWf_mk, memOk_cmp, cmpWf])

theorem State.hwRead_wf (s : State) (r copy line : Nat) (hs : s.memWf = true) :
    (State.hwRead s r copy line).1.memWf = true := by
  unfold State.hwRead
  with_reducible repeat' (first
    | assumption | apply State.memFind_wf | apply State.hwVerify_wf | apply State.keepVerified_wf | split | simp only
    | dsimp only | refine Canon.fst (by assumption) ?_)

theorem State.serve_wf (s : State) (line part bytes : Nat) (hs : s.memWf = true) :
    (State.serve s line part bytes).memWf = true := by
  unfold State.serve
  with_reducible repeat' (first
    | assumption | split | simp only | dsimp only | simp only [memWf_mk, cmpWf_mk, memOk_cmp, cmpWf])

/-! ### Coherent -/

theorem State.dropRsv_wf (s : State) (group : Nat) (hs : s.memWf = true) :
    (State.dropRsv s group).memWf = true := by
  unfold State.dropRsv
  with_reducible repeat' (first
    | assumption | split | simp only | dsimp only | simp only [memWf_mk, cmpWf_mk, memOk_cmp, cmpWf])

theorem State.addRsv_wf (s : State) (group line : Nat) (hs : s.memWf = true) :
    (State.addRsv s group line).memWf = true := by
  unfold State.addRsv
  with_reducible repeat' (first
    | assumption | apply State.dropRsv_wf | split | simp only | dsimp only | simp only [memWf_mk, cmpWf_mk, memOk_cmp, cmpWf])

theorem State.cancelRsvs_wf (s : State) (line : Nat) (keep : Option Nat) (hs : s.memWf = true) :
    (State.cancelRsvs s line keep).memWf = true := by
  unfold State.cancelRsvs
  with_reducible repeat' (first
    | assumption | split | simp only | dsimp only | simp only [memWf_mk, cmpWf_mk, memOk_cmp, cmpWf])

theorem State.hwRefuse_wf (s : State) (pa agent part : Nat) (hs : s.memWf = true) :
    (State.hwRefuse s pa agent part).memWf = true := by
  unfold State.hwRefuse
  with_reducible repeat' (first
    | assumption | apply State.dfqWrite_wf | split | simp only | dsimp only)

theorem State.readFind_wf (s : State) (line : Nat) (hs : s.memWf = true) :
    (State.readFind s line).memWf = true := by
  unfold State.readFind
  with_reducible repeat' (first
    | assumption | apply State.memFind_wf | split | simp only | dsimp only)

theorem State.clearLine_wf (s : State) (line : Nat) (hs : s.memWf = true) :
    (State.clearLine s line).memWf = true := by
  unfold State.clearLine
  with_reducible repeat' (first
    | assumption | exact OCanon.none | apply OCanon.someId | apply OCanon.some | apply OCanon.mapId | apply OCanon.mapFst
    | apply OCanon.map | split | intro _ _ _ | intro _ _ | intro _ | simp only | dsimp only | dsimp only [id]
    | simp only [memWf_mk, cmpWf_mk, memOk_cmp, cmpWf] | refine OCanon.snd (by assumption) ?_)

theorem State.writeLine_wf (s : State) (line mask : Nat) (d : Line) (poison : Bool) (hs : s.memWf = true) :
    (State.writeLine s line mask d poison).memWf = true := by
  unfold State.writeLine
  with_reducible repeat' (first
    | assumption | apply State.cancelRsvs_wf | apply State.clearLine_wf | apply State.homeWrite_wf | split | simp only
    | dsimp only)

theorem State.atomLine_wf (s : State) (line : Nat) (a : Atom) (by_ : Nat × Nat) (hs : s.memWf = true) :
    (State.atomLine s line a by_).1.memWf = true := by
  unfold State.atomLine
  with_reducible repeat' (first
    | assumption | apply State.hwRefuse_wf | apply State.readFind_wf | apply State.cancelRsvs_wf | apply State.writeLine_wf
    | split | simp only | dsimp only | refine Canon.fst (by assumption) ?_)

theorem State.putLine_wf (s : State) (line mask : Nat) (d : Line) (poison : Bool) (by_ : Nat × Nat) (hs : s.memWf = true) :
    (State.putLine s line mask d poison by_).1.memWf = true := by
  unfold State.putLine
  with_reducible repeat' (first
    | assumption | apply State.hwRefuse_wf | apply State.writeLine_wf | split | simp only | dsimp only
    | refine Canon.fst (by assumption) ?_)

theorem State.readLine_wf (s : State) (line : Nat) (hs : s.memWf = true) :
    (State.readLine s line).1.memWf = true := by
  unfold State.readLine
  with_reducible repeat' (first
    | assumption | apply State.hwRead_wf | apply State.readFind_wf | split | simp only | dsimp only
    | refine Canon.fst (by assumption) ?_)

theorem State.readBytes_wf (s : State) (pa len : Nat) (hs : s.memWf = true) :
    (State.readBytes s pa len).1.memWf = true := by
  unfold State.readBytes
  with_reducible repeat' (first
    | assumption | apply State.readLine_wf | apply fold_wf1 | apply fold_wf2 | apply fold_wf | split | intro _ _ _ | intro _ _
    | intro _ | simp only | dsimp only | refine Canon.fst (by assumption) ?_)

theorem State.readWord_wf (s : State) (pa len : Nat) (hs : s.memWf = true) :
    (State.readWord s pa len).1.memWf = true := by
  unfold State.readWord
  with_reducible repeat' (first
    | assumption | apply State.readBytes_wf | split | simp only | dsimp only | refine Canon.fst (by assumption) ?_)

theorem State.writeBytes_wf (s : State) (pa : Nat) (b : List Byte) (by_ : Nat × Nat) (hs : s.memWf = true) :
    (State.writeBytes s pa b by_).1.memWf = true := by
  unfold State.writeBytes
  with_reducible repeat' (first
    | assumption | apply State.putLine_wf | apply fold_wf1 | apply fold_wf2 | apply fold_wf | split | intro _ _ _ | intro _ _
    | intro _ | simp only | dsimp only | refine Canon.fst (by assumption) ?_)

/-! ### CanopyOps -/

theorem State.acctWrite_wf (s : State) (c : Nat) (final : Bool) (ended : Nat) (hs : s.memWf = true) :
    OCanon id (State.acctWrite s c final ended) := by
  unfold State.acctWrite
  with_reducible repeat' (first
    | assumption | apply State.writeBytes_wf | apply State.fset_wf | apply State.event_wf | apply State.account_wf
    | exact OCanon.none | apply OCanon.someId | apply OCanon.some | split | simp only | dsimp only | dsimp only [id]
    | simp only [memWf_mk, cmpWf_mk, memOk_cmp, cmpWf] | refine Canon.fst (by assumption) ?_
    | refine OCanon.id_ (by assumption) ?_)

theorem State.updCtx_wf (s : State) (c : Nat) (f : Ctx → Ctx) (hs : s.memWf = true) :
    (State.updCtx s c f).memWf = true := by
  unfold State.updCtx
  with_reducible repeat' (first
    | assumption | split | simp only | dsimp only | simp only [memWf_mk, cmpWf_mk, memOk_cmp, cmpWf])

theorem State.acctFinal_wf (s : State) (c ended : Nat) (hs : s.memWf = true) :
    (State.acctFinal s c ended).memWf = true := by
  unfold State.acctFinal
  with_reducible repeat' (first
    | assumption | apply State.acctWrite_wf | apply State.updCtx_wf | apply State.event_wf | apply State.fset_wf
    | exact OCanon.none | apply OCanon.someId | apply OCanon.some | split | simp only | dsimp only | dsimp only [id]
    | refine OCanon.id_ (by assumption) ?_)

theorem State.acctPeriodic_wf (s : State) (c : Nat) (hs : s.memWf = true) :
    (State.acctPeriodic s c).memWf = true := by
  unfold State.acctPeriodic
  with_reducible repeat' (first
    | assumption | apply State.acctWrite_wf | apply State.account_wf | exact OCanon.none | apply OCanon.someId
    | apply OCanon.some | split | simp only | dsimp only | dsimp only [id] | refine OCanon.id_ (by assumption) ?_)

theorem State.attEnd_wf (s : State) (a : Nat) (hs : s.memWf = true) :
    (State.attEnd s a).memWf = true := by
  unfold State.attEnd
  with_reducible repeat' (first
    | assumption | apply State.fset_wf | apply State.setReg_wf | apply fold_wf1 | apply fold_wf2 | apply fold_wf | split
    | intro _ _ _ | intro _ _ | intro _ | simp only | dsimp only | simp only [memWf_mk, cmpWf_mk, memOk_cmp, cmpWf]
    | refine Canon.fst (by assumption) ?_)

theorem State.updCore_wf (s : State) (c : Nat) (f : CoreSt → CoreSt) (hs : s.memWf = true) :
    (State.updCore s c f).memWf = true := by
  unfold State.updCore
  with_reducible repeat' (first
    | assumption | split | simp only | dsimp only | simp only [memWf_mk, cmpWf_mk, memOk_cmp, cmpWf])

theorem State.bcastBack_wf (s : State) (core : Nat) (hs : s.memWf = true) :
    (State.bcastBack s core).memWf = true := by
  unfold State.bcastBack
  with_reducible repeat' (first
    | assumption | apply State.updCore_wf | apply State.fset_wf | split | simp only | dsimp only)

theorem State.boundVoid_wf (s : State) (p : Nat) (hs : s.memWf = true) :
    (State.boundVoid s p).memWf = true := by
  unfold State.boundVoid
  with_reducible repeat' (first
    | assumption | apply State.event_wf | split | simp only | dsimp only)

theorem State.clearRegs_wf (s : State) (g : Nat) (hs : s.memWf = true) :
    (State.clearRegs s g).memWf = true := by
  unfold State.clearRegs
  with_reducible repeat' (first
    | assumption | split | simp only | dsimp only | simp only [memWf_mk, cmpWf_mk, memOk_cmp, cmpWf])

theorem State.cttRead_wf (s : State) (c : Nat) (hs : s.memWf = true) :
    (State.cttRead s c).1.memWf = true := by
  unfold State.cttRead
  with_reducible repeat' (first
    | assumption | apply State.readWord_wf | split | simp only | dsimp only | refine Canon.fst (by assumption) ?_)

theorem State.cttLoad_wf (s : State) (c : Nat) (hs : s.memWf = true) :
    (State.cttLoad s c).memWf = true := by
  unfold State.cttLoad
  with_reducible repeat' (first
    | assumption | apply State.cttRead_wf | apply State.updCtx_wf | split | simp only | dsimp only
    | refine Canon.fst (by assumption) ?_)

theorem State.updQp_wf (s : State) (q : Nat) (f : Qp → Qp) (hs : s.memWf = true) :
    (State.updQp s q f).memWf = true := by
  unfold State.updQp
  with_reducible repeat' (first
    | assumption | split | simp only | dsimp only | simp only [memWf_mk, cmpWf_mk, memOk_cmp, cmpWf])

theorem State.qpPost_wf (s : State) (q cid status : Nat) (late : Bool) (info : Nat) (hs : s.memWf = true) :
    (State.qpPost s q cid status late info).memWf = true := by
  unfold State.qpPost
  with_reducible repeat' (first
    | assumption | apply State.updQp_wf | split | simp only | dsimp only)

theorem State.qpComplete_wf (s : State) (q cid status : Nat) (late : Bool) (info : Nat) (hs : s.memWf = true) :
    (State.qpComplete s q cid status late info).memWf = true := by
  unfold State.qpComplete
  with_reducible repeat' (first
    | assumption | apply State.qpPost_wf | apply State.updQp_wf | split | simp only | dsimp only)

theorem State.nearDrop_wf (s : State) (core : Nat) (hs : s.memWf = true) :
    (State.nearDrop s core).memWf = true := by
  unfold State.nearDrop
  with_reducible repeat' (first
    | assumption | split | simp only | dsimp only | simp only [memWf_mk, cmpWf_mk, memOk_cmp, cmpWf])

theorem State.stopBlocks_wf (s : State) (c : Nat) (hs : s.memWf = true) :
    (State.stopBlocks s c).memWf = true := by
  unfold State.stopBlocks
  with_reducible repeat' (first
    | assumption | apply State.dropRsv_wf | apply State.clearRegs_wf | apply State.bcastBack_wf | apply State.nearDrop_wf
    | apply fold_wf1 | apply fold_wf2 | apply fold_wf | split | intro _ _ _ | intro _ _ | intro _ | simp only | dsimp only
    | simp only [memWf_mk, cmpWf_mk, memOk_cmp, cmpWf] | refine Canon.fst (by assumption) ?_)

theorem State.ctxEnd_wf (s : State) (c : Nat) (st : CtxState) (status ended info : Nat) (hs : s.memWf = true) :
    (State.ctxEnd s c st status ended info).memWf = true := by
  unfold State.ctxEnd
  with_reducible repeat' (first
    | assumption | apply State.stopBlocks_wf | apply State.attEnd_wf | apply State.qpComplete_wf | apply State.acctFinal_wf
    | apply State.updCtx_wf | apply fold_wf1 | apply fold_wf2 | apply fold_wf | split | intro _ _ _ | intro _ _ | intro _
    | simp only | dsimp only | simp only [memWf_mk, cmpWf_mk, memOk_cmp, cmpWf] | refine Canon.fst (by assumption) ?_)

theorem State.ctxFault_wf (s : State) (c : Nat) (hs : s.memWf = true) :
    (State.ctxFault s c).memWf = true := by
  unfold State.ctxFault
  with_reducible repeat' (first
    | assumption | apply State.ctxEnd_wf | split | simp only | dsimp only)

theorem State.wrapCount_wf (s : State) (f ovf : Fld) (i n die src : Nat) (hs : s.memWf = true) :
    (State.wrapCount s f ovf i n die src).memWf = true := by
  unfold State.wrapCount
  with_reducible repeat' (first
    | assumption | apply State.fset_wf | apply State.event_wf | split | simp only | dsimp only)

theorem State.dirCount_wf (s : State) (h i : Nat) (hs : s.memWf = true) :
    (State.dirCount s h i).memWf = true := by
  unfold State.dirCount
  with_reducible repeat' (first
    | assumption | apply State.wrapCount_wf | split | simp only | dsimp only)

theorem State.qtlbCount_wf (s : State) (q i : Nat) (hs : s.memWf = true) :
    (State.qtlbCount s q i).memWf = true := by
  unfold State.qtlbCount
  with_reducible repeat' (first
    | assumption | apply State.wrapCount_wf | split | simp only | dsimp only)

theorem State.quadCount_wf (s : State) (q i n : Nat) (hs : s.memWf = true) :
    (State.quadCount s q i n).memWf = true := by
  unfold State.quadCount
  with_reducible repeat' (first
    | assumption | apply State.wrapCount_wf | split | simp only | dsimp only)

theorem State.steCount_wf (s : State) (e i n : Nat) (hs : s.memWf = true) :
    (State.steCount s e i n).memWf = true := by
  unfold State.steCount
  with_reducible repeat' (first
    | assumption | apply State.wrapCount_wf | split | simp only | dsimp only)

theorem State.updBlk_wf (s : State) (b : Nat) (f : Blk → Blk) (hs : s.memWf = true) :
    (State.updBlk s b f).memWf = true := by
  unfold State.updBlk
  with_reducible repeat' (first
    | assumption | split | simp only | dsimp only | simp only [memWf_mk, cmpWf_mk, memOk_cmp, cmpWf])

theorem State.updCluster_wf (s : State) (k : Nat) (f : Clus → Clus) (hs : s.memWf = true) :
    (State.updCluster s k f).memWf = true := by
  unfold State.updCluster
  with_reducible repeat' (first
    | assumption | split | simp only | dsimp only | simp only [memWf_mk, cmpWf_mk, memOk_cmp, cmpWf])

theorem State.updGrp_wf (s : State) (g : Nat) (f : Grp → Grp) (hs : s.memWf = true) :
    (State.updGrp s g f).memWf = true := by
  unfold State.updGrp
  with_reducible repeat' (first
    | assumption | split | simp only | dsimp only | simp only [memWf_mk, cmpWf_mk, memOk_cmp, cmpWf])

theorem State.utlbCount_wf (s : State) (k i : Nat) (hs : s.memWf = true) :
    (State.utlbCount s k i).memWf = true := by
  unfold State.utlbCount
  with_reducible repeat' (first
    | assumption | apply State.wrapCount_wf | split | simp only | dsimp only)

/-! ### Retire -/

theorem State.capacityChanged_wf (s : State) (hs : s.memWf = true) :
    (State.capacityChanged s).memWf = true := by
  unfold State.capacityChanged
  with_reducible repeat' (first
    | assumption | apply State.logEvent_wf | apply State.event_wf | split | simp only | dsimp only)

theorem State.disown_wf (s : State) (k : Nat) (hs : s.memWf = true) :
    (State.disown s k).memWf = true := by
  unfold State.disown
  with_reducible repeat' (first
    | assumption | apply State.setReg_wf | split | simp only | dsimp only | simp only [memWf_mk, cmpWf_mk, memOk_cmp, cmpWf])

theorem State.unitsOff_wf (s : State) (core : Nat) (hs : s.memWf = true) :
    (State.unitsOff s core).memWf = true := by
  unfold State.unitsOff
  with_reducible repeat' (first
    | assumption | apply State.setReg_wf | apply fold_wf1 | apply fold_wf2 | apply fold_wf | split | intro _ _ _ | intro _ _
    | intro _ | simp only | dsimp only | simp only [memWf_mk, cmpWf_mk, memOk_cmp, cmpWf]
    | refine Canon.fst (by assumption) ?_)

theorem State.clusterMark_wf (s : State) (k : Nat) (hs : s.memWf = true) :
    (State.clusterMark s k).memWf = true := by
  unfold State.clusterMark
  with_reducible repeat' (first
    | assumption | apply State.unitsOff_wf | apply State.fset_wf | apply State.updCluster_wf | apply State.disown_wf
    | apply fold_wf1 | apply fold_wf2 | apply fold_wf | split | intro _ _ _ | intro _ _ | intro _ | simp only | dsimp only
    | refine Canon.fst (by assumption) ?_)

theorem State.coreFailed_wf (s : State) (core : Nat) (hs : s.memWf = true) :
    (State.coreFailed s core).memWf = true := by
  unfold State.coreFailed
  with_reducible repeat' (first
    | assumption | split | simp only | dsimp only | simp only [memWf_mk, cmpWf_mk, memOk_cmp, cmpWf])

theorem State.coreError_wf (s : State) (core : Nat) (hs : s.memWf = true) :
    (State.coreError s core).memWf = true := by
  unfold State.coreError
  with_reducible repeat' (first
    | assumption | apply State.coreFailed_wf | split | simp only | dsimp only
    | simp only [memWf_mk, cmpWf_mk, memOk_cmp, cmpWf])

theorem State.degrade_wf (s : State) (die : Nat) (hs : s.memWf = true) :
    (State.degrade s die).memWf = true := by
  unfold State.degrade
  with_reducible repeat' (first
    | assumption | apply State.fset_wf | split | simp only | dsimp only)

theorem State.dieMark_wf (s : State) (die : Nat) (hs : s.memWf = true) :
    (State.dieMark s die).memWf = true := by
  unfold State.dieMark
  with_reducible repeat' (first
    | assumption | apply State.fset_wf | apply State.degrade_wf | split | simp only | dsimp only
    | simp only [memWf_mk, cmpWf_mk, memOk_cmp, cmpWf])

theorem State.quadMark_wf (s : State) (q : Nat) (hs : s.memWf = true) :
    (State.quadMark s q).memWf = true := by
  unfold State.quadMark
  with_reducible repeat' (first
    | assumption | apply State.fset_wf | split | simp only | dsimp only)

theorem State.quadsStop_wf (s : State) (qs : List Nat) (hs : s.memWf = true) :
    (State.quadsStop s qs).memWf = true := by
  unfold State.quadsStop
  with_reducible repeat' (first
    | assumption | apply State.ctxFault_wf | apply fold_wf1 | apply fold_wf2 | apply fold_wf | split | intro _ _ _ | intro _ _
    | intro _ | simp only | dsimp only | simp only [memWf_mk, cmpWf_mk, memOk_cmp, cmpWf]
    | refine Canon.fst (by assumption) ?_)

theorem State.retireClusters_wf (s : State) (ks : List Nat) (hs : s.memWf = true) :
    (State.retireClusters s ks).memWf = true := by
  unfold State.retireClusters
  with_reducible repeat' (first
    | assumption | apply State.dieMark_wf | apply State.quadMark_wf | apply State.clusterMark_wf | apply State.boundVoid_wf
    | apply State.capacityChanged_wf | apply State.logEvent_wf | apply fold_wf1 | apply fold_wf2 | apply fold_wf | split
    | intro _ _ _ | intro _ _ | intro _ | simp only | dsimp only | simp only [memWf_mk, cmpWf_mk, memOk_cmp, cmpWf]
    | refine Canon.fst (by assumption) ?_)

theorem State.retireComputeDie_wf (s : State) (die cause : Nat) (hs : s.memWf = true) :
    (State.retireComputeDie s die cause).memWf = true := by
  unfold State.retireComputeDie
  with_reducible repeat' (first
    | assumption | apply State.fset_wf | apply State.retireClusters_wf | apply State.quadsStop_wf | split | simp only
    | dsimp only)

theorem State.retireQuadrant_wf (s : State) (q : Nat) (hs : s.memWf = true) :
    (State.retireQuadrant s q).memWf = true := by
  unfold State.retireQuadrant
  with_reducible repeat' (first
    | assumption | apply State.retireClusters_wf | apply State.quadsStop_wf | split | simp only | dsimp only)

theorem State.setPool_wf (s : State) (q : Nat) (l : List Nat) (hs : s.memWf = true) :
    (State.setPool s q l).memWf = true := by
  unfold State.setPool
  with_reducible repeat' (first
    | assumption | apply State.fset_wf | split | simp only | dsimp only | simp only [memWf_mk, cmpWf_mk, memOk_cmp, cmpWf])

/-! ### Duty -/

theorem State.dutyMoved_wf (t s : State) (ht : t.memWf = true) (hs : s.memWf = true) :
    (State.dutyMoved t s).memWf = true := by
  unfold State.dutyMoved
  with_reducible repeat' (first
    | assumption | apply State.event_wf | split | simp only | dsimp only)

theorem State.dutyChange_wf (s : State) (f : State → State) (hs : s.memWf = true) (hf : ∀ (y0 : State), y0.memWf = true → (f y0).memWf = true) :
    (State.dutyChange s f).memWf = true := by
  unfold State.dutyChange
  with_reducible repeat' (first
    | assumption | apply hf | apply State.boundVoid_wf | apply State.dutyMoved_wf | apply ECanon.done | apply ECanon.jump
    | apply ECanon.wait | apply ECanon.busy | apply ECanon.raise | exact ECanon.stop | apply RCanon.next
    | apply RCanon.refused | apply RCanon.fault | apply fold_wf1 | apply fold_wf2 | apply fold_wf | split | intro _ _ _
    | intro _ _ | intro _ | simp only | dsimp only | dsimp only [id] | refine Canon.fst (by assumption) ?_)

/-! ### Flags -/

theorem State.sticky_wf (s : State) (g f : Nat) (hs : s.memWf = true) :
    (State.sticky s g f).memWf = true := by
  unfold State.sticky
  with_reducible repeat' (first
    | assumption | apply State.updGrp_wf | split | simp only | dsimp only)

/-! ### Operands -/

theorem State.setV_wf (s : State) (g n lane v : Nat) (hs : s.memWf = true) :
    (State.setV s g n lane v).memWf = true := by
  unfold State.setV
  with_reducible repeat' (first
    | assumption | split | simp only | dsimp only | simp only [memWf_mk, cmpWf_mk, memOk_cmp, cmpWf])

theorem State.setVVal_wf (s : State) (g type n lane v : Nat) (hs : s.memWf = true) :
    (State.setVVal s g type n lane v).memWf = true := by
  unfold State.setVVal
  with_reducible repeat' (first
    | assumption | apply State.setV_wf | split | simp only | dsimp only)

theorem State.setLanes32_wf (s : State) (g type n mask : Nat) (f : Nat → Nat) (hs : s.memWf = true) :
    (State.setLanes32 s g type n mask f).memWf = true := by
  unfold State.setLanes32
  with_reducible repeat' (first
    | assumption | apply State.setVVal_wf | apply fold_wf1 | apply fold_wf2 | apply fold_wf | split | intro _ _ _ | intro _ _
    | intro _ | simp only | dsimp only | refine Canon.fst (by assumption) ?_)

theorem State.setP_wf (s : State) (g n v : Nat) (hs : s.memWf = true) :
    (State.setP s g n v).memWf = true := by
  unfold State.setP
  with_reducible repeat' (first
    | assumption | split | simp only | dsimp only | simp only [memWf_mk, cmpWf_mk, memOk_cmp, cmpWf])

theorem State.setS_wf (s : State) (g n v : Nat) (hs : s.memWf = true) :
    (State.setS s g n v).memWf = true := by
  unfold State.setS
  with_reducible repeat' (first
    | assumption | split | simp only | dsimp only | simp only [memWf_mk, cmpWf_mk, memOk_cmp, cmpWf])

/-! ### Translate -/

theorem State.tlbFill_wf (s : State) (t : Tlb) (hs : s.memWf = true) :
    (State.tlbFill s t).memWf = true := by
  unfold State.tlbFill
  with_reducible repeat' (first
    | assumption | split | simp only | dsimp only | simp only [memWf_mk, cmpWf_mk, memOk_cmp, cmpWf])

theorem State.lookUp_wf (s : State) (cluster ctx va : Nat) (host : Bool) (hs : s.memWf = true) :
    (State.lookUp s cluster ctx va host).memWf = true := by
  unfold State.lookUp
  with_reducible repeat' (first
    | assumption | apply State.tlbFill_wf | apply State.utlbCount_wf | apply State.qtlbCount_wf | split | simp only
    | dsimp only)

theorem State.tlbUse_wf (s : State) (cluster ctx va : Nat) (hs : s.memWf = true) :
    (State.tlbUse s cluster ctx va).memWf = true := by
  unfold State.tlbUse
  with_reducible repeat' (first
    | assumption | apply State.lookUp_wf | split | simp only | dsimp only)

theorem State.startHost_wf (s0 : State) (cluster ctx func pasid va : Nat) (write : Bool) (hs0 : s0.memWf = true) :
    (State.startHost s0 cluster ctx func pasid va write).memWf = true := by
  unfold State.startHost
  with_reducible repeat' (first
    | assumption | apply State.tlbUse_wf | apply State.emit_wf | split | simp only | dsimp only
    | simp only [memWf_mk, cmpWf_mk, memOk_cmp, cmpWf])

theorem State.startWalk_wf (s : State) (cluster ctx va : Nat) (hs : s.memWf = true) :
    (State.startWalk s cluster ctx va).memWf = true := by
  unfold State.startWalk
  with_reducible repeat' (first
    | assumption | apply State.tlbUse_wf | apply State.qtlbCount_wf | split | simp only | dsimp only
    | simp only [memWf_mk, cmpWf_mk, memOk_cmp, cmpWf])

theorem State.tlbDrop_wf (cluster : Nat) (s : State) (t : Tlb) (hs : s.memWf = true) :
    (State.tlbDrop cluster s t).memWf = true := by
  unfold State.tlbDrop
  with_reducible repeat' (first
    | assumption | apply State.qtlbCount_wf | apply State.foundUpset_wf | split | simp only | dsimp only
    | simp only [memWf_mk, cmpWf_mk, memOk_cmp, cmpWf])

theorem State.tlbSweep_wf (s : State) (cluster ctx : Nat) (l : List Nat) (hs : s.memWf = true) :
    (State.tlbSweep s cluster ctx l).memWf = true := by
  unfold State.tlbSweep
  with_reducible repeat' (first
    | assumption | apply State.tlbDrop_wf | apply fold_wf1 | apply fold_wf2 | apply fold_wf | split | intro _ _ _ | intro _ _
    | intro _ | simp only | dsimp only | refine Canon.fst (by assumption) ?_)

theorem State.usePages_wf (s : State) (cluster ctx : Nat) (l : List Nat) (hs : s.memWf = true) :
    (State.usePages s cluster ctx l).memWf = true := by
  unfold State.usePages
  with_reducible repeat' (first
    | assumption | apply State.tlbUse_wf | apply fold_wf1 | apply fold_wf2 | apply fold_wf | split | intro _ _ _ | intro _ _
    | intro _ | simp only | dsimp only | refine Canon.fst (by assumption) ?_)

theorem State.wake_wf (s : State) (ctx : Nat) (on : Nat → Bool) (w : Wait) (miss : Option Miss) (hs : s.memWf = true) :
    (State.wake s ctx on w miss).memWf = true := by
  unfold State.wake
  with_reducible repeat' (first
    | assumption | split | simp only | dsimp only | simp only [memWf_mk, cmpWf_mk, memOk_cmp, cmpWf])

/-! ### Issue -/

theorem State.cancelAcquire_wf (s : State) (g : Nat) (hs : s.memWf = true) :
    (State.cancelAcquire s g).memWf = true := by
  unfold State.cancelAcquire
  with_reducible repeat' (first
    | assumption | split | simp only | dsimp only | simp only [memWf_mk, cmpWf_mk, memOk_cmp, cmpWf])

theorem State.defer_wf (s : State) (g : Nat) (d : Deferred) (hs : s.memWf = true) :
    (State.defer s g d).memWf = true := by
  unfold State.defer
  with_reducible repeat' (first
    | assumption | apply State.updGrp_wf | split | simp only | dsimp only)

theorem State.haltOne_wf (s : State) (a g code cause : Nat) (hs : s.memWf = true) :
    (State.haltOne s a g code cause).memWf = true := by
  unfold State.haltOne
  with_reducible repeat' (first
    | assumption | apply State.updGrp_wf | apply State.dropRsv_wf | apply State.cancelAcquire_wf | split | simp only
    | dsimp only | simp only [memWf_mk, cmpWf_mk, memOk_cmp, cmpWf])

theorem State.halt_wf (s : State) (a g code cause : Nat) (hs : s.memWf = true) :
    (State.halt s a g code cause).memWf = true := by
  unfold State.halt
  with_reducible repeat' (first
    | assumption | apply State.haltOne_wf | apply fold_wf1 | apply fold_wf2 | apply fold_wf | split | intro _ _ _ | intro _ _
    | intro _ | simp only | dsimp only | refine Canon.fst (by assumption) ?_)

theorem State.outcome_wf (s : State) (g : Nat) (r : FaultRec) (cause : Nat) (hs : s.memWf = true) :
    (State.outcome s g r cause).memWf = true := by
  unfold State.outcome
  with_reducible repeat' (first
    | assumption | apply State.ctxFault_wf | apply State.updGrp_wf | apply State.halt_wf | split | simp only | dsimp only)

theorem State.sendRecord_wf (s : State) (r : FaultRec) (hs : s.memWf = true) :
    (State.sendRecord s r).memWf = true := by
  unfold State.sendRecord
  with_reducible repeat' (first
    | assumption | split | simp only | dsimp only | simp only [memWf_mk, cmpWf_mk, memOk_cmp, cmpWf])

theorem State.except_wf (s : State) (g : Nat) (r : FaultRec) (cause : Nat) (hs : s.memWf = true) :
    (State.except s g r cause).memWf = true := by
  unfold State.except
  with_reducible repeat' (first
    | assumption | apply State.sendRecord_wf | apply State.cancelAcquire_wf | apply State.dropRsv_wf | apply State.updGrp_wf
    | apply State.outcome_wf | split | simp only | dsimp only)

theorem State.icFill_wf (s : State) (core va : Nat) (hs : s.memWf = true) :
    (State.icFill s core va).memWf = true := by
  unfold State.icFill
  with_reducible repeat' (first
    | assumption | apply State.pick_wf | split | simp only | dsimp only | simp only [memWf_mk, cmpWf_mk, memOk_cmp, cmpWf]
    | refine Canon.snd (by assumption) ?_)

theorem State.icFind_wf (s : State) (core va : Nat) (hs : s.memWf = true) :
    (State.icFind s core va).memWf = true := by
  unfold State.icFind
  with_reducible repeat' (first
    | assumption | apply State.foundUpset_wf | apply State.ceEvent_wf | split | simp only | dsimp only
    | simp only [memWf_mk, cmpWf_mk, memOk_cmp, cmpWf])

theorem State.waitWalk_wf (s : State) (g ctx va : Nat) (hs : s.memWf = true) :
    (State.waitWalk s g ctx va).memWf = true := by
  unfold State.waitWalk
  with_reducible repeat' (first
    | assumption | apply State.startWalk_wf | apply State.updGrp_wf | split | simp only | dsimp only)

theorem State.fetchLine_wf (s : State) (g : Nat) (grp : Grp) (va : Nat) (hs : s.memWf = true) :
    FCanon (State.fetchLine s g grp va) := by
  unfold State.fetchLine
  with_reducible repeat' (first
    | assumption | apply State.tlbSweep_wf | apply State.icFind_wf | apply State.waitWalk_wf | apply State.icFill_wf
    | apply State.tlbUse_wf | apply FCanon.ok | apply FCanon.wait | apply FCanon.fault | split | simp only | dsimp only
    | refine FCanon.ok_elim (by assumption) ?_ | refine FCanon.wait_elim (by assumption) ?_)

theorem State.issued_wf (s : State) (g : Nat) (hs : s.memWf = true) :
    (State.issued s g).memWf = true := by
  unfold State.issued
  with_reducible repeat' (first
    | assumption | apply State.updGrp_wf | apply State.halt_wf | split | simp only | dsimp only)

theorem State.pastPc_wf (s : State) (g len : Nat) (hs : s.memWf = true) :
    (State.pastPc s g len).memWf = true := by
  unfold State.pastPc
  with_reducible repeat' (first
    | assumption | apply State.updGrp_wf | split | simp only | dsimp only)

theorem State.finish_wf (s : State) (g len : Nat) (hs : s.memWf = true) :
    (State.finish s g len).memWf = true := by
  unfold State.finish
  with_reducible repeat' (first
    | assumption | apply State.issued_wf | apply State.pastPc_wf | split | simp only | dsimp only)

theorem State.hold_wf (s : State) (g k : Nat) (hs : s.memWf = true) :
    (State.hold s g k).memWf = true := by
  unfold State.hold
  with_reducible repeat' (first
    | assumption | apply State.updGrp_wf | split | simp only | dsimp only)

theorem State.raise_wf (s : State) (g code lanes addr : Nat) (fetch : Bool) (info0 cause : Nat) (hs : s.memWf = true) :
    (State.raise s g code lanes addr fetch info0 cause).memWf = true := by
  unfold State.raise
  with_reducible repeat' (first
    | assumption | apply State.except_wf | split | simp only | dsimp only)

theorem State.issue_wf (s : State) (w : Who) (head : Nat → Grp → Head) (body : State → Nat → Grp → Nat → Eff) (hs : s.memWf = true) (hbody : ∀ (y0 : State) (y1 : Nat) (y2 : Grp) (y3 : Nat), y0.memWf = true → ECanon (body y0 y1 y2 y3)) :
    RCanon (State.issue s w head body) := by
  unfold State.issue
  with_reducible repeat' (first
    | assumption | apply hbody | apply stop_wf | apply State.fetchLine_wf | apply State.hold_wf | apply State.raise_wf
    | apply State.finish_wf | apply State.issued_wf | apply ECanon.done | apply ECanon.jump | apply ECanon.wait
    | apply ECanon.busy | apply ECanon.raise | exact ECanon.stop | apply RCanon.next | apply RCanon.refused
    | apply RCanon.fault | split | intro _ _ _ | intro _ _ | intro _ | simp only | dsimp only | dsimp only [id]
    | refine FCanon.ok_elim (by assumption) ?_ | refine FCanon.wait_elim (by assumption) ?_
    | refine ECanon.done_elim (by assumption) ?_ | refine ECanon.jump_elim (by assumption) ?_
    | refine ECanon.wait_elim (by assumption) ?_ | refine ECanon.busy_elim (by assumption) ?_
    | refine ECanon.raise_elim (by assumption) ?_)

theorem State.issueR_wf (s : State) (w : Who) (f : Form) (i : FmtR) (body : State → Nat → Grp → Nat → Eff) (extra : Bool) (vecs : List (Nat × Bool)) (hs : s.memWf = true) (hbody : ∀ (y0 : State) (y1 : Nat) (y2 : Grp) (y3 : Nat), y0.memWf = true → ECanon (body y0 y1 y2 y3)) :
    RCanon (State.issueR s w f i body extra vecs) := by
  unfold State.issueR
  with_reducible repeat' (first
    | assumption | apply hbody | apply State.issue_wf | apply ECanon.done | apply ECanon.jump | apply ECanon.wait
    | apply ECanon.busy | apply ECanon.raise | exact ECanon.stop | apply RCanon.next | apply RCanon.refused
    | apply RCanon.fault | split | intro _ _ _ | intro _ _ | intro _ | simp only | dsimp only | dsimp only [id]
    | refine RCanon.elim (by assumption) ?_ | refine ECanon.done_elim (by assumption) ?_
    | refine ECanon.jump_elim (by assumption) ?_ | refine ECanon.wait_elim (by assumption) ?_
    | refine ECanon.busy_elim (by assumption) ?_ | refine ECanon.raise_elim (by assumption) ?_)

theorem State.raiseDeferred_wf (s : State) (g : Nat) (d : Deferred) (hs : s.memWf = true) :
    (State.raiseDeferred s g d).memWf = true := by
  unfold State.raiseDeferred
  with_reducible repeat' (first
    | assumption | apply State.updGrp_wf | apply State.except_wf | split | simp only | dsimp only)

/-! ### Ring -/

theorem State.ringStep_wf (s : State) (time : Nat) (hs : s.memWf = true) :
    (State.ringStep s time).memWf = true := by
  unfold State.ringStep
  with_reducible repeat' (first
    | assumption | apply State.event_wf | apply State.fadd_wf | split | simp only | dsimp only
    | simp only [memWf_mk, cmpWf_mk, memOk_cmp, cmpWf])

theorem State.ringCorrect_wf (s : State) (time : Nat) (hs : s.memWf = true) :
    (State.ringCorrect s time).memWf = true := by
  unfold State.ringCorrect
  with_reducible repeat' (first
    | assumption | apply State.ringStep_wf | split | simp only | dsimp only | simp only [memWf_mk, cmpWf_mk, memOk_cmp, cmpWf])

theorem State.runAt_wf (s : State) (rate : Int) (hs : s.memWf = true) :
    (State.runAt s rate).memWf = true := by
  unfold State.runAt
  with_reducible repeat' (first
    | assumption | split | simp only | dsimp only | simp only [memWf_mk, cmpWf_mk, memOk_cmp, cmpWf])

theorem State.showOffset_wf (s : State) (time : Nat) (hs : s.memWf = true) :
    (State.showOffset s time).memWf = true := by
  unfold State.showOffset
  with_reducible repeat' (first
    | assumption | apply State.fset_wf | split | simp only | dsimp only)

theorem State.discipline_wf (s : State) (k time : Nat) (hs : s.memWf = true) :
    (State.discipline s k time).memWf = true := by
  unfold State.discipline
  with_reducible repeat' (first
    | assumption | apply State.ringCorrect_wf | apply State.showOffset_wf | apply State.runAt_wf | split | simp only
    | dsimp only)

theorem State.setPortTrack_wf (s : State) (p : Nat) (t : Track) (hs : s.memWf = true) :
    (State.setPortTrack s p t).memWf = true := by
  unfold State.setPortTrack
  with_reducible repeat' (first
    | assumption | split | simp only | dsimp only | simp only [memWf_mk, cmpWf_mk, memOk_cmp, cmpWf])

theorem State.dropTrack_wf (s : State) (src : RingSrc) (hs : s.memWf = true) :
    (State.dropTrack s src).memWf = true := by
  unfold State.dropTrack
  with_reducible repeat' (first
    | assumption | apply State.setPortTrack_wf | split | simp only | dsimp only
    | simp only [memWf_mk, cmpWf_mk, memOk_cmp, cmpWf])

theorem State.setSource_wf (s : State) (k : Nat) (hs : s.memWf = true) :
    (State.setSource s k).memWf = true := by
  unfold State.setSource
  with_reducible repeat' (first
    | assumption | apply State.event_wf | apply State.fset_wf | split | simp only | dsimp only)

theorem State.lockTo_wf (s : State) (k : Nat) (hs : s.memWf = true) :
    (State.lockTo s k).memWf = true := by
  unfold State.lockTo
  with_reducible repeat' (first
    | assumption | apply State.showOffset_wf | apply State.runAt_wf | apply State.ringStep_wf | apply State.ringCorrect_wf
    | apply State.setSource_wf | apply State.event_wf | apply State.fset_wf | split | simp only | dsimp only
    | simp only [memWf_mk, cmpWf_mk, memOk_cmp, cmpWf])

theorem State.noteQualified_wf (s : State) (hs : s.memWf = true) :
    (State.noteQualified s).memWf = true := by
  unfold State.noteQualified
  with_reducible repeat' (first
    | assumption | exact OCanon.none | apply OCanon.someId | apply OCanon.some | apply OCanon.mapId | apply OCanon.mapFst
    | apply OCanon.map | apply fold_wf1 | apply fold_wf2 | apply fold_wf | split | intro _ _ _ | intro _ _ | intro _
    | simp only | dsimp only | dsimp only [id] | simp only [memWf_mk, cmpWf_mk, memOk_cmp, cmpWf]
    | refine OCanon.snd (by assumption) ?_ | refine Canon.fst (by assumption) ?_)

theorem State.pass_wf (s : State) (u : Nat) (hs : s.memWf = true) :
    (State.pass s u).memWf = true := by
  unfold State.pass
  with_reducible repeat' (first
    | assumption | split | simp only | dsimp only | simp only [memWf_mk, cmpWf_mk, memOk_cmp, cmpWf])

theorem State.passRing_wf (s : State) (w : Nat) (hs : s.memWf = true) :
    (State.passRing s w).memWf = true := by
  unfold State.passRing
  with_reducible repeat' (first
    | assumption | apply State.pass_wf | split | simp only | dsimp only | simp only [memWf_mk, cmpWf_mk, memOk_cmp, cmpWf])

theorem State.pulseSecond_wf (s : State) (counting : Bool) (hs : s.memWf = true) :
    (State.pulseSecond s counting).2.memWf = true := by
  unfold State.pulseSecond
  with_reducible repeat' (first
    | assumption | apply State.fset_wf | split | simp only | dsimp only | simp only [memWf_mk, cmpWf_mk, memOk_cmp, cmpWf]
    | refine Canon.snd (by assumption) ?_)

theorem State.reach_wf (s : State) (ns : Nat) (hs : s.memWf = true) :
    (State.reach s ns).memWf = true := by
  unfold State.reach
  with_reducible repeat' (first
    | assumption | apply State.passRing_wf | split | simp only | dsimp only)

theorem State.reachDisc_wf (s : State) (ns : Nat) (hs : s.memWf = true) :
    (State.reachDisc s ns).memWf = true := by
  unfold State.reachDisc
  with_reducible repeat' (first
    | assumption | apply State.passRing_wf | split | simp only | dsimp only)

theorem State.reachLocal_wf (s : State) (ns : Nat) (hs : s.memWf = true) :
    (State.reachLocal s ns).memWf = true := by
  unfold State.reachLocal
  with_reducible repeat' (first
    | assumption | apply State.pass_wf | split | simp only | dsimp only)

theorem State.ringFree_wf (s : State) (hs : s.memWf = true) :
    (State.ringFree s).memWf = true := by
  unfold State.ringFree
  with_reducible repeat' (first
    | assumption | apply State.event_wf | apply State.fset_wf | apply State.runAt_wf | split | simp only | dsimp only
    | simp only [memWf_mk, cmpWf_mk, memOk_cmp, cmpWf])

theorem State.ringUnlock_wf (s : State) (hs : s.memWf = true) :
    (State.ringUnlock s).memWf = true := by
  unfold State.ringUnlock
  with_reducible repeat' (first
    | assumption | apply State.fset_wf | apply State.setSource_wf | apply State.ringFree_wf | split | simp only | dsimp only
    | simp only [memWf_mk, cmpWf_mk, memOk_cmp, cmpWf])

theorem State.showQualified_wf (s : State) (hs : s.memWf = true) :
    (State.showQualified s).memWf = true := by
  unfold State.showQualified
  with_reducible repeat' (first
    | assumption | apply State.fset_wf | apply State.noteQualified_wf | split | simp only | dsimp only)

theorem State.reselect_wf (s0 : State) (hs0 : s0.memWf = true) :
    (State.reselect s0).memWf = true := by
  unfold State.reselect
  with_reducible repeat' (first
    | assumption | apply State.showQualified_wf | apply State.lockTo_wf | apply State.ringUnlock_wf | split | simp only
    | dsimp only)

theorem State.tbSrcApplied_wf (old s : State) (hold : old.memWf = true) (hs : s.memWf = true) :
    (State.tbSrcApplied old s).memWf = true := by
  unfold State.tbSrcApplied
  with_reducible repeat' (first
    | assumption | apply State.reselect_wf | split | simp only | dsimp only | simp only [memWf_mk, cmpWf_mk, memOk_cmp, cmpWf])

theorem State.tick_wf (s : State) (hs : s.memWf = true) :
    (State.tick s).memWf = true := by
  unfold State.tick
  with_reducible repeat' (first
    | assumption | apply State.strike_wf | apply State.pass_wf | split | simp only | dsimp only)

theorem execBeat_wf (port : Fin 32) (t : W64) (corr : W32) (master : Fin 16384) (hop : Fin 256) (steps : W16) (s : State) (hs : s.memWf = true) :
    RCanon (execBeat port t corr master hop steps s) := by
  unfold execBeat
  with_reducible repeat' (first
    | assumption | apply State.setPortTrack_wf | apply State.reselect_wf | apply State.discipline_wf | apply State.take_wf
    | apply State.emit_wf | apply RCanon.next | apply RCanon.refused | apply RCanon.fault | apply fold_wf1 | apply fold_wf2
    | apply fold_wf | split | intro _ _ _ | intro _ _ | intro _ | simp only | dsimp only | refine Canon.snd (by assumption) ?_
    | refine Canon.fst (by assumption) ?_)

theorem execHoldoverExpiry_wf (s : State) (hs : s.memWf = true) :
    RCanon (execHoldoverExpiry s) := by
  unfold execHoldoverExpiry
  with_reducible repeat' (first
    | assumption | apply need_wf | apply State.ringFree_wf | apply State.reachDisc_wf | apply RCanon.next
    | apply RCanon.refused | apply RCanon.fault | split | simp only | dsimp only)

theorem execPortPreferenceSwitch_wf (s : State) (hs : s.memWf = true) :
    RCanon (execPortPreferenceSwitch s) := by
  unfold execPortPreferenceSwitch
  with_reducible repeat' (first
    | assumption | apply stop_wf | apply need_wf | apply State.lockTo_wf | apply State.reachLocal_wf | apply RCanon.next
    | apply RCanon.refused | apply RCanon.fault | split | simp only | dsimp only)

theorem execPpsPulse_wf (second : Bool) (s : State) (hs : s.memWf = true) :
    RCanon (execPpsPulse second s) := by
  unfold execPpsPulse
  with_reducible repeat' (first
    | assumption | apply State.pulseSecond_wf | apply State.reselect_wf | apply State.discipline_wf | apply RCanon.next
    | apply RCanon.refused | apply RCanon.fault | split | simp only | dsimp only
    | simp only [memWf_mk, cmpWf_mk, memOk_cmp, cmpWf] | refine Canon.snd (by assumption) ?_)

theorem execPtmDialogue_wf (master : W64) (s : State) (hs : s.memWf = true) :
    RCanon (execPtmDialogue master s) := by
  unfold execPtmDialogue
  with_reducible repeat' (first
    | assumption | apply State.reselect_wf | apply State.discipline_wf | apply RCanon.next | apply RCanon.refused
    | apply RCanon.fault | split | simp only | dsimp only | simp only [memWf_mk, cmpWf_mk, memOk_cmp, cmpWf])

theorem execPtmRequest_wf (s : State) (hs : s.memWf = true) :
    RCanon (execPtmRequest s) := by
  unfold execPtmRequest
  with_reducible repeat' (first
    | assumption | apply State.emit_wf | apply RCanon.next | apply RCanon.refused | apply RCanon.fault | split | simp only
    | dsimp only)

theorem execSourceLost_wf (src : RingSrc) (s : State) (hs : s.memWf = true) :
    RCanon (execSourceLost src s) := by
  unfold execSourceLost
  with_reducible repeat' (first
    | assumption | apply stop_wf | apply State.reselect_wf | apply State.dropTrack_wf | apply State.reachLocal_wf
    | apply RCanon.next | apply RCanon.refused | apply RCanon.fault | split | simp only | dsimp only)

theorem execSourceSwitch_wf (s : State) (hs : s.memWf = true) :
    RCanon (execSourceSwitch s) := by
  unfold execSourceSwitch
  with_reducible repeat' (first
    | assumption | apply stop_wf | apply State.reachLocal_wf | apply State.lockTo_wf | apply RCanon.next
    | apply RCanon.refused | apply RCanon.fault | apply fold_wf1 | apply fold_wf2 | apply fold_wf | split | intro _ _ _
    | intro _ _ | intro _ | simp only | dsimp only | refine Canon.fst (by assumption) ?_)

theorem execTbNowRead_wf (who : Requester) (part : TbPart) (s : State) (hs : s.memWf = true) :
    RCanon (execTbNowRead who part s) := by
  unfold execTbNowRead
  with_reducible repeat' (first
    | assumption | apply State.emit_wf | apply State.reachRecord_wf | apply RCanon.next | apply RCanon.refused
    | apply RCanon.fault | split | simp only | dsimp only | simp only [memWf_mk, cmpWf_mk, memOk_cmp, cmpWf])

end Sys2Proof.Machine
end

