-- ==== Sys2Proof/Laws/CanonIssue.lean ====
section
/-! SUPPORT. Memory stays canonical under the instructions of the compute groups and their memory accesses. -/

set_option linter.unusedSimpArgs false
set_option linter.unusedVariables false

namespace Sys2Proof.Machine

/-! ### Scalar -/

theorem State.scalarInt_wf (s : State) (o : IntOp) (w : Who) (i : FmtR) (hs : s.memWf = true) :
    RCanon (State.scalarInt s o w i) := by
  unfold State.scalarInt
  with_reducible repeat' (first
    | assumption | apply State.issueR_wf | apply State.setS_wf | apply ECanon.done | apply ECanon.jump | apply ECanon.wait
    | apply ECanon.busy | apply ECanon.raise | exact ECanon.stop | apply RCanon.next | apply RCanon.refused
    | apply RCanon.fault | split | intro _ _ _ | intro _ _ | intro _ | simp only | dsimp only | dsimp only [id]
    | refine RCanon.elim (by assumption) ?_ | refine ECanon.done_elim (by assumption) ?_
    | refine ECanon.jump_elim (by assumption) ?_ | refine ECanon.wait_elim (by assumption) ?_
    | refine ECanon.busy_elim (by assumption) ?_ | refine ECanon.raise_elim (by assumption) ?_)

theorem execScalarAdd_wf (w : Who) (i : FmtR) (s : State) (hs : s.memWf = true) :
    RCanon (execScalarAdd w i s) := by
  unfold execScalarAdd
  with_reducible repeat' (first
    | assumption | apply State.scalarInt_wf | apply RCanon.next | apply RCanon.refused | apply RCanon.fault | split
    | simp only | dsimp only | refine RCanon.elim (by assumption) ?_)

theorem execScalarAnd_wf (w : Who) (i : FmtR) (s : State) (hs : s.memWf = true) :
    RCanon (execScalarAnd w i s) := by
  unfold execScalarAnd
  with_reducible repeat' (first
    | assumption | apply State.scalarInt_wf | apply RCanon.next | apply RCanon.refused | apply RCanon.fault | split
    | simp only | dsimp only | refine RCanon.elim (by assumption) ?_)

theorem execScalarCmp_wf (w : Who) (i : FmtR) (s : State) (hs : s.memWf = true) :
    RCanon (execScalarCmp w i s) := by
  unfold execScalarCmp
  with_reducible repeat' (first
    | assumption | apply State.issueR_wf | apply State.setP_wf | apply ECanon.done | apply ECanon.jump | apply ECanon.wait
    | apply ECanon.busy | apply ECanon.raise | exact ECanon.stop | apply RCanon.next | apply RCanon.refused
    | apply RCanon.fault | split | intro _ _ _ | intro _ _ | intro _ | simp only | dsimp only | dsimp only [id]
    | refine RCanon.elim (by assumption) ?_ | refine ECanon.done_elim (by assumption) ?_
    | refine ECanon.jump_elim (by assumption) ?_ | refine ECanon.wait_elim (by assumption) ?_
    | refine ECanon.busy_elim (by assumption) ?_ | refine ECanon.raise_elim (by assumption) ?_)

theorem execScalarMax_wf (w : Who) (i : FmtR) (s : State) (hs : s.memWf = true) :
    RCanon (execScalarMax w i s) := by
  unfold execScalarMax
  with_reducible repeat' (first
    | assumption | apply State.scalarInt_wf | apply RCanon.next | apply RCanon.refused | apply RCanon.fault | split
    | simp only | dsimp only | refine RCanon.elim (by assumption) ?_)

theorem execScalarMin_wf (w : Who) (i : FmtR) (s : State) (hs : s.memWf = true) :
    RCanon (execScalarMin w i s) := by
  unfold execScalarMin
  with_reducible repeat' (first
    | assumption | apply State.scalarInt_wf | apply RCanon.next | apply RCanon.refused | apply RCanon.fault | split
    | simp only | dsimp only | refine RCanon.elim (by assumption) ?_)

theorem execScalarMov_wf (w : Who) (i : FmtR) (s : State) (hs : s.memWf = true) :
    RCanon (execScalarMov w i s) := by
  unfold execScalarMov
  with_reducible repeat' (first
    | assumption | apply State.issueR_wf | apply State.setS_wf | apply ECanon.done | apply ECanon.jump | apply ECanon.wait
    | apply ECanon.busy | apply ECanon.raise | exact ECanon.stop | apply RCanon.next | apply RCanon.refused
    | apply RCanon.fault | split | intro _ _ _ | intro _ _ | intro _ | simp only | dsimp only | dsimp only [id]
    | refine RCanon.elim (by assumption) ?_ | refine ECanon.done_elim (by assumption) ?_
    | refine ECanon.jump_elim (by assumption) ?_ | refine ECanon.wait_elim (by assumption) ?_
    | refine ECanon.busy_elim (by assumption) ?_ | refine ECanon.raise_elim (by assumption) ?_)

theorem execScalarMulHi_wf (w : Who) (i : FmtR) (s : State) (hs : s.memWf = true) :
    RCanon (execScalarMulHi w i s) := by
  unfold execScalarMulHi
  with_reducible repeat' (first
    | assumption | apply State.scalarInt_wf | apply RCanon.next | apply RCanon.refused | apply RCanon.fault | split
    | simp only | dsimp only | refine RCanon.elim (by assumption) ?_)

theorem execScalarMulLo_wf (w : Who) (i : FmtR) (s : State) (hs : s.memWf = true) :
    RCanon (execScalarMulLo w i s) := by
  unfold execScalarMulLo
  with_reducible repeat' (first
    | assumption | apply State.scalarInt_wf | apply RCanon.next | apply RCanon.refused | apply RCanon.fault | split
    | simp only | dsimp only | refine RCanon.elim (by assumption) ?_)

theorem execScalarNot_wf (w : Who) (i : FmtR) (s : State) (hs : s.memWf = true) :
    RCanon (execScalarNot w i s) := by
  unfold execScalarNot
  with_reducible repeat' (first
    | assumption | apply State.scalarInt_wf | apply RCanon.next | apply RCanon.refused | apply RCanon.fault | split
    | simp only | dsimp only | refine RCanon.elim (by assumption) ?_)

theorem execScalarOr_wf (w : Who) (i : FmtR) (s : State) (hs : s.memWf = true) :
    RCanon (execScalarOr w i s) := by
  unfold execScalarOr
  with_reducible repeat' (first
    | assumption | apply State.scalarInt_wf | apply RCanon.next | apply RCanon.refused | apply RCanon.fault | split
    | simp only | dsimp only | refine RCanon.elim (by assumption) ?_)

theorem execScalarSel_wf (w : Who) (i : FmtR) (s : State) (hs : s.memWf = true) :
    RCanon (execScalarSel w i s) := by
  unfold execScalarSel
  with_reducible repeat' (first
    | assumption | apply State.issueR_wf | apply State.setS_wf | apply ECanon.done | apply ECanon.jump | apply ECanon.wait
    | apply ECanon.busy | apply ECanon.raise | exact ECanon.stop | apply RCanon.next | apply RCanon.refused
    | apply RCanon.fault | split | intro _ _ _ | intro _ _ | intro _ | simp only | dsimp only | dsimp only [id]
    | refine RCanon.elim (by assumption) ?_ | refine ECanon.done_elim (by assumption) ?_
    | refine ECanon.jump_elim (by assumption) ?_ | refine ECanon.wait_elim (by assumption) ?_
    | refine ECanon.busy_elim (by assumption) ?_ | refine ECanon.raise_elim (by assumption) ?_)

theorem execScalarShl_wf (w : Who) (i : FmtR) (s : State) (hs : s.memWf = true) :
    RCanon (execScalarShl w i s) := by
  unfold execScalarShl
  with_reducible repeat' (first
    | assumption | apply State.scalarInt_wf | apply RCanon.next | apply RCanon.refused | apply RCanon.fault | split
    | simp only | dsimp only | refine RCanon.elim (by assumption) ?_)

theorem execScalarShr_wf (w : Who) (i : FmtR) (s : State) (hs : s.memWf = true) :
    RCanon (execScalarShr w i s) := by
  unfold execScalarShr
  with_reducible repeat' (first
    | assumption | apply State.scalarInt_wf | apply RCanon.next | apply RCanon.refused | apply RCanon.fault | split
    | simp only | dsimp only | refine RCanon.elim (by assumption) ?_)

theorem execScalarSra_wf (w : Who) (i : FmtR) (s : State) (hs : s.memWf = true) :
    RCanon (execScalarSra w i s) := by
  unfold execScalarSra
  with_reducible repeat' (first
    | assumption | apply State.scalarInt_wf | apply RCanon.next | apply RCanon.refused | apply RCanon.fault | split
    | simp only | dsimp only | refine RCanon.elim (by assumption) ?_)

theorem execScalarSub_wf (w : Who) (i : FmtR) (s : State) (hs : s.memWf = true) :
    RCanon (execScalarSub w i s) := by
  unfold execScalarSub
  with_reducible repeat' (first
    | assumption | apply State.scalarInt_wf | apply RCanon.next | apply RCanon.refused | apply RCanon.fault | split
    | simp only | dsimp only | refine RCanon.elim (by assumption) ?_)

theorem execScalarXor_wf (w : Who) (i : FmtR) (s : State) (hs : s.memWf = true) :
    RCanon (execScalarXor w i s) := by
  unfold execScalarXor
  with_reducible repeat' (first
    | assumption | apply State.scalarInt_wf | apply RCanon.next | apply RCanon.refused | apply RCanon.fault | split
    | simp only | dsimp only | refine RCanon.elim (by assumption) ?_)

theorem execSrRd_wf (w : Who) (i : FmtR) (s : State) (hs : s.memWf = true) :
    RCanon (execSrRd w i s) := by
  unfold execSrRd
  with_reducible repeat' (first
    | assumption | apply State.issueR_wf | apply State.setLanes32_wf | apply State.setS_wf | apply ECanon.done
    | apply ECanon.jump | apply ECanon.wait | apply ECanon.busy | apply ECanon.raise | exact ECanon.stop | apply RCanon.next
    | apply RCanon.refused | apply RCanon.fault | split | intro _ _ _ | intro _ _ | intro _ | simp only | dsimp only
    | dsimp only [id] | refine RCanon.elim (by assumption) ?_ | refine ECanon.done_elim (by assumption) ?_
    | refine ECanon.jump_elim (by assumption) ?_ | refine ECanon.wait_elim (by assumption) ?_
    | refine ECanon.busy_elim (by assumption) ?_ | refine ECanon.raise_elim (by assumption) ?_)

theorem execSrWr_wf (w : Who) (i : FmtR) (s : State) (hs : s.memWf = true) :
    RCanon (execSrWr w i s) := by
  unfold execSrWr
  with_reducible repeat' (first
    | assumption | apply State.issueR_wf | apply State.updGrp_wf | apply ECanon.done | apply ECanon.jump | apply ECanon.wait
    | apply ECanon.busy | apply ECanon.raise | exact ECanon.stop | apply RCanon.next | apply RCanon.refused
    | apply RCanon.fault | split | intro _ _ _ | intro _ _ | intro _ | simp only | dsimp only | dsimp only [id]
    | refine RCanon.elim (by assumption) ?_ | refine ECanon.done_elim (by assumption) ?_
    | refine ECanon.jump_elim (by assumption) ?_ | refine ECanon.wait_elim (by assumption) ?_
    | refine ECanon.busy_elim (by assumption) ?_ | refine ECanon.raise_elim (by assumption) ?_)

/-! ### Vector -/

theorem State.floatOp_wf (s : State) (f : FloatFmt → Nat → Nat → Nat → Nat × Nat) (binary ternary : Bool) (mods : Nat) (w : Who) (i : FmtR) (hs : s.memWf = true) :
    RCanon (State.floatOp s f binary ternary mods w i) := by
  unfold State.floatOp
  with_reducible repeat' (first
    | assumption | apply State.issueR_wf | apply State.sticky_wf | apply State.setLanes32_wf | apply ECanon.done
    | apply ECanon.jump | apply ECanon.wait | apply ECanon.busy | apply ECanon.raise | exact ECanon.stop | apply RCanon.next
    | apply RCanon.refused | apply RCanon.fault | apply fold_wf1 | apply fold_wf2 | apply fold_wf | split | intro _ _ _
    | intro _ _ | intro _ | simp only | dsimp only | dsimp only [id] | refine RCanon.elim (by assumption) ?_
    | refine Canon.fst (by assumption) ?_ | refine ECanon.done_elim (by assumption) ?_
    | refine ECanon.jump_elim (by assumption) ?_ | refine ECanon.wait_elim (by assumption) ?_
    | refine ECanon.busy_elim (by assumption) ?_ | refine ECanon.raise_elim (by assumption) ?_)

theorem State.setPLanes_wf (s : State) (g n m v : Nat) (hs : s.memWf = true) :
    (State.setPLanes s g n m v).memWf = true := by
  unfold State.setPLanes
  with_reducible repeat' (first
    | assumption | apply State.setP_wf | split | simp only | dsimp only)

theorem State.predOp_wf (s : State) (f : Nat → Nat → Nat) (two : Bool) (w : Who) (i : FmtR) (hs : s.memWf = true) :
    RCanon (State.predOp s f two w i) := by
  unfold State.predOp
  with_reducible repeat' (first
    | assumption | apply State.issueR_wf | apply State.setPLanes_wf | apply ECanon.done | apply ECanon.jump
    | apply ECanon.wait | apply ECanon.busy | apply ECanon.raise | exact ECanon.stop | apply RCanon.next
    | apply RCanon.refused | apply RCanon.fault | split | intro _ _ _ | intro _ _ | intro _ | simp only | dsimp only
    | dsimp only [id] | refine RCanon.elim (by assumption) ?_ | refine ECanon.done_elim (by assumption) ?_
    | refine ECanon.jump_elim (by assumption) ?_ | refine ECanon.wait_elim (by assumption) ?_
    | refine ECanon.busy_elim (by assumption) ?_ | refine ECanon.raise_elim (by assumption) ?_)

theorem State.specialOp_wf (s : State) (fn : Nat) (w : Who) (i : FmtR) (hs : s.memWf = true) :
    RCanon (State.specialOp s fn w i) := by
  unfold State.specialOp
  with_reducible repeat' (first
    | assumption | apply State.issueR_wf | apply State.sticky_wf | apply State.setLanes32_wf | apply ECanon.done
    | apply ECanon.jump | apply ECanon.wait | apply ECanon.busy | apply ECanon.raise | exact ECanon.stop | apply RCanon.next
    | apply RCanon.refused | apply RCanon.fault | apply fold_wf1 | apply fold_wf2 | apply fold_wf | split | intro _ _ _
    | intro _ _ | intro _ | simp only | dsimp only | dsimp only [id] | refine RCanon.elim (by assumption) ?_
    | refine Canon.fst (by assumption) ?_ | refine ECanon.done_elim (by assumption) ?_
    | refine ECanon.jump_elim (by assumption) ?_ | refine ECanon.wait_elim (by assumption) ?_
    | refine ECanon.busy_elim (by assumption) ?_ | refine ECanon.raise_elim (by assumption) ?_)

theorem State.vectorInt_wf (s : State) (o : IntOp) (w : Who) (i : FmtR) (hs : s.memWf = true) :
    RCanon (State.vectorInt s o w i) := by
  unfold State.vectorInt
  with_reducible repeat' (first
    | assumption | apply State.issueR_wf | apply State.setLanes32_wf | apply ECanon.done | apply ECanon.jump
    | apply ECanon.wait | apply ECanon.busy | apply ECanon.raise | exact ECanon.stop | apply RCanon.next
    | apply RCanon.refused | apply RCanon.fault | split | intro _ _ _ | intro _ _ | intro _ | simp only | dsimp only
    | dsimp only [id] | refine RCanon.elim (by assumption) ?_ | refine ECanon.done_elim (by assumption) ?_
    | refine ECanon.jump_elim (by assumption) ?_ | refine ECanon.wait_elim (by assumption) ?_
    | refine ECanon.busy_elim (by assumption) ?_ | refine ECanon.raise_elim (by assumption) ?_)

theorem execCos_wf (w : Who) (i : FmtR) (s : State) (hs : s.memWf = true) :
    RCanon (execCos w i s) := by
  unfold execCos
  with_reducible repeat' (first
    | assumption | apply State.specialOp_wf | apply RCanon.next | apply RCanon.refused | apply RCanon.fault | split
    | simp only | dsimp only | refine RCanon.elim (by assumption) ?_)

theorem execExp2_wf (w : Who) (i : FmtR) (s : State) (hs : s.memWf = true) :
    RCanon (execExp2 w i s) := by
  unfold execExp2
  with_reducible repeat' (first
    | assumption | apply State.specialOp_wf | apply RCanon.next | apply RCanon.refused | apply RCanon.fault | split
    | simp only | dsimp only | refine RCanon.elim (by assumption) ?_)

theorem execFloatAbs_wf (w : Who) (i : FmtR) (s : State) (hs : s.memWf = true) :
    RCanon (execFloatAbs w i s) := by
  unfold execFloatAbs
  with_reducible repeat' (first
    | assumption | apply State.floatOp_wf | apply RCanon.next | apply RCanon.refused | apply RCanon.fault | split | simp only
    | dsimp only | refine RCanon.elim (by assumption) ?_)

theorem execFloatAdd_wf (w : Who) (i : FmtR) (s : State) (hs : s.memWf = true) :
    RCanon (execFloatAdd w i s) := by
  unfold execFloatAdd
  with_reducible repeat' (first
    | assumption | apply State.floatOp_wf | apply RCanon.next | apply RCanon.refused | apply RCanon.fault | split | simp only
    | dsimp only | refine RCanon.elim (by assumption) ?_)

theorem execFloatFma_wf (w : Who) (i : FmtR) (s : State) (hs : s.memWf = true) :
    RCanon (execFloatFma w i s) := by
  unfold execFloatFma
  with_reducible repeat' (first
    | assumption | apply State.floatOp_wf | apply RCanon.next | apply RCanon.refused | apply RCanon.fault | split | simp only
    | dsimp only | refine RCanon.elim (by assumption) ?_)

theorem execFloatMax_wf (w : Who) (i : FmtR) (s : State) (hs : s.memWf = true) :
    RCanon (execFloatMax w i s) := by
  unfold execFloatMax
  with_reducible repeat' (first
    | assumption | apply State.floatOp_wf | apply RCanon.next | apply RCanon.refused | apply RCanon.fault | split | simp only
    | dsimp only | refine RCanon.elim (by assumption) ?_)

theorem execFloatMin_wf (w : Who) (i : FmtR) (s : State) (hs : s.memWf = true) :
    RCanon (execFloatMin w i s) := by
  unfold execFloatMin
  with_reducible repeat' (first
    | assumption | apply State.floatOp_wf | apply RCanon.next | apply RCanon.refused | apply RCanon.fault | split | simp only
    | dsimp only | refine RCanon.elim (by assumption) ?_)

theorem execFloatMul_wf (w : Who) (i : FmtR) (s : State) (hs : s.memWf = true) :
    RCanon (execFloatMul w i s) := by
  unfold execFloatMul
  with_reducible repeat' (first
    | assumption | apply State.floatOp_wf | apply RCanon.next | apply RCanon.refused | apply RCanon.fault | split | simp only
    | dsimp only | refine RCanon.elim (by assumption) ?_)

theorem execFloatNeg_wf (w : Who) (i : FmtR) (s : State) (hs : s.memWf = true) :
    RCanon (execFloatNeg w i s) := by
  unfold execFloatNeg
  with_reducible repeat' (first
    | assumption | apply State.floatOp_wf | apply RCanon.next | apply RCanon.refused | apply RCanon.fault | split | simp only
    | dsimp only | refine RCanon.elim (by assumption) ?_)

theorem execFloatSub_wf (w : Who) (i : FmtR) (s : State) (hs : s.memWf = true) :
    RCanon (execFloatSub w i s) := by
  unfold execFloatSub
  with_reducible repeat' (first
    | assumption | apply State.floatOp_wf | apply RCanon.next | apply RCanon.refused | apply RCanon.fault | split | simp only
    | dsimp only | refine RCanon.elim (by assumption) ?_)

theorem execLog2_wf (w : Who) (i : FmtR) (s : State) (hs : s.memWf = true) :
    RCanon (execLog2 w i s) := by
  unfold execLog2
  with_reducible repeat' (first
    | assumption | apply State.specialOp_wf | apply RCanon.next | apply RCanon.refused | apply RCanon.fault | split
    | simp only | dsimp only | refine RCanon.elim (by assumption) ?_)

theorem execMovSv_wf (w : Who) (i : FmtR) (s : State) (hs : s.memWf = true) :
    RCanon (execMovSv w i s) := by
  unfold execMovSv
  with_reducible repeat' (first
    | assumption | apply State.issueR_wf | apply State.setS_wf | apply ECanon.done | apply ECanon.jump | apply ECanon.wait
    | apply ECanon.busy | apply ECanon.raise | exact ECanon.stop | apply RCanon.next | apply RCanon.refused
    | apply RCanon.fault | split | intro _ _ _ | intro _ _ | intro _ | simp only | dsimp only | dsimp only [id]
    | refine RCanon.elim (by assumption) ?_ | refine ECanon.done_elim (by assumption) ?_
    | refine ECanon.jump_elim (by assumption) ?_ | refine ECanon.wait_elim (by assumption) ?_
    | refine ECanon.busy_elim (by assumption) ?_ | refine ECanon.raise_elim (by assumption) ?_)

theorem execMovVs_wf (w : Who) (i : FmtR) (s : State) (hs : s.memWf = true) :
    RCanon (execMovVs w i s) := by
  unfold execMovVs
  with_reducible repeat' (first
    | assumption | apply State.issueR_wf | apply State.setLanes32_wf | apply ECanon.done | apply ECanon.jump
    | apply ECanon.wait | apply ECanon.busy | apply ECanon.raise | exact ECanon.stop | apply RCanon.next
    | apply RCanon.refused | apply RCanon.fault | split | intro _ _ _ | intro _ _ | intro _ | simp only | dsimp only
    | dsimp only [id] | refine RCanon.elim (by assumption) ?_ | refine ECanon.done_elim (by assumption) ?_
    | refine ECanon.jump_elim (by assumption) ?_ | refine ECanon.wait_elim (by assumption) ?_
    | refine ECanon.busy_elim (by assumption) ?_ | refine ECanon.raise_elim (by assumption) ?_)

theorem execPand_wf (w : Who) (i : FmtR) (s : State) (hs : s.memWf = true) :
    RCanon (execPand w i s) := by
  unfold execPand
  with_reducible repeat' (first
    | assumption | apply State.predOp_wf | apply RCanon.next | apply RCanon.refused | apply RCanon.fault | split | simp only
    | dsimp only | refine RCanon.elim (by assumption) ?_)

theorem execPnot_wf (w : Who) (i : FmtR) (s : State) (hs : s.memWf = true) :
    RCanon (execPnot w i s) := by
  unfold execPnot
  with_reducible repeat' (first
    | assumption | apply State.predOp_wf | apply RCanon.next | apply RCanon.refused | apply RCanon.fault | split | simp only
    | dsimp only | refine RCanon.elim (by assumption) ?_)

theorem execPor_wf (w : Who) (i : FmtR) (s : State) (hs : s.memWf = true) :
    RCanon (execPor w i s) := by
  unfold execPor
  with_reducible repeat' (first
    | assumption | apply State.predOp_wf | apply RCanon.next | apply RCanon.refused | apply RCanon.fault | split | simp only
    | dsimp only | refine RCanon.elim (by assumption) ?_)

theorem execPxor_wf (w : Who) (i : FmtR) (s : State) (hs : s.memWf = true) :
    RCanon (execPxor w i s) := by
  unfold execPxor
  with_reducible repeat' (first
    | assumption | apply State.predOp_wf | apply RCanon.next | apply RCanon.refused | apply RCanon.fault | split | simp only
    | dsimp only | refine RCanon.elim (by assumption) ?_)

theorem execRcp_wf (w : Who) (i : FmtR) (s : State) (hs : s.memWf = true) :
    RCanon (execRcp w i s) := by
  unfold execRcp
  with_reducible repeat' (first
    | assumption | apply State.specialOp_wf | apply RCanon.next | apply RCanon.refused | apply RCanon.fault | split
    | simp only | dsimp only | refine RCanon.elim (by assumption) ?_)

theorem execRsqrt_wf (w : Who) (i : FmtR) (s : State) (hs : s.memWf = true) :
    RCanon (execRsqrt w i s) := by
  unfold execRsqrt
  with_reducible repeat' (first
    | assumption | apply State.specialOp_wf | apply RCanon.next | apply RCanon.refused | apply RCanon.fault | split
    | simp only | dsimp only | refine RCanon.elim (by assumption) ?_)

theorem execShfl_wf (w : Who) (i : FmtR) (s : State) (hs : s.memWf = true) :
    RCanon (execShfl w i s) := by
  unfold execShfl
  with_reducible repeat' (first
    | assumption | apply State.issueR_wf | apply State.setLanes32_wf | apply ECanon.done | apply ECanon.jump
    | apply ECanon.wait | apply ECanon.busy | apply ECanon.raise | exact ECanon.stop | apply RCanon.next
    | apply RCanon.refused | apply RCanon.fault | split | intro _ _ _ | intro _ _ | intro _ | simp only | dsimp only
    | dsimp only [id] | refine RCanon.elim (by assumption) ?_ | refine ECanon.done_elim (by assumption) ?_
    | refine ECanon.jump_elim (by assumption) ?_ | refine ECanon.wait_elim (by assumption) ?_
    | refine ECanon.busy_elim (by assumption) ?_ | refine ECanon.raise_elim (by assumption) ?_)

theorem execSin_wf (w : Who) (i : FmtR) (s : State) (hs : s.memWf = true) :
    RCanon (execSin w i s) := by
  unfold execSin
  with_reducible repeat' (first
    | assumption | apply State.specialOp_wf | apply RCanon.next | apply RCanon.refused | apply RCanon.fault | split
    | simp only | dsimp only | refine RCanon.elim (by assumption) ?_)

theorem execVectorAdd_wf (w : Who) (i : FmtR) (s : State) (hs : s.memWf = true) :
    RCanon (execVectorAdd w i s) := by
  unfold execVectorAdd
  with_reducible repeat' (first
    | assumption | apply State.vectorInt_wf | apply RCanon.next | apply RCanon.refused | apply RCanon.fault | split
    | simp only | dsimp only | refine RCanon.elim (by assumption) ?_)

theorem execVectorAnd_wf (w : Who) (i : FmtR) (s : State) (hs : s.memWf = true) :
    RCanon (execVectorAnd w i s) := by
  unfold execVectorAnd
  with_reducible repeat' (first
    | assumption | apply State.vectorInt_wf | apply RCanon.next | apply RCanon.refused | apply RCanon.fault | split
    | simp only | dsimp only | refine RCanon.elim (by assumption) ?_)

theorem execVectorCmp_wf (w : Who) (i : FmtR) (s : State) (hs : s.memWf = true) :
    RCanon (execVectorCmp w i s) := by
  unfold execVectorCmp
  with_reducible repeat' (first
    | assumption | apply State.issueR_wf | apply State.setPLanes_wf | apply ECanon.done | apply ECanon.jump
    | apply ECanon.wait | apply ECanon.busy | apply ECanon.raise | exact ECanon.stop | apply RCanon.next
    | apply RCanon.refused | apply RCanon.fault | split | intro _ _ _ | intro _ _ | intro _ | simp only | dsimp only
    | dsimp only [id] | refine RCanon.elim (by assumption) ?_ | refine ECanon.done_elim (by assumption) ?_
    | refine ECanon.jump_elim (by assumption) ?_ | refine ECanon.wait_elim (by assumption) ?_
    | refine ECanon.busy_elim (by assumption) ?_ | refine ECanon.raise_elim (by assumption) ?_)

theorem execVectorMadLo_wf (w : Who) (i : FmtR) (s : State) (hs : s.memWf = true) :
    RCanon (execVectorMadLo w i s) := by
  unfold execVectorMadLo
  with_reducible repeat' (first
    | assumption | apply State.issueR_wf | apply State.setLanes32_wf | apply ECanon.done | apply ECanon.jump
    | apply ECanon.wait | apply ECanon.busy | apply ECanon.raise | exact ECanon.stop | apply RCanon.next
    | apply RCanon.refused | apply RCanon.fault | split | intro _ _ _ | intro _ _ | intro _ | simp only | dsimp only
    | dsimp only [id] | refine RCanon.elim (by assumption) ?_ | refine ECanon.done_elim (by assumption) ?_
    | refine ECanon.jump_elim (by assumption) ?_ | refine ECanon.wait_elim (by assumption) ?_
    | refine ECanon.busy_elim (by assumption) ?_ | refine ECanon.raise_elim (by assumption) ?_)

theorem execVectorMax_wf (w : Who) (i : FmtR) (s : State) (hs : s.memWf = true) :
    RCanon (execVectorMax w i s) := by
  unfold execVectorMax
  with_reducible repeat' (first
    | assumption | apply State.vectorInt_wf | apply RCanon.next | apply RCanon.refused | apply RCanon.fault | split
    | simp only | dsimp only | refine RCanon.elim (by assumption) ?_)

theorem execVectorMin_wf (w : Who) (i : FmtR) (s : State) (hs : s.memWf = true) :
    RCanon (execVectorMin w i s) := by
  unfold execVectorMin
  with_reducible repeat' (first
    | assumption | apply State.vectorInt_wf | apply RCanon.next | apply RCanon.refused | apply RCanon.fault | split
    | simp only | dsimp only | refine RCanon.elim (by assumption) ?_)

theorem execVectorMov_wf (w : Who) (i : FmtR) (s : State) (hs : s.memWf = true) :
    RCanon (execVectorMov w i s) := by
  unfold execVectorMov
  with_reducible repeat' (first
    | assumption | apply State.issueR_wf | apply State.setLanes32_wf | apply ECanon.done | apply ECanon.jump
    | apply ECanon.wait | apply ECanon.busy | apply ECanon.raise | exact ECanon.stop | apply RCanon.next
    | apply RCanon.refused | apply RCanon.fault | split | intro _ _ _ | intro _ _ | intro _ | simp only | dsimp only
    | dsimp only [id] | refine RCanon.elim (by assumption) ?_ | refine ECanon.done_elim (by assumption) ?_
    | refine ECanon.jump_elim (by assumption) ?_ | refine ECanon.wait_elim (by assumption) ?_
    | refine ECanon.busy_elim (by assumption) ?_ | refine ECanon.raise_elim (by assumption) ?_)

theorem execVectorMulHi_wf (w : Who) (i : FmtR) (s : State) (hs : s.memWf = true) :
    RCanon (execVectorMulHi w i s) := by
  unfold execVectorMulHi
  with_reducible repeat' (first
    | assumption | apply State.vectorInt_wf | apply RCanon.next | apply RCanon.refused | apply RCanon.fault | split
    | simp only | dsimp only | refine RCanon.elim (by assumption) ?_)

theorem execVectorMulLo_wf (w : Who) (i : FmtR) (s : State) (hs : s.memWf = true) :
    RCanon (execVectorMulLo w i s) := by
  unfold execVectorMulLo
  with_reducible repeat' (first
    | assumption | apply State.vectorInt_wf | apply RCanon.next | apply RCanon.refused | apply RCanon.fault | split
    | simp only | dsimp only | refine RCanon.elim (by assumption) ?_)

theorem execVectorNot_wf (w : Who) (i : FmtR) (s : State) (hs : s.memWf = true) :
    RCanon (execVectorNot w i s) := by
  unfold execVectorNot
  with_reducible repeat' (first
    | assumption | apply State.vectorInt_wf | apply RCanon.next | apply RCanon.refused | apply RCanon.fault | split
    | simp only | dsimp only | refine RCanon.elim (by assumption) ?_)

theorem execVectorOr_wf (w : Who) (i : FmtR) (s : State) (hs : s.memWf = true) :
    RCanon (execVectorOr w i s) := by
  unfold execVectorOr
  with_reducible repeat' (first
    | assumption | apply State.vectorInt_wf | apply RCanon.next | apply RCanon.refused | apply RCanon.fault | split
    | simp only | dsimp only | refine RCanon.elim (by assumption) ?_)

theorem execVectorSel_wf (w : Who) (i : FmtR) (s : State) (hs : s.memWf = true) :
    RCanon (execVectorSel w i s) := by
  unfold execVectorSel
  with_reducible repeat' (first
    | assumption | apply State.issueR_wf | apply State.setLanes32_wf | apply ECanon.done | apply ECanon.jump
    | apply ECanon.wait | apply ECanon.busy | apply ECanon.raise | exact ECanon.stop | apply RCanon.next
    | apply RCanon.refused | apply RCanon.fault | split | intro _ _ _ | intro _ _ | intro _ | simp only | dsimp only
    | dsimp only [id] | refine RCanon.elim (by assumption) ?_ | refine ECanon.done_elim (by assumption) ?_
    | refine ECanon.jump_elim (by assumption) ?_ | refine ECanon.wait_elim (by assumption) ?_
    | refine ECanon.busy_elim (by assumption) ?_ | refine ECanon.raise_elim (by assumption) ?_)

theorem execVectorShl_wf (w : Who) (i : FmtR) (s : State) (hs : s.memWf = true) :
    RCanon (execVectorShl w i s) := by
  unfold execVectorShl
  with_reducible repeat' (first
    | assumption | apply State.vectorInt_wf | apply RCanon.next | apply RCanon.refused | apply RCanon.fault | split
    | simp only | dsimp only | refine RCanon.elim (by assumption) ?_)

theorem execVectorShr_wf (w : Who) (i : FmtR) (s : State) (hs : s.memWf = true) :
    RCanon (execVectorShr w i s) := by
  unfold execVectorShr
  with_reducible repeat' (first
    | assumption | apply State.vectorInt_wf | apply RCanon.next | apply RCanon.refused | apply RCanon.fault | split
    | simp only | dsimp only | refine RCanon.elim (by assumption) ?_)

theorem execVectorSra_wf (w : Who) (i : FmtR) (s : State) (hs : s.memWf = true) :
    RCanon (execVectorSra w i s) := by
  unfold execVectorSra
  with_reducible repeat' (first
    | assumption | apply State.vectorInt_wf | apply RCanon.next | apply RCanon.refused | apply RCanon.fault | split
    | simp only | dsimp only | refine RCanon.elim (by assumption) ?_)

theorem execVectorSub_wf (w : Who) (i : FmtR) (s : State) (hs : s.memWf = true) :
    RCanon (execVectorSub w i s) := by
  unfold execVectorSub
  with_reducible repeat' (first
    | assumption | apply State.vectorInt_wf | apply RCanon.next | apply RCanon.refused | apply RCanon.fault | split
    | simp only | dsimp only | refine RCanon.elim (by assumption) ?_)

theorem execVectorXor_wf (w : Who) (i : FmtR) (s : State) (hs : s.memWf = true) :
    RCanon (execVectorXor w i s) := by
  unfold execVectorXor
  with_reducible repeat' (first
    | assumption | apply State.vectorInt_wf | apply RCanon.next | apply RCanon.refused | apply RCanon.fault | split
    | simp only | dsimp only | refine RCanon.elim (by assumption) ?_)

theorem execVoteAll_wf (w : Who) (i : FmtR) (s : State) (hs : s.memWf = true) :
    RCanon (execVoteAll w i s) := by
  unfold execVoteAll
  with_reducible repeat' (first
    | assumption | apply State.issueR_wf | apply State.setP_wf | apply ECanon.done | apply ECanon.jump | apply ECanon.wait
    | apply ECanon.busy | apply ECanon.raise | exact ECanon.stop | apply RCanon.next | apply RCanon.refused
    | apply RCanon.fault | split | intro _ _ _ | intro _ _ | intro _ | simp only | dsimp only | dsimp only [id]
    | refine RCanon.elim (by assumption) ?_ | refine ECanon.done_elim (by assumption) ?_
    | refine ECanon.jump_elim (by assumption) ?_ | refine ECanon.wait_elim (by assumption) ?_
    | refine ECanon.busy_elim (by assumption) ?_ | refine ECanon.raise_elim (by assumption) ?_)

theorem execVoteAny_wf (w : Who) (i : FmtR) (s : State) (hs : s.memWf = true) :
    RCanon (execVoteAny w i s) := by
  unfold execVoteAny
  with_reducible repeat' (first
    | assumption | apply State.issueR_wf | apply State.setP_wf | apply ECanon.done | apply ECanon.jump | apply ECanon.wait
    | apply ECanon.busy | apply ECanon.raise | exact ECanon.stop | apply RCanon.next | apply RCanon.refused
    | apply RCanon.fault | split | intro _ _ _ | intro _ _ | intro _ | simp only | dsimp only | dsimp only [id]
    | refine RCanon.elim (by assumption) ?_ | refine ECanon.done_elim (by assumption) ?_
    | refine ECanon.jump_elim (by assumption) ?_ | refine ECanon.wait_elim (by assumption) ?_
    | refine ECanon.busy_elim (by assumption) ?_ | refine ECanon.raise_elim (by assumption) ?_)

theorem execVoteBallot_wf (w : Who) (i : FmtR) (s : State) (hs : s.memWf = true) :
    RCanon (execVoteBallot w i s) := by
  unfold execVoteBallot
  with_reducible repeat' (first
    | assumption | apply State.issueR_wf | apply State.setS_wf | apply ECanon.done | apply ECanon.jump | apply ECanon.wait
    | apply ECanon.busy | apply ECanon.raise | exact ECanon.stop | apply RCanon.next | apply RCanon.refused
    | apply RCanon.fault | split | intro _ _ _ | intro _ _ | intro _ | simp only | dsimp only | dsimp only [id]
    | refine RCanon.elim (by assumption) ?_ | refine ECanon.done_elim (by assumption) ?_
    | refine ECanon.jump_elim (by assumption) ?_ | refine ECanon.wait_elim (by assumption) ?_
    | refine ECanon.busy_elim (by assumption) ?_ | refine ECanon.raise_elim (by assumption) ?_)

/-! ### Convert -/

theorem State.collective_wf (s : State) (w : Who) (f : Form) (i : FmtR) (extra : Bool) (vecs : List (Nat × Bool)) (body : State → Nat → Grp → Eff) (hs : s.memWf = true) (hbody : ∀ (y0 : State) (y1 : Nat) (y2 : Grp), y0.memWf = true → ECanon (body y0 y1 y2)) :
    RCanon (State.collective s w f i extra vecs body) := by
  unfold State.collective
  with_reducible repeat' (first
    | assumption | apply hbody | apply State.issueR_wf | apply ECanon.done | apply ECanon.jump | apply ECanon.wait
    | apply ECanon.busy | apply ECanon.raise | exact ECanon.stop | apply RCanon.next | apply RCanon.refused
    | apply RCanon.fault | split | intro _ _ _ | intro _ _ | intro _ | simp only | dsimp only | dsimp only [id]
    | refine RCanon.elim (by assumption) ?_ | refine ECanon.done_elim (by assumption) ?_
    | refine ECanon.jump_elim (by assumption) ?_ | refine ECanon.wait_elim (by assumption) ?_
    | refine ECanon.busy_elim (by assumption) ?_ | refine ECanon.raise_elim (by assumption) ?_)

theorem State.setVImage_wf (s : State) (g n v : Nat) (hs : s.memWf = true) :
    (State.setVImage s g n v).memWf = true := by
  unfold State.setVImage
  with_reducible repeat' (first
    | assumption | apply State.setLanes32_wf | split | simp only | dsimp only)

theorem execCvt_wf (w : Who) (dst : Fin 16) (i : FmtR) (s : State) (hs : s.memWf = true) :
    RCanon (execCvt w dst i s) := by
  unfold execCvt
  with_reducible repeat' (first
    | assumption | apply State.issueR_wf | apply State.sticky_wf | apply State.setLanes32_wf | apply ECanon.done
    | apply ECanon.jump | apply ECanon.wait | apply ECanon.busy | apply ECanon.raise | exact ECanon.stop | apply RCanon.next
    | apply RCanon.refused | apply RCanon.fault | apply fold_wf1 | apply fold_wf2 | apply fold_wf | split | intro _ _ _
    | intro _ _ | intro _ | simp only | dsimp only | dsimp only [id] | refine RCanon.elim (by assumption) ?_
    | refine Canon.fst (by assumption) ?_ | refine ECanon.done_elim (by assumption) ?_
    | refine ECanon.jump_elim (by assumption) ?_ | refine ECanon.wait_elim (by assumption) ?_
    | refine ECanon.busy_elim (by assumption) ?_ | refine ECanon.raise_elim (by assumption) ?_)

theorem execGrainDec_wf (w : Who) (i : FmtR) (s : State) (hs : s.memWf = true) :
    RCanon (execGrainDec w i s) := by
  unfold execGrainDec
  with_reducible repeat' (first
    | assumption | apply State.collective_wf | apply State.sticky_wf | apply State.setLanes32_wf | apply ECanon.done
    | apply ECanon.jump | apply ECanon.wait | apply ECanon.busy | apply ECanon.raise | exact ECanon.stop | apply RCanon.next
    | apply RCanon.refused | apply RCanon.fault | apply fold_wf1 | apply fold_wf2 | apply fold_wf | split | intro _ _ _
    | intro _ _ | intro _ | simp only | dsimp only | dsimp only [id] | refine RCanon.elim (by assumption) ?_
    | refine Canon.fst (by assumption) ?_ | refine ECanon.done_elim (by assumption) ?_
    | refine ECanon.jump_elim (by assumption) ?_ | refine ECanon.wait_elim (by assumption) ?_
    | refine ECanon.busy_elim (by assumption) ?_ | refine ECanon.raise_elim (by assumption) ?_)

theorem execGrainEnc_wf (w : Who) (i : FmtR) (s : State) (hs : s.memWf = true) :
    RCanon (execGrainEnc w i s) := by
  unfold execGrainEnc
  with_reducible repeat' (first
    | assumption | apply State.collective_wf | apply State.sticky_wf | apply State.setVImage_wf | apply ECanon.done
    | apply ECanon.jump | apply ECanon.wait | apply ECanon.busy | apply ECanon.raise | exact ECanon.stop | apply RCanon.next
    | apply RCanon.refused | apply RCanon.fault | split | intro _ _ _ | intro _ _ | intro _ | simp only | dsimp only
    | dsimp only [id] | refine RCanon.elim (by assumption) ?_ | refine ECanon.done_elim (by assumption) ?_
    | refine ECanon.jump_elim (by assumption) ?_ | refine ECanon.wait_elim (by assumption) ?_
    | refine ECanon.busy_elim (by assumption) ?_ | refine ECanon.raise_elim (by assumption) ?_)

theorem execMxscale_wf (w : Who) (i : FmtR) (s : State) (hs : s.memWf = true) :
    RCanon (execMxscale w i s) := by
  unfold execMxscale
  with_reducible repeat' (first
    | assumption | apply State.collective_wf | apply State.sticky_wf | apply State.setS_wf | apply ECanon.done
    | apply ECanon.jump | apply ECanon.wait | apply ECanon.busy | apply ECanon.raise | exact ECanon.stop | apply RCanon.next
    | apply RCanon.refused | apply RCanon.fault | split | intro _ _ _ | intro _ _ | intro _ | simp only | dsimp only
    | dsimp only [id] | refine RCanon.elim (by assumption) ?_ | refine ECanon.done_elim (by assumption) ?_
    | refine ECanon.jump_elim (by assumption) ?_ | refine ECanon.wait_elim (by assumption) ?_
    | refine ECanon.busy_elim (by assumption) ?_ | refine ECanon.raise_elim (by assumption) ?_)

theorem execPack_wf (w : Who) (i : FmtR) (s : State) (hs : s.memWf = true) :
    RCanon (execPack w i s) := by
  unfold execPack
  with_reducible repeat' (first
    | assumption | apply State.collective_wf | apply State.setVImage_wf | apply ECanon.done | apply ECanon.jump
    | apply ECanon.wait | apply ECanon.busy | apply ECanon.raise | exact ECanon.stop | apply RCanon.next
    | apply RCanon.refused | apply RCanon.fault | apply fold_wf1 | apply fold_wf2 | apply fold_wf | split | intro _ _ _
    | intro _ _ | intro _ | simp only | dsimp only | dsimp only [id] | refine RCanon.elim (by assumption) ?_
    | refine Canon.fst (by assumption) ?_ | refine ECanon.done_elim (by assumption) ?_
    | refine ECanon.jump_elim (by assumption) ?_ | refine ECanon.wait_elim (by assumption) ?_
    | refine ECanon.busy_elim (by assumption) ?_ | refine ECanon.raise_elim (by assumption) ?_)

theorem execUnpack_wf (w : Who) (i : FmtR) (s : State) (hs : s.memWf = true) :
    RCanon (execUnpack w i s) := by
  unfold execUnpack
  with_reducible repeat' (first
    | assumption | apply State.collective_wf | apply State.setLanes32_wf | apply ECanon.done | apply ECanon.jump
    | apply ECanon.wait | apply ECanon.busy | apply ECanon.raise | exact ECanon.stop | apply RCanon.next
    | apply RCanon.refused | apply RCanon.fault | split | intro _ _ _ | intro _ _ | intro _ | simp only | dsimp only
    | dsimp only [id] | refine RCanon.elim (by assumption) ?_ | refine ECanon.done_elim (by assumption) ?_
    | refine ECanon.jump_elim (by assumption) ?_ | refine ECanon.wait_elim (by assumption) ?_
    | refine ECanon.busy_elim (by assumption) ?_ | refine ECanon.raise_elim (by assumption) ?_)

/-! ### Control -/

theorem State.goto_wf (s : State) (g pc : Nat) (hs : s.memWf = true) :
    (State.goto s g pc).memWf = true := by
  unfold State.goto
  with_reducible repeat' (first
    | assumption | apply State.updGrp_wf | split | simp only | dsimp only)

theorem State.issueC_wf (s : State) (w : Who) (i : FmtC) (long cond lowOk : Bool) (refs : List RegRef) (body : State → Nat → Grp → Eff) (hs : s.memWf = true) (hbody : ∀ (y0 : State) (y1 : Nat) (y2 : Grp), y0.memWf = true → ECanon (body y0 y1 y2)) :
    RCanon (State.issueC s w i long cond lowOk refs body) := by
  unfold State.issueC
  with_reducible repeat' (first
    | assumption | apply hbody | apply State.issue_wf | apply ECanon.done | apply ECanon.jump | apply ECanon.wait
    | apply ECanon.busy | apply ECanon.raise | exact ECanon.stop | apply RCanon.next | apply RCanon.refused
    | apply RCanon.fault | split | intro _ _ _ | intro _ _ | intro _ | simp only | dsimp only | dsimp only [id]
    | refine RCanon.elim (by assumption) ?_ | refine ECanon.done_elim (by assumption) ?_
    | refine ECanon.jump_elim (by assumption) ?_ | refine ECanon.wait_elim (by assumption) ?_
    | refine ECanon.busy_elim (by assumption) ?_ | refine ECanon.raise_elim (by assumption) ?_)

theorem State.jumpTo_wf (s : State) (w : Who) (i : FmtC) (hs : s.memWf = true) :
    RCanon (State.jumpTo s w i) := by
  unfold State.jumpTo
  with_reducible repeat' (first
    | assumption | apply State.issueC_wf | apply State.goto_wf | apply ECanon.done | apply ECanon.jump | apply ECanon.wait
    | apply ECanon.busy | apply ECanon.raise | exact ECanon.stop | apply RCanon.next | apply RCanon.refused
    | apply RCanon.fault | split | intro _ _ _ | intro _ _ | intro _ | simp only | dsimp only | dsimp only [id]
    | refine RCanon.elim (by assumption) ?_ | refine ECanon.done_elim (by assumption) ?_
    | refine ECanon.jump_elim (by assumption) ?_ | refine ECanon.wait_elim (by assumption) ?_
    | refine ECanon.busy_elim (by assumption) ?_ | refine ECanon.raise_elim (by assumption) ?_)

theorem execBra_wf (w : Who) (i : FmtC) (s : State) (hs : s.memWf = true) :
    RCanon (execBra w i s) := by
  unfold execBra
  with_reducible repeat' (first
    | assumption | apply State.issueC_wf | apply State.goto_wf | apply ECanon.done | apply ECanon.jump | apply ECanon.wait
    | apply ECanon.busy | apply ECanon.raise | exact ECanon.stop | apply RCanon.next | apply RCanon.refused
    | apply RCanon.fault | split | intro _ _ _ | intro _ _ | intro _ | simp only | dsimp only | dsimp only [id]
    | refine RCanon.elim (by assumption) ?_ | refine ECanon.done_elim (by assumption) ?_
    | refine ECanon.jump_elim (by assumption) ?_ | refine ECanon.wait_elim (by assumption) ?_
    | refine ECanon.busy_elim (by assumption) ?_ | refine ECanon.raise_elim (by assumption) ?_)

theorem execBraDiv_wf (w : Who) (i : FmtC) (s : State) (hs : s.memWf = true) :
    RCanon (execBraDiv w i s) := by
  unfold execBraDiv
  with_reducible repeat' (first
    | assumption | apply State.issueC_wf | apply State.updGrp_wf | apply ECanon.done | apply ECanon.jump | apply ECanon.wait
    | apply ECanon.busy | apply ECanon.raise | exact ECanon.stop | apply RCanon.next | apply RCanon.refused
    | apply RCanon.fault | split | intro _ _ _ | intro _ _ | intro _ | simp only | dsimp only | dsimp only [id]
    | refine RCanon.elim (by assumption) ?_ | refine ECanon.done_elim (by assumption) ?_
    | refine ECanon.jump_elim (by assumption) ?_ | refine ECanon.wait_elim (by assumption) ?_
    | refine ECanon.busy_elim (by assumption) ?_ | refine ECanon.raise_elim (by assumption) ?_)

theorem execBraInd_wf (w : Who) (i : FmtC) (s : State) (hs : s.memWf = true) :
    RCanon (execBraInd w i s) := by
  unfold execBraInd
  with_reducible repeat' (first
    | assumption | apply State.jumpTo_wf | apply RCanon.next | apply RCanon.refused | apply RCanon.fault | split | simp only
    | dsimp only | refine RCanon.elim (by assumption) ?_)

theorem execBrk_wf (w : Who) (i : FmtC) (s : State) (hs : s.memWf = true) :
    RCanon (execBrk w i s) := by
  unfold execBrk
  with_reducible repeat' (first
    | assumption | apply State.issueC_wf | apply State.updGrp_wf | apply ECanon.done | apply ECanon.jump | apply ECanon.wait
    | apply ECanon.busy | apply ECanon.raise | exact ECanon.stop | apply RCanon.next | apply RCanon.refused
    | apply RCanon.fault | split | intro _ _ _ | intro _ _ | intro _ | simp only | dsimp only | dsimp only [id]
    | refine RCanon.elim (by assumption) ?_ | refine ECanon.done_elim (by assumption) ?_
    | refine ECanon.jump_elim (by assumption) ?_ | refine ECanon.wait_elim (by assumption) ?_
    | refine ECanon.busy_elim (by assumption) ?_ | refine ECanon.raise_elim (by assumption) ?_)

theorem execCall_wf (w : Who) (i : FmtC) (s : State) (hs : s.memWf = true) :
    RCanon (execCall w i s) := by
  unfold execCall
  with_reducible repeat' (first
    | assumption | apply State.issueC_wf | apply State.goto_wf | apply State.setS_wf | apply ECanon.done | apply ECanon.jump
    | apply ECanon.wait | apply ECanon.busy | apply ECanon.raise | exact ECanon.stop | apply RCanon.next
    | apply RCanon.refused | apply RCanon.fault | split | intro _ _ _ | intro _ _ | intro _ | simp only | dsimp only
    | dsimp only [id] | refine RCanon.elim (by assumption) ?_ | refine ECanon.done_elim (by assumption) ?_
    | refine ECanon.jump_elim (by assumption) ?_ | refine ECanon.wait_elim (by assumption) ?_
    | refine ECanon.busy_elim (by assumption) ?_ | refine ECanon.raise_elim (by assumption) ?_)

theorem execExit_wf (w : Who) (i : FmtC) (s : State) (hs : s.memWf = true) :
    RCanon (execExit w i s) := by
  unfold execExit
  with_reducible repeat' (first
    | assumption | apply State.issueC_wf | apply State.updGrp_wf | apply ECanon.done | apply ECanon.jump | apply ECanon.wait
    | apply ECanon.busy | apply ECanon.raise | exact ECanon.stop | apply RCanon.next | apply RCanon.refused
    | apply RCanon.fault | split | intro _ _ _ | intro _ _ | intro _ | simp only | dsimp only | dsimp only [id]
    | refine RCanon.elim (by assumption) ?_ | refine ECanon.done_elim (by assumption) ?_
    | refine ECanon.jump_elim (by assumption) ?_ | refine ECanon.wait_elim (by assumption) ?_
    | refine ECanon.busy_elim (by assumption) ?_ | refine ECanon.raise_elim (by assumption) ?_)

theorem execJoin_wf (w : Who) (i : FmtC) (s : State) (hs : s.memWf = true) :
    RCanon (execJoin w i s) := by
  unfold execJoin
  with_reducible repeat' (first
    | assumption | apply State.issueC_wf | apply State.updGrp_wf | apply ECanon.done | apply ECanon.jump | apply ECanon.wait
    | apply ECanon.busy | apply ECanon.raise | exact ECanon.stop | apply RCanon.next | apply RCanon.refused
    | apply RCanon.fault | split | intro _ _ _ | intro _ _ | intro _ | simp only | dsimp only | dsimp only [id]
    | refine RCanon.elim (by assumption) ?_ | refine ECanon.done_elim (by assumption) ?_
    | refine ECanon.jump_elim (by assumption) ?_ | refine ECanon.wait_elim (by assumption) ?_
    | refine ECanon.busy_elim (by assumption) ?_ | refine ECanon.raise_elim (by assumption) ?_)

theorem execLoopEnter_wf (w : Who) (i : FmtC) (s : State) (hs : s.memWf = true) :
    RCanon (execLoopEnter w i s) := by
  unfold execLoopEnter
  with_reducible repeat' (first
    | assumption | apply State.issueC_wf | apply State.updGrp_wf | apply ECanon.done | apply ECanon.jump | apply ECanon.wait
    | apply ECanon.busy | apply ECanon.raise | exact ECanon.stop | apply RCanon.next | apply RCanon.refused
    | apply RCanon.fault | split | intro _ _ _ | intro _ _ | intro _ | simp only | dsimp only | dsimp only [id]
    | refine RCanon.elim (by assumption) ?_ | refine ECanon.done_elim (by assumption) ?_
    | refine ECanon.jump_elim (by assumption) ?_ | refine ECanon.wait_elim (by assumption) ?_
    | refine ECanon.busy_elim (by assumption) ?_ | refine ECanon.raise_elim (by assumption) ?_)

theorem execRet_wf (w : Who) (i : FmtC) (s : State) (hs : s.memWf = true) :
    RCanon (execRet w i s) := by
  unfold execRet
  with_reducible repeat' (first
    | assumption | apply State.jumpTo_wf | apply RCanon.next | apply RCanon.refused | apply RCanon.fault | split | simp only
    | dsimp only | refine RCanon.elim (by assumption) ?_)

/-! ### LocalMem -/

theorem State.issueM_wf (s : State) (w : Who) (i : FmtM) (reserved : Bool) (vecs : List (Nat × Nat)) (refs : List RegRef) (body : State → Nat → Grp → Nat → Eff) (early : State → Grp → Option Nat) (hs : s.memWf = true) (hbody : ∀ (y0 : State) (y1 : Nat) (y2 : Grp) (y3 : Nat), y0.memWf = true → ECanon (body y0 y1 y2 y3)) :
    RCanon (State.issueM s w i reserved vecs refs body early) := by
  unfold State.issueM
  with_reducible repeat' (first
    | assumption | apply hbody | apply State.issue_wf | apply ECanon.done | apply ECanon.jump | apply ECanon.wait
    | apply ECanon.busy | apply ECanon.raise | exact ECanon.stop | apply RCanon.next | apply RCanon.refused
    | apply RCanon.fault | split | intro _ _ _ | intro _ _ | intro _ | simp only | dsimp only | dsimp only [id]
    | refine RCanon.elim (by assumption) ?_ | refine ECanon.done_elim (by assumption) ?_
    | refine ECanon.jump_elim (by assumption) ?_ | refine ECanon.wait_elim (by assumption) ?_
    | refine ECanon.busy_elim (by assumption) ?_ | refine ECanon.raise_elim (by assumption) ?_)

theorem State.lmErrLog_wf (s : State) (a req : Nat) (hs : s.memWf = true) :
    (State.lmErrLog s a req).memWf = true := by
  unfold State.lmErrLog
  with_reducible repeat' (first
    | assumption | apply State.fset_wf | apply State.event_wf | split | simp only | dsimp only)

theorem State.setLmPoison_wf (s : State) (a : Nat) (b : Bool) (hs : s.memWf = true) :
    (State.setLmPoison s a b).memWf = true := by
  unfold State.setLmPoison
  with_reducible repeat' (first
    | assumption | split | simp only | dsimp only | simp only [memWf_mk, cmpWf_mk, memOk_cmp, cmpWf])

theorem State.lmFind_wf (s : State) (l : List Nat) (hs : s.memWf = true) :
    (State.lmFind s l).memWf = true := by
  unfold State.lmFind
  with_reducible repeat' (first
    | assumption | apply State.setLmPoison_wf | apply State.updCore_wf | apply State.foundUpset_wf | apply fold_wf1
    | apply fold_wf2 | apply fold_wf | split | intro _ _ _ | intro _ _ | intro _ | simp only | dsimp only
    | refine Canon.fst (by assumption) ?_)

theorem State.setLmByte_wf (s : State) (a : Nat) (b : Byte) (hs : s.memWf = true) :
    (State.setLmByte s a b).memWf = true := by
  unfold State.setLmByte
  with_reducible repeat' (first
    | assumption | split | simp only | dsimp only | simp only [memWf_mk, cmpWf_mk, memOk_cmp, cmpWf])

theorem State.lmPut_wf (s : State) (a : Nat) (l : List Byte) (hs : s.memWf = true) :
    (State.lmPut s a l).memWf = true := by
  unfold State.lmPut
  with_reducible repeat' (first
    | assumption | apply State.setLmByte_wf | apply fold_wf1 | apply fold_wf2 | apply fold_wf | split | intro _ _ _
    | intro _ _ | intro _ | simp only | dsimp only | refine Canon.fst (by assumption) ?_)

theorem State.putLoaded_wf (s : State) (g : Nat) (r : LaneRead) (v : Nat) (hs : s.memWf = true) :
    (State.putLoaded s g r v).memWf = true := by
  unfold State.putLoaded
  with_reducible repeat' (first
    | assumption | apply State.setS_wf | apply State.setV_wf | apply fold_wf1 | apply fold_wf2 | apply fold_wf | split
    | intro _ _ _ | intro _ _ | intro _ | simp only | dsimp only | refine Canon.fst (by assumption) ?_)

theorem State.putFree_wf (s : State) (g : Nat) (r : LaneRead) (hs : s.memWf = true) :
    (State.putFree s g r).memWf = true := by
  unfold State.putFree
  with_reducible repeat' (first
    | assumption | apply State.take_wf | apply State.putLoaded_wf | split | simp only | dsimp only
    | refine Canon.snd (by assumption) ?_)

theorem State.localAtomic_wf (s : State) (g pc : Nat) (a : Atom) (reads : List LaneRead) (va : Nat) (hs : s.memWf = true) :
    (State.localAtomic s g pc a reads va).memWf = true := by
  unfold State.localAtomic
  with_reducible repeat' (first
    | assumption | apply State.lmFind_wf | apply State.lmErrLog_wf | apply State.putFree_wf | apply State.putLoaded_wf
    | apply State.lmPut_wf | apply State.defer_wf | apply fold_wf1 | apply fold_wf2 | apply fold_wf | split | intro _ _ _
    | intro _ _ | intro _ | simp only | dsimp only | refine Canon.fst (by assumption) ?_)

theorem State.atomLocal_wf (s : State) (before : State → Nat → Grp → Eff × Bool) (after : State → Nat → State) (acq rel : Option Nat) (o : AtomOp) (w : Who) (scalar : Bool) (i : FmtM) (hs : s.memWf = true) (hbefore : ∀ (y0 : State) (y1 : Nat) (y2 : Grp), y0.memWf = true → ECanon (before y0 y1 y2).1) (hafter : ∀ (y0 : State) (y1 : Nat), y0.memWf = true → (after y0 y1).memWf = true) :
    RCanon (State.atomLocal s before after acq rel o w scalar i) := by
  unfold State.atomLocal
  with_reducible repeat' (first
    | assumption | apply hbefore | apply hafter | apply State.issueM_wf | apply State.localAtomic_wf | apply ECanon.done
    | apply ECanon.jump | apply ECanon.wait | apply ECanon.busy | apply ECanon.raise | exact ECanon.stop | apply RCanon.next
    | apply RCanon.refused | apply RCanon.fault | split | intro _ _ _ | intro _ _ | intro _ | simp only | dsimp only
    | dsimp only [id] | simp only [memWf_mk, cmpWf_mk, memOk_cmp, cmpWf] | refine RCanon.elim (by assumption) ?_
    | refine ECanon.pairDone (by assumption) ?_ | refine ECanon.pair (by assumption) ?_
    | refine ECanon.done_elim (by assumption) ?_ | refine ECanon.jump_elim (by assumption) ?_
    | refine ECanon.wait_elim (by assumption) ?_ | refine ECanon.busy_elim (by assumption) ?_
    | refine ECanon.raise_elim (by assumption) ?_)

theorem State.lmArrayErr_wf (s : State) (e : ArrayErr) (a : Nat) (hs : s.memWf = true) :
    OCanon id (State.lmArrayErr s e a) := by
  unfold State.lmArrayErr
  with_reducible repeat' (first
    | assumption | apply State.updCore_wf | apply State.setLmPoison_wf | exact OCanon.none | apply OCanon.someId
    | apply OCanon.some | split | simp only | dsimp only | dsimp only [id] | refine OCanon.id_ (by assumption) ?_)

theorem State.lmWrite_wf (s : State) (l : List (Nat × List Byte)) (hs : s.memWf = true) :
    (State.lmWrite s l).memWf = true := by
  unfold State.lmWrite
  with_reducible repeat' (first
    | assumption | apply State.setLmPoison_wf | apply State.lmPut_wf | apply fold_wf1 | apply fold_wf2 | apply fold_wf | split
    | intro _ _ _ | intro _ _ | intro _ | simp only | dsimp only | refine Canon.fst (by assumption) ?_)

theorem execLdL_wf (w : Who) (i : FmtM) (e : ArrayErr) (s : State) (hs : s.memWf = true) :
    RCanon (execLdL w i e s) := by
  unfold execLdL
  with_reducible repeat' (first
    | assumption | apply State.issueM_wf | apply State.coreError_wf | apply State.lmArrayErr_wf | apply State.lmFind_wf
    | apply State.lmErrLog_wf | apply State.putFree_wf | apply State.putLoaded_wf | apply State.defer_wf | apply ECanon.done
    | apply ECanon.jump | apply ECanon.wait | apply ECanon.busy | apply ECanon.raise | exact ECanon.stop | apply RCanon.next
    | apply RCanon.refused | apply RCanon.fault | exact OCanon.none | apply OCanon.someId | apply OCanon.some | apply fold_wf1
    | apply fold_wf2 | apply fold_wf | split | intro _ _ _ | intro _ _ | intro _ | simp only | dsimp only | dsimp only [id]
    | refine OCanon.id_ (by assumption) ?_ | refine RCanon.elim (by assumption) ?_ | refine Canon.fst (by assumption) ?_
    | refine ECanon.done_elim (by assumption) ?_ | refine ECanon.jump_elim (by assumption) ?_
    | refine ECanon.wait_elim (by assumption) ?_ | refine ECanon.busy_elim (by assumption) ?_
    | refine ECanon.raise_elim (by assumption) ?_)

theorem execLmCeWriteback_wf (core : Fin 8192) (granule : Fin 65536) (s : State) (hs : s.memWf = true) :
    RCanon (execLmCeWriteback core granule s) := by
  unfold execLmCeWriteback
  with_reducible repeat' (first
    | assumption | apply stop_wf | apply State.ceEvent_wf | apply State.updCore_wf | apply RCanon.next | apply RCanon.refused
    | apply RCanon.fault | split | simp only | dsimp only)

theorem execStL_wf (w : Who) (i : FmtM) (e : ArrayErr) (s : State) (hs : s.memWf = true) :
    RCanon (execStL w i e s) := by
  unfold execStL
  with_reducible repeat' (first
    | assumption | apply State.issueM_wf | apply State.coreError_wf | apply State.lmArrayErr_wf | apply State.lmFind_wf
    | apply State.lmErrLog_wf | apply State.lmWrite_wf | apply ECanon.done | apply ECanon.jump | apply ECanon.wait
    | apply ECanon.busy | apply ECanon.raise | exact ECanon.stop | apply RCanon.next | apply RCanon.refused
    | apply RCanon.fault | exact OCanon.none | apply OCanon.someId | apply OCanon.some | apply fold_wf1 | apply fold_wf2
    | apply fold_wf | split | intro _ _ _ | intro _ _ | intro _ | simp only | dsimp only | dsimp only [id]
    | refine OCanon.id_ (by assumption) ?_ | refine RCanon.elim (by assumption) ?_ | refine Canon.fst (by assumption) ?_
    | refine ECanon.done_elim (by assumption) ?_ | refine ECanon.jump_elim (by assumption) ?_
    | refine ECanon.wait_elim (by assumption) ?_ | refine ECanon.busy_elim (by assumption) ?_
    | refine ECanon.raise_elim (by assumption) ?_)

/-! ### GrigaLink -/

theorem State.setGport_wf (s : State) (p : Nat) (g : GPort) (hs : s.memWf = true) :
    (State.setGport s p g).memWf = true := by
  unfold State.setGport
  with_reducible repeat' (first
    | assumption | split | simp only | dsimp only | simp only [memWf_mk, cmpWf_mk, memOk_cmp, cmpWf])

theorem State.readiness_wf (s : State) (f : Fld) (n : Nat) (hs : s.memWf = true) :
    (State.readiness s f n).memWf = true := by
  unfold State.readiness
  with_reducible repeat' (first
    | assumption | apply State.logEvent_wf | apply State.event_wf | apply State.fset_wf | split | simp only | dsimp only)

theorem State.grigaDone_wf (s : State) (hs : s.memWf = true) :
    (State.grigaDone s).memWf = true := by
  unfold State.grigaDone
  with_reducible repeat' (first
    | assumption | apply State.readiness_wf | split | simp only | dsimp only)

theorem State.linkRecord_wf (s : State) (p : Nat) (hs : s.memWf = true) :
    (State.linkRecord s p).memWf = true := by
  unfold State.linkRecord
  with_reducible repeat' (first
    | assumption | apply State.dfqWrite_wf | split | simp only | dsimp only)

theorem State.portEvent_wf (s : State) (p k : Nat) (hs : s.memWf = true) :
    (State.portEvent s p k).memWf = true := by
  unfold State.portEvent
  with_reducible repeat' (first
    | assumption | apply State.event_wf | split | simp only | dsimp only)

theorem State.showLanes_wf (s : State) (p lanes : Nat) (hs : s.memWf = true) :
    (State.showLanes s p lanes).memWf = true := by
  unfold State.showLanes
  with_reducible repeat' (first
    | assumption | apply State.fset_wf | apply State.portEvent_wf | split | simp only | dsimp only)

theorem State.setPortState_wf (s : State) (p st : Nat) (hs : s.memWf = true) :
    (State.setPortState s p st).memWf = true := by
  unfold State.setPortState
  with_reducible repeat' (first
    | assumption | apply State.portEvent_wf | apply State.fset_wf | apply State.linkRecord_wf | apply State.showLanes_wf
    | apply State.grigaDone_wf | split | simp only | dsimp only)

theorem State.askSlot_wf (s : State) (p : Nat) (hs : s.memWf = true) :
    (State.askSlot s p).memWf = true := by
  unfold State.askSlot
  with_reducible repeat' (first
    | assumption | apply State.setGport_wf | apply State.emit_wf | apply State.setPortState_wf | split | simp only
    | dsimp only | simp only [memWf_mk, cmpWf_mk, memOk_cmp, cmpWf])

theorem State.count48_wf (s : State) (count ovf : Fld) (i n die src : Nat) (hs : s.memWf = true) :
    (State.count48 s count ovf i n die src).memWf = true := by
  unfold State.count48
  with_reducible repeat' (first
    | assumption | apply State.fset_wf | apply State.event_wf | split | simp only | dsimp only)

theorem State.portCount_wf (s : State) (p i n : Nat) (hs : s.memWf = true) :
    (State.portCount s p i n).memWf = true := by
  unfold State.portCount
  with_reducible repeat' (first
    | assumption | apply State.count48_wf | split | simp only | dsimp only)

theorem State.dropFlit_wf (s : State) (p : Nat) (hs : s.memWf = true) :
    (State.dropFlit s p).memWf = true := by
  unfold State.dropFlit
  with_reducible repeat' (first
    | assumption | apply State.portCount_wf | apply State.emit_wf | apply State.setGport_wf | split | simp only | dsimp only)

theorem State.enterRetrain_wf (s : State) (p cand : Nat) (hs : s.memWf = true) :
    (State.enterRetrain s p cand).memWf = true := by
  unfold State.enterRetrain
  with_reducible repeat' (first
    | assumption | apply State.portCount_wf | apply State.portEvent_wf | apply State.setPortState_wf | apply State.setGport_wf
    | split | simp only | dsimp only)

theorem State.setLanes_wf (s : State) (p lanes : Nat) (hs : s.memWf = true) :
    (State.setLanes s p lanes).memWf = true := by
  unfold State.setLanes
  with_reducible repeat' (first
    | assumption | apply State.showLanes_wf | apply State.linkRecord_wf | split | simp only | dsimp only)

theorem State.portDisable_wf (s : State) (p : Nat) (hs : s.memWf = true) :
    (State.portDisable s p).memWf = true := by
  unfold State.portDisable
  with_reducible repeat' (first
    | assumption | apply State.setLanes_wf | apply State.setPortState_wf | apply State.setGport_wf | split | simp only
    | dsimp only)

theorem State.portEnable_wf (s : State) (p : Nat) (hs : s.memWf = true) :
    (State.portEnable s p).memWf = true := by
  unfold State.portEnable
  with_reducible repeat' (first
    | assumption | apply State.emit_wf | apply State.setPortState_wf | apply State.setGport_wf | split | simp only
    | dsimp only)

theorem State.portRetrain_wf (s : State) (p : Nat) (hs : s.memWf = true) :
    (State.portRetrain s p).memWf = true := by
  unfold State.portRetrain
  with_reducible repeat' (first
    | assumption | apply State.fset_wf | apply State.enterRetrain_wf | apply State.askSlot_wf | apply State.emit_wf
    | apply State.setPortState_wf | apply State.setGport_wf | split | simp only | dsimp only)

theorem State.replay_wf (s : State) (p : Nat) (hs : s.memWf = true) :
    (State.replay s p).memWf = true := by
  unfold State.replay
  with_reducible repeat' (first
    | assumption | apply State.portCount_wf | apply State.setGport_wf | apply State.enterRetrain_wf | apply State.portEvent_wf
    | apply State.emit_wf | split | simp only | dsimp only)

theorem State.sendMsg_wf (s : State) (p : Nat) (m : GMsg) (hs : s.memWf = true) :
    (State.sendMsg s p m).memWf = true := by
  unfold State.sendMsg
  with_reducible repeat' (first
    | assumption | apply State.emit_wf | apply State.setGport_wf | split | simp only | dsimp only)

theorem State.showPartner_wf (s : State) (p : Nat) (q : Present) (hs : s.memWf = true) :
    (State.showPartner s p q).memWf = true := by
  unfold State.showPartner
  with_reducible repeat' (first
    | assumption | apply State.fset_wf | split | simp only | dsimp only)

theorem State.takeAck_wf (s : State) (p ack : Nat) (hs : s.memWf = true) :
    (State.takeAck s p ack).memWf = true := by
  unfold State.takeAck
  with_reducible repeat' (first
    | assumption | apply State.setGport_wf | split | simp only | dsimp only)

theorem execBerMeasurement_wf (port : Fin 32) (bad : BitVec 4) (s : State) (hs : s.memWf = true) :
    RCanon (execBerMeasurement port bad s) := by
  unfold execBerMeasurement
  with_reducible repeat' (first
    | assumption | apply need_wf | apply State.enterRetrain_wf | apply RCanon.next | apply RCanon.refused | apply RCanon.fault
    | split | simp only | dsimp only)

theorem execDataFlit_wf (port : Fin 32) (seq ack : Fin 4096) (good : Bool) (s : State) (hs : s.memWf = true) :
    RCanon (execDataFlit port seq ack good s) := by
  unfold execDataFlit
  with_reducible repeat' (first
    | assumption | apply State.takeAck_wf | apply State.setGport_wf | apply State.dropFlit_wf | apply RCanon.next
    | apply RCanon.refused | apply RCanon.fault | split | simp only | dsimp only)

theorem execDelayFlit_wf (port : Fin 32) (t1 t2 t3 t4 : W64) (s : State) (hs : s.memWf = true) :
    RCanon (execDelayFlit port t1 t2 t3 t4 s) := by
  unfold execDelayFlit
  with_reducible repeat' (first
    | assumption | apply State.fset_wf | apply RCanon.next | apply RCanon.refused | apply RCanon.fault | split | simp only
    | dsimp only)

theorem execFecAlignmentLoss_wf (port : Fin 32) (s : State) (hs : s.memWf = true) :
    RCanon (execFecAlignmentLoss port s) := by
  unfold execFecAlignmentLoss
  with_reducible repeat' (first
    | assumption | apply need_wf | apply State.enterRetrain_wf | apply RCanon.next | apply RCanon.refused | apply RCanon.fault
    | split | simp only | dsimp only)

theorem execHoldRetry_wf (port : Fin 32) (s : State) (hs : s.memWf = true) :
    RCanon (execHoldRetry port s) := by
  unfold execHoldRetry
  with_reducible repeat' (first
    | assumption | apply need_wf | apply State.askSlot_wf | apply State.setGport_wf | apply RCanon.next | apply RCanon.refused
    | apply RCanon.fault | split | simp only | dsimp only)

theorem execHoldSet_wf (port : Fin 32) (partner : Present) (s : State) (hs : s.memWf = true) :
    RCanon (execHoldSet port partner s) := by
  unfold execHoldSet
  with_reducible repeat' (first
    | assumption | apply State.setGport_wf | apply State.showPartner_wf | apply State.emit_wf | apply State.setPortState_wf
    | apply RCanon.next | apply RCanon.refused | apply RCanon.fault | split | simp only | dsimp only)

theorem execIdleFlit_wf (port : Fin 32) (seq ack : Fin 4096) (good : Bool) (s : State) (hs : s.memWf = true) :
    RCanon (execIdleFlit port seq ack good s) := by
  unfold execIdleFlit
  with_reducible repeat' (first
    | assumption | apply State.takeAck_wf | apply State.dropFlit_wf | apply RCanon.next | apply RCanon.refused
    | apply RCanon.fault | split | simp only | dsimp only)

theorem execNakFlit_wf (port : Fin 32) (expected : Fin 4096) (s : State) (hs : s.memWf = true) :
    RCanon (execNakFlit port expected s) := by
  unfold execNakFlit
  with_reducible repeat' (first
    | assumption | apply State.takeAck_wf | apply State.replay_wf | apply RCanon.next | apply RCanon.refused
    | apply RCanon.fault | split | simp only | dsimp only)

theorem execPortUp_wf (port : Fin 32) (lanes : BitVec 4) (s : State) (hs : s.memWf = true) :
    RCanon (execPortUp port lanes s) := by
  unfold execPortUp
  with_reducible repeat' (first
    | assumption | apply need_wf | apply State.setPortState_wf | apply State.setLanes_wf | apply State.setGport_wf
    | apply RCanon.next | apply RCanon.refused | apply RCanon.fault | split | simp only | dsimp only)

theorem execPresentSet_wf (port : Fin 32) (partner : Present) (s : State) (hs : s.memWf = true) :
    RCanon (execPresentSet port partner s) := by
  unfold execPresentSet
  with_reducible repeat' (first
    | assumption | apply State.showPartner_wf | apply State.askSlot_wf | apply RCanon.next | apply RCanon.refused
    | apply RCanon.fault | split | simp only | dsimp only)

theorem execReplayTimeout_wf (port : Fin 32) (s : State) (hs : s.memWf = true) :
    RCanon (execReplayTimeout port s) := by
  unfold execReplayTimeout
  with_reducible repeat' (first
    | assumption | apply need_wf | apply State.replay_wf | apply RCanon.next | apply RCanon.refused | apply RCanon.fault
    | split | simp only | dsimp only)

theorem execRetrainComplete_wf (port : Fin 32) (failed : BitVec 4) (s : State) (hs : s.memWf = true) :
    RCanon (execRetrainComplete port failed s) := by
  unfold execRetrainComplete
  with_reducible repeat' (first
    | assumption | apply State.portCount_wf | apply State.setPortState_wf | apply State.setLanes_wf | apply need_wf
    | apply State.emit_wf | apply RCanon.next | apply RCanon.refused | apply RCanon.fault | split | simp only | dsimp only)

theorem execTrainingGrant_wf (port : Fin 32) (s : State) (hs : s.memWf = true) :
    RCanon (execTrainingGrant port s) := by
  unfold execTrainingGrant
  with_reducible repeat' (first
    | assumption | apply need_wf | apply State.setPortState_wf | apply State.setGport_wf | apply RCanon.next
    | apply RCanon.refused | apply RCanon.fault | split | simp only | dsimp only)

theorem execTrainingTimeout_wf (port : Fin 32) (s : State) (hs : s.memWf = true) :
    RCanon (execTrainingTimeout port s) := by
  unfold execTrainingTimeout
  with_reducible repeat' (first
    | assumption | apply State.fset_wf | apply State.setGport_wf | apply need_wf | apply State.setPortState_wf
    | apply State.askSlot_wf | apply RCanon.next | apply RCanon.refused | apply RCanon.fault | split | simp only | dsimp only)

/-! ### Egress -/

theorem State.accSent_wf (s : State) (i : Issuer) (hs : s.memWf = true) :
    (State.accSent s i).memWf = true := by
  unfold State.accSent
  with_reducible repeat' (first
    | assumption | split | simp only | dsimp only | simp only [memWf_mk, cmpWf_mk, memOk_cmp, cmpWf])

theorem State.pkgCount_wf (s : State) (i n : Nat) (hs : s.memWf = true) :
    (State.pkgCount s i n).memWf = true := by
  unfold State.pkgCount
  with_reducible repeat' (first
    | assumption | apply State.fset_wf | split | simp only | dsimp only)

theorem State.egressTake_wf (s : State) (index : Nat) (e : EgReq) (w : Nat) (hs : s.memWf = true) :
    (State.egressTake s index e w).memWf = true := by
  unfold State.egressTake
  with_reducible repeat' (first
    | assumption | apply State.sendMsg_wf | apply State.pkgCount_wf | apply State.accSent_wf | split | simp only | dsimp only
    | simp only [memWf_mk, cmpWf_mk, memOk_cmp, cmpWf])

theorem State.route_wf (s : State) (dst : Nat) (hs : s.memWf = true) :
    (State.route s dst).1.memWf = true := by
  unfold State.route
  with_reducible repeat' (first
    | assumption | apply State.readWord_wf | apply State.pick_wf | split | simp only | dsimp only
    | simp only [memWf_mk, cmpWf_mk, memOk_cmp, cmpWf] | refine Canon.fst (by assumption) ?_
    | refine Canon.snd (by assumption) ?_)

theorem State.egress_wf (s : State) (noremote : Bool) (i : Issuer) (m : GMsg) (hs : s.memWf = true) :
    (State.egress s noremote i m).1.memWf = true := by
  unfold State.egress
  with_reducible repeat' (first
    | assumption | apply State.route_wf | apply State.egressTake_wf | split | simp only | dsimp only
    | simp only [memWf_mk, cmpWf_mk, memOk_cmp, cmpWf] | refine Canon.fst (by assumption) ?_)

theorem State.egressDrain_wf (s : State) (hs : s.memWf = true) :
    (State.egressDrain s).1.memWf = true := by
  unfold State.egressDrain
  with_reducible repeat' (first
    | assumption | apply State.route_wf | apply State.egressTake_wf | apply fold_wf1 | apply fold_wf2 | apply fold_wf | split
    | intro _ _ _ | intro _ _ | intro _ | simp only | dsimp only | simp only [memWf_mk, cmpWf_mk, memOk_cmp, cmpWf]
    | refine Canon.fst (by assumption) ?_)

theorem State.egressFreeEntry_wf (s : State) (index : Nat) (hs : s.memWf = true) :
    (State.egressFreeEntry s index).memWf = true := by
  unfold State.egressFreeEntry
  with_reducible repeat' (first
    | assumption | split | simp only | dsimp only | simp only [memWf_mk, cmpWf_mk, memOk_cmp, cmpWf])

/-! ### Near -/

theorem State.addAcc_wf (s : State) (a : Access) (hs : s.memWf = true) :
    (State.addAcc s a).memWf = true := by
  unfold State.addAcc
  with_reducible repeat' (first
    | assumption | split | simp only | dsimp only | simp only [memWf_mk, cmpWf_mk, memOk_cmp, cmpWf])

theorem State.coreStore_wf (s : State) (core ctx line attr mask : Nat) (d : Line) (hs : s.memWf = true) :
    (State.coreStore s core ctx line attr mask d).memWf = true := by
  unfold State.coreStore
  with_reducible repeat' (first
    | assumption | apply State.addAcc_wf | split | simp only | dsimp only)

theorem State.dropFills_wf (s : State) (core : Nat) (p : Nat → Bool) (which : Fill → Bool) (hs : s.memWf = true) :
    (State.dropFills s core p which).memWf = true := by
  unfold State.dropFills
  with_reducible repeat' (first
    | assumption | apply State.coreStore_wf | apply fold_wf1 | apply fold_wf2 | apply fold_wf | split | intro _ _ _
    | intro _ _ | intro _ | simp only | dsimp only | simp only [memWf_mk, cmpWf_mk, memOk_cmp, cmpWf]
    | refine Canon.fst (by assumption) ?_)

theorem State.setNear_wf (s : State) (f : Near → Near) (hs : s.memWf = true) :
    (State.setNear s f).memWf = true := by
  unfold State.setNear
  with_reducible repeat' (first
    | assumption | split | simp only | dsimp only | simp only [memWf_mk, cmpWf_mk, memOk_cmp, cmpWf])

theorem State.l1Drop_wf (s : State) (core : Nat) (p : Nat → Bool) (hs : s.memWf = true) :
    (State.l1Drop s core p).memWf = true := by
  unfold State.l1Drop
  with_reducible repeat' (first
    | assumption | apply State.setNear_wf | apply State.dropFills_wf | split | simp only | dsimp only)

theorem State.scBack_wf (s : State) (k : Nat) (hs : s.memWf = true) :
    (State.scBack s k).memWf = true := by
  unfold State.scBack
  with_reducible repeat' (first
    | assumption | apply State.setNear_wf | apply State.coreStore_wf | split | simp only | dsimp only)

theorem State.scWriteBack_wf (s : State) (core : Nat) (p : Nat → Bool) (hs : s.memWf = true) :
    (State.scWriteBack s core p).memWf = true := by
  unfold State.scWriteBack
  with_reducible repeat' (first
    | assumption | apply State.dropFills_wf | apply State.scBack_wf | apply fold_wf1 | apply fold_wf2 | apply fold_wf | split
    | intro _ _ _ | intro _ _ | intro _ | simp only | dsimp only | refine Canon.fst (by assumption) ?_)

theorem State.scDrop_wf (s : State) (core : Nat) (p : Nat → Bool) (hs : s.memWf = true) :
    (State.scDrop s core p).memWf = true := by
  unfold State.scDrop
  with_reducible repeat' (first
    | assumption | apply State.setNear_wf | apply State.dropFills_wf | apply State.scWriteBack_wf | split | simp only
    | dsimp only)

theorem State.acquireSide_wf (s : State) (core : Nat) (hs : s.memWf = true) :
    (State.acquireSide s core).memWf = true := by
  unfold State.acquireSide
  with_reducible repeat' (first
    | assumption | apply State.scDrop_wf | apply State.l1Drop_wf | split | simp only | dsimp only)

theorem State.dropAcc_wf (s : State) (id : Nat) (hs : s.memWf = true) :
    (State.dropAcc s id).memWf = true := by
  unfold State.dropAcc
  with_reducible repeat' (first
    | assumption | split | simp only | dsimp only | simp only [memWf_mk, cmpWf_mk, memOk_cmp, cmpWf])

theorem State.icDrop_wf (s : State) (core : Nat) (p : Nat → Bool) (hs : s.memWf = true) :
    (State.icDrop s core p).memWf = true := by
  unfold State.icDrop
  with_reducible repeat' (first
    | assumption | apply State.setNear_wf | split | simp only | dsimp only)

theorem State.nearParity_wf (s : State) (core : Nat) (cnt sat : Fld) (hs : s.memWf = true) :
    (State.nearParity s core cnt sat).memWf = true := by
  unfold State.nearParity
  with_reducible repeat' (first
    | assumption | apply State.ceEvent_wf | split | simp only | dsimp only)

theorem State.l1Find_wf (s : State) (core va : Nat) (hs : s.memWf = true) :
    (State.l1Find s core va).memWf = true := by
  unfold State.l1Find
  with_reducible repeat' (first
    | assumption | apply State.nearParity_wf | apply State.setNear_wf | apply State.foundUpset_wf | split | simp only
    | dsimp only)

theorem State.l1Put_wf (s : State) (core va : Nat) (d : Line) (hs : s.memWf = true) :
    (State.l1Put s core va d).memWf = true := by
  unfold State.l1Put
  with_reducible repeat' (first
    | assumption | apply State.pick_wf | apply State.setNear_wf | split | simp only | dsimp only
    | refine Canon.snd (by assumption) ?_)

theorem State.l1Update_wf (s : State) (core va mask : Nat) (d : Line) (hs : s.memWf = true) :
    (State.l1Update s core va mask d).memWf = true := by
  unfold State.l1Update
  with_reducible repeat' (first
    | assumption | apply State.setNear_wf | apply State.dropFills_wf | split | simp only | dsimp only)

theorem State.nearClean_wf (s : State) (core : Nat) (hs : s.memWf = true) :
    (State.nearClean s core).memWf = true := by
  unfold State.nearClean
  with_reducible repeat' (first
    | assumption | apply State.icDrop_wf | apply State.acquireSide_wf | split | simp only | dsimp only)

theorem State.releaseSide_wf (s : State) (core : Nat) (hs : s.memWf = true) :
    (State.releaseSide s core).memWf = true := by
  unfold State.releaseSide
  with_reducible repeat' (first
    | assumption | apply State.scWriteBack_wf | split | simp only | dsimp only)

theorem State.scLost_wf (s : State) (k : Nat) (hs : s.memWf = true) :
    (State.scLost s k).memWf = true := by
  unfold State.scLost
  with_reducible repeat' (first
    | assumption | apply State.nearParity_wf | apply State.setNear_wf | apply State.foundUpset_wf | split | simp only
    | dsimp only)

theorem State.scRoom_wf (s : State) (core : Nat) (hs : s.memWf = true) :
    (State.scRoom s core).1.memWf = true := by
  unfold State.scRoom
  with_reducible repeat' (first
    | assumption | apply State.scLost_wf | apply State.setNear_wf | apply State.scBack_wf | apply fold_wf1 | apply fold_wf2
    | apply fold_wf | split | intro _ _ _ | intro _ _ | intro _ | simp only | dsimp only | refine Canon.fst (by assumption) ?_)

theorem State.tick1_wf (s : State) (hs : s.memWf = true) :
    (State.tick1 s).2.memWf = true := by
  unfold State.tick1
  with_reducible repeat' (first
    | assumption | split | simp only | dsimp only | simp only [memWf_mk, cmpWf_mk, memOk_cmp, cmpWf]
    | refine Canon.snd (by assumption) ?_)

theorem State.scPut_wf (s : State) (core va : Nat) (l : ScLine) (hs : s.memWf = true) :
    (State.scPut s core va l).1.memWf = true := by
  unfold State.scPut
  with_reducible repeat' (first
    | assumption | apply State.scRoom_wf | apply State.tick1_wf | apply State.setNear_wf | split | simp only | dsimp only
    | refine Canon.fst (by assumption) ?_ | refine Canon.snd (by assumption) ?_)

theorem State.sidePut_wf (s : State) (core va : Nat) (l : NcLine) (hs : s.memWf = true) :
    (State.sidePut s core va l).memWf = true := by
  unfold State.sidePut
  with_reducible repeat' (first
    | assumption | apply State.tick1_wf | apply State.setNear_wf | apply fold_wf1 | apply fold_wf2 | apply fold_wf | split
    | intro _ _ _ | intro _ _ | intro _ | simp only | dsimp only | refine Canon.snd (by assumption) ?_
    | refine Canon.fst (by assumption) ?_)

theorem State.updAcc_wf (s : State) (id : Nat) (f : Access → Access) (hs : s.memWf = true) :
    (State.updAcc s id f).memWf = true := by
  unfold State.updAcc
  with_reducible repeat' (first
    | assumption | split | simp only | dsimp only | simp only [memWf_mk, cmpWf_mk, memOk_cmp, cmpWf])

theorem State.vectorTouch_wf (s : State) (core va : Nat) (store : Bool) (hs : s.memWf = true) :
    (State.vectorTouch s core va store).memWf = true := by
  unfold State.vectorTouch
  with_reducible repeat' (first
    | assumption | apply State.scDrop_wf | split | simp only | dsimp only)

/-! ### Quadrant -/

theorem State.delQ_wf (s : State) (q line : Nat) (hs : s.memWf = true) :
    (State.delQ s q line).memWf = true := by
  unfold State.delQ
  with_reducible repeat' (first
    | assumption | split | simp only | dsimp only | simp only [memWf_mk, cmpWf_mk, memOk_cmp, cmpWf])

theorem State.send_wf (s : State) (m : Msg) (hs : s.memWf = true) :
    (State.send s m).memWf = true := by
  unfold State.send
  with_reducible repeat' (first
    | assumption | split | simp only | dsimp only | simp only [memWf_mk, cmpWf_mk, memOk_cmp, cmpWf])

theorem State.setQ_wf (s : State) (q line : Nat) (l : QLine) (hs : s.memWf = true) :
    (State.setQ s q line l).memWf = true := by
  unfold State.setQ
  with_reducible repeat' (first
    | assumption | split | simp only | dsimp only | simp only [memWf_mk, cmpWf_mk, memOk_cmp, cmpWf])

theorem State.evict_wf (s : State) (q line : Nat) (l : QLine) (hs : s.memWf = true) :
    OCanon id (State.evict s q line l) := by
  unfold State.evict
  with_reducible repeat' (first
    | assumption | apply State.delQ_wf | apply State.setQ_wf | apply State.send_wf | exact OCanon.none | apply OCanon.someId
    | apply OCanon.some | split | simp only | dsimp only | dsimp only [id] | refine OCanon.id_ (by assumption) ?_)

theorem State.allocWay_wf (s : State) (q cluster line : Nat) (hs : s.memWf = true) :
    OCanon Prod.snd (State.allocWay s q cluster line) := by
  unfold State.allocWay
  with_reducible repeat' (first
    | assumption | apply State.evict_wf | exact OCanon.none | apply OCanon.someId | apply OCanon.some | apply OCanon.mapId
    | apply OCanon.mapFst | apply OCanon.map | apply fold_wf1 | apply fold_wf2 | apply fold_wf | split | intro _ _ _
    | intro _ _ | intro _ | simp only | dsimp only | dsimp only [id] | refine OCanon.id_ (by assumption) ?_
    | refine OCanon.snd (by assumption) ?_ | refine Canon.fst (by assumption) ?_)

theorem State.deferAccess_wf (s : State) (a : Access) (code : Nat) (hs : s.memWf = true) :
    (State.deferAccess s a code).memWf = true := by
  unfold State.deferAccess
  with_reducible repeat' (first
    | assumption | apply State.defer_wf | split | simp only | dsimp only)

theorem State.leaveAcc_wf (s : State) (a : Access) (hs : s.memWf = true) :
    (State.leaveAcc s a).memWf = true := by
  unfold State.leaveAcc
  with_reducible repeat' (first
    | assumption | apply State.dropAcc_wf | apply State.acquireSide_wf | split | simp only | dsimp only)

theorem State.finishAtomic_wf (s : State) (a : Access) (old : List (Nat × Nat)) (code : Nat) (hs : s.memWf = true) :
    (State.finishAtomic s a old code).memWf = true := by
  unfold State.finishAtomic
  with_reducible repeat' (first
    | assumption | apply State.leaveAcc_wf | apply State.putLoaded_wf | apply State.putFree_wf | apply State.deferAccess_wf
    | exact OCanon.none | apply OCanon.someId | apply OCanon.some | apply OCanon.mapId | apply OCanon.mapFst
    | apply OCanon.map | apply fold_wf1 | apply fold_wf2 | apply fold_wf | split | intro _ _ _ | intro _ _ | intro _
    | simp only | dsimp only | dsimp only [id] | refine OCanon.snd (by assumption) ?_ | refine Canon.fst (by assumption) ?_)

theorem State.scFault_wf (s : State) (g pc lanes va : Nat) (hs : s.memWf = true) :
    (State.scFault s g pc lanes va).memWf = true := by
  unfold State.scFault
  with_reducible repeat' (first
    | assumption | apply State.except_wf | split | simp only | dsimp only)

theorem State.scPrefetch_wf (s : State) (core ctx va line attr : Nat) (hs : s.memWf = true) :
    (State.scPrefetch s core ctx va line attr).memWf = true := by
  unfold State.scPrefetch
  with_reducible repeat' (first
    | assumption | apply State.addAcc_wf | split | simp only | dsimp only)

theorem State.fillNear_wf (s : State) (a : Access) (d : Line) (hs : s.memWf = true) :
    (State.fillNear s a d).memWf = true := by
  unfold State.fillNear
  with_reducible repeat' (first
    | assumption | apply State.l1Put_wf | apply State.scPut_wf | apply State.scPrefetch_wf | apply State.scFault_wf
    | apply State.sidePut_wf | split | simp only | dsimp only | refine Canon.fst (by assumption) ?_)

theorem State.finishLoad_wf (s : State) (a : Access) (d : Line) (code : Nat) (hs : s.memWf = true) :
    (State.finishLoad s a d code).memWf = true := by
  unfold State.finishLoad
  with_reducible repeat' (first
    | assumption | apply State.fillNear_wf | apply State.coreStore_wf | apply State.leaveAcc_wf | apply State.putLoaded_wf
    | apply State.putFree_wf | apply State.deferAccess_wf | apply fold_wf1 | apply fold_wf2 | apply fold_wf | split
    | intro _ _ _ | intro _ _ | intro _ | simp only | dsimp only | refine Canon.fst (by assumption) ?_)

theorem State.finishStore_wf (s : State) (a : Access) (code : Nat) (hs : s.memWf = true) :
    (State.finishStore s a code).memWf = true := by
  unfold State.finishStore
  with_reducible repeat' (first
    | assumption | apply State.leaveAcc_wf | apply State.deferAccess_wf | split | simp only | dsimp only)

theorem State.failAcc_wf (s : State) (a : Access) (code : Nat) (hs : s.memWf = true) :
    (State.failAcc s a code).memWf = true := by
  unfold State.failAcc
  with_reducible repeat' (first
    | assumption | apply State.finishLoad_wf | apply State.finishStore_wf | apply State.finishAtomic_wf | split | simp only
    | dsimp only)

theorem State.flushPast_wf (s : State) (q line : Nat) (hs : s.memWf = true) :
    (State.flushPast s q line).memWf = true := by
  unfold State.flushPast
  with_reducible repeat' (first
    | assumption | split | simp only | dsimp only | simp only [memWf_mk, cmpWf_mk, memOk_cmp, cmpWf])

theorem State.missed_wf (s : State) (a : Access) (hs : s.memWf = true) :
    (State.missed s a).memWf = true := by
  unfold State.missed
  with_reducible repeat' (first
    | assumption | apply State.updAcc_wf | apply State.quadCount_wf | split | simp only | dsimp only)

theorem State.foreignLine_wf (s : State) (a : Access) (l : QLine) (go : State → Option State) (hs : s.memWf = true) (hgo : ∀ (y0 : State), y0.memWf = true → OCanon id (go y0)) :
    OCanon id (State.foreignLine s a l go) := by
  unfold State.foreignLine
  with_reducible repeat' (first
    | assumption | apply hgo | apply State.evict_wf | apply State.missed_wf | apply ECanon.done | apply ECanon.jump
    | apply ECanon.wait | apply ECanon.busy | apply ECanon.raise | exact ECanon.stop | apply RCanon.next
    | apply RCanon.refused | apply RCanon.fault | exact OCanon.none | apply OCanon.someId | apply OCanon.some | split
    | intro _ _ _ | intro _ _ | intro _ | simp only | dsimp only | dsimp only [id] | refine OCanon.id_ (by assumption) ?_)

theorem State.hit_wf (s : State) (a : Access) (hs : s.memWf = true) :
    (State.hit s a).memWf = true := by
  unfold State.hit
  with_reducible repeat' (first
    | assumption | apply State.quadCount_wf | split | simp only | dsimp only)

theorem State.lineReady_wf (s : State) (q line : Nat) (hs : s.memWf = true) :
    (State.lineReady s q line).memWf = true := by
  unfold State.lineReady
  with_reducible repeat' (first
    | assumption | split | simp only | dsimp only | simp only [memWf_mk, cmpWf_mk, memOk_cmp, cmpWf])

theorem State.request_wf (s : State) (a : Access) (k : MsgKind) (held : Option LState) (hs : s.memWf = true) :
    (State.request s a k held).memWf = true := by
  unfold State.request
  with_reducible repeat' (first
    | assumption | apply State.send_wf | apply State.countTier_wf | apply State.updAcc_wf | split | simp only | dsimp only)

theorem State.requestLine_wf (s : State) (a : Access) (k : MsgKind) (st : LState) (hs : s.memWf = true) :
    OCanon id (State.requestLine s a k st) := by
  unfold State.requestLine
  with_reducible repeat' (first
    | assumption | apply State.allocWay_wf | apply State.tick1_wf | apply State.flushPast_wf | apply State.request_wf
    | apply State.setQ_wf | exact OCanon.none | apply OCanon.someId | apply OCanon.some | split | simp only | dsimp only
    | dsimp only [id] | refine Canon.snd (by assumption) ?_ | refine OCanon.id_ (by assumption) ?_
    | refine OCanon.snd (by assumption) ?_)

theorem State.loadAbsent_wf (a : Access) (s : State) (hs : s.memWf = true) :
    OCanon id (State.loadAbsent a s) := by
  unfold State.loadAbsent
  with_reducible repeat' (first
    | assumption | apply State.request_wf | apply State.requestLine_wf | exact OCanon.none | apply OCanon.someId
    | apply OCanon.some | split | simp only | dsimp only | dsimp only [id] | refine OCanon.id_ (by assumption) ?_)

theorem State.loadOwn_wf (s : State) (a : Access) (hs : s.memWf = true) :
    OCanon id (State.loadOwn s a) := by
  unfold State.loadOwn
  with_reducible repeat' (first
    | assumption | apply State.request_wf | apply State.missed_wf | apply State.loadAbsent_wf | apply State.tick1_wf
    | apply State.hit_wf | apply State.finishLoad_wf | apply State.setQ_wf | apply State.foreignLine_wf | apply ECanon.done
    | apply ECanon.jump | apply ECanon.wait | apply ECanon.busy | apply ECanon.raise | exact ECanon.stop | apply RCanon.next
    | apply RCanon.refused | apply RCanon.fault | exact OCanon.none | apply OCanon.someId | apply OCanon.some | split
    | intro _ _ _ | intro _ _ | intro _ | simp only | dsimp only | dsimp only [id] | refine Canon.snd (by assumption) ?_
    | refine OCanon.id_ (by assumption) ?_)

theorem State.quadError_wf (s : State) (q set way kind : Nat) (hs : s.memWf = true) :
    (State.quadError s q set way kind).memWf = true := by
  unfold State.quadError
  with_reducible repeat' (first
    | assumption | apply State.fset_wf | apply State.event_wf | split | simp only | dsimp only)

theorem State.quadTagError_wf (s : State) (q set way : Nat) (hs : s.memWf = true) :
    (State.quadTagError s q set way).memWf = true := by
  unfold State.quadTagError
  with_reducible repeat' (first
    | assumption | apply State.quadError_wf | apply State.retireQuadrant_wf | split | simp only | dsimp only)

theorem State.quadFind_wf (s : State) (q line : Nat) (hs : s.memWf = true) :
    (State.quadFind s q line).memWf = true := by
  unfold State.quadFind
  with_reducible repeat' (first
    | assumption | apply State.foundUpset_wf | apply State.ceEvent_wf | apply State.quadTagError_wf | apply State.quadError_wf
    | apply State.setQ_wf | apply State.delQ_wf | exact OCanon.none | apply OCanon.someId | apply OCanon.some
    | apply OCanon.mapId | apply OCanon.mapFst | apply OCanon.map | apply fold_wf1 | apply fold_wf2 | apply fold_wf | split
    | intro _ _ _ | intro _ _ | intro _ | simp only | dsimp only | dsimp only [id] | refine OCanon.snd (by assumption) ?_
    | refine Canon.fst (by assumption) ?_)

theorem State.tryHost_wf (s : State) (a : Access) (hs : s.memWf = true) :
    (State.tryHost s a).memWf = true := by
  unfold State.tryHost
  with_reducible repeat' (first
    | assumption | apply State.account_wf | apply State.emit_wf | apply State.updAcc_wf | apply State.finishStore_wf
    | apply fold_wf1 | apply fold_wf2 | apply fold_wf | split | intro _ _ _ | intro _ _ | intro _ | simp only | dsimp only
    | simp only [memWf_mk, cmpWf_mk, memOk_cmp, cmpWf] | refine Canon.fst (by assumption) ?_)

theorem State.tryLocal_wf (s : State) (a : Access) (hs : s.memWf = true) :
    (State.tryLocal s a).memWf = true := by
  unfold State.tryLocal
  with_reducible repeat' (first
    | assumption | apply State.leaveAcc_wf | apply State.localAtomic_wf | split | simp only | dsimp only)

theorem State.writeThrough_wf (a : Access) (s : State) (hs : s.memWf = true) :
    (State.writeThrough a s).memWf = true := by
  unfold State.writeThrough
  with_reducible repeat' (first
    | assumption | apply State.request_wf | split | simp only | dsimp only)

theorem State.storeAbsent_wf (a : Access) (s : State) (hs : s.memWf = true) :
    OCanon id (State.storeAbsent a s) := by
  unfold State.storeAbsent
  with_reducible repeat' (first
    | assumption | apply State.writeThrough_wf | apply State.requestLine_wf | exact OCanon.none | apply OCanon.someId
    | apply OCanon.some | split | simp only | dsimp only | dsimp only [id] | refine OCanon.id_ (by assumption) ?_)

theorem State.storeHit_wf (s : State) (a : Access) (l : QLine) (hs : s.memWf = true) :
    (State.storeHit s a l).memWf = true := by
  unfold State.storeHit
  with_reducible repeat' (first
    | assumption | apply State.tick1_wf | apply State.hit_wf | apply State.finishStore_wf | apply State.setQ_wf
    | apply State.request_wf | apply State.missed_wf | split | simp only | dsimp only | refine Canon.snd (by assumption) ?_)

theorem State.storeOwn_wf (s : State) (a : Access) (hs : s.memWf = true) :
    OCanon id (State.storeOwn s a) := by
  unfold State.storeOwn
  with_reducible repeat' (first
    | assumption | apply State.writeThrough_wf | apply State.missed_wf | apply State.storeAbsent_wf | apply State.storeHit_wf
    | apply State.foreignLine_wf | apply ECanon.done | apply ECanon.jump | apply ECanon.wait | apply ECanon.busy
    | apply ECanon.raise | exact ECanon.stop | apply RCanon.next | apply RCanon.refused | apply RCanon.fault
    | exact OCanon.none | apply OCanon.someId | apply OCanon.some | split | intro _ _ _ | intro _ _ | intro _ | simp only
    | dsimp only | dsimp only [id] | refine OCanon.id_ (by assumption) ?_)

theorem State.tryOwn_wf (s : State) (a : Access) (hs : s.memWf = true) :
    OCanon id (State.tryOwn s a) := by
  unfold State.tryOwn
  with_reducible repeat' (first
    | assumption | apply State.request_wf | apply State.loadOwn_wf | apply State.storeOwn_wf | exact OCanon.none
    | apply OCanon.someId | apply OCanon.some | apply OCanon.mapId | apply OCanon.mapFst | apply OCanon.map | split
    | intro _ _ _ | intro _ _ | intro _ | simp only | dsimp only | dsimp only [id] | refine OCanon.id_ (by assumption) ?_
    | refine OCanon.snd (by assumption) ?_)

theorem State.tryRemote_wf (s : State) (a : Access) (hs : s.memWf = true) :
    (State.tryRemote s a).memWf = true := by
  unfold State.tryRemote
  with_reducible repeat' (first
    | assumption | apply State.account_wf | apply State.egress_wf | apply State.failAcc_wf | split | simp only | dsimp only
    | refine Canon.fst (by assumption) ?_)

theorem State.pump_wf (s : State) (hs : s.memWf = true) :
    (State.pump s).memWf = true := by
  unfold State.pump
  with_reducible repeat' (first
    | assumption | apply State.raiseDeferred_wf | apply State.dropAcc_wf | apply State.tryLocal_wf | apply State.tryHost_wf
    | apply State.tryRemote_wf | apply State.tryOwn_wf | apply State.quadFind_wf | exact OCanon.none | apply OCanon.someId
    | apply OCanon.some | apply fold_wf1 | apply fold_wf2 | apply fold_wf | split | intro _ _ _ | intro _ _ | intro _
    | simp only | dsimp only | dsimp only [id] | refine OCanon.id_ (by assumption) ?_ | refine Canon.fst (by assumption) ?_)

/-! ### Global -/

theorem State.atomTouch_wf (s : State) (core va : Nat) (hs : s.memWf = true) :
    (State.atomTouch s core va).memWf = true := by
  unfold State.atomTouch
  with_reducible repeat' (first
    | assumption | apply State.scDrop_wf | apply State.l1Drop_wf | split | simp only | dsimp only)

theorem State.quadErr_wf (s : State) (g : Nat) (e : ArrayErr) (d : Dst) (hs : s.memWf = true) :
    OCanon id (State.quadErr s g e d) := by
  unfold State.quadErr
  with_reducible repeat' (first
    | assumption | apply State.ceEvent_wf | apply State.quadTagError_wf | apply State.quadError_wf | apply State.setQ_wf
    | apply State.delQ_wf | exact OCanon.none | apply OCanon.someId | apply OCanon.some | split | simp only | dsimp only
    | dsimp only [id] | refine OCanon.id_ (by assumption) ?_)

theorem State.tlbParity_wf (s : State) (g ctx va : Nat) (hs : s.memWf = true) :
    OCanon id (State.tlbParity s g ctx va) := by
  unfold State.tlbParity
  with_reducible repeat' (first
    | assumption | apply State.qtlbCount_wf | exact OCanon.none | apply OCanon.someId | apply OCanon.some | split | simp only
    | dsimp only | dsimp only [id] | simp only [memWf_mk, cmpWf_mk, memOk_cmp, cmpWf] | refine OCanon.id_ (by assumption) ?_)

theorem State.useTlbs_wf (s : State) (g : Nat) (grp : Grp) (addrs : List Nat) (hs : s.memWf = true) :
    (State.useTlbs s g grp addrs).memWf = true := by
  unfold State.useTlbs
  with_reducible repeat' (first
    | assumption | apply State.usePages_wf | split | simp only | dsimp only)

theorem State.globalAccess_wf (s : State) (g : Nat) (grp : Grp) (m : Nat) (e : ArrayErr) (addrs : List Nat) (checks : State → Checked) (load : Bool) (near : State → Nat → Option (State × Bool)) (act : State → List (Nat × Nat × Dst) → Eff) (scalar : Bool) (hs : s.memWf = true) (hchecks : ∀ (y0 : State), y0.memWf = true → CCanon (checks y0)) (hnear : ∀ (y0 : State) (y1 : Nat), y0.memWf = true → OCanon Prod.fst (near y0 y1)) (hact : ∀ (y0 : State) (y1 : List (Nat × Nat × Dst)), y0.memWf = true → ECanon (act y0 y1)) :
    ECanon (State.globalAccess s g grp m e addrs checks load near act scalar) := by
  unfold State.globalAccess
  with_reducible repeat' (first
    | assumption | apply hchecks | apply hnear | apply hact | apply State.coreError_wf | apply State.tlbParity_wf
    | apply State.tlbSweep_wf | apply State.quadErr_wf | apply State.useTlbs_wf | apply ECanon.done | apply ECanon.jump
    | apply ECanon.wait | apply ECanon.busy | apply ECanon.raise | exact ECanon.stop | apply RCanon.next
    | apply RCanon.refused | apply RCanon.fault | exact OCanon.none | apply OCanon.someId | apply OCanon.some
    | apply OCanon.mapId | apply OCanon.mapFst | apply OCanon.map | apply OCanon.or | apply CCanon.ok | apply CCanon.fault
    | apply CCanon.wait | split | intro _ _ _ | intro _ _ | intro _ | simp only | dsimp only | dsimp only [id]
    | refine OCanon.fst (by assumption) ?_ | refine OCanon.id_ (by assumption) ?_ | refine OCanon.snd (by assumption) ?_
    | refine CCanon.elim (by assumption) ?_ | refine ECanon.done_elim (by assumption) ?_
    | refine ECanon.jump_elim (by assumption) ?_ | refine ECanon.wait_elim (by assumption) ?_
    | refine ECanon.busy_elim (by assumption) ?_ | refine ECanon.raise_elim (by assumption) ?_)

theorem State.globalLanes_wf (s : State) (g : Nat) (grp : Grp) (i : FmtM) (off : Int) (bytes m : Nat) (r : Right) (rd wr : Bool) (hs : s.memWf = true) :
    CCanon (State.globalLanes s g grp i off bytes m r rd wr) := by
  unfold State.globalLanes
  with_reducible repeat' (first
    | assumption | apply State.startHost_wf | apply State.updGrp_wf | apply State.waitWalk_wf | apply CCanon.ok
    | apply CCanon.fault | apply CCanon.wait | split | simp only | dsimp only | refine CCanon.elim (by assumption) ?_)

theorem State.releaseFirst_wf (s : State) (g scope : Nat) (hs : s.memWf = true) :
    ECanon (State.releaseFirst s g scope) := by
  unfold State.releaseFirst
  with_reducible repeat' (first
    | assumption | apply State.raiseDeferred_wf | apply State.pump_wf | apply State.releaseSide_wf | apply ECanon.done
    | apply ECanon.jump | apply ECanon.wait | apply ECanon.busy | apply ECanon.raise | exact ECanon.stop | split | simp only
    | dsimp only | refine ECanon.done_elim (by assumption) ?_ | refine ECanon.jump_elim (by assumption) ?_
    | refine ECanon.wait_elim (by assumption) ?_ | refine ECanon.busy_elim (by assumption) ?_
    | refine ECanon.raise_elim (by assumption) ?_)

theorem State.atomGlobal_wf (s : State) (o : AtomOp) (w : Who) (scalar : Bool) (i : FmtM) (hs : s.memWf = true) :
    RCanon (State.atomGlobal s o w scalar i) := by
  unfold State.atomGlobal
  with_reducible repeat' (first
    | assumption | apply State.issueM_wf | apply State.globalAccess_wf | apply State.globalLanes_wf
    | apply State.releaseFirst_wf | apply State.pump_wf | apply State.atomTouch_wf | apply State.addAcc_wf | apply ECanon.done
    | apply ECanon.jump | apply ECanon.wait | apply ECanon.busy | apply ECanon.raise | exact ECanon.stop | apply RCanon.next
    | apply RCanon.refused | apply RCanon.fault | exact OCanon.none | apply OCanon.someId | apply OCanon.some
    | apply CCanon.ok | apply CCanon.fault | apply CCanon.wait | apply fold_wf1 | apply fold_wf2 | apply fold_wf | split
    | intro _ _ _ | intro _ _ | intro _ | simp only | dsimp only | dsimp only [id] | refine OCanon.fst (by assumption) ?_
    | refine RCanon.elim (by assumption) ?_ | refine CCanon.elim (by assumption) ?_ | refine Canon.fst (by assumption) ?_
    | refine ECanon.done_elim (by assumption) ?_ | refine ECanon.jump_elim (by assumption) ?_
    | refine ECanon.wait_elim (by assumption) ?_ | refine ECanon.busy_elim (by assumption) ?_
    | refine ECanon.raise_elim (by assumption) ?_)

theorem State.atom_wf (s : State) (loc : Bool) (o : AtomOp) (w : Who) (scalar : Bool) (i : FmtM) (hs : s.memWf = true) :
    RCanon (State.atom s loc o w scalar i) := by
  unfold State.atom
  with_reducible repeat' (first
    | assumption | apply State.atomLocal_wf | apply State.releaseFirst_wf | apply State.pump_wf | apply State.acquireSide_wf
    | apply State.atomGlobal_wf | apply ECanon.done | apply ECanon.jump | apply ECanon.wait | apply ECanon.busy
    | apply ECanon.raise | exact ECanon.stop | apply RCanon.next | apply RCanon.refused | apply RCanon.fault | split
    | intro _ _ _ | intro _ _ | intro _ | simp only | dsimp only | dsimp only [id] | refine RCanon.elim (by assumption) ?_
    | refine ECanon.pairDone (by assumption) ?_ | refine ECanon.pair (by assumption) ?_
    | refine ECanon.done_elim (by assumption) ?_ | refine ECanon.jump_elim (by assumption) ?_
    | refine ECanon.wait_elim (by assumption) ?_ | refine ECanon.busy_elim (by assumption) ?_
    | refine ECanon.raise_elim (by assumption) ?_)

theorem State.l1Parity_wf (s : State) (core va : Nat) (hs : s.memWf = true) :
    OCanon id (State.l1Parity s core va) := by
  unfold State.l1Parity
  with_reducible repeat' (first
    | assumption | apply State.nearParity_wf | apply State.setNear_wf | exact OCanon.none | apply OCanon.someId
    | apply OCanon.some | split | simp only | dsimp only | dsimp only [id] | refine OCanon.id_ (by assumption) ?_)

theorem State.loadLine_wf (s : State) (g : Nat) (grp : Grp) (ins dst bytes : Nat) (mode : Mode) (x : Nat × Dst × List (Nat × Nat)) (hs : s.memWf = true) :
    (State.loadLine s g grp ins dst bytes mode x).memWf = true := by
  unfold State.loadLine
  with_reducible repeat' (first
    | assumption | apply State.l1Find_wf | apply State.vectorTouch_wf | apply State.putLoaded_wf | apply State.addAcc_wf
    | apply fold_wf1 | apply fold_wf2 | apply fold_wf | split | intro _ _ _ | intro _ _ | intro _ | simp only | dsimp only
    | refine Canon.fst (by assumption) ?_)

theorem State.physicalLanes_wf (s : State) (g : Nat) (i : FmtM) (off : Int) (bytes m : Nat) (hs : s.memWf = true) :
    CCanon (State.physicalLanes s g i off bytes m) := by
  unfold State.physicalLanes
  with_reducible repeat' (first
    | assumption | apply CCanon.ok | apply CCanon.fault | apply CCanon.wait | split | simp only | dsimp only
    | refine CCanon.elim (by assumption) ?_)

theorem State.scParity_wf (s : State) (core va : Nat) (hs : s.memWf = true) :
    OCanon Prod.fst (State.scParity s core va) := by
  unfold State.scParity
  with_reducible repeat' (first
    | assumption | apply State.scLost_wf | exact OCanon.none | apply OCanon.someId | apply OCanon.some | split | simp only
    | dsimp only | refine OCanon.fst (by assumption) ?_)

theorem State.scFind_wf (s : State) (g : Nat) (grp : Grp) (m va : Nat) (hs : s.memWf = true) :
    OCanon Prod.fst (State.scFind s g grp m va) := by
  unfold State.scFind
  with_reducible repeat' (first
    | assumption | apply State.scParity_wf | apply State.scFault_wf | exact OCanon.none | apply OCanon.someId
    | apply OCanon.some | split | simp only | dsimp only | refine OCanon.fst (by assumption) ?_)

theorem State.scHit_wf (s : State) (core va : Nat) (hs : s.memWf = true) :
    OCanon Prod.fst (State.scHit s core va) := by
  unfold State.scHit
  with_reducible repeat' (first
    | assumption | apply State.scPut_wf | apply State.scPrefetch_wf | exact OCanon.none | apply OCanon.someId
    | apply OCanon.some | split | simp only | dsimp only | refine Canon.fst (by assumption) ?_
    | refine OCanon.fst (by assumption) ?_)

theorem State.storeLine_wf (s : State) (g : Nat) (grp : Grp) (ins src bytes : Nat) (mode : Mode) (x : Nat × Dst × List (Nat × Nat)) (hs : s.memWf = true) :
    (State.storeLine s g grp ins src bytes mode x).memWf = true := by
  unfold State.storeLine
  with_reducible repeat' (first
    | assumption | apply State.l1Update_wf | apply State.l1Find_wf | apply State.vectorTouch_wf | apply State.addAcc_wf
    | apply fold_wf1 | apply fold_wf2 | apply fold_wf | split | intro _ _ _ | intro _ _ | intro _ | simp only | dsimp only
    | refine Canon.fst (by assumption) ?_)

theorem State.vectorLoad_wf (s : State) (g : Nat) (grp : Grp) (dst bytes : Nat) (mode : Mode) (l : List (Nat × Nat × Dst)) (hs : s.memWf = true) :
    (State.vectorLoad s g grp dst bytes mode l).memWf = true := by
  unfold State.vectorLoad
  with_reducible repeat' (first
    | assumption | apply State.pump_wf | apply State.loadLine_wf | apply fold_wf1 | apply fold_wf2 | apply fold_wf | split
    | intro _ _ _ | intro _ _ | intro _ | simp only | dsimp only | refine Canon.fst (by assumption) ?_)

theorem State.vectorStore_wf (s : State) (g : Nat) (grp : Grp) (src bytes : Nat) (mode : Mode) (l : List (Nat × Nat × Dst)) (hs : s.memWf = true) :
    (State.vectorStore s g grp src bytes mode l).memWf = true := by
  unfold State.vectorStore
  with_reducible repeat' (first
    | assumption | apply State.pump_wf | apply State.storeLine_wf | apply fold_wf1 | apply fold_wf2 | apply fold_wf | split
    | intro _ _ _ | intro _ _ | intro _ | simp only | dsimp only | refine Canon.fst (by assumption) ?_)

theorem execAtomAdd_wf (w : Who) (scalar : Bool) (i : FmtM) (s : State) (hs : s.memWf = true) :
    RCanon (execAtomAdd w scalar i s) := by
  unfold execAtomAdd
  with_reducible repeat' (first
    | assumption | apply State.atom_wf | apply RCanon.next | apply RCanon.refused | apply RCanon.fault | split | simp only
    | dsimp only | refine RCanon.elim (by assumption) ?_)

theorem execAtomAnd_wf (w : Who) (scalar : Bool) (i : FmtM) (s : State) (hs : s.memWf = true) :
    RCanon (execAtomAnd w scalar i s) := by
  unfold execAtomAnd
  with_reducible repeat' (first
    | assumption | apply State.atom_wf | apply RCanon.next | apply RCanon.refused | apply RCanon.fault | split | simp only
    | dsimp only | refine RCanon.elim (by assumption) ?_)

theorem execAtomCas_wf (w : Who) (scalar : Bool) (i : FmtM) (s : State) (hs : s.memWf = true) :
    RCanon (execAtomCas w scalar i s) := by
  unfold execAtomCas
  with_reducible repeat' (first
    | assumption | apply State.atom_wf | apply RCanon.next | apply RCanon.refused | apply RCanon.fault | split | simp only
    | dsimp only | refine RCanon.elim (by assumption) ?_)

theorem execAtomLAdd_wf (w : Who) (scalar : Bool) (i : FmtM) (s : State) (hs : s.memWf = true) :
    RCanon (execAtomLAdd w scalar i s) := by
  unfold execAtomLAdd
  with_reducible repeat' (first
    | assumption | apply State.atom_wf | apply RCanon.next | apply RCanon.refused | apply RCanon.fault | split | simp only
    | dsimp only | refine RCanon.elim (by assumption) ?_)

theorem execAtomLAnd_wf (w : Who) (scalar : Bool) (i : FmtM) (s : State) (hs : s.memWf = true) :
    RCanon (execAtomLAnd w scalar i s) := by
  unfold execAtomLAnd
  with_reducible repeat' (first
    | assumption | apply State.atom_wf | apply RCanon.next | apply RCanon.refused | apply RCanon.fault | split | simp only
    | dsimp only | refine RCanon.elim (by assumption) ?_)

theorem execAtomLCas_wf (w : Who) (scalar : Bool) (i : FmtM) (s : State) (hs : s.memWf = true) :
    RCanon (execAtomLCas w scalar i s) := by
  unfold execAtomLCas
  with_reducible repeat' (first
    | assumption | apply State.atom_wf | apply RCanon.next | apply RCanon.refused | apply RCanon.fault | split | simp only
    | dsimp only | refine RCanon.elim (by assumption) ?_)

theorem execAtomLMax_wf (w : Who) (scalar : Bool) (i : FmtM) (s : State) (hs : s.memWf = true) :
    RCanon (execAtomLMax w scalar i s) := by
  unfold execAtomLMax
  with_reducible repeat' (first
    | assumption | apply State.atom_wf | apply RCanon.next | apply RCanon.refused | apply RCanon.fault | split | simp only
    | dsimp only | refine RCanon.elim (by assumption) ?_)

theorem execAtomLMin_wf (w : Who) (scalar : Bool) (i : FmtM) (s : State) (hs : s.memWf = true) :
    RCanon (execAtomLMin w scalar i s) := by
  unfold execAtomLMin
  with_reducible repeat' (first
    | assumption | apply State.atom_wf | apply RCanon.next | apply RCanon.refused | apply RCanon.fault | split | simp only
    | dsimp only | refine RCanon.elim (by assumption) ?_)

theorem execAtomLOr_wf (w : Who) (scalar : Bool) (i : FmtM) (s : State) (hs : s.memWf = true) :
    RCanon (execAtomLOr w scalar i s) := by
  unfold execAtomLOr
  with_reducible repeat' (first
    | assumption | apply State.atom_wf | apply RCanon.next | apply RCanon.refused | apply RCanon.fault | split | simp only
    | dsimp only | refine RCanon.elim (by assumption) ?_)

theorem execAtomLSwap_wf (w : Who) (scalar : Bool) (i : FmtM) (s : State) (hs : s.memWf = true) :
    RCanon (execAtomLSwap w scalar i s) := by
  unfold execAtomLSwap
  with_reducible repeat' (first
    | assumption | apply State.atom_wf | apply RCanon.next | apply RCanon.refused | apply RCanon.fault | split | simp only
    | dsimp only | refine RCanon.elim (by assumption) ?_)

theorem execAtomLXor_wf (w : Who) (scalar : Bool) (i : FmtM) (s : State) (hs : s.memWf = true) :
    RCanon (execAtomLXor w scalar i s) := by
  unfold execAtomLXor
  with_reducible repeat' (first
    | assumption | apply State.atom_wf | apply RCanon.next | apply RCanon.refused | apply RCanon.fault | split | simp only
    | dsimp only | refine RCanon.elim (by assumption) ?_)

theorem execAtomMax_wf (w : Who) (scalar : Bool) (i : FmtM) (s : State) (hs : s.memWf = true) :
    RCanon (execAtomMax w scalar i s) := by
  unfold execAtomMax
  with_reducible repeat' (first
    | assumption | apply State.atom_wf | apply RCanon.next | apply RCanon.refused | apply RCanon.fault | split | simp only
    | dsimp only | refine RCanon.elim (by assumption) ?_)

theorem execAtomMin_wf (w : Who) (scalar : Bool) (i : FmtM) (s : State) (hs : s.memWf = true) :
    RCanon (execAtomMin w scalar i s) := by
  unfold execAtomMin
  with_reducible repeat' (first
    | assumption | apply State.atom_wf | apply RCanon.next | apply RCanon.refused | apply RCanon.fault | split | simp only
    | dsimp only | refine RCanon.elim (by assumption) ?_)

theorem execAtomOr_wf (w : Who) (scalar : Bool) (i : FmtM) (s : State) (hs : s.memWf = true) :
    RCanon (execAtomOr w scalar i s) := by
  unfold execAtomOr
  with_reducible repeat' (first
    | assumption | apply State.atom_wf | apply RCanon.next | apply RCanon.refused | apply RCanon.fault | split | simp only
    | dsimp only | refine RCanon.elim (by assumption) ?_)

theorem execAtomSwap_wf (w : Who) (scalar : Bool) (i : FmtM) (s : State) (hs : s.memWf = true) :
    RCanon (execAtomSwap w scalar i s) := by
  unfold execAtomSwap
  with_reducible repeat' (first
    | assumption | apply State.atom_wf | apply RCanon.next | apply RCanon.refused | apply RCanon.fault | split | simp only
    | dsimp only | refine RCanon.elim (by assumption) ?_)

theorem execAtomXor_wf (w : Who) (scalar : Bool) (i : FmtM) (s : State) (hs : s.memWf = true) :
    RCanon (execAtomXor w scalar i s) := by
  unfold execAtomXor
  with_reducible repeat' (first
    | assumption | apply State.atom_wf | apply RCanon.next | apply RCanon.refused | apply RCanon.fault | split | simp only
    | dsimp only | refine RCanon.elim (by assumption) ?_)

theorem execLdAcq_wf (w : Who) (i : FmtM) (s : State) (hs : s.memWf = true) :
    RCanon (execLdAcq w i s) := by
  unfold execLdAcq
  with_reducible repeat' (first
    | assumption | apply State.issueM_wf | apply State.globalAccess_wf | apply State.globalLanes_wf
    | apply State.vectorLoad_wf | apply ECanon.done | apply ECanon.jump | apply ECanon.wait | apply ECanon.busy
    | apply ECanon.raise | exact ECanon.stop | apply RCanon.next | apply RCanon.refused | apply RCanon.fault
    | exact OCanon.none | apply OCanon.someId | apply OCanon.some | apply CCanon.ok | apply CCanon.fault | apply CCanon.wait
    | split | intro _ _ _ | intro _ _ | intro _ | simp only | dsimp only | dsimp only [id]
    | refine OCanon.fst (by assumption) ?_ | refine RCanon.elim (by assumption) ?_ | refine CCanon.elim (by assumption) ?_
    | refine ECanon.done_elim (by assumption) ?_ | refine ECanon.jump_elim (by assumption) ?_
    | refine ECanon.wait_elim (by assumption) ?_ | refine ECanon.busy_elim (by assumption) ?_
    | refine ECanon.raise_elim (by assumption) ?_)

theorem execLdG_wf (w : Who) (i : FmtM) (e : ArrayErr) (s : State) (hs : s.memWf = true) :
    RCanon (execLdG w i e s) := by
  unfold execLdG
  with_reducible repeat' (first
    | assumption | apply State.issueM_wf | apply State.globalAccess_wf | apply State.globalLanes_wf | apply State.l1Parity_wf
    | apply State.vectorLoad_wf | apply ECanon.done | apply ECanon.jump | apply ECanon.wait | apply ECanon.busy
    | apply ECanon.raise | exact ECanon.stop | apply RCanon.next | apply RCanon.refused | apply RCanon.fault
    | exact OCanon.none | apply OCanon.someId | apply OCanon.some | apply OCanon.mapId | apply OCanon.mapFst
    | apply OCanon.map | apply CCanon.ok | apply CCanon.fault | apply CCanon.wait | split | intro _ _ _ | intro _ _ | intro _
    | simp only | dsimp only | dsimp only [id] | refine OCanon.fst (by assumption) ?_ | refine OCanon.id_ (by assumption) ?_
    | refine OCanon.snd (by assumption) ?_ | refine RCanon.elim (by assumption) ?_ | refine CCanon.elim (by assumption) ?_
    | refine ECanon.done_elim (by assumption) ?_ | refine ECanon.jump_elim (by assumption) ?_
    | refine ECanon.wait_elim (by assumption) ?_ | refine ECanon.busy_elim (by assumption) ?_
    | refine ECanon.raise_elim (by assumption) ?_)

theorem execLdP_wf (w : Who) (i : FmtM) (s : State) (hs : s.memWf = true) :
    RCanon (execLdP w i s) := by
  unfold execLdP
  with_reducible repeat' (first
    | assumption | apply State.issueM_wf | apply State.globalAccess_wf | apply State.physicalLanes_wf
    | apply State.vectorLoad_wf | apply ECanon.done | apply ECanon.jump | apply ECanon.wait | apply ECanon.busy
    | apply ECanon.raise | exact ECanon.stop | apply RCanon.next | apply RCanon.refused | apply RCanon.fault
    | exact OCanon.none | apply OCanon.someId | apply OCanon.some | apply CCanon.ok | apply CCanon.fault | apply CCanon.wait
    | split | intro _ _ _ | intro _ _ | intro _ | simp only | dsimp only | dsimp only [id]
    | refine OCanon.fst (by assumption) ?_ | refine RCanon.elim (by assumption) ?_ | refine CCanon.elim (by assumption) ?_
    | refine ECanon.done_elim (by assumption) ?_ | refine ECanon.jump_elim (by assumption) ?_
    | refine ECanon.wait_elim (by assumption) ?_ | refine ECanon.busy_elim (by assumption) ?_
    | refine ECanon.raise_elim (by assumption) ?_)

theorem execLdRsv_wf (w : Who) (i : FmtM) (s : State) (hs : s.memWf = true) :
    RCanon (execLdRsv w i s) := by
  unfold execLdRsv
  with_reducible repeat' (first
    | assumption | apply State.issueM_wf | apply State.globalAccess_wf | apply State.globalLanes_wf | apply State.atomTouch_wf
    | apply State.pump_wf | apply State.addAcc_wf | apply ECanon.done | apply ECanon.jump | apply ECanon.wait
    | apply ECanon.busy | apply ECanon.raise | exact ECanon.stop | apply RCanon.next | apply RCanon.refused
    | apply RCanon.fault | exact OCanon.none | apply OCanon.someId | apply OCanon.some | apply CCanon.ok | apply CCanon.fault
    | apply CCanon.wait | split | intro _ _ _ | intro _ _ | intro _ | simp only | dsimp only | dsimp only [id]
    | refine OCanon.fst (by assumption) ?_ | refine RCanon.elim (by assumption) ?_ | refine CCanon.elim (by assumption) ?_
    | refine ECanon.done_elim (by assumption) ?_ | refine ECanon.jump_elim (by assumption) ?_
    | refine ECanon.wait_elim (by assumption) ?_ | refine ECanon.busy_elim (by assumption) ?_
    | refine ECanon.raise_elim (by assumption) ?_)

theorem scDone_wf (lost : Bool) (g : Nat) (grp : Grp) (m va : Nat) (s : State) (hs : s.memWf = true) :
    ECanon (scDone lost g grp m va s) := by
  unfold scDone
  with_reducible repeat' (first
    | assumption | apply State.scFault_wf | apply State.pump_wf | apply ECanon.done | apply ECanon.jump | apply ECanon.wait
    | apply ECanon.busy | apply ECanon.raise | exact ECanon.stop | split | simp only | dsimp only
    | refine ECanon.done_elim (by assumption) ?_ | refine ECanon.jump_elim (by assumption) ?_
    | refine ECanon.wait_elim (by assumption) ?_ | refine ECanon.busy_elim (by assumption) ?_
    | refine ECanon.raise_elim (by assumption) ?_)

theorem execLdS_wf (w : Who) (i : FmtM) (e : ArrayErr) (s : State) (hs : s.memWf = true) :
    RCanon (execLdS w i e s) := by
  unfold execLdS
  with_reducible repeat' (first
    | assumption | apply State.issueM_wf | apply State.globalAccess_wf | apply State.globalLanes_wf | apply State.scFind_wf
    | apply State.pump_wf | apply State.addAcc_wf | apply State.scHit_wf | apply scDone_wf | apply State.putLoaded_wf
    | apply State.scPut_wf | apply State.scRoom_wf | apply ECanon.done | apply ECanon.jump | apply ECanon.wait
    | apply ECanon.busy | apply ECanon.raise | exact ECanon.stop | apply RCanon.next | apply RCanon.refused
    | apply RCanon.fault | exact OCanon.none | apply OCanon.someId | apply OCanon.some | apply CCanon.ok | apply CCanon.fault
    | apply CCanon.wait | split | intro _ _ _ | intro _ _ | intro _ | simp only | dsimp only | dsimp only [id]
    | refine Canon.fst (by assumption) ?_ | refine OCanon.fst (by assumption) ?_ | refine RCanon.elim (by assumption) ?_
    | refine CCanon.elim (by assumption) ?_ | refine ECanon.done_elim (by assumption) ?_
    | refine ECanon.jump_elim (by assumption) ?_ | refine ECanon.wait_elim (by assumption) ?_
    | refine ECanon.busy_elim (by assumption) ?_ | refine ECanon.raise_elim (by assumption) ?_)

theorem execStCond_wf (w : Who) (i : FmtM) (s : State) (hs : s.memWf = true) :
    RCanon (execStCond w i s) := by
  unfold execStCond
  with_reducible repeat' (first
    | assumption | apply State.issueM_wf | apply State.globalAccess_wf | apply State.globalLanes_wf | apply State.atomTouch_wf
    | apply State.pump_wf | apply State.addAcc_wf | apply ECanon.done | apply ECanon.jump | apply ECanon.wait
    | apply ECanon.busy | apply ECanon.raise | exact ECanon.stop | apply RCanon.next | apply RCanon.refused
    | apply RCanon.fault | exact OCanon.none | apply OCanon.someId | apply OCanon.some | apply CCanon.ok | apply CCanon.fault
    | apply CCanon.wait | split | intro _ _ _ | intro _ _ | intro _ | simp only | dsimp only | dsimp only [id]
    | refine OCanon.fst (by assumption) ?_ | refine RCanon.elim (by assumption) ?_ | refine CCanon.elim (by assumption) ?_
    | refine ECanon.done_elim (by assumption) ?_ | refine ECanon.jump_elim (by assumption) ?_
    | refine ECanon.wait_elim (by assumption) ?_ | refine ECanon.busy_elim (by assumption) ?_
    | refine ECanon.raise_elim (by assumption) ?_)

theorem execStG_wf (w : Who) (i : FmtM) (e : ArrayErr) (s : State) (hs : s.memWf = true) :
    RCanon (execStG w i e s) := by
  unfold execStG
  with_reducible repeat' (first
    | assumption | apply State.issueM_wf | apply State.globalAccess_wf | apply State.globalLanes_wf | apply State.l1Parity_wf
    | apply State.vectorStore_wf | apply ECanon.done | apply ECanon.jump | apply ECanon.wait | apply ECanon.busy
    | apply ECanon.raise | exact ECanon.stop | apply RCanon.next | apply RCanon.refused | apply RCanon.fault
    | exact OCanon.none | apply OCanon.someId | apply OCanon.some | apply OCanon.mapId | apply OCanon.mapFst
    | apply OCanon.map | apply CCanon.ok | apply CCanon.fault | apply CCanon.wait | split | intro _ _ _ | intro _ _ | intro _
    | simp only | dsimp only | dsimp only [id] | refine OCanon.fst (by assumption) ?_ | refine OCanon.id_ (by assumption) ?_
    | refine OCanon.snd (by assumption) ?_ | refine RCanon.elim (by assumption) ?_ | refine CCanon.elim (by assumption) ?_
    | refine ECanon.done_elim (by assumption) ?_ | refine ECanon.jump_elim (by assumption) ?_
    | refine ECanon.wait_elim (by assumption) ?_ | refine ECanon.busy_elim (by assumption) ?_
    | refine ECanon.raise_elim (by assumption) ?_)

theorem execStP_wf (w : Who) (i : FmtM) (s : State) (hs : s.memWf = true) :
    RCanon (execStP w i s) := by
  unfold execStP
  with_reducible repeat' (first
    | assumption | apply State.issueM_wf | apply State.globalAccess_wf | apply State.physicalLanes_wf
    | apply State.vectorStore_wf | apply ECanon.done | apply ECanon.jump | apply ECanon.wait | apply ECanon.busy
    | apply ECanon.raise | exact ECanon.stop | apply RCanon.next | apply RCanon.refused | apply RCanon.fault
    | exact OCanon.none | apply OCanon.someId | apply OCanon.some | apply CCanon.ok | apply CCanon.fault | apply CCanon.wait
    | split | intro _ _ _ | intro _ _ | intro _ | simp only | dsimp only | dsimp only [id]
    | refine OCanon.fst (by assumption) ?_ | refine RCanon.elim (by assumption) ?_ | refine CCanon.elim (by assumption) ?_
    | refine ECanon.done_elim (by assumption) ?_ | refine ECanon.jump_elim (by assumption) ?_
    | refine ECanon.wait_elim (by assumption) ?_ | refine ECanon.busy_elim (by assumption) ?_
    | refine ECanon.raise_elim (by assumption) ?_)

theorem execStRel_wf (w : Who) (i : FmtM) (s : State) (hs : s.memWf = true) :
    RCanon (execStRel w i s) := by
  unfold execStRel
  with_reducible repeat' (first
    | assumption | apply State.issueM_wf | apply State.globalAccess_wf | apply State.globalLanes_wf
    | apply State.releaseFirst_wf | apply State.vectorStore_wf | apply ECanon.done | apply ECanon.jump | apply ECanon.wait
    | apply ECanon.busy | apply ECanon.raise | exact ECanon.stop | apply RCanon.next | apply RCanon.refused
    | apply RCanon.fault | exact OCanon.none | apply OCanon.someId | apply OCanon.some | apply CCanon.ok | apply CCanon.fault
    | apply CCanon.wait | split | intro _ _ _ | intro _ _ | intro _ | simp only | dsimp only | dsimp only [id]
    | refine OCanon.fst (by assumption) ?_ | refine RCanon.elim (by assumption) ?_ | refine CCanon.elim (by assumption) ?_
    | refine ECanon.done_elim (by assumption) ?_ | refine ECanon.jump_elim (by assumption) ?_
    | refine ECanon.wait_elim (by assumption) ?_ | refine ECanon.busy_elim (by assumption) ?_
    | refine ECanon.raise_elim (by assumption) ?_)

theorem execStS_wf (w : Who) (i : FmtM) (e : ArrayErr) (s : State) (hs : s.memWf = true) :
    RCanon (execStS w i e s) := by
  unfold execStS
  with_reducible repeat' (first
    | assumption | apply State.issueM_wf | apply State.globalAccess_wf | apply State.globalLanes_wf | apply State.scFind_wf
    | apply State.pump_wf | apply State.addAcc_wf | apply State.dropFills_wf | apply State.l1Drop_wf | apply State.scHit_wf
    | apply scDone_wf | apply State.scPut_wf | apply State.scRoom_wf | apply ECanon.done | apply ECanon.jump
    | apply ECanon.wait | apply ECanon.busy | apply ECanon.raise | exact ECanon.stop | apply RCanon.next
    | apply RCanon.refused | apply RCanon.fault | exact OCanon.none | apply OCanon.someId | apply OCanon.some
    | apply CCanon.ok | apply CCanon.fault | apply CCanon.wait | split | intro _ _ _ | intro _ _ | intro _ | simp only
    | dsimp only | dsimp only [id] | refine Canon.fst (by assumption) ?_ | refine OCanon.fst (by assumption) ?_
    | refine RCanon.elim (by assumption) ?_ | refine CCanon.elim (by assumption) ?_
    | refine ECanon.done_elim (by assumption) ?_ | refine ECanon.jump_elim (by assumption) ?_
    | refine ECanon.wait_elim (by assumption) ?_ | refine ECanon.busy_elim (by assumption) ?_
    | refine ECanon.raise_elim (by assumption) ?_)

end Sys2Proof.Machine
end

