-- ==== Sys2Proof/Laws/CanonMemory.lean ====
section
/-! SUPPORT. Memory stays canonical under the coherence protocol, the memory services, walks, synchronisation, streams, matrix engines and local memories. -/

set_option linter.unusedSimpArgs false
set_option linter.unusedVariables false

namespace Sys2Proof.Machine

/-! ### Coherence -/

theorem State.addSharer_wf (s : State) (line : Nat) (e : DirEntry) (q : Nat) (hs : s.memWf = true) :
    (State.addSharer s line e q).1.memWf = true := by
  unfold State.addSharer
  with_reducible repeat' (first
    | assumption | apply State.dirCount_wf | split | simp only | dsimp only | refine Canon.fst (by assumption) ?_)

theorem State.arrival_wf (s : State) (kind : MsgKind) (k : Nat) (hs : s.memWf = true) :
    OCanon Prod.snd (State.arrival s kind k) := by
  unfold State.arrival
  with_reducible repeat' (first
    | assumption | exact OCanon.none | apply OCanon.someId | apply OCanon.some | apply OCanon.mapId | apply OCanon.mapFst
    | apply OCanon.map | split | intro _ _ _ | intro _ _ | intro _ | simp only | dsimp only | dsimp only [id]
    | simp only [memWf_mk, cmpWf_mk, memOk_cmp, cmpWf] | refine OCanon.snd (by assumption) ?_)

theorem State.backWrite_wf (s : State) (line : Nat) (b : Option (Line × Bool)) (part : Nat) (hs : s.memWf = true) :
    (State.backWrite s line b part).memWf = true := by
  unfold State.backWrite
  with_reducible repeat' (first
    | assumption | apply State.homeWrite_wf | apply State.serve_wf | split | simp only | dsimp only)

theorem State.delDir_wf (s : State) (line : Nat) (hs : s.memWf = true) :
    (State.delDir s line).memWf = true := by
  unfold State.delDir
  with_reducible repeat' (first
    | assumption | split | simp only | dsimp only | simp only [memWf_mk, cmpWf_mk, memOk_cmp, cmpWf])

theorem State.endTxn_wf (s : State) (line : Nat) (hs : s.memWf = true) :
    (State.endTxn s line).memWf = true := by
  unfold State.endTxn
  with_reducible repeat' (first
    | assumption | split | simp only | dsimp only | simp only [memWf_mk, cmpWf_mk, memOk_cmp, cmpWf])

theorem State.homeRead_wf (s : State) (line part : Nat) (hs : s.memWf = true) :
    (State.homeRead s line part).1.memWf = true := by
  unfold State.homeRead
  with_reducible repeat' (first
    | assumption | apply State.serve_wf | apply State.hwRead_wf | apply State.memFind_wf | split | simp only | dsimp only
    | refine Canon.fst (by assumption) ?_)

theorem State.setDir_wf (s : State) (line : Nat) (e : DirEntry) (hs : s.memWf = true) :
    (State.setDir s line e).memWf = true := by
  unfold State.setDir
  with_reducible repeat' (first
    | assumption | split | simp only | dsimp only | simp only [memWf_mk, cmpWf_mk, memOk_cmp, cmpWf])

theorem State.newEntry_wf (s : State) (line : Nat) (e : DirEntry) (hs : s.memWf = true) :
    (State.newEntry s line e).memWf = true := by
  unfold State.newEntry
  with_reducible repeat' (first
    | assumption | apply State.tick1_wf | apply State.setDir_wf | split | simp only | dsimp only
    | refine Canon.snd (by assumption) ?_)

theorem State.sendComp_wf (s : State) (m : Msg) (fwd : Option Nat) (code : Nat) (hs : s.memWf = true) :
    (State.sendComp s m fwd code).memWf = true := by
  unfold State.sendComp
  with_reducible repeat' (first
    | assumption | apply State.send_wf | split | simp only | dsimp only)

theorem State.sendData_wf (s : State) (m : Msg) (k : MsgKind) (d : Line) (poison hw : Bool) (hs : s.memWf = true) :
    (State.sendData s m k d poison hw).memWf = true := by
  unfold State.sendData
  with_reducible repeat' (first
    | assumption | apply State.send_wf | split | simp only | dsimp only)

theorem State.finishGetM_wf (s : State) (m : Msg) (t : Txn) (hs : s.memWf = true) :
    (State.finishGetM s m t).memWf = true := by
  unfold State.finishGetM
  with_reducible repeat' (first
    | assumption | apply State.setDir_wf | apply State.newEntry_wf | apply State.sendData_wf | apply State.hwRefuse_wf
    | apply State.sendComp_wf | apply State.homeRead_wf | exact OCanon.none | apply OCanon.someId | apply OCanon.some
    | apply OCanon.mapId | apply OCanon.mapFst | apply OCanon.map | split | intro _ _ _ | intro _ _ | intro _ | simp only
    | dsimp only | dsimp only [id] | refine Canon.fst (by assumption) ?_ | refine OCanon.snd (by assumption) ?_)

theorem State.finishGetS_wf (s : State) (m : Msg) (t : Txn) (hs : s.memWf = true) :
    (State.finishGetS s m t).memWf = true := by
  unfold State.finishGetS
  with_reducible repeat' (first
    | assumption | apply State.addSharer_wf | apply State.sendComp_wf | apply State.setDir_wf | apply State.homeRead_wf
    | apply State.sendData_wf | apply State.newEntry_wf | split | simp only | dsimp only | refine Canon.fst (by assumption) ?_)

theorem State.finishHomeAtomic_wf (s : State) (m : Msg) (a : Atom) (hs : s.memWf = true) :
    (State.finishHomeAtomic s m a).memWf = true := by
  unfold State.finishHomeAtomic
  with_reducible repeat' (first
    | assumption | apply State.endTxn_wf | apply State.delDir_wf | apply State.send_wf | apply State.memFind_wf
    | apply State.hwRefuse_wf | apply State.serve_wf | apply State.addRsv_wf | apply State.homeWrite_wf | split | simp only
    | dsimp only)

theorem State.finishReadOnce_wf (s : State) (m : Msg) (t : Txn) (hs : s.memWf = true) :
    (State.finishReadOnce s m t).memWf = true := by
  unfold State.finishReadOnce
  with_reducible repeat' (first
    | assumption | apply State.delDir_wf | apply State.setDir_wf | apply State.endTxn_wf | apply State.homeRead_wf
    | apply State.sendData_wf | split | simp only | dsimp only | refine Canon.fst (by assumption) ?_)

theorem State.finishWrite_wf (s : State) (m : Msg) (hs : s.memWf = true) :
    (State.finishWrite s m).memWf = true := by
  unfold State.finishWrite
  with_reducible repeat' (first
    | assumption | apply State.endTxn_wf | apply State.delDir_wf | apply State.hwRefuse_wf | apply State.homeWrite_wf
    | apply State.serve_wf | apply State.sendComp_wf | split | simp only | dsimp only)

theorem State.updTxn_wf (s : State) (line : Nat) (f : Txn → Txn) (hs : s.memWf = true) :
    (State.updTxn s line f).memWf = true := by
  unfold State.updTxn
  with_reducible repeat' (first
    | assumption | split | simp only | dsimp only | simp only [memWf_mk, cmpWf_mk, memOk_cmp, cmpWf])

theorem State.finishTxn_wf (s : State) (line : Nat) (t : Txn) (hs : s.memWf = true) :
    (State.finishTxn s line t).memWf = true := by
  unfold State.finishTxn
  with_reducible repeat' (first
    | assumption | apply State.send_wf | apply State.dirCount_wf | apply State.backWrite_wf | apply State.endTxn_wf
    | apply State.delDir_wf | apply State.updTxn_wf | apply State.finishGetS_wf | apply State.finishGetM_wf
    | apply State.finishReadOnce_wf | apply State.finishWrite_wf | apply State.finishHomeAtomic_wf | exact OCanon.none
    | apply OCanon.someId | apply OCanon.some | apply OCanon.mapId | apply OCanon.mapFst | apply OCanon.map | split
    | intro _ _ _ | intro _ _ | intro _ | simp only | dsimp only | dsimp only [id] | refine OCanon.snd (by assumption) ?_)

theorem State.settle_wf (s : State) (line : Nat) (hs : s.memWf = true) :
    (State.settle s line).memWf = true := by
  unfold State.settle
  with_reducible repeat' (first
    | assumption | apply State.finishTxn_wf | apply State.updTxn_wf | split | simp only | dsimp only)

theorem State.answer_wf (s : State) (kind : MsgKind) (k : Nat) (f : State → Msg → Txn → State × Txn) (hs : s.memWf = true) (hf : ∀ (y0 : State) (y1 : Msg) (y2 : Txn), y0.memWf = true → (f y0 y1 y2).1.memWf = true) :
    RCanon (State.answer s kind k f) := by
  unfold State.answer
  with_reducible repeat' (first
    | assumption | apply hf | apply State.arrival_wf | apply stop_wf | apply State.settle_wf | apply State.updTxn_wf
    | apply ECanon.done | apply ECanon.jump | apply ECanon.wait | apply ECanon.busy | apply ECanon.raise | exact ECanon.stop
    | apply RCanon.next | apply RCanon.refused | apply RCanon.fault | exact OCanon.none | apply OCanon.someId
    | apply OCanon.some | split | intro _ _ _ | intro _ _ | intro _ | simp only | dsimp only | dsimp only [id]
    | refine Canon.fst (by assumption) ?_ | refine OCanon.snd (by assumption) ?_)

theorem State.openTxn_wf (s : State) (line : Nat) (req : Option Msg) (snoops : List (MsgKind × Nat)) (hs : s.memWf = true) :
    (State.openTxn s line req snoops).memWf = true := by
  unfold State.openTxn
  with_reducible repeat' (first
    | assumption | apply State.send_wf | exact OCanon.none | apply OCanon.someId | apply OCanon.some | apply OCanon.mapId
    | apply OCanon.mapFst | apply OCanon.map | apply fold_wf1 | apply fold_wf2 | apply fold_wf | split | intro _ _ _
    | intro _ _ | intro _ | simp only | dsimp only | dsimp only [id] | simp only [memWf_mk, cmpWf_mk, memOk_cmp, cmpWf]
    | refine OCanon.snd (by assumption) ?_ | refine Canon.fst (by assumption) ?_)

theorem State.startCancels_wf (s : State) (m : Msg) (hs : s.memWf = true) :
    (State.startCancels s m).memWf = true := by
  unfold State.startCancels
  with_reducible repeat' (first
    | assumption | apply State.cancelRsvs_wf | apply State.dropRsv_wf | split | simp only | dsimp only)

theorem State.takeWay_wf (s : State) (m : Msg) (hs : s.memWf = true) :
    OCanon id (State.takeWay s m) := by
  unfold State.takeWay
  with_reducible repeat' (first
    | assumption | apply State.settle_wf | apply State.openTxn_wf | apply State.dirCount_wf | apply State.updTxn_wf
    | exact OCanon.none | apply OCanon.someId | apply OCanon.some | apply fold_wf1 | apply fold_wf2 | apply fold_wf | split
    | intro _ _ _ | intro _ _ | intro _ | simp only | dsimp only | dsimp only [id] | refine OCanon.id_ (by assumption) ?_
    | refine Canon.fst (by assumption) ?_)

theorem State.beginReq_wf (s : State) (m0 : Msg) (hs : s.memWf = true) :
    (State.beginReq s m0).memWf = true := by
  unfold State.beginReq
  with_reducible repeat' (first
    | assumption | apply State.startCancels_wf | apply State.settle_wf | apply State.openTxn_wf | apply State.takeWay_wf
    | apply State.dirCount_wf | apply State.send_wf | exact OCanon.none | apply OCanon.someId | apply OCanon.some
    | apply OCanon.mapId | apply OCanon.mapFst | apply OCanon.map | split | intro _ _ _ | intro _ _ | intro _ | simp only
    | dsimp only | dsimp only [id] | simp only [memWf_mk, cmpWf_mk, memOk_cmp, cmpWf] | refine OCanon.id_ (by assumption) ?_
    | refine OCanon.snd (by assumption) ?_)

theorem State.dirClear_wf (s : State) (line : Nat) (hs : s.memWf = true) :
    (State.dirClear s line).memWf = true := by
  unfold State.dirClear
  with_reducible repeat' (first
    | assumption | apply State.foundUpset_wf | split | simp only | dsimp only)

theorem State.dirErrLog_wf (s : State) (line : Nat) (hs : s.memWf = true) :
    (State.dirErrLog s line).memWf = true := by
  unfold State.dirErrLog
  with_reducible repeat' (first
    | assumption | apply State.pick_wf | apply State.fset_wf | apply State.event_wf | split | simp only | dsimp only
    | simp only [memWf_mk, cmpWf_mk, memOk_cmp, cmpWf] | refine Canon.snd (by assumption) ?_)

theorem State.flushLines_wf (s : State) (p : Nat → Nat → QLine → Bool) (hs : s.memWf = true) :
    OCanon id (State.flushLines s p) := by
  unfold State.flushLines
  with_reducible repeat' (first
    | assumption | apply State.delQ_wf | apply State.setQ_wf | apply State.delDir_wf | apply State.setPoison_wf
    | apply State.backWrite_wf | apply State.setDir_wf | exact OCanon.none | apply OCanon.someId | apply OCanon.some
    | apply fold_wf1 | apply fold_wf2 | apply fold_wf | split | intro _ _ _ | intro _ _ | intro _ | simp only | dsimp only
    | dsimp only [id] | refine OCanon.id_ (by assumption) ?_ | refine Canon.fst (by assumption) ?_)

theorem State.stable_wf (s : State) (q line : Nat) (l : QLine) (st : LState) (hs : s.memWf = true) :
    (State.stable s q line l st).memWf = true := by
  unfold State.stable
  with_reducible repeat' (first
    | assumption | apply State.setQ_wf | apply State.pump_wf | apply State.lineReady_wf | apply State.send_wf | split
    | simp only | dsimp only)

theorem State.gotData_wf (s : State) (kind : MsgKind) (st : LState) (k : Nat) (hs : s.memWf = true) :
    RCanon (State.gotData s kind st k) := by
  unfold State.gotData
  with_reducible repeat' (first
    | assumption | apply State.arrival_wf | apply stop_wf | apply need_wf | apply State.stable_wf | apply State.setQ_wf
    | apply RCanon.next | apply RCanon.refused | apply RCanon.fault | exact OCanon.none | apply OCanon.someId
    | apply OCanon.some | split | simp only | dsimp only | refine OCanon.snd (by assumption) ?_)

theorem State.homeErr_wf (s : State) (line : Nat) (e : HomeErr) (hs : s.memWf = true) :
    OCanon id (State.homeErr s line e) := by
  unfold State.homeErr
  with_reducible repeat' (first
    | assumption | apply State.countCe_wf | apply State.memCe_wf | apply State.watchUe_wf | apply State.memErrLog_wf
    | apply State.setPoison_wf | apply State.ceEvent_wf | apply State.dfqWrite_wf | exact OCanon.none | apply OCanon.someId
    | apply OCanon.some | split | simp only | dsimp only | dsimp only [id] | refine OCanon.id_ (by assumption) ?_)

theorem State.startable_wf (s : State) (kind : MsgKind) (k : Nat) (hs : s.memWf = true) :
    OCanon Prod.snd (State.startable s kind k) := by
  unfold State.startable
  with_reducible repeat' (first
    | assumption | exact OCanon.none | apply OCanon.someId | apply OCanon.some | split | simp only | dsimp only
    | simp only [memWf_mk, cmpWf_mk, memOk_cmp, cmpWf] | refine OCanon.snd (by assumption) ?_)

theorem State.homeStart_wf (s : State) (kind : MsgKind) (k : Nat) (e : HomeErr) (hs : s.memWf = true) :
    RCanon (State.homeStart s kind k e) := by
  unfold State.homeStart
  with_reducible repeat' (first
    | assumption | apply State.startable_wf | apply stop_wf | apply State.dirErrLog_wf | apply State.dirClear_wf
    | apply State.homeErr_wf | apply State.beginReq_wf | apply RCanon.next | apply RCanon.refused | apply RCanon.fault
    | exact OCanon.none | apply OCanon.someId | apply OCanon.some | split | simp only | dsimp only | dsimp only [id]
    | refine OCanon.id_ (by assumption) ?_ | refine OCanon.snd (by assumption) ?_)

theorem State.snoop_wf (s : State) (kind : MsgKind) (k : Nat) (hs : s.memWf = true) :
    RCanon (State.snoop s kind k) := by
  unfold State.snoop
  with_reducible repeat' (first
    | assumption | apply State.arrival_wf | apply stop_wf | apply State.quadCount_wf | apply State.send_wf
    | apply State.delQ_wf | apply State.setQ_wf | apply RCanon.next | apply RCanon.refused | apply RCanon.fault
    | exact OCanon.none | apply OCanon.someId | apply OCanon.some | split | simp only | dsimp only
    | refine OCanon.snd (by assumption) ?_)

theorem execAtomicHome_wf (k : Nat) (e : HomeErr) (s : State) (hs : s.memWf = true) :
    RCanon (execAtomicHome k e s) := by
  unfold execAtomicHome
  with_reducible repeat' (first
    | assumption | apply State.homeStart_wf | apply RCanon.next | apply RCanon.refused | apply RCanon.fault | split
    | simp only | dsimp only | refine RCanon.elim (by assumption) ?_)

theorem execAtomicResult_wf (k : Nat) (s : State) (hs : s.memWf = true) :
    RCanon (execAtomicResult k s) := by
  unfold execAtomicResult
  with_reducible repeat' (first
    | assumption | apply State.arrival_wf | apply stop_wf | apply State.pump_wf | apply State.finishAtomic_wf
    | apply RCanon.next | apply RCanon.refused | apply RCanon.fault | exact OCanon.none | apply OCanon.someId
    | apply OCanon.some | apply OCanon.mapId | apply OCanon.mapFst | apply OCanon.map | split | intro _ _ _ | intro _ _
    | intro _ | simp only | dsimp only | dsimp only [id] | refine OCanon.snd (by assumption) ?_)

theorem execComp_wf (k : Nat) (s : State) (hs : s.memWf = true) :
    RCanon (execComp k s) := by
  unfold execComp
  with_reducible repeat' (first
    | assumption | apply State.arrival_wf | apply stop_wf | apply State.pump_wf | apply State.finishStore_wf | apply need_wf
    | apply State.stable_wf | apply State.setQ_wf | apply RCanon.next | apply RCanon.refused | apply RCanon.fault
    | exact OCanon.none | apply OCanon.someId | apply OCanon.some | split | simp only | dsimp only
    | refine OCanon.snd (by assumption) ?_)

theorem execCompack_wf (k : Nat) (s : State) (hs : s.memWf = true) :
    RCanon (execCompack k s) := by
  unfold execCompack
  with_reducible repeat' (first
    | assumption | apply State.arrival_wf | apply stop_wf | apply need_wf | apply State.endTxn_wf | apply RCanon.next
    | apply RCanon.refused | apply RCanon.fault | exact OCanon.none | apply OCanon.someId | apply OCanon.some
    | apply OCanon.mapId | apply OCanon.mapFst | apply OCanon.map | split | intro _ _ _ | intro _ _ | intro _ | simp only
    | dsimp only | dsimp only [id] | refine OCanon.snd (by assumption) ?_)

theorem execDatae_wf (k : Nat) (s : State) (hs : s.memWf = true) :
    RCanon (execDatae k s) := by
  unfold execDatae
  with_reducible repeat' (first
    | assumption | apply State.gotData_wf | apply RCanon.next | apply RCanon.refused | apply RCanon.fault | split | simp only
    | dsimp only | refine RCanon.elim (by assumption) ?_)

theorem execDatam_wf (k : Nat) (s : State) (hs : s.memWf = true) :
    RCanon (execDatam k s) := by
  unfold execDatam
  with_reducible repeat' (first
    | assumption | apply State.gotData_wf | apply RCanon.next | apply RCanon.refused | apply RCanon.fault | split | simp only
    | dsimp only | refine RCanon.elim (by assumption) ?_)

theorem execDataonce_wf (k : Nat) (s : State) (hs : s.memWf = true) :
    RCanon (execDataonce k s) := by
  unfold execDataonce
  with_reducible repeat' (first
    | assumption | apply State.arrival_wf | apply stop_wf | apply State.pump_wf | apply State.finishLoad_wf
    | apply RCanon.next | apply RCanon.refused | apply RCanon.fault | exact OCanon.none | apply OCanon.someId
    | apply OCanon.some | split | simp only | dsimp only | refine OCanon.snd (by assumption) ?_)

theorem execDatas_wf (k : Nat) (s : State) (hs : s.memWf = true) :
    RCanon (execDatas k s) := by
  unfold execDatas
  with_reducible repeat' (first
    | assumption | apply State.gotData_wf | apply RCanon.next | apply RCanon.refused | apply RCanon.fault | split | simp only
    | dsimp only | refine RCanon.elim (by assumption) ?_)

theorem execDirectorySetRecallDone_wf (home : Fin 16) (set : Fin 262144) (s : State) (hs : s.memWf = true) :
    RCanon (execDirectorySetRecallDone home set s) := by
  unfold execDirectorySetRecallDone
  with_reducible repeat' (first
    | assumption | apply stop_wf | apply State.flushLines_wf | apply State.fset_wf | apply RCanon.next | apply RCanon.refused
    | apply RCanon.fault | exact OCanon.none | apply OCanon.someId | apply OCanon.some | split | simp only | dsimp only
    | dsimp only [id] | simp only [memWf_mk, cmpWf_mk, memOk_cmp, cmpWf] | refine OCanon.id_ (by assumption) ?_)

theorem execGetm_wf (k : Nat) (e : HomeErr) (s : State) (hs : s.memWf = true) :
    RCanon (execGetm k e s) := by
  unfold execGetm
  with_reducible repeat' (first
    | assumption | apply State.homeStart_wf | apply RCanon.next | apply RCanon.refused | apply RCanon.fault | split
    | simp only | dsimp only | refine RCanon.elim (by assumption) ?_)

theorem execGets_wf (k : Nat) (e : HomeErr) (s : State) (hs : s.memWf = true) :
    RCanon (execGets k e s) := by
  unfold execGets
  with_reducible repeat' (first
    | assumption | apply State.homeStart_wf | apply RCanon.next | apply RCanon.refused | apply RCanon.fault | split
    | simp only | dsimp only | refine RCanon.elim (by assumption) ?_)

theorem execQdcFlushDone_wf (quad : Fin 256) (s : State) (hs : s.memWf = true) :
    RCanon (execQdcFlushDone quad s) := by
  unfold execQdcFlushDone
  with_reducible repeat' (first
    | assumption | apply stop_wf | apply State.pick_wf | apply State.flushLines_wf | apply State.fset_wf | apply RCanon.next
    | apply RCanon.refused | apply RCanon.fault | exact OCanon.none | apply OCanon.someId | apply OCanon.some | apply fold_wf1
    | apply fold_wf2 | apply fold_wf | split | intro _ _ _ | intro _ _ | intro _ | simp only | dsimp only | dsimp only [id]
    | simp only [memWf_mk, cmpWf_mk, memOk_cmp, cmpWf] | refine Canon.snd (by assumption) ?_
    | refine OCanon.id_ (by assumption) ?_ | refine Canon.fst (by assumption) ?_)

theorem execReadonce_wf (k : Nat) (e : HomeErr) (s : State) (hs : s.memWf = true) :
    RCanon (execReadonce k e s) := by
  unfold execReadonce
  with_reducible repeat' (first
    | assumption | apply State.homeStart_wf | apply RCanon.next | apply RCanon.refused | apply RCanon.fault | split
    | simp only | dsimp only | refine RCanon.elim (by assumption) ?_)

theorem execRetryFifoGrant_wf (home : Fin 16) (set : Fin 262144) (s : State) (hs : s.memWf = true) :
    RCanon (execRetryFifoGrant home set s) := by
  unfold execRetryFifoGrant
  with_reducible repeat' (first
    | assumption | apply stop_wf | apply State.beginReq_wf | apply State.takeWay_wf | apply State.startCancels_wf
    | apply RCanon.next | apply RCanon.refused | apply RCanon.fault | exact OCanon.none | apply OCanon.someId
    | apply OCanon.some | split | simp only | dsimp only | dsimp only [id] | simp only [memWf_mk, cmpWf_mk, memOk_cmp, cmpWf]
    | refine OCanon.id_ (by assumption) ?_)

theorem execRetryMsg_wf (k : Nat) (s : State) (hs : s.memWf = true) :
    RCanon (execRetryMsg k s) := by
  unfold execRetryMsg
  with_reducible repeat' (first
    | assumption | apply State.arrival_wf | apply stop_wf | apply State.quadCount_wf | apply RCanon.next
    | apply RCanon.refused | apply RCanon.fault | exact OCanon.none | apply OCanon.someId | apply OCanon.some | split
    | simp only | dsimp only | refine OCanon.snd (by assumption) ?_)

theorem execSnpack_wf (k : Nat) (s : State) (hs : s.memWf = true) :
    RCanon (execSnpack k s) := by
  unfold execSnpack
  with_reducible repeat' (first
    | assumption | apply State.answer_wf | apply State.addSharer_wf | apply State.setDir_wf | apply ECanon.done
    | apply ECanon.jump | apply ECanon.wait | apply ECanon.busy | apply ECanon.raise | exact ECanon.stop | apply RCanon.next
    | apply RCanon.refused | apply RCanon.fault | split | intro _ _ _ | intro _ _ | intro _ | simp only | dsimp only
    | dsimp only [id] | refine Canon.fst (by assumption) ?_ | refine RCanon.elim (by assumption) ?_)

theorem execSnpinv_wf (k : Nat) (s : State) (hs : s.memWf = true) :
    RCanon (execSnpinv k s) := by
  unfold execSnpinv
  with_reducible repeat' (first
    | assumption | apply State.snoop_wf | apply RCanon.next | apply RCanon.refused | apply RCanon.fault | split | simp only
    | dsimp only | refine RCanon.elim (by assumption) ?_)

theorem execSnpinvfwd_wf (k : Nat) (s : State) (hs : s.memWf = true) :
    RCanon (execSnpinvfwd k s) := by
  unfold execSnpinvfwd
  with_reducible repeat' (first
    | assumption | apply State.snoop_wf | apply RCanon.next | apply RCanon.refused | apply RCanon.fault | split | simp only
    | dsimp only | refine RCanon.elim (by assumption) ?_)

theorem execSnpmiss_wf (k : Nat) (s : State) (hs : s.memWf = true) :
    RCanon (execSnpmiss k s) := by
  unfold execSnpmiss
  with_reducible repeat' (first
    | assumption | apply State.answer_wf | apply ECanon.done | apply ECanon.jump | apply ECanon.wait | apply ECanon.busy
    | apply ECanon.raise | exact ECanon.stop | apply RCanon.next | apply RCanon.refused | apply RCanon.fault | split
    | intro _ _ _ | intro _ _ | intro _ | simp only | dsimp only | dsimp only [id] | refine Canon.fst (by assumption) ?_
    | refine RCanon.elim (by assumption) ?_)

theorem execSnpmisswbp_wf (k : Nat) (s : State) (hs : s.memWf = true) :
    RCanon (execSnpmisswbp k s) := by
  unfold execSnpmisswbp
  with_reducible repeat' (first
    | assumption | apply State.answer_wf | apply ECanon.done | apply ECanon.jump | apply ECanon.wait | apply ECanon.busy
    | apply ECanon.raise | exact ECanon.stop | apply RCanon.next | apply RCanon.refused | apply RCanon.fault | split
    | intro _ _ _ | intro _ _ | intro _ | simp only | dsimp only | dsimp only [id] | refine Canon.fst (by assumption) ?_
    | refine RCanon.elim (by assumption) ?_)

theorem execSnponce_wf (k : Nat) (s : State) (hs : s.memWf = true) :
    RCanon (execSnponce k s) := by
  unfold execSnponce
  with_reducible repeat' (first
    | assumption | apply State.snoop_wf | apply RCanon.next | apply RCanon.refused | apply RCanon.fault | split | simp only
    | dsimp only | refine RCanon.elim (by assumption) ?_)

theorem execSnppoison_wf (k : Nat) (s : State) (hs : s.memWf = true) :
    RCanon (execSnppoison k s) := by
  unfold execSnppoison
  with_reducible repeat' (first
    | assumption | apply State.answer_wf | apply State.setPoison_wf | apply State.setDir_wf | apply ECanon.done
    | apply ECanon.jump | apply ECanon.wait | apply ECanon.busy | apply ECanon.raise | exact ECanon.stop | apply RCanon.next
    | apply RCanon.refused | apply RCanon.fault | split | intro _ _ _ | intro _ _ | intro _ | simp only | dsimp only
    | dsimp only [id] | refine Canon.fst (by assumption) ?_ | refine RCanon.elim (by assumption) ?_)

theorem execSnprecall_wf (k : Nat) (s : State) (hs : s.memWf = true) :
    RCanon (execSnprecall k s) := by
  unfold execSnprecall
  with_reducible repeat' (first
    | assumption | apply State.snoop_wf | apply RCanon.next | apply RCanon.refused | apply RCanon.fault | split | simp only
    | dsimp only | refine RCanon.elim (by assumption) ?_)

theorem execSnprspdata_wf (k : Nat) (s : State) (hs : s.memWf = true) :
    RCanon (execSnprspdata k s) := by
  unfold execSnprspdata
  with_reducible repeat' (first
    | assumption | apply State.answer_wf | apply ECanon.done | apply ECanon.jump | apply ECanon.wait | apply ECanon.busy
    | apply ECanon.raise | exact ECanon.stop | apply RCanon.next | apply RCanon.refused | apply RCanon.fault | split
    | intro _ _ _ | intro _ _ | intro _ | simp only | dsimp only | dsimp only [id] | refine Canon.fst (by assumption) ?_
    | refine RCanon.elim (by assumption) ?_)

theorem execSnprspfwd_wf (k : Nat) (s : State) (hs : s.memWf = true) :
    RCanon (execSnprspfwd k s) := by
  unfold execSnprspfwd
  with_reducible repeat' (first
    | assumption | apply State.answer_wf | apply ECanon.done | apply ECanon.jump | apply ECanon.wait | apply ECanon.busy
    | apply ECanon.raise | exact ECanon.stop | apply RCanon.next | apply RCanon.refused | apply RCanon.fault | split
    | intro _ _ _ | intro _ _ | intro _ | simp only | dsimp only | dsimp only [id] | refine Canon.fst (by assumption) ?_
    | refine RCanon.elim (by assumption) ?_)

theorem execSnpshared_wf (k : Nat) (s : State) (hs : s.memWf = true) :
    RCanon (execSnpshared k s) := by
  unfold execSnpshared
  with_reducible repeat' (first
    | assumption | apply State.snoop_wf | apply RCanon.next | apply RCanon.refused | apply RCanon.fault | split | simp only
    | dsimp only | refine RCanon.elim (by assumption) ?_)

theorem execWback_wf (k : Nat) (s : State) (hs : s.memWf = true) :
    RCanon (execWback k s) := by
  unfold execWback
  with_reducible repeat' (first
    | assumption | apply State.arrival_wf | apply stop_wf | apply State.pump_wf | apply State.delQ_wf | apply RCanon.next
    | apply RCanon.refused | apply RCanon.fault | exact OCanon.none | apply OCanon.someId | apply OCanon.some | split
    | simp only | dsimp only | refine OCanon.snd (by assumption) ?_)

theorem execWbdata_wf (k : Nat) (s : State) (hs : s.memWf = true) :
    RCanon (execWbdata k s) := by
  unfold execWbdata
  with_reducible repeat' (first
    | assumption | apply State.arrival_wf | apply stop_wf | apply State.send_wf | apply State.backWrite_wf
    | apply State.setDir_wf | apply State.delDir_wf | apply need_wf | apply State.settle_wf | apply State.updTxn_wf
    | apply RCanon.next | apply RCanon.refused | apply RCanon.fault | exact OCanon.none | apply OCanon.someId
    | apply OCanon.some | split | simp only | dsimp only | refine OCanon.snd (by assumption) ?_)

theorem execWriteinvfull_wf (k : Nat) (s : State) (hs : s.memWf = true) :
    RCanon (execWriteinvfull k s) := by
  unfold execWriteinvfull
  with_reducible repeat' (first
    | assumption | apply State.homeStart_wf | apply RCanon.next | apply RCanon.refused | apply RCanon.fault | split
    | simp only | dsimp only | refine RCanon.elim (by assumption) ?_)

theorem execWriteinvpart_wf (k : Nat) (e : HomeErr) (s : State) (hs : s.memWf = true) :
    RCanon (execWriteinvpart k e s) := by
  unfold execWriteinvpart
  with_reducible repeat' (first
    | assumption | apply State.homeStart_wf | apply RCanon.next | apply RCanon.refused | apply RCanon.fault | split
    | simp only | dsimp only | refine RCanon.elim (by assumption) ?_)

/-! ### RegWrite -/

theorem State.setShadow_wf (s : State) (r : Reg) (i : Nat) (v : W64) (hs : s.memWf = true) :
    (State.setShadow s r i v).memWf = true := by
  unfold State.setShadow
  with_reducible repeat' (first
    | assumption | split | simp only | dsimp only | simp only [memWf_mk, cmpWf_mk, memOk_cmp, cmpWf])

theorem State.writeField_wf (s : State) (r : Reg) (i value mask : Nat) (f : FieldSpec) (hs : s.memWf = true) :
    (State.writeField s r i value mask f).memWf = true := by
  unfold State.writeField
  with_reducible repeat' (first
    | assumption | apply State.fset_wf | apply State.take_wf | apply State.setShadow_wf | apply fold_wf1 | apply fold_wf2
    | apply fold_wf | split | intro _ _ _ | intro _ _ | intro _ | simp only | dsimp only | refine Canon.snd (by assumption) ?_
    | refine Canon.fst (by assumption) ?_)

theorem State.writeReg_wf (s : State) (r : Reg) (i value mask : Nat) (hs : s.memWf = true) :
    (State.writeReg s r i value mask).memWf = true := by
  unfold State.writeReg
  with_reducible repeat' (first
    | assumption | apply State.writeField_wf | apply fold_wf1 | apply fold_wf2 | apply fold_wf | split | intro _ _ _
    | intro _ _ | intro _ | simp only | dsimp only | refine Canon.fst (by assumption) ?_)

theorem State.regAction_wf (s : State) (who : Requester) (r : Reg) (i value : Nat) (act : State → State) (hs : s.memWf = true) (hact : ∀ (y0 : State), y0.memWf = true → (act y0).memWf = true) :
    RCanon (State.regAction s who r i value act) := by
  unfold State.regAction
  with_reducible repeat' (first
    | assumption | apply hact | apply State.reachRecord_wf | apply State.writeReg_wf | apply ECanon.done | apply ECanon.jump
    | apply ECanon.wait | apply ECanon.busy | apply ECanon.raise | exact ECanon.stop | apply RCanon.next
    | apply RCanon.refused | apply RCanon.fault | split | intro _ _ _ | intro _ _ | intro _ | simp only | dsimp only
    | dsimp only [id])

/-! ### Memory -/

theorem State.showCapacity_wf (s : State) (hs : s.memWf = true) :
    (State.showCapacity s).memWf = true := by
  unfold State.showCapacity
  with_reducible repeat' (first
    | assumption | apply State.fset_wf | apply fold_wf1 | apply fold_wf2 | apply fold_wf | split | intro _ _ _ | intro _ _
    | intro _ | simp only | dsimp only | refine Canon.fst (by assumption) ?_)

theorem State.homeLost_wf (s : State) (h cause : Nat) (hs : s.memWf = true) :
    (State.homeLost s h cause).memWf = true := by
  unfold State.homeLost
  with_reducible repeat' (first
    | assumption | apply State.failAcc_wf | apply State.setChan_wf | apply State.resetRegs_wf | apply State.fset_wf
    | apply State.showCapacity_wf | apply State.pump_wf | apply State.capacityChanged_wf | apply State.logEvent_wf
    | apply fold_wf1 | apply fold_wf2 | apply fold_wf | split | intro _ _ _ | intro _ _ | intro _ | simp only | dsimp only
    | simp only [memWf_mk, cmpWf_mk, memOk_cmp, cmpWf] | refine Canon.fst (by assumption) ?_)

theorem State.releaseWalk_wf (s : State) (p : Nat → Bool) (hs : s.memWf = true) :
    (State.releaseWalk s p).memWf = true := by
  unfold State.releaseWalk
  with_reducible repeat' (first
    | assumption | apply State.settle_wf | apply State.openTxn_wf | apply fold_wf1 | apply fold_wf2 | apply fold_wf | split
    | intro _ _ _ | intro _ _ | intro _ | simp only | dsimp only | refine Canon.fst (by assumption) ?_)

theorem State.hwReleaseStart_wf (t : State) (r : Nat) (ht : t.memWf = true) :
    (State.hwReleaseStart t r).memWf = true := by
  unfold State.hwReleaseStart
  with_reducible repeat' (first
    | assumption | apply State.dropVerified_wf | apply State.setReg_wf | apply State.fset_wf | apply State.releaseWalk_wf
    | split | simp only | dsimp only | simp only [memWf_mk, cmpWf_mk, memOk_cmp, cmpWf])

theorem State.hwDeny_wf (s : State) (r : Nat) (hs : s.memWf = true) :
    (State.hwDeny s r).memWf = true := by
  unfold State.hwDeny
  with_reducible repeat' (first
    | assumption | apply State.fset_wf | split | simp only | dsimp only)

theorem State.hwStart_wf (t : State) (r cmd : Nat) (ok : Bool) (act : State → State) (ht : t.memWf = true) (hact : ∀ (y0 : State), y0.memWf = true → (act y0).memWf = true) :
    (State.hwStart t r cmd ok act).memWf = true := by
  unfold State.hwStart
  with_reducible repeat' (first
    | assumption | apply hact | apply State.fset_wf | apply State.hwDeny_wf | apply ECanon.done | apply ECanon.jump
    | apply ECanon.wait | apply ECanon.busy | apply ECanon.raise | exact ECanon.stop | apply RCanon.next
    | apply RCanon.refused | apply RCanon.fault | split | intro _ _ _ | intro _ _ | intro _ | simp only | dsimp only
    | dsimp only [id])

theorem State.hwCommand_wf (s : State) (who : Requester) (r word : Nat) (hs : s.memWf = true) :
    RCanon (State.hwCommand s who r word) := by
  unfold State.hwCommand
  with_reducible repeat' (first
    | assumption | apply State.regAction_wf | apply State.hwStart_wf | apply State.hwReleaseStart_wf | apply State.fset_wf
    | apply State.take_wf | apply ECanon.done | apply ECanon.jump | apply ECanon.wait | apply ECanon.busy | apply ECanon.raise
    | exact ECanon.stop | apply RCanon.next | apply RCanon.refused | apply RCanon.fault | split | intro _ _ _ | intro _ _
    | intro _ | simp only | dsimp only | dsimp only [id] | refine Canon.snd (by assumption) ?_
    | refine RCanon.elim (by assumption) ?_)

theorem State.hwCopyBlock_wf (s : State) (r src block : Nat) (hs : s.memWf = true) :
    (State.hwCopyBlock s r src block).memWf = true := by
  unfold State.hwCopyBlock
  with_reducible repeat' (first
    | assumption | apply State.homeWrite_wf | apply State.setMemByte_wf | apply State.setPoison_wf | apply fold_wf1
    | apply fold_wf2 | apply fold_wf | split | intro _ _ _ | intro _ _ | intro _ | simp only | dsimp only
    | refine Canon.fst (by assumption) ?_)

theorem State.mapOut_wf (s : State) (c : Chan) (hs : s.memWf = true) :
    (State.mapOut s c).memWf = true := by
  unfold State.mapOut
  with_reducible repeat' (first
    | assumption | apply State.capacityChanged_wf | apply State.logEvent_wf | apply State.event_wf | apply State.degrade_wf
    | apply State.showCapacity_wf | apply State.setChan_wf | split | simp only | dsimp only)

theorem State.repairBlock_wf (s : State) (r block : Nat) (hs : s.memWf = true) :
    (State.repairBlock s r block).1.memWf = true := by
  unfold State.repairBlock
  with_reducible repeat' (first
    | assumption | apply State.hwQuarantine_wf | apply State.hwEvent_wf | apply State.hwCopyBlock_wf | apply State.failing_wf
    | apply fold_wf1 | apply fold_wf2 | apply fold_wf | split | intro _ _ _ | intro _ _ | intro _ | simp only | dsimp only
    | refine Canon.fst (by assumption) ?_)

theorem State.scrubFix_wf (s : State) (h : Nat) (hs : s.memWf = true) :
    (State.scrubFix s h).memWf = true := by
  unfold State.scrubFix
  with_reducible repeat' (first
    | assumption | apply State.pick_wf | apply State.countCe_wf | apply State.memCe_wf | split | simp only | dsimp only
    | refine Canon.snd (by assumption) ?_)

theorem State.scrubPoison_wf (s : State) (line : Nat) (hs : s.memWf = true) :
    (State.scrubPoison s line).memWf = true := by
  unfold State.scrubPoison
  with_reducible repeat' (first
    | assumption | apply State.watchUe_wf | apply State.memErrLog_wf | apply State.setPoison_wf | split | simp only
    | dsimp only)

theorem execChannelStopsAnswering_wf (home : Fin 16) (target : Option (Fin 64)) (s : State) (hs : s.memWf = true) :
    RCanon (execChannelStopsAnswering home target s) := by
  unfold execChannelStopsAnswering
  with_reducible repeat' (first
    | assumption | apply need_wf | apply State.mapOut_wf | apply RCanon.next | apply RCanon.refused | apply RCanon.fault
    | exact OCanon.none | apply OCanon.someId | apply OCanon.some | apply OCanon.mapId | apply OCanon.mapFst
    | apply OCanon.map | split | intro _ _ _ | intro _ _ | intro _ | simp only | dsimp only | dsimp only [id]
    | refine OCanon.snd (by assumption) ?_)

theorem execHomeDieLoss_wf (home : Fin 16) (s : State) (hs : s.memWf = true) :
    RCanon (execHomeDieLoss home s) := by
  unfold execHomeDieLoss
  with_reducible repeat' (first
    | assumption | apply need_wf | apply State.homeLost_wf | apply RCanon.next | apply RCanon.refused | apply RCanon.fault
    | split | simp only | dsimp only)

theorem execHwRelease_wf (who : Requester) (region : Fin 64) (word : W64) (s : State) (hs : s.memWf = true) :
    RCanon (execHwRelease who region word s) := by
  unfold execHwRelease
  with_reducible repeat' (first
    | assumption | apply State.hwCommand_wf | apply RCanon.next | apply RCanon.refused | apply RCanon.fault | split
    | simp only | dsimp only | refine RCanon.elim (by assumption) ?_)

theorem execHwReleaseDone_wf (region : Fin 64) (s : State) (hs : s.memWf = true) :
    RCanon (execHwReleaseDone region s) := by
  unfold execHwReleaseDone
  with_reducible repeat' (first
    | assumption | apply need_wf | apply State.fset_wf | apply State.releaseWalk_wf | apply RCanon.next | apply RCanon.refused
    | apply RCanon.fault | split | simp only | dsimp only)

theorem execHwReload_wf (who : Requester) (region : Fin 64) (word : W64) (s : State) (hs : s.memWf = true) :
    RCanon (execHwReload who region word s) := by
  unfold execHwReload
  with_reducible repeat' (first
    | assumption | apply State.hwCommand_wf | apply RCanon.next | apply RCanon.refused | apply RCanon.fault | split
    | simp only | dsimp only | refine RCanon.elim (by assumption) ?_)

theorem execHwSeal_wf (who : Requester) (region : Fin 64) (word : W64) (s : State) (hs : s.memWf = true) :
    RCanon (execHwSeal who region word s) := by
  unfold execHwSeal
  with_reducible repeat' (first
    | assumption | apply State.hwCommand_wf | apply RCanon.next | apply RCanon.refused | apply RCanon.fault | split
    | simp only | dsimp only | refine RCanon.elim (by assumption) ?_)

theorem execHwSealDone_wf (region : Fin 64) (s : State) (hs : s.memWf = true) :
    RCanon (execHwSealDone region s) := by
  unfold execHwSealDone
  with_reducible repeat' (first
    | assumption | apply State.fset_wf | apply need_wf | apply RCanon.next | apply RCanon.refused | apply RCanon.fault | split
    | simp only | dsimp only | simp only [memWf_mk, cmpWf_mk, memOk_cmp, cmpWf])

theorem execPatrolScrub_wf (home : Fin 16) (corrected : Nat) (failing : List Nat) (s : State) (hs : s.memWf = true) :
    RCanon (execPatrolScrub home corrected failing s) := by
  unfold execPatrolScrub
  with_reducible repeat' (first
    | assumption | apply stop_wf | apply State.scrubFix_wf | apply State.scrubPoison_wf | apply RCanon.next
    | apply RCanon.refused | apply RCanon.fault | apply fold_wf1 | apply fold_wf2 | apply fold_wf | split | intro _ _ _
    | intro _ _ | intro _ | simp only | dsimp only | refine Canon.fst (by assumption) ?_)

theorem execPcMapout_wf (who : Requester) (home : Fin 16) (word : W32) (s : State) (hs : s.memWf = true) :
    RCanon (execPcMapout who home word s) := by
  unfold execPcMapout
  with_reducible repeat' (first
    | assumption | apply State.regAction_wf | apply State.fset_wf | apply ECanon.done | apply ECanon.jump | apply ECanon.wait
    | apply ECanon.busy | apply ECanon.raise | exact ECanon.stop | apply RCanon.next | apply RCanon.refused
    | apply RCanon.fault | split | intro _ _ _ | intro _ _ | intro _ | simp only | dsimp only | dsimp only [id]
    | refine RCanon.elim (by assumption) ?_)

theorem execPcMapoutDone_wf (home : Fin 16) (s : State) (hs : s.memWf = true) :
    RCanon (execPcMapoutDone home s) := by
  unfold execPcMapoutDone
  with_reducible repeat' (first
    | assumption | apply need_wf | apply State.mapOut_wf | apply State.fset_wf | apply RCanon.next | apply RCanon.refused
    | apply RCanon.fault | split | simp only | dsimp only)

theorem execPostPackageRepair_wf (pc : Fin 1024) (lines lost : List Nat) (s : State) (hs : s.memWf = true) :
    RCanon (execPostPackageRepair pc lines lost s) := by
  unfold execPostPackageRepair
  with_reducible repeat' (first
    | assumption | apply stop_wf | apply need_wf | apply State.failing_wf | apply State.setPoison_wf | apply State.logEvent_wf
    | apply State.boundVoid_wf | apply RCanon.next | apply RCanon.refused | apply RCanon.fault | apply fold_wf1
    | apply fold_wf2 | apply fold_wf | split | intro _ _ _ | intro _ _ | intro _ | simp only | dsimp only
    | simp only [memWf_mk, cmpWf_mk, memOk_cmp, cmpWf] | refine Canon.fst (by assumption) ?_)

theorem execQdcFlush_wf (who : Requester) (quad : Fin 256) (word : W32) (s : State) (hs : s.memWf = true) :
    RCanon (execQdcFlush who quad word s) := by
  unfold execQdcFlush
  with_reducible repeat' (first
    | assumption | apply State.regAction_wf | apply State.fset_wf | apply ECanon.done | apply ECanon.jump | apply ECanon.wait
    | apply ECanon.busy | apply ECanon.raise | exact ECanon.stop | apply RCanon.next | apply RCanon.refused
    | apply RCanon.fault | split | intro _ _ _ | intro _ _ | intro _ | simp only | dsimp only | dsimp only [id]
    | simp only [memWf_mk, cmpWf_mk, memOk_cmp, cmpWf] | refine RCanon.elim (by assumption) ?_)

theorem execRepairEnd_wf (region : Fin 64) (s : State) (hs : s.memWf = true) :
    RCanon (execRepairEnd region s) := by
  unfold execRepairEnd
  with_reducible repeat' (first
    | assumption | apply State.repairBlock_wf | apply need_wf | apply State.logEvent_wf | apply State.hwEvent_wf
    | apply State.fsat_wf | apply State.fset_wf | apply RCanon.next | apply RCanon.refused | apply RCanon.fault
    | apply fold_wf1 | apply fold_wf2 | apply fold_wf | split | intro _ _ _ | intro _ _ | intro _ | simp only | dsimp only
    | refine Canon.fst (by assumption) ?_)

theorem execRepairStart_wf (region : Fin 64) (s : State) (hs : s.memWf = true) :
    RCanon (execRepairStart region s) := by
  unfold execRepairStart
  with_reducible repeat' (first
    | assumption | apply need_wf | apply State.logEvent_wf | apply State.hwEvent_wf | apply State.fset_wf | apply RCanon.next
    | apply RCanon.refused | apply RCanon.fault | split | simp only | dsimp only)

theorem execStackTemperatureRead_wf (stack : Fin 32) (temp : W16) (s : State) (hs : s.memWf = true) :
    RCanon (execStackTemperatureRead stack temp s) := by
  unfold execStackTemperatureRead
  with_reducible repeat' (first
    | assumption | apply State.fset_wf | apply State.event_wf | apply State.boundVoid_wf | apply RCanon.next
    | apply RCanon.refused | apply RCanon.fault | apply fold_wf1 | apply fold_wf2 | apply fold_wf | split | intro _ _ _
    | intro _ _ | intro _ | simp only | dsimp only | simp only [memWf_mk, cmpWf_mk, memOk_cmp, cmpWf]
    | refine Canon.fst (by assumption) ?_)

/-! ### Walks -/

theorem State.wcFill_wf (s : State) (e : WalkEnt) (hs : s.memWf = true) :
    (State.wcFill s e).memWf = true := by
  unfold State.wcFill
  with_reducible repeat' (first
    | assumption | split | simp only | dsimp only | simp only [memWf_mk, cmpWf_mk, memOk_cmp, cmpWf])

theorem State.walkRead_wf (s : State) (q ctx pa : Nat) (read : State → State × Nat × Nat) (hs : s.memWf = true) (hread : ∀ (y0 : State), y0.memWf = true → (read y0).1.memWf = true) :
    (State.walkRead s q ctx pa read).1.memWf = true := by
  unfold State.walkRead
  with_reducible repeat' (first
    | assumption | apply hread | apply State.serve_wf | apply ECanon.done | apply ECanon.jump | apply ECanon.wait
    | apply ECanon.busy | apply ECanon.raise | exact ECanon.stop | apply RCanon.next | apply RCanon.refused
    | apply RCanon.fault | split | intro _ _ _ | intro _ _ | intro _ | simp only | dsimp only | dsimp only [id]
    | refine Canon.fst (by assumption) ?_)

theorem State.wcCheck_wf (s : State) (q ctx level index : Nat) (hs : s.memWf = true) :
    (State.wcCheck s q ctx level index).memWf = true := by
  unfold State.wcCheck
  with_reducible repeat' (first
    | assumption | apply State.qtlbCount_wf | apply State.foundUpset_wf | split | simp only | dsimp only
    | simp only [memWf_mk, cmpWf_mk, memOk_cmp, cmpWf])

theorem State.walkEntry_wf (s : State) (q ctx va level pa : Nat) (read : State → State × Nat × Nat) (hs : s.memWf = true) (hread : ∀ (y0 : State), y0.memWf = true → (read y0).1.memWf = true) :
    (State.walkEntry s q ctx va level pa read).1.memWf = true := by
  unfold State.walkEntry
  with_reducible repeat' (first
    | assumption | apply hread | apply State.walkRead_wf | apply State.wcCheck_wf | apply ECanon.done | apply ECanon.jump
    | apply ECanon.wait | apply ECanon.busy | apply ECanon.raise | exact ECanon.stop | apply RCanon.next
    | apply RCanon.refused | apply RCanon.fault | split | intro _ _ _ | intro _ _ | intro _ | simp only | dsimp only
    | dsimp only [id] | refine Canon.fst (by assumption) ?_)

theorem State.walkDown_wf (s : State) (q ctx va : Nat) (host : Bool) (table level : Nat) (hs : s.memWf = true) :
    (State.walkDown s q ctx va host table level).1.memWf = true := by
  induction level generalizing s table with
  | zero =>
    have h := State.walkEntry_wf s q ctx va 0 (table + 8 * ptIndex 0 va) (fun s => s.readWord (table + 8 * ptIndex 0 va) 8) hs
      (fun y hy => State.readWord_wf y _ 8 hy)
    unfold State.walkDown
    dsimp only
    repeat' split
    all_goals first | exact h | (simp at *; done)
  | succ n ih =>
    have h := State.walkEntry_wf s q ctx va (n + 1) (table + 8 * ptIndex (n + 1) va)
      (fun s => s.readWord (table + 8 * ptIndex (n + 1) va) 8) hs (fun y hy => State.readWord_wf y _ 8 hy)
    unfold State.walkDown
    dsimp only
    split; · exact h
    split; · exact h
    split; · exact h
    split; · exact h
    apply ih
    split
    · exact State.wcFill_wf _ _ h
    · exact h

theorem State.walk_wf (s : State) (q ctx va : Nat) (hs : s.memWf = true) :
    (State.walk s q ctx va).1.memWf = true := by
  have h := State.walkEntry_wf s q ctx 0 5 (s.cttAddr ctx) (fun s => s.cttRead ctx) hs (fun y hy => State.cttRead_wf y _ hy)
  unfold State.walk
  dsimp only
  split
  · exact h
  · exact State.walkDown_wf _ _ _ _ _ _ _ (State.wcFill_wf _ _ (State.cttLoad_wf _ _ h))

theorem State.walkRecord_wf (s : State) (die ctx va pa level : Nat) (hs : s.memWf = true) :
    (State.walkRecord s die ctx va pa level).memWf = true := by
  unfold State.walkRecord
  with_reducible repeat' (first
    | assumption | apply State.dfqWrite_wf | split | simp only | dsimp only)

theorem State.agentWalk_wf (s : State) (ctx va : Nat) (hs : s.memWf = true) :
    (State.agentWalk s ctx va).memWf = true := by
  unfold State.agentWalk
  with_reducible repeat' (first
    | assumption | apply State.walk_wf | apply State.walkRecord_wf | split | simp only | dsimp only
    | refine Canon.fst (by assumption) ?_)

theorem State.invStart_wf (s : State) (i : Inv) (hs : s.memWf = true) :
    (State.invStart s i).memWf = true := by
  unfold State.invStart
  with_reducible repeat' (first
    | assumption | split | simp only | dsimp only | simp only [memWf_mk, cmpWf_mk, memOk_cmp, cmpWf])

theorem State.iqHead_wf (s : State) (hs : s.memWf = true) :
    (State.iqHead s).1.memWf = true := by
  unfold State.iqHead
  with_reducible repeat' (first
    | assumption | apply State.readBytes_wf | split | simp only | dsimp only | refine Canon.fst (by assumption) ?_)

theorem State.consume_wf (s : State) (op : Nat) (hs : s.memWf = true) :
    RCanon (State.consume s op) := by
  unfold State.consume
  with_reducible repeat' (first
    | assumption | apply stop_wf | apply State.iqHead_wf | apply State.fset_wf | apply State.invStart_wf | apply RCanon.next
    | apply RCanon.refused | apply RCanon.fault | split | simp only | dsimp only
    | simp only [memWf_mk, cmpWf_mk, memOk_cmp, cmpWf] | refine Canon.fst (by assumption) ?_)

theorem State.wakeHost_wf (s : State) (h : HostXlt) (miss : Option Miss) (hs : s.memWf = true) :
    (State.wakeHost s h miss).memWf = true := by
  unfold State.wakeHost
  with_reducible repeat' (first
    | assumption | apply State.wake_wf | split | simp only | dsimp only)

theorem State.hostFail_wf (s : State) (h : HostXlt) (hs : s.memWf = true) :
    (State.hostFail s h).memWf = true := by
  unfold State.hostFail
  with_reducible repeat' (first
    | assumption | apply State.wakeHost_wf | split | simp only | dsimp only)

theorem State.hostNth_wf (s : State) (p : HostXlt → Bool) (k : Nat) (hs : s.memWf = true) :
    OCanon Prod.snd (State.hostNth s p k) := by
  unfold State.hostNth
  with_reducible repeat' (first
    | assumption | exact OCanon.none | apply OCanon.someId | apply OCanon.some | split | simp only | dsimp only
    | simp only [memWf_mk, cmpWf_mk, memOk_cmp, cmpWf] | refine OCanon.snd (by assumption) ?_)

theorem State.hostPut_wf (s : State) (h : HostXlt) (hs : s.memWf = true) :
    (State.hostPut s h).memWf = true := by
  unfold State.hostPut
  with_reducible repeat' (first
    | assumption | split | simp only | dsimp only | simp only [memWf_mk, cmpWf_mk, memOk_cmp, cmpWf])

theorem State.invDone_wf (s : State) (i : Inv) (hs : s.memWf = true) :
    (State.invDone s i).memWf = true := by
  unfold State.invDone
  with_reducible repeat' (first
    | assumption | apply State.fset_wf | apply State.writeBytes_wf | apply State.event_wf | split | simp only | dsimp only
    | refine Canon.fst (by assumption) ?_)

theorem State.invNear_wf (s : State) (i : Inv) (hs : s.memWf = true) :
    (State.invNear s i).memWf = true := by
  unfold State.invNear
  with_reducible repeat' (first
    | assumption | apply State.pump_wf | apply State.icDrop_wf | apply State.scDrop_wf | apply State.l1Drop_wf
    | apply fold_wf1 | apply fold_wf2 | apply fold_wf | split | intro _ _ _ | intro _ _ | intro _ | simp only | dsimp only
    | refine Canon.fst (by assumption) ?_)

theorem State.invGo_wf (s : State) (i : Inv) (done : State → State) (hs : s.memWf = true) (hdone : ∀ (y0 : State), y0.memWf = true → (done y0).memWf = true) :
    RCanon (State.invGo s i done) := by
  unfold State.invGo
  with_reducible repeat' (first
    | assumption | apply hdone | apply need_wf | apply State.invNear_wf | apply ECanon.done | apply ECanon.jump
    | apply ECanon.wait | apply ECanon.busy | apply ECanon.raise | exact ECanon.stop | apply RCanon.next
    | apply RCanon.refused | apply RCanon.fault | split | intro _ _ _ | intro _ _ | intro _ | simp only | dsimp only
    | dsimp only [id] | simp only [memWf_mk, cmpWf_mk, memOk_cmp, cmpWf])

theorem State.iqBaseWrite_wf (s : State) (who : Requester) (word mask : Nat) (hs : s.memWf = true) :
    RCanon (State.iqBaseWrite s who word mask) := by
  unfold State.iqBaseWrite
  with_reducible repeat' (first
    | assumption | apply State.reachRecord_wf | apply State.writeReg_wf | apply State.fset_wf | apply RCanon.next
    | apply RCanon.refused | apply RCanon.fault | split | simp only | dsimp only)

theorem State.resume_wf (s : State) (ctx seq : Nat) (action : Bool) (hs : s.memWf = true) :
    (State.resume s ctx seq action).memWf = true := by
  unfold State.resume
  with_reducible repeat' (first
    | assumption | apply State.outcome_wf | apply State.updGrp_wf | apply State.ctxFault_wf | apply fold_wf1 | apply fold_wf2
    | apply fold_wf | split | intro _ _ _ | intro _ _ | intro _ | simp only | dsimp only
    | simp only [memWf_mk, cmpWf_mk, memOk_cmp, cmpWf] | refine Canon.fst (by assumption) ?_)

theorem State.resumeWrite_wf (s : State) (who : Requester) (word : Nat) (hs : s.memWf = true) :
    RCanon (State.resumeWrite s who word) := by
  unfold State.resumeWrite
  with_reducible repeat' (first
    | assumption | apply State.regAction_wf | apply State.resume_wf | apply ECanon.done | apply ECanon.jump
    | apply ECanon.wait | apply ECanon.busy | apply ECanon.raise | exact ECanon.stop | apply RCanon.next
    | apply RCanon.refused | apply RCanon.fault | split | intro _ _ _ | intro _ _ | intro _ | simp only | dsimp only
    | dsimp only [id] | simp only [memWf_mk, cmpWf_mk, memOk_cmp, cmpWf] | refine RCanon.elim (by assumption) ?_)

theorem execAtsCompletion_wf (k : Nat) (res : AtsResult) (s : State) (hs : s.memWf = true) :
    RCanon (execAtsCompletion k res s) := by
  unfold execAtsCompletion
  with_reducible repeat' (first
    | assumption | apply State.hostNth_wf | apply State.hostPut_wf | apply State.hostFail_wf | apply State.emit_wf
    | apply State.pick_wf | apply State.wakeHost_wf | apply State.tlbFill_wf | apply RCanon.next | apply RCanon.refused
    | apply RCanon.fault | exact OCanon.none | apply OCanon.someId | apply OCanon.some | split | simp only | dsimp only
    | refine Canon.snd (by assumption) ?_ | refine OCanon.snd (by assumption) ?_)

theorem execAtsInvalidateRequest_wf (func : Fin 256) (tag : Fin 32) (pasid : Option (BitVec 20)) (va : W64) (bytes : Nat) (s : State) (hs : s.memWf = true) :
    RCanon (execAtsInvalidateRequest func tag pasid va bytes s) := by
  unfold execAtsInvalidateRequest
  with_reducible repeat' (first
    | assumption | apply need_wf | apply State.invStart_wf | apply RCanon.next | apply RCanon.refused | apply RCanon.fault
    | split | simp only | dsimp only)

theorem execInvAll_wf (s : State) (hs : s.memWf = true) :
    RCanon (execInvAll s) := by
  unfold execInvAll
  with_reducible repeat' (first
    | assumption | apply State.consume_wf | apply RCanon.next | apply RCanon.refused | apply RCanon.fault | split | simp only
    | dsimp only | refine RCanon.elim (by assumption) ?_)

theorem execInvContext_wf (s : State) (hs : s.memWf = true) :
    RCanon (execInvContext s) := by
  unfold execInvContext
  with_reducible repeat' (first
    | assumption | apply State.consume_wf | apply RCanon.next | apply RCanon.refused | apply RCanon.fault | split | simp only
    | dsimp only | refine RCanon.elim (by assumption) ?_)

theorem execInvDescriptorComplete_wf (s : State) (hs : s.memWf = true) :
    RCanon (execInvDescriptorComplete s) := by
  unfold execInvDescriptorComplete
  with_reducible repeat' (first
    | assumption | apply stop_wf | apply State.invGo_wf | apply State.invDone_wf | apply ECanon.done | apply ECanon.jump
    | apply ECanon.wait | apply ECanon.busy | apply ECanon.raise | exact ECanon.stop | apply RCanon.next
    | apply RCanon.refused | apply RCanon.fault | split | intro _ _ _ | intro _ _ | intro _ | simp only | dsimp only
    | dsimp only [id] | refine RCanon.elim (by assumption) ?_)

theorem execInvRange_wf (s : State) (hs : s.memWf = true) :
    RCanon (execInvRange s) := by
  unfold execInvRange
  with_reducible repeat' (first
    | assumption | apply State.consume_wf | apply RCanon.next | apply RCanon.refused | apply RCanon.fault | split | simp only
    | dsimp only | refine RCanon.elim (by assumption) ?_)

theorem execInvSync_wf (s : State) (hs : s.memWf = true) :
    RCanon (execInvSync s) := by
  unfold execInvSync
  with_reducible repeat' (first
    | assumption | apply State.consume_wf | apply RCanon.next | apply RCanon.refused | apply RCanon.fault | split | simp only
    | dsimp only | refine RCanon.elim (by assumption) ?_)

theorem execInvalidateCompletion_wf (func : Fin 256) (tag : Fin 32) (s : State) (hs : s.memWf = true) :
    RCanon (execInvalidateCompletion func tag s) := by
  unfold execInvalidateCompletion
  with_reducible repeat' (first
    | assumption | apply stop_wf | apply State.invGo_wf | apply State.emit_wf | apply ECanon.done | apply ECanon.jump
    | apply ECanon.wait | apply ECanon.busy | apply ECanon.raise | exact ECanon.stop | apply RCanon.next
    | apply RCanon.refused | apply RCanon.fault | split | intro _ _ _ | intro _ _ | intro _ | simp only | dsimp only
    | dsimp only [id] | refine RCanon.elim (by assumption) ?_)

theorem execIqEnable_wf (who : Requester) (word : W64) (s : State) (hs : s.memWf = true) :
    RCanon (execIqEnable who word s) := by
  unfold execIqEnable
  with_reducible repeat' (first
    | assumption | apply State.iqBaseWrite_wf | apply RCanon.next | apply RCanon.refused | apply RCanon.fault | split
    | simp only | dsimp only | refine RCanon.elim (by assumption) ?_)

theorem execIqTailWrite_wf (who : Requester) (word : W32) (s : State) (hs : s.memWf = true) :
    RCanon (execIqTailWrite who word s) := by
  unfold execIqTailWrite
  with_reducible repeat' (first
    | assumption | apply State.regAction_wf | apply ECanon.done | apply ECanon.jump | apply ECanon.wait | apply ECanon.busy
    | apply ECanon.raise | exact ECanon.stop | apply RCanon.next | apply RCanon.refused | apply RCanon.fault | split
    | intro _ _ _ | intro _ _ | intro _ | simp only | dsimp only | dsimp only [id] | refine RCanon.elim (by assumption) ?_)

theorem execPrgResponse_wf (k : Nat) (res : PrgResult) (s : State) (hs : s.memWf = true) :
    RCanon (execPrgResponse k res s) := by
  unfold execPrgResponse
  with_reducible repeat' (first
    | assumption | apply State.hostNth_wf | apply State.emit_wf | apply State.hostPut_wf | apply State.hostFail_wf
    | apply State.fset_wf | apply RCanon.next | apply RCanon.refused | apply RCanon.fault | exact OCanon.none
    | apply OCanon.someId | apply OCanon.some | apply fold_wf1 | apply fold_wf2 | apply fold_wf | split | intro _ _ _
    | intro _ _ | intro _ | simp only | dsimp only | simp only [memWf_mk, cmpWf_mk, memOk_cmp, cmpWf]
    | refine OCanon.snd (by assumption) ?_ | refine Canon.fst (by assumption) ?_)

theorem execResumeRetranslate_wf (who : Requester) (word : W64) (s : State) (hs : s.memWf = true) :
    RCanon (execResumeRetranslate who word s) := by
  unfold execResumeRetranslate
  with_reducible repeat' (first
    | assumption | apply State.resumeWrite_wf | apply RCanon.next | apply RCanon.refused | apply RCanon.fault | split
    | simp only | dsimp only | refine RCanon.elim (by assumption) ?_)

theorem execResumeUnresolvable_wf (who : Requester) (word : W64) (s : State) (hs : s.memWf = true) :
    RCanon (execResumeUnresolvable who word s) := by
  unfold execResumeUnresolvable
  with_reducible repeat' (first
    | assumption | apply State.resumeWrite_wf | apply RCanon.next | apply RCanon.refused | apply RCanon.fault | split
    | simp only | dsimp only | refine RCanon.elim (by assumption) ?_)

theorem execWalkComplete_wf (k : Nat) (s : State) (hs : s.memWf = true) :
    RCanon (execWalkComplete k s) := by
  unfold execWalkComplete
  with_reducible repeat' (first
    | assumption | apply stop_wf | apply State.walk_wf | apply State.wake_wf | apply State.walkRecord_wf
    | apply State.tlbFill_wf | apply RCanon.next | apply RCanon.refused | apply RCanon.fault | split | simp only | dsimp only
    | simp only [memWf_mk, cmpWf_mk, memOk_cmp, cmpWf] | refine Canon.fst (by assumption) ?_)

theorem execXltResumeLowHalf_wf (who : Requester) (word : W32) (s : State) (hs : s.memWf = true) :
    RCanon (execXltResumeLowHalf who word s) := by
  unfold execXltResumeLowHalf
  with_reducible repeat' (first
    | assumption | apply State.regAction_wf | apply ECanon.done | apply ECanon.jump | apply ECanon.wait | apply ECanon.busy
    | apply ECanon.raise | exact ECanon.stop | apply RCanon.next | apply RCanon.refused | apply RCanon.fault | split
    | intro _ _ _ | intro _ _ | intro _ | simp only | dsimp only | dsimp only [id]
    | simp only [memWf_mk, cmpWf_mk, memOk_cmp, cmpWf] | refine RCanon.elim (by assumption) ?_)

/-! ### Sync -/

theorem State.arrive_wf (s : State) (g : Nat) (grp : Grp) (m id n : Nat) (wait : Wait) (hs : s.memWf = true) :
    ECanon (State.arrive s g grp m id n wait) := by
  unfold State.arrive
  with_reducible repeat' (first
    | assumption | apply State.updGrp_wf | apply State.updBlk_wf | apply ECanon.done | apply ECanon.jump | apply ECanon.wait
    | apply ECanon.busy | apply ECanon.raise | exact ECanon.stop | split | simp only | dsimp only
    | refine ECanon.done_elim (by assumption) ?_ | refine ECanon.jump_elim (by assumption) ?_
    | refine ECanon.wait_elim (by assumption) ?_ | refine ECanon.busy_elim (by assumption) ?_
    | refine ECanon.raise_elim (by assumption) ?_)

theorem State.cacheOp_wf (s : State) (size : Nat) (act : State → Nat → (Nat → Bool) → State) (w : Who) (i : FmtR) (hs : s.memWf = true) (hact : ∀ (y0 : State) (y1 : Nat) (y2 : (Nat → Bool)), y0.memWf = true → (act y0 y1 y2).memWf = true) :
    RCanon (State.cacheOp s size act w i) := by
  unfold State.cacheOp
  with_reducible repeat' (first
    | assumption | apply hact | apply State.issueR_wf | apply State.pump_wf | apply ECanon.done | apply ECanon.jump
    | apply ECanon.wait | apply ECanon.busy | apply ECanon.raise | exact ECanon.stop | apply RCanon.next
    | apply RCanon.refused | apply RCanon.fault | split | intro _ _ _ | intro _ _ | intro _ | simp only | dsimp only
    | dsimp only [id] | refine RCanon.elim (by assumption) ?_ | refine ECanon.done_elim (by assumption) ?_
    | refine ECanon.jump_elim (by assumption) ?_ | refine ECanon.wait_elim (by assumption) ?_
    | refine ECanon.busy_elim (by assumption) ?_ | refine ECanon.raise_elim (by assumption) ?_)

theorem State.fence_wf (s : State) (ld st : Bool) (w : Who) (i : FmtR) (hs : s.memWf = true) :
    RCanon (State.fence s ld st w i) := by
  unfold State.fence
  with_reducible repeat' (first
    | assumption | apply State.issueR_wf | apply State.pump_wf | apply State.releaseSide_wf | apply State.raiseDeferred_wf
    | apply State.acquireSide_wf | apply ECanon.done | apply ECanon.jump | apply ECanon.wait | apply ECanon.busy
    | apply ECanon.raise | exact ECanon.stop | apply RCanon.next | apply RCanon.refused | apply RCanon.fault | split
    | intro _ _ _ | intro _ _ | intro _ | simp only | dsimp only | dsimp only [id] | refine RCanon.elim (by assumption) ?_
    | refine ECanon.done_elim (by assumption) ?_ | refine ECanon.jump_elim (by assumption) ?_
    | refine ECanon.wait_elim (by assumption) ?_ | refine ECanon.busy_elim (by assumption) ?_
    | refine ECanon.raise_elim (by assumption) ?_)

theorem State.leaveBarrier_wf (s : State) (g : Nat) (hs : s.memWf = true) :
    (State.leaveBarrier s g).memWf = true := by
  unfold State.leaveBarrier
  with_reducible repeat' (first
    | assumption | apply State.acquireSide_wf | apply State.issued_wf | apply State.updGrp_wf | split | simp only | dsimp only)

theorem execBarBlock_wf (w : Who) (i : FmtR) (s : State) (hs : s.memWf = true) :
    RCanon (execBarBlock w i s) := by
  unfold execBarBlock
  with_reducible repeat' (first
    | assumption | apply State.issueR_wf | apply State.arrive_wf | apply ECanon.done | apply ECanon.jump | apply ECanon.wait
    | apply ECanon.busy | apply ECanon.raise | exact ECanon.stop | apply RCanon.next | apply RCanon.refused
    | apply RCanon.fault | split | intro _ _ _ | intro _ _ | intro _ | simp only | dsimp only | dsimp only [id]
    | refine RCanon.elim (by assumption) ?_ | refine ECanon.done_elim (by assumption) ?_
    | refine ECanon.jump_elim (by assumption) ?_ | refine ECanon.wait_elim (by assumption) ?_
    | refine ECanon.busy_elim (by assumption) ?_ | refine ECanon.raise_elim (by assumption) ?_)

theorem execBarCluster_wf (w : Who) (i : FmtR) (s : State) (hs : s.memWf = true) :
    RCanon (execBarCluster w i s) := by
  unfold execBarCluster
  with_reducible repeat' (first
    | assumption | apply State.issueR_wf | apply State.pump_wf | apply State.releaseSide_wf | apply State.arrive_wf
    | apply State.updGrp_wf | apply State.updBlk_wf | apply ECanon.done | apply ECanon.jump | apply ECanon.wait
    | apply ECanon.busy | apply ECanon.raise | exact ECanon.stop | apply RCanon.next | apply RCanon.refused
    | apply RCanon.fault | exact OCanon.none | apply OCanon.someId | apply OCanon.some | apply OCanon.mapId
    | apply OCanon.mapFst | apply OCanon.map | split | intro _ _ _ | intro _ _ | intro _ | simp only | dsimp only
    | dsimp only [id] | refine OCanon.snd (by assumption) ?_ | refine RCanon.elim (by assumption) ?_
    | refine ECanon.done_elim (by assumption) ?_ | refine ECanon.jump_elim (by assumption) ?_
    | refine ECanon.wait_elim (by assumption) ?_ | refine ECanon.busy_elim (by assumption) ?_
    | refine ECanon.raise_elim (by assumption) ?_)

theorem execBarrierOpen_wf (core : Fin 8192) (block : Fin 16) (bar : Barrier) (s : State) (hs : s.memWf = true) :
    RCanon (execBarrierOpen core block bar s) := by
  unfold execBarrierOpen
  with_reducible repeat' (first
    | assumption | apply stop_wf | apply need_wf | apply State.updBlk_wf | apply State.pump_wf | apply State.leaveBarrier_wf
    | apply RCanon.next | apply RCanon.refused | apply RCanon.fault | exact OCanon.none | apply OCanon.someId
    | apply OCanon.some | apply OCanon.mapId | apply OCanon.mapFst | apply OCanon.map | apply fold_wf1 | apply fold_wf2
    | apply fold_wf | split | intro _ _ _ | intro _ _ | intro _ | simp only | dsimp only | dsimp only [id]
    | refine OCanon.snd (by assumption) ?_ | refine Canon.fst (by assumption) ?_)

theorem execBrkpt_wf (w : Who) (i : FmtR) (s : State) (hs : s.memWf = true) :
    RCanon (execBrkpt w i s) := by
  unfold execBrkpt
  with_reducible repeat' (first
    | assumption | apply State.issueR_wf | apply State.raise_wf | apply ECanon.done | apply ECanon.jump | apply ECanon.wait
    | apply ECanon.busy | apply ECanon.raise | exact ECanon.stop | apply RCanon.next | apply RCanon.refused
    | apply RCanon.fault | split | intro _ _ _ | intro _ _ | intro _ | simp only | dsimp only | dsimp only [id]
    | refine RCanon.elim (by assumption) ?_ | refine ECanon.done_elim (by assumption) ?_
    | refine ECanon.jump_elim (by assumption) ?_ | refine ECanon.wait_elim (by assumption) ?_
    | refine ECanon.busy_elim (by assumption) ?_ | refine ECanon.raise_elim (by assumption) ?_)

theorem execCinvI_wf (w : Who) (i : FmtR) (s : State) (hs : s.memWf = true) :
    RCanon (execCinvI w i s) := by
  unfold execCinvI
  with_reducible repeat' (first
    | assumption | apply State.cacheOp_wf | apply State.icDrop_wf | apply ECanon.done | apply ECanon.jump | apply ECanon.wait
    | apply ECanon.busy | apply ECanon.raise | exact ECanon.stop | apply RCanon.next | apply RCanon.refused
    | apply RCanon.fault | split | intro _ _ _ | intro _ _ | intro _ | simp only | dsimp only | dsimp only [id]
    | refine RCanon.elim (by assumption) ?_)

theorem execCinvL1_wf (w : Who) (i : FmtR) (s : State) (hs : s.memWf = true) :
    RCanon (execCinvL1 w i s) := by
  unfold execCinvL1
  with_reducible repeat' (first
    | assumption | apply State.cacheOp_wf | apply State.l1Drop_wf | apply ECanon.done | apply ECanon.jump | apply ECanon.wait
    | apply ECanon.busy | apply ECanon.raise | exact ECanon.stop | apply RCanon.next | apply RCanon.refused
    | apply RCanon.fault | split | intro _ _ _ | intro _ _ | intro _ | simp only | dsimp only | dsimp only [id]
    | refine RCanon.elim (by assumption) ?_)

theorem execCinvSc_wf (w : Who) (i : FmtR) (s : State) (hs : s.memWf = true) :
    RCanon (execCinvSc w i s) := by
  unfold execCinvSc
  with_reducible repeat' (first
    | assumption | apply State.cacheOp_wf | apply State.scDrop_wf | apply ECanon.done | apply ECanon.jump | apply ECanon.wait
    | apply ECanon.busy | apply ECanon.raise | exact ECanon.stop | apply RCanon.next | apply RCanon.refused
    | apply RCanon.fault | split | intro _ _ _ | intro _ _ | intro _ | simp only | dsimp only | dsimp only [id]
    | refine RCanon.elim (by assumption) ?_)

theorem execCwbSc_wf (w : Who) (i : FmtR) (s : State) (hs : s.memWf = true) :
    RCanon (execCwbSc w i s) := by
  unfold execCwbSc
  with_reducible repeat' (first
    | assumption | apply State.cacheOp_wf | apply State.scWriteBack_wf | apply ECanon.done | apply ECanon.jump
    | apply ECanon.wait | apply ECanon.busy | apply ECanon.raise | exact ECanon.stop | apply RCanon.next
    | apply RCanon.refused | apply RCanon.fault | split | intro _ _ _ | intro _ _ | intro _ | simp only | dsimp only
    | dsimp only [id] | refine RCanon.elim (by assumption) ?_)

theorem execFenceFull_wf (w : Who) (i : FmtR) (s : State) (hs : s.memWf = true) :
    RCanon (execFenceFull w i s) := by
  unfold execFenceFull
  with_reducible repeat' (first
    | assumption | apply State.fence_wf | apply RCanon.next | apply RCanon.refused | apply RCanon.fault | split | simp only
    | dsimp only | refine RCanon.elim (by assumption) ?_)

theorem execFenceLd_wf (w : Who) (i : FmtR) (s : State) (hs : s.memWf = true) :
    RCanon (execFenceLd w i s) := by
  unfold execFenceLd
  with_reducible repeat' (first
    | assumption | apply State.fence_wf | apply RCanon.next | apply RCanon.refused | apply RCanon.fault | split | simp only
    | dsimp only | refine RCanon.elim (by assumption) ?_)

theorem execFenceSt_wf (w : Who) (i : FmtR) (s : State) (hs : s.memWf = true) :
    RCanon (execFenceSt w i s) := by
  unfold execFenceSt
  with_reducible repeat' (first
    | assumption | apply State.fence_wf | apply RCanon.next | apply RCanon.refused | apply RCanon.fault | split | simp only
    | dsimp only | refine RCanon.elim (by assumption) ?_)

theorem execNop_wf (w : Who) (i : FmtR) (s : State) (hs : s.memWf = true) :
    RCanon (execNop w i s) := by
  unfold execNop
  with_reducible repeat' (first
    | assumption | apply State.issueR_wf | apply ECanon.done | apply ECanon.jump | apply ECanon.wait | apply ECanon.busy
    | apply ECanon.raise | exact ECanon.stop | apply RCanon.next | apply RCanon.refused | apply RCanon.fault | split
    | intro _ _ _ | intro _ _ | intro _ | simp only | dsimp only | dsimp only [id] | refine RCanon.elim (by assumption) ?_
    | refine ECanon.done_elim (by assumption) ?_ | refine ECanon.jump_elim (by assumption) ?_
    | refine ECanon.wait_elim (by assumption) ?_ | refine ECanon.busy_elim (by assumption) ?_
    | refine ECanon.raise_elim (by assumption) ?_)

theorem execTileMark_wf (w : Who) (i : FmtR) (s : State) (hs : s.memWf = true) :
    RCanon (execTileMark w i s) := by
  unfold execTileMark
  with_reducible repeat' (first
    | assumption | apply State.issueR_wf | apply State.updGrp_wf | apply ECanon.done | apply ECanon.jump | apply ECanon.wait
    | apply ECanon.busy | apply ECanon.raise | exact ECanon.stop | apply RCanon.next | apply RCanon.refused
    | apply RCanon.fault | split | intro _ _ _ | intro _ _ | intro _ | simp only | dsimp only | dsimp only [id]
    | refine RCanon.elim (by assumption) ?_ | refine ECanon.done_elim (by assumption) ?_
    | refine ECanon.jump_elim (by assumption) ?_ | refine ECanon.wait_elim (by assumption) ?_
    | refine ECanon.busy_elim (by assumption) ?_ | refine ECanon.raise_elim (by assumption) ?_)

theorem execTrap_wf (w : Who) (i : FmtR) (s : State) (hs : s.memWf = true) :
    RCanon (execTrap w i s) := by
  unfold execTrap
  with_reducible repeat' (first
    | assumption | apply State.issueR_wf | apply ECanon.done | apply ECanon.jump | apply ECanon.wait | apply ECanon.busy
    | apply ECanon.raise | exact ECanon.stop | apply RCanon.next | apply RCanon.refused | apply RCanon.fault | split
    | intro _ _ _ | intro _ _ | intro _ | simp only | dsimp only | dsimp only [id] | refine RCanon.elim (by assumption) ?_
    | refine ECanon.done_elim (by assumption) ?_ | refine ECanon.jump_elim (by assumption) ?_
    | refine ECanon.wait_elim (by assumption) ?_ | refine ECanon.busy_elim (by assumption) ?_
    | refine ECanon.raise_elim (by assumption) ?_)

/-! ### Stream -/

theorem State.updChunk_wf (s : State) (id : Nat) (f : Chunk → Chunk) (hs : s.memWf = true) :
    (State.updChunk s id f).memWf = true := by
  unfold State.updChunk
  with_reducible repeat' (first
    | assumption | split | simp only | dsimp only | simp only [memWf_mk, cmpWf_mk, memOk_cmp, cmpWf])

theorem State.chunkAck_wf (s : State) (id piece code : Nat) (hs : s.memWf = true) :
    (State.chunkAck s id piece code).memWf = true := by
  unfold State.chunkAck
  with_reducible repeat' (first
    | assumption | apply State.updChunk_wf | split | simp only | dsimp only)

theorem State.chunkPut_wf (s : State) (id : Nat) (c : Chunk) (l : List ((Dest × List Byte) × Nat)) (hs : s.memWf = true) :
    (State.chunkPut s id c l).memWf = true := by
  unfold State.chunkPut
  with_reducible repeat' (first
    | assumption | apply State.account_wf | apply State.egress_wf | apply State.updChunk_wf | apply fold_wf1 | apply fold_wf2
    | apply fold_wf | split | intro _ _ _ | intro _ _ | intro _ | simp only | dsimp only | refine Canon.fst (by assumption) ?_)

theorem State.delChunk_wf (s : State) (id : Nat) (hs : s.memWf = true) :
    (State.delChunk s id).memWf = true := by
  unfold State.delChunk
  with_reducible repeat' (first
    | assumption | split | simp only | dsimp only | simp only [memWf_mk, cmpWf_mk, memOk_cmp, cmpWf])

theorem State.updSteq_wf (s : State) (k : Nat) (f : SteQ → SteQ) (hs : s.memWf = true) :
    (State.updSteq s k f).memWf = true := by
  unfold State.updSteq
  with_reducible repeat' (first
    | assumption | split | simp only | dsimp only | simp only [memWf_mk, cmpWf_mk, memOk_cmp, cmpWf])

theorem State.updHead_wf (s : State) (k : Nat) (f : Xfer → Xfer) (hs : s.memWf = true) :
    (State.updHead s k f).memWf = true := by
  unfold State.updHead
  with_reducible repeat' (first
    | assumption | apply State.updSteq_wf | split | simp only | dsimp only)

theorem State.exportEnd_wf (s : State) (k : Nat) (hs : s.memWf = true) :
    (State.exportEnd s k).memWf = true := by
  unfold State.exportEnd
  with_reducible repeat' (first
    | assumption | apply State.ctxEnd_wf | apply State.updSteq_wf | split | simp only | dsimp only
    | simp only [memWf_mk, cmpWf_mk, memOk_cmp, cmpWf])

theorem State.lmStore_wf (s : State) (a : Nat) (b : List Byte) (hs : s.memWf = true) :
    (State.lmStore s a b).memWf = true := by
  unfold State.lmStore
  with_reducible repeat' (first
    | assumption | apply State.lmFind_wf | apply State.lmWrite_wf | apply State.lmErrLog_wf | apply fold_wf1 | apply fold_wf2
    | apply fold_wf | split | intro _ _ _ | intro _ _ | intro _ | simp only | dsimp only | refine Canon.fst (by assumption) ?_)

theorem State.lmWord_wf (s : State) (bk a v n : Nat) (hs : s.memWf = true) :
    (State.lmWord s bk a v n).memWf = true := by
  unfold State.lmWord
  with_reducible repeat' (first
    | assumption | apply State.lmStore_wf | split | simp only | dsimp only)

theorem State.xferEnd_wf (s : State) (k : Nat) (hs : s.memWf = true) :
    (State.xferEnd s k).memWf = true := by
  unfold State.xferEnd
  with_reducible repeat' (first
    | assumption | apply State.updSteq_wf | apply State.lmWord_wf | apply State.defer_wf | split | simp only | dsimp only)

theorem State.xferSettle_wf (s : State) (k : Nat) (hs : s.memWf = true) :
    (State.xferSettle s k).memWf = true := by
  unfold State.xferSettle
  with_reducible repeat' (first
    | assumption | apply State.exportEnd_wf | apply State.xferEnd_wf | split | simp only | dsimp only)

theorem State.xferFail_wf (s : State) (k code index addr : Nat) (hs : s.memWf = true) :
    (State.xferFail s k code index addr).memWf = true := by
  unfold State.xferFail
  with_reducible repeat' (first
    | assumption | apply State.xferSettle_wf | apply State.updHead_wf | split | simp only | dsimp only)

theorem State.tableGot_wf (s : State) (id : Nat) (c : Chunk) (entry : Nat) (hs : s.memWf = true) :
    (State.tableGot s id c entry).memWf = true := by
  unfold State.tableGot
  with_reducible repeat' (first
    | assumption | apply State.delChunk_wf | apply State.xferFail_wf | apply State.updHead_wf | split | simp only | dsimp only)

theorem State.chunkGot_wf (s : State) (id : Nat) (hs : s.memWf = true) :
    (State.chunkGot s id).memWf = true := by
  unfold State.chunkGot
  with_reducible repeat' (first
    | assumption | apply State.tableGot_wf | apply State.updChunk_wf | apply State.chunkPut_wf | split | simp only
    | dsimp only)

theorem State.chunkData_wf (s : State) (id piece : Nat) (b : List Byte) (code : Nat) (hs : s.memWf = true) :
    (State.chunkData s id piece b code).memWf = true := by
  unfold State.chunkData
  with_reducible repeat' (first
    | assumption | apply State.chunkGot_wf | apply State.updChunk_wf | split | simp only | dsimp only)

theorem State.moved_wf (s : State) (ctx a n : Nat) (hs : s.memWf = true) :
    (State.moved s ctx a n).memWf = true := by
  unfold State.moved
  with_reducible repeat' (first
    | assumption | apply State.serve_wf | apply State.countTier_wf | apply fold_wf1 | apply fold_wf2 | apply fold_wf | split
    | intro _ _ _ | intro _ _ | intro _ | simp only | dsimp only | refine Canon.fst (by assumption) ?_)

theorem State.readPiece_wf (s : State) (id ctx piece : Nat) (heart : Bool) (e : Dest × Nat) (hs : s.memWf = true) :
    (State.readPiece s id ctx piece heart e).1.memWf = true := by
  unfold State.readPiece
  with_reducible repeat' (first
    | assumption | apply State.lmFind_wf | apply State.lmErrLog_wf | apply State.hwPiece_wf | apply State.readBytes_wf
    | apply State.moved_wf | apply State.emit_wf | apply State.account_wf | apply State.egress_wf | apply fold_wf1
    | apply fold_wf2 | apply fold_wf | split | intro _ _ _ | intro _ _ | intro _ | simp only | dsimp only
    | simp only [memWf_mk, cmpWf_mk, memOk_cmp, cmpWf] | refine Canon.fst (by assumption) ?_)

theorem State.chunkStart_wf (s : State) (c0 : Chunk) (srcs : List (Dest × Nat)) (hs : s.memWf = true) :
    (State.chunkStart s c0 srcs).memWf = true := by
  unfold State.chunkStart
  with_reducible repeat' (first
    | assumption | apply State.readPiece_wf | apply State.steCount_wf | apply fold_wf1 | apply fold_wf2 | apply fold_wf
    | split | intro _ _ _ | intro _ _ | intro _ | simp only | dsimp only | simp only [memWf_mk, cmpWf_mk, memOk_cmp, cmpWf]
    | refine Canon.fst (by assumption) ?_)

theorem State.placeMiss_wf (s : State) (k cluster : Nat) (x : Xfer) (wr : Bool) (p : Places) (hs : s.memWf = true) :
    OCanon id (State.placeMiss s k cluster x wr p) := by
  unfold State.placeMiss
  with_reducible repeat' (first
    | assumption | apply State.startWalk_wf | apply State.updHead_wf | apply State.startHost_wf | apply State.sendRecord_wf
    | apply State.xferFail_wf | exact OCanon.none | apply OCanon.someId | apply OCanon.some | split | simp only | dsimp only
    | dsimp only [id] | refine OCanon.id_ (by assumption) ?_)

theorem State.lmFetch_wf (s : State) (bk a n req : Nat) (hs : s.memWf = true) :
    OCanon Prod.fst (State.lmFetch s bk a n req) := by
  unfold State.lmFetch
  with_reducible repeat' (first
    | assumption | apply State.lmFind_wf | apply State.lmErrLog_wf | exact OCanon.none | apply OCanon.someId
    | apply OCanon.some | apply fold_wf1 | apply fold_wf2 | apply fold_wf | split | intro _ _ _ | intro _ _ | intro _
    | simp only | dsimp only | refine OCanon.fst (by assumption) ?_ | refine Canon.fst (by assumption) ?_)

theorem State.rowIndex_wf (s : State) (bk : Nat) (d : Desc) (r : Nat) (hs : s.memWf = true) :
    XCanon (State.rowIndex s bk d r) := by
  unfold State.rowIndex
  with_reducible repeat' (first
    | assumption | apply State.lmFetch_wf | exact OCanon.none | apply OCanon.someId | apply OCanon.some | exact XCanon.error
    | apply XCanon.ok | split | simp only | dsimp only | refine OCanon.fst (by assumption) ?_
    | refine XCanon.fst (by assumption) ?_)

theorem State.plan_wf (s : State) (bk : Nat) (ps pd : Nat → Nat) (x : Xfer) (page : Nat) (hs : s.memWf = true) :
    XCanon (State.plan s bk ps pd x page) := by
  unfold State.plan
  with_reducible repeat' (first
    | assumption | apply State.rowIndex_wf | exact OCanon.none | apply OCanon.someId | apply OCanon.some | apply OCanon.mapId
    | apply OCanon.mapFst | apply OCanon.map | exact XCanon.error | apply XCanon.ok | apply XCanon.map | split | intro _ _ _
    | intro _ _ | intro _ | simp only | dsimp only | dsimp only [id] | refine OCanon.snd (by assumption) ?_
    | refine XCanon.fst (by assumption) ?_)

theorem State.chunkGo_wf (s : State) (k cluster engine : Nat) (x : Xfer) (page : Nat) (hs : s.memWf = true) :
    OCanon id (State.chunkGo s k cluster engine x page) := by
  unfold State.chunkGo
  with_reducible repeat' (first
    | assumption | apply State.plan_wf | apply State.xferFail_wf | apply State.tlbSweep_wf | apply State.updHead_wf
    | apply State.usePages_wf | apply State.chunkGot_wf | apply State.chunkStart_wf | apply State.placeMiss_wf
    | exact OCanon.none | apply OCanon.someId | apply OCanon.some | split | simp only | dsimp only | dsimp only [id]
    | refine OCanon.id_ (by assumption) ?_ | refine XCanon.fst (by assumption) ?_)

theorem State.exportRetry_wf (s : State) (c : Chunk) (code : Nat) (hs : s.memWf = true) :
    (State.exportRetry s c code).memWf = true := by
  unfold State.exportRetry
  with_reducible repeat' (first
    | assumption | apply State.xferFail_wf | apply State.updHead_wf | split | simp only | dsimp only)

theorem State.chunkOver_wf (s : State) (c : Chunk) (code : Nat) (hs : s.memWf = true) :
    (State.chunkOver s c code).memWf = true := by
  unfold State.chunkOver
  with_reducible repeat' (first
    | assumption | apply State.exportRetry_wf | apply State.xferFail_wf | apply State.steCount_wf | apply State.lmWord_wf
    | apply State.xferSettle_wf | exact OCanon.none | apply OCanon.someId | apply OCanon.some | apply OCanon.mapId
    | apply OCanon.mapFst | apply OCanon.map | split | intro _ _ _ | intro _ _ | intro _ | simp only | dsimp only
    | dsimp only [id] | refine OCanon.snd (by assumption) ?_)

theorem State.writePiece_wf (s : State) (c : Chunk) (e : Dest × List Byte) (hs : s.memWf = true) :
    (State.writePiece s c e).1.memWf = true := by
  unfold State.writePiece
  with_reducible repeat' (first
    | assumption | apply State.lmStore_wf | apply State.moved_wf | apply State.writeBytes_wf | apply State.atomLine_wf
    | apply State.emit_wf | apply State.account_wf | apply fold_wf1 | apply fold_wf2 | apply fold_wf | split | intro _ _ _
    | intro _ _ | intro _ | simp only | dsimp only | refine Canon.fst (by assumption) ?_)

theorem State.chunkWrite_wf (s : State) (c : Chunk) (l : List ((Dest × List Byte) × Nat)) (hs : s.memWf = true) :
    (State.chunkWrite s c l).1.memWf = true := by
  unfold State.chunkWrite
  with_reducible repeat' (first
    | assumption | apply State.writePiece_wf | apply fold_wf1 | apply fold_wf2 | apply fold_wf | split | intro _ _ _
    | intro _ _ | intro _ | simp only | dsimp only | refine Canon.fst (by assumption) ?_)

theorem State.creditOk_wf (s : State) (bk : Nat) (d : Desc) (row : Nat) (hs : s.memWf = true) :
    (State.creditOk s bk d row).1.memWf = true := by
  unfold State.creditOk
  with_reducible repeat' (first
    | assumption | apply State.lmFetch_wf | exact OCanon.none | apply OCanon.someId | apply OCanon.some | split | simp only
    | dsimp only | refine Canon.fst (by assumption) ?_ | refine OCanon.fst (by assumption) ?_)

theorem State.tableStart_wf (s : State) (k cluster engine : Nat) (x : Xfer) (entry : Nat) (hs : s.memWf = true) :
    OCanon id (State.tableStart s k cluster engine x entry) := by
  unfold State.tableStart
  with_reducible repeat' (first
    | assumption | apply State.tlbSweep_wf | apply State.chunkGot_wf | apply State.chunkStart_wf | apply State.usePages_wf
    | apply State.placeMiss_wf | exact OCanon.none | apply OCanon.someId | apply OCanon.some | split | simp only | dsimp only
    | dsimp only [id] | refine OCanon.id_ (by assumption) ?_)

theorem State.queueGo_wf (s : State) (k cluster engine : Nat) (hs : s.memWf = true) :
    OCanon id (State.queueGo s k cluster engine) := by
  unfold State.queueGo
  with_reducible repeat' (first
    | assumption | apply State.creditOk_wf | apply State.xferFail_wf | apply State.chunkGo_wf | apply State.updHead_wf
    | apply State.tableStart_wf | exact OCanon.none | apply OCanon.someId | apply OCanon.some | split | simp only | dsimp only
    | dsimp only [id] | refine Canon.fst (by assumption) ?_ | refine OCanon.id_ (by assumption) ?_)

theorem State.steFirst_wf (s : State) (g : Nat) (hs : s.memWf = true) :
    (State.steFirst s g).1.memWf = true := by
  unfold State.steFirst
  with_reducible repeat' (first
    | assumption | apply State.pump_wf | apply State.releaseSide_wf | split | simp only | dsimp only
    | refine Canon.fst (by assumption) ?_)

theorem execPrefetchCreditPoll_wf (core : Fin 8192) (block : Fin 16) (engine : Fin 2) (s : State) (hs : s.memWf = true) :
    RCanon (execPrefetchCreditPoll core block engine s) := by
  unfold execPrefetchCreditPoll
  with_reducible repeat' (first
    | assumption | apply stop_wf | apply need_wf | apply State.creditOk_wf | apply State.xferFail_wf | apply State.updHead_wf
    | apply RCanon.next | apply RCanon.refused | apply RCanon.fault | split | simp only | dsimp only
    | refine Canon.fst (by assumption) ?_)

theorem execSteChunkComplete_wf (chunk : Nat) (s : State) (hs : s.memWf = true) :
    RCanon (execSteChunkComplete chunk s) := by
  unfold execSteChunkComplete
  with_reducible repeat' (first
    | assumption | apply stop_wf | apply need_wf | apply State.chunkOver_wf | apply State.delChunk_wf
    | apply State.chunkWrite_wf | apply State.chunkPut_wf | apply State.updChunk_wf | apply State.steCount_wf
    | apply RCanon.next | apply RCanon.refused | apply RCanon.fault | exact OCanon.none | apply OCanon.someId
    | apply OCanon.some | apply OCanon.mapId | apply OCanon.mapFst | apply OCanon.map | apply fold_wf1 | apply fold_wf2
    | apply fold_wf | split | intro _ _ _ | intro _ _ | intro _ | simp only | dsimp only | dsimp only [id]
    | refine Canon.fst (by assumption) ?_ | refine OCanon.snd (by assumption) ?_)

theorem execSteChunkIssue_wf (cluster : Fin 1024) (engine : Fin 2) (s : State) (hs : s.memWf = true) :
    RCanon (execSteChunkIssue cluster engine s) := by
  unfold execSteChunkIssue
  with_reducible repeat' (first
    | assumption | apply State.queueGo_wf | apply stop_wf | apply RCanon.next | apply RCanon.refused | apply RCanon.fault
    | exact OCanon.none | apply OCanon.someId | apply OCanon.some | apply OCanon.mapId | apply OCanon.mapFst
    | apply OCanon.map | apply OCanon.findSome | split | intro _ _ _ | intro _ _ | intro _ | simp only | dsimp only
    | dsimp only [id] | simp only [memWf_mk, cmpWf_mk, memOk_cmp, cmpWf] | refine OCanon.id_ (by assumption) ?_
    | refine OCanon.snd (by assumption) ?_)

theorem execSteSub_wf (w : Who) (i : FmtR) (s : State) (hs : s.memWf = true) :
    RCanon (execSteSub w i s) := by
  unfold execSteSub
  with_reducible repeat' (first
    | assumption | apply State.issueR_wf | apply State.steFirst_wf | apply State.lmFetch_wf | apply State.setS_wf
    | apply State.updSteq_wf | apply ECanon.done | apply ECanon.jump | apply ECanon.wait | apply ECanon.busy
    | apply ECanon.raise | exact ECanon.stop | apply RCanon.next | apply RCanon.refused | apply RCanon.fault
    | exact OCanon.none | apply OCanon.someId | apply OCanon.some | split | intro _ _ _ | intro _ _ | intro _ | simp only
    | dsimp only | dsimp only [id] | refine Canon.fst (by assumption) ?_ | refine OCanon.fst (by assumption) ?_
    | refine RCanon.elim (by assumption) ?_ | refine ECanon.done_elim (by assumption) ?_
    | refine ECanon.jump_elim (by assumption) ?_ | refine ECanon.wait_elim (by assumption) ?_
    | refine ECanon.busy_elim (by assumption) ?_ | refine ECanon.raise_elim (by assumption) ?_)

theorem execSteTest_wf (w : Who) (i : FmtR) (s : State) (hs : s.memWf = true) :
    RCanon (execSteTest w i s) := by
  unfold execSteTest
  with_reducible repeat' (first
    | assumption | apply State.issueR_wf | apply State.steFirst_wf | apply State.setS_wf | apply ECanon.done
    | apply ECanon.jump | apply ECanon.wait | apply ECanon.busy | apply ECanon.raise | exact ECanon.stop | apply RCanon.next
    | apply RCanon.refused | apply RCanon.fault | split | intro _ _ _ | intro _ _ | intro _ | simp only | dsimp only
    | dsimp only [id] | refine Canon.fst (by assumption) ?_ | refine RCanon.elim (by assumption) ?_
    | refine ECanon.done_elim (by assumption) ?_ | refine ECanon.jump_elim (by assumption) ?_
    | refine ECanon.wait_elim (by assumption) ?_ | refine ECanon.busy_elim (by assumption) ?_
    | refine ECanon.raise_elim (by assumption) ?_)

theorem execSteWait_wf (w : Who) (i : FmtR) (s : State) (hs : s.memWf = true) :
    RCanon (execSteWait w i s) := by
  unfold execSteWait
  with_reducible repeat' (first
    | assumption | apply State.issueR_wf | apply State.steFirst_wf | apply State.raiseDeferred_wf | apply State.setS_wf
    | apply ECanon.done | apply ECanon.jump | apply ECanon.wait | apply ECanon.busy | apply ECanon.raise | exact ECanon.stop
    | apply RCanon.next | apply RCanon.refused | apply RCanon.fault | split | intro _ _ _ | intro _ _ | intro _ | simp only
    | dsimp only | dsimp only [id] | refine Canon.fst (by assumption) ?_ | refine RCanon.elim (by assumption) ?_
    | refine ECanon.done_elim (by assumption) ?_ | refine ECanon.jump_elim (by assumption) ?_
    | refine ECanon.wait_elim (by assumption) ?_ | refine ECanon.busy_elim (by assumption) ?_
    | refine ECanon.raise_elim (by assumption) ?_)

theorem execSteWaitAll_wf (w : Who) (i : FmtR) (s : State) (hs : s.memWf = true) :
    RCanon (execSteWaitAll w i s) := by
  unfold execSteWaitAll
  with_reducible repeat' (first
    | assumption | apply State.issueR_wf | apply State.steFirst_wf | apply State.raiseDeferred_wf | apply ECanon.done
    | apply ECanon.jump | apply ECanon.wait | apply ECanon.busy | apply ECanon.raise | exact ECanon.stop | apply RCanon.next
    | apply RCanon.refused | apply RCanon.fault | split | intro _ _ _ | intro _ _ | intro _ | simp only | dsimp only
    | dsimp only [id] | refine Canon.fst (by assumption) ?_ | refine RCanon.elim (by assumption) ?_
    | refine ECanon.done_elim (by assumption) ?_ | refine ECanon.jump_elim (by assumption) ?_
    | refine ECanon.wait_elim (by assumption) ?_ | refine ECanon.busy_elim (by assumption) ?_
    | refine ECanon.raise_elim (by assumption) ?_)

/-! ### Matrix -/

theorem State.updEng_wf (s : State) (k : Nat) (f : Eng → Eng) (hs : s.memWf = true) :
    (State.updEng s k f).memWf = true := by
  unfold State.updEng
  with_reducible repeat' (first
    | assumption | split | simp only | dsimp only | simp only [memWf_mk, cmpWf_mk, memOk_cmp, cmpWf])

theorem State.accFree_wf (s : State) (k : Nat) (hs : s.memWf = true) :
    (State.accFree s k).memWf = true := by
  unfold State.accFree
  with_reducible repeat' (first
    | assumption | apply State.updEng_wf | apply fold_wf1 | apply fold_wf2 | apply fold_wf | split | intro _ _ _ | intro _ _
    | intro _ | simp only | dsimp only | simp only [memWf_mk, cmpWf_mk, memOk_cmp, cmpWf]
    | refine Canon.fst (by assumption) ?_)

theorem State.fetchChunk_wf (s : State) (k : Nat) (e : Eng) (t : Tile) (q : Nat) (pos : List Nat) (hs : s.memWf = true) :
    (State.fetchChunk s k e t q pos).1.memWf = true := by
  unfold State.fetchChunk
  with_reducible repeat' (first
    | assumption | apply State.lmFind_wf | apply State.lmErrLog_wf | apply State.updEng_wf | exact OCanon.none
    | apply OCanon.someId | apply OCanon.some | apply OCanon.mapId | apply OCanon.mapFst | apply OCanon.map | apply fold_wf1
    | apply fold_wf2 | apply fold_wf | split | intro _ _ _ | intro _ _ | intro _ | simp only | dsimp only | dsimp only [id]
    | refine Canon.fst (by assumption) ?_ | refine OCanon.snd (by assumption) ?_)

theorem State.mxCount_wf (s : State) (k kind n : Nat) (hs : s.memWf = true) :
    (State.mxCount s k kind n).memWf = true := by
  unfold State.mxCount
  with_reducible repeat' (first
    | assumption | apply State.account_wf | apply State.fset_wf | apply State.event_wf | exact OCanon.none
    | apply OCanon.someId | apply OCanon.some | apply OCanon.mapId | apply OCanon.mapFst | apply OCanon.map | split
    | intro _ _ _ | intro _ _ | intro _ | simp only | dsimp only | dsimp only [id] | refine OCanon.snd (by assumption) ?_)

theorem State.gangCount_wf (s : State) (gang : List Nat) (kind n : Nat) (hs : s.memWf = true) :
    (State.gangCount s gang kind n).memWf = true := by
  unfold State.gangCount
  with_reducible repeat' (first
    | assumption | apply State.mxCount_wf | apply fold_wf1 | apply fold_wf2 | apply fold_wf | split | intro _ _ _ | intro _ _
    | intro _ | simp only | dsimp only | refine Canon.fst (by assumption) ?_)

theorem State.closeChunk_wf (s : State) (k : Nat) (e : Eng) (t : Tile) (hs : s.memWf = true) :
    (State.closeChunk s k e t).memWf = true := by
  unfold State.closeChunk
  with_reducible repeat' (first
    | assumption | apply State.fetchChunk_wf | apply State.updEng_wf | apply State.gangCount_wf | exact OCanon.none
    | apply OCanon.someId | apply OCanon.some | apply OCanon.mapId | apply OCanon.mapFst | apply OCanon.map | apply fold_wf1
    | apply fold_wf2 | apply fold_wf | split | intro _ _ _ | intro _ _ | intro _ | simp only | dsimp only | dsimp only [id]
    | refine Canon.fst (by assumption) ?_ | refine OCanon.snd (by assumption) ?_)

theorem State.mxPop_wf (s : State) (k : Nat) (hs : s.memWf = true) :
    (State.mxPop s k).memWf = true := by
  unfold State.mxPop
  with_reducible repeat' (first
    | assumption | apply State.updEng_wf | split | simp only | dsimp only | simp only [memWf_mk, cmpWf_mk, memOk_cmp, cmpWf])

theorem State.endTile_wf (s : State) (k : Nat) (e : Eng) (slot pc : Nat) (t : Tile) (held : Nat) (hs : s.memWf = true) :
    (State.endTile s k e slot pc t held).memWf = true := by
  unfold State.endTile
  with_reducible repeat' (first
    | assumption | apply State.accFree_wf | apply State.gangCount_wf | apply State.mxPop_wf | apply State.updEng_wf
    | apply State.defer_wf | exact OCanon.none | apply OCanon.someId | apply OCanon.some | apply OCanon.mapId
    | apply OCanon.mapFst | apply OCanon.map | apply fold_wf1 | apply fold_wf2 | apply fold_wf | split | intro _ _ _
    | intro _ _ | intro _ | simp only | dsimp only | dsimp only [id] | refine OCanon.snd (by assumption) ?_
    | refine Canon.fst (by assumption) ?_)

theorem State.enter_wf (s : State) (keys : List Nat) (more : Bool) (act : State → State) (hs : s.memWf = true) (hact : ∀ (y0 : State), y0.memWf = true → (act y0).memWf = true) :
    ECanon (State.enter s keys more act) := by
  unfold State.enter
  with_reducible repeat' (first
    | assumption | apply hact | apply ECanon.done | apply ECanon.jump | apply ECanon.wait | apply ECanon.busy
    | apply ECanon.raise | exact ECanon.stop | apply RCanon.next | apply RCanon.refused | apply RCanon.fault
    | exact OCanon.none | apply OCanon.someId | apply OCanon.some | apply OCanon.mapId | apply OCanon.mapFst
    | apply OCanon.map | split | intro _ _ _ | intro _ _ | intro _ | simp only | dsimp only | dsimp only [id]
    | refine OCanon.snd (by assumption) ?_ | refine ECanon.done_elim (by assumption) ?_
    | refine ECanon.jump_elim (by assumption) ?_ | refine ECanon.wait_elim (by assumption) ?_
    | refine ECanon.busy_elim (by assumption) ?_ | refine ECanon.raise_elim (by assumption) ?_)

theorem State.matrix_wf (s : State) (w : Who) (f : Form) (i : FmtR) (flag : Bool) (vecs : List (Nat × Bool)) (body : State → Nat → Grp → Nat → Blk → Nat → Bool → Eff) (hs : s.memWf = true) (hbody : ∀ (y0 : State) (y1 : Nat) (y2 : Grp) (y3 : Nat) (y4 : Blk) (y5 : Nat) (y6 : Bool), y0.memWf = true → ECanon (body y0 y1 y2 y3 y4 y5 y6)) :
    RCanon (State.matrix s w f i flag vecs body) := by
  unfold State.matrix
  with_reducible repeat' (first
    | assumption | apply hbody | apply State.issueR_wf | apply ECanon.done | apply ECanon.jump | apply ECanon.wait
    | apply ECanon.busy | apply ECanon.raise | exact ECanon.stop | apply RCanon.next | apply RCanon.refused
    | apply RCanon.fault | split | intro _ _ _ | intro _ _ | intro _ | simp only | dsimp only | dsimp only [id]
    | refine RCanon.elim (by assumption) ?_ | refine ECanon.done_elim (by assumption) ?_
    | refine ECanon.jump_elim (by assumption) ?_ | refine ECanon.wait_elim (by assumption) ?_
    | refine ECanon.busy_elim (by assumption) ?_ | refine ECanon.raise_elim (by assumption) ?_)

theorem State.mxPush_wf (s : State) (k : Nat) (q : EngEntry) (hs : s.memWf = true) :
    (State.mxPush s k q).memWf = true := by
  unfold State.mxPush
  with_reducible repeat' (first
    | assumption | apply State.updEng_wf | split | simp only | dsimp only)

theorem State.regang_wf (s : State) (get : Eng → GangCfg) (set : Eng → GangCfg → Eng) (keys : List Nat) (word : Nat) (hs : s.memWf = true) :
    (State.regang s get set keys word).memWf = true := by
  unfold State.regang
  with_reducible repeat' (first
    | assumption | exact OCanon.none | apply OCanon.someId | apply OCanon.some | apply OCanon.mapId | apply OCanon.mapFst
    | apply OCanon.map | split | intro _ _ _ | intro _ _ | intro _ | simp only | dsimp only | dsimp only [id]
    | simp only [memWf_mk, cmpWf_mk, memOk_cmp, cmpWf] | refine OCanon.snd (by assumption) ?_)

theorem State.startTile_wf (s : State) (k : Nat) (e : Eng) (t : Tile) (hs : s.memWf = true) :
    (State.startTile s k e t).memWf = true := by
  unfold State.startTile
  with_reducible repeat' (first
    | assumption | apply State.updEng_wf | apply State.fetchChunk_wf | apply State.gangCount_wf | apply fold_wf1
    | apply fold_wf2 | apply fold_wf | split | intro _ _ _ | intro _ _ | intro _ | simp only | dsimp only
    | refine Canon.fst (by assumption) ?_)

theorem State.stopTile_wf (s : State) (k : Nat) (hs : s.memWf = true) :
    (State.stopTile s k).memWf = true := by
  unfold State.stopTile
  with_reducible repeat' (first
    | assumption | apply State.closeChunk_wf | apply State.endTile_wf | apply State.gangCount_wf | split | simp only
    | dsimp only)

theorem execMxAccRd_wf (w : Who) (i : FmtR) (s : State) (hs : s.memWf = true) :
    RCanon (execMxAccRd w i s) := by
  unfold execMxAccRd
  with_reducible repeat' (first
    | assumption | apply State.matrix_wf | apply State.raiseDeferred_wf | apply State.enter_wf | apply State.mxPush_wf
    | apply ECanon.done | apply ECanon.jump | apply ECanon.wait | apply ECanon.busy | apply ECanon.raise | exact ECanon.stop
    | apply RCanon.next | apply RCanon.refused | apply RCanon.fault | apply fold_wf1 | apply fold_wf2 | apply fold_wf | split
    | intro _ _ _ | intro _ _ | intro _ | simp only | dsimp only | dsimp only [id] | refine RCanon.elim (by assumption) ?_
    | refine Canon.fst (by assumption) ?_ | refine ECanon.done_elim (by assumption) ?_
    | refine ECanon.jump_elim (by assumption) ?_ | refine ECanon.wait_elim (by assumption) ?_
    | refine ECanon.busy_elim (by assumption) ?_ | refine ECanon.raise_elim (by assumption) ?_)

theorem execMxAccWr_wf (w : Who) (i : FmtR) (s : State) (hs : s.memWf = true) :
    RCanon (execMxAccWr w i s) := by
  unfold execMxAccWr
  with_reducible repeat' (first
    | assumption | apply State.matrix_wf | apply State.enter_wf | apply State.mxPush_wf | apply ECanon.done
    | apply ECanon.jump | apply ECanon.wait | apply ECanon.busy | apply ECanon.raise | exact ECanon.stop | apply RCanon.next
    | apply RCanon.refused | apply RCanon.fault | apply fold_wf1 | apply fold_wf2 | apply fold_wf | split | intro _ _ _
    | intro _ _ | intro _ | simp only | dsimp only | dsimp only [id] | refine RCanon.elim (by assumption) ?_
    | refine Canon.fst (by assumption) ?_ | refine ECanon.done_elim (by assumption) ?_
    | refine ECanon.jump_elim (by assumption) ?_ | refine ECanon.wait_elim (by assumption) ?_
    | refine ECanon.busy_elim (by assumption) ?_ | refine ECanon.raise_elim (by assumption) ?_)

theorem execMxCfg_wf (w : Who) (i : FmtR) (s : State) (hs : s.memWf = true) :
    RCanon (execMxCfg w i s) := by
  unfold execMxCfg
  with_reducible repeat' (first
    | assumption | apply State.matrix_wf | apply State.enter_wf | apply State.regang_wf | apply State.mxPush_wf
    | apply ECanon.done | apply ECanon.jump | apply ECanon.wait | apply ECanon.busy | apply ECanon.raise | exact ECanon.stop
    | apply RCanon.next | apply RCanon.refused | apply RCanon.fault | apply fold_wf1 | apply fold_wf2 | apply fold_wf | split
    | intro _ _ _ | intro _ _ | intro _ | simp only | dsimp only | dsimp only [id] | refine RCanon.elim (by assumption) ?_
    | refine Canon.fst (by assumption) ?_ | refine ECanon.done_elim (by assumption) ?_
    | refine ECanon.jump_elim (by assumption) ?_ | refine ECanon.wait_elim (by assumption) ?_
    | refine ECanon.busy_elim (by assumption) ?_ | refine ECanon.raise_elim (by assumption) ?_)

theorem execMxCfgTakeEffect_wf (core : Fin 8192) (engine : Fin 16) (s : State) (hs : s.memWf = true) :
    RCanon (execMxCfgTakeEffect core engine s) := by
  unfold execMxCfgTakeEffect
  with_reducible repeat' (first
    | assumption | apply need_wf | apply State.regang_wf | apply State.mxCount_wf | apply State.mxPop_wf | apply stop_wf
    | apply RCanon.next | apply RCanon.refused | apply RCanon.fault | apply fold_wf1 | apply fold_wf2 | apply fold_wf | split
    | intro _ _ _ | intro _ _ | intro _ | simp only | dsimp only | refine Canon.fst (by assumption) ?_)

theorem execMxChunkClose_wf (core : Fin 8192) (engine : Fin 16) (s : State) (hs : s.memWf = true) :
    RCanon (execMxChunkClose core engine s) := by
  unfold execMxChunkClose
  with_reducible repeat' (first
    | assumption | apply stop_wf | apply need_wf | apply State.closeChunk_wf | apply RCanon.next | apply RCanon.refused
    | apply RCanon.fault | split | simp only | dsimp only)

theorem execMxMma_wf (w : Who) (i : FmtR) (s : State) (hs : s.memWf = true) :
    RCanon (execMxMma w i s) := by
  unfold execMxMma
  with_reducible repeat' (first
    | assumption | apply State.matrix_wf | apply State.enter_wf | apply State.mxPush_wf | apply ECanon.done
    | apply ECanon.jump | apply ECanon.wait | apply ECanon.busy | apply ECanon.raise | exact ECanon.stop | apply RCanon.next
    | apply RCanon.refused | apply RCanon.fault | exact OCanon.none | apply OCanon.someId | apply OCanon.some
    | apply OCanon.mapId | apply OCanon.mapFst | apply OCanon.map | apply fold_wf1 | apply fold_wf2 | apply fold_wf | split
    | intro _ _ _ | intro _ _ | intro _ | simp only | dsimp only | dsimp only [id] | refine OCanon.snd (by assumption) ?_
    | refine RCanon.elim (by assumption) ?_ | refine Canon.fst (by assumption) ?_ | refine ECanon.done_elim (by assumption) ?_
    | refine ECanon.jump_elim (by assumption) ?_ | refine ECanon.wait_elim (by assumption) ?_
    | refine ECanon.busy_elim (by assumption) ?_ | refine ECanon.raise_elim (by assumption) ?_)

theorem execMxQueueEntry_wf (core : Fin 8192) (engine : Fin 16) (s : State) (hs : s.memWf = true) :
    RCanon (execMxQueueEntry core engine s) := by
  unfold execMxQueueEntry
  with_reducible repeat' (first
    | assumption | apply stop_wf | apply State.mxCount_wf | apply State.mxPop_wf | apply State.updEng_wf | apply State.setV_wf
    | apply State.raiseDeferred_wf | apply RCanon.next | apply RCanon.refused | apply RCanon.fault | apply fold_wf1
    | apply fold_wf2 | apply fold_wf | split | intro _ _ _ | intro _ _ | intro _ | simp only | dsimp only
    | refine Canon.fst (by assumption) ?_)

theorem execMxStat_wf (w : Who) (i : FmtR) (s : State) (hs : s.memWf = true) :
    RCanon (execMxStat w i s) := by
  unfold execMxStat
  with_reducible repeat' (first
    | assumption | apply State.matrix_wf | apply State.setS_wf | apply State.updEng_wf | apply ECanon.done | apply ECanon.jump
    | apply ECanon.wait | apply ECanon.busy | apply ECanon.raise | exact ECanon.stop | apply RCanon.next
    | apply RCanon.refused | apply RCanon.fault | split | intro _ _ _ | intro _ _ | intro _ | simp only | dsimp only
    | dsimp only [id] | refine RCanon.elim (by assumption) ?_ | refine ECanon.done_elim (by assumption) ?_
    | refine ECanon.jump_elim (by assumption) ?_ | refine ECanon.wait_elim (by assumption) ?_
    | refine ECanon.busy_elim (by assumption) ?_ | refine ECanon.raise_elim (by assumption) ?_)

theorem execMxTileEnd_wf (core : Fin 8192) (engine : Fin 16) (held : Nat) (s : State) (hs : s.memWf = true) :
    RCanon (execMxTileEnd core engine held s) := by
  unfold execMxTileEnd
  with_reducible repeat' (first
    | assumption | apply stop_wf | apply need_wf | apply State.endTile_wf | apply RCanon.next | apply RCanon.refused
    | apply RCanon.fault | split | simp only | dsimp only)

theorem execMxTileStart_wf (core : Fin 8192) (engine : Fin 16) (s : State) (hs : s.memWf = true) :
    RCanon (execMxTileStart core engine s) := by
  unfold execMxTileStart
  with_reducible repeat' (first
    | assumption | apply stop_wf | apply need_wf | apply State.startTile_wf | apply RCanon.next | apply RCanon.refused
    | apply RCanon.fault | split | simp only | dsimp only)

theorem execMxWait_wf (w : Who) (i : FmtR) (s : State) (hs : s.memWf = true) :
    RCanon (execMxWait w i s) := by
  unfold execMxWait
  with_reducible repeat' (first
    | assumption | apply State.matrix_wf | apply State.raiseDeferred_wf | apply State.updGrp_wf | apply ECanon.done
    | apply ECanon.jump | apply ECanon.wait | apply ECanon.busy | apply ECanon.raise | exact ECanon.stop | apply RCanon.next
    | apply RCanon.refused | apply RCanon.fault | exact OCanon.none | apply OCanon.someId | apply OCanon.some
    | apply OCanon.mapId | apply OCanon.mapFst | apply OCanon.map | apply fold_wf1 | apply fold_wf2 | apply fold_wf | split
    | intro _ _ _ | intro _ _ | intro _ | simp only | dsimp only | dsimp only [id] | refine OCanon.snd (by assumption) ?_
    | refine RCanon.elim (by assumption) ?_ | refine Canon.fst (by assumption) ?_ | refine ECanon.done_elim (by assumption) ?_
    | refine ECanon.jump_elim (by assumption) ?_ | refine ECanon.wait_elim (by assumption) ?_
    | refine ECanon.busy_elim (by assumption) ?_ | refine ECanon.raise_elim (by assumption) ?_)

theorem execMxZero_wf (w : Who) (i : FmtR) (s : State) (hs : s.memWf = true) :
    RCanon (execMxZero w i s) := by
  unfold execMxZero
  with_reducible repeat' (first
    | assumption | apply State.matrix_wf | apply State.enter_wf | apply State.mxPush_wf | apply ECanon.done
    | apply ECanon.jump | apply ECanon.wait | apply ECanon.busy | apply ECanon.raise | exact ECanon.stop | apply RCanon.next
    | apply RCanon.refused | apply RCanon.fault | exact OCanon.none | apply OCanon.someId | apply OCanon.some
    | apply OCanon.mapId | apply OCanon.mapFst | apply OCanon.map | apply fold_wf1 | apply fold_wf2 | apply fold_wf | split
    | intro _ _ _ | intro _ _ | intro _ | simp only | dsimp only | dsimp only [id] | refine OCanon.snd (by assumption) ?_
    | refine RCanon.elim (by assumption) ?_ | refine Canon.fst (by assumption) ?_ | refine ECanon.done_elim (by assumption) ?_
    | refine ECanon.jump_elim (by assumption) ?_ | refine ECanon.wait_elim (by assumption) ?_
    | refine ECanon.busy_elim (by assumption) ?_ | refine ECanon.raise_elim (by assumption) ?_)

/-! ### LmService -/

theorem State.unitZero_wf (s : State) (core u : Nat) (hs : s.memWf = true) :
    (State.unitZero s core u).memWf = true := by
  unfold State.unitZero
  with_reducible repeat' (first
    | assumption | split | simp only | dsimp only | simp only [memWf_mk, cmpWf_mk, memOk_cmp, cmpWf])

theorem State.coreZero_wf (s : State) (core : Nat) (hs : s.memWf = true) :
    (State.coreZero s core).memWf = true := by
  unfold State.coreZero
  with_reducible repeat' (first
    | assumption | apply State.unitZero_wf | apply fold_wf1 | apply fold_wf2 | apply fold_wf | split | intro _ _ _ | intro _ _
    | intro _ | simp only | dsimp only | refine Canon.fst (by assumption) ?_)

theorem State.lmRefuse_wf (s : State) (core : Nat) (hs : s.memWf = true) :
    (State.lmRefuse s core).memWf = true := by
  unfold State.lmRefuse
  with_reducible repeat' (first
    | assumption | apply State.fset_wf | split | simp only | dsimp only)

theorem State.setUnitPower_wf (s : State) (core u v : Nat) (hs : s.memWf = true) :
    (State.setUnitPower s core u v).memWf = true := by
  unfold State.setUnitPower
  with_reducible repeat' (first
    | assumption | apply State.setReg_wf | split | simp only | dsimp only)

theorem execLmPowerWrite_wf (who : Requester) (core : Fin 8192) (word : W64) (s : State) (hs : s.memWf = true) :
    RCanon (execLmPowerWrite who core word s) := by
  unfold execLmPowerWrite
  with_reducible repeat' (first
    | assumption | apply State.reachRecord_wf | apply State.take_wf | apply State.lmRefuse_wf | apply State.setUnitPower_wf
    | apply State.unitZero_wf | apply State.updCore_wf | apply RCanon.next | apply RCanon.refused | apply RCanon.fault
    | apply fold_wf1 | apply fold_wf2 | apply fold_wf | split | intro _ _ _ | intro _ _ | intro _ | simp only | dsimp only
    | refine Canon.snd (by assumption) ?_ | refine Canon.fst (by assumption) ?_)

theorem execLmRepairWrite_wf (who : Requester) (core : Fin 8192) (bank : Fin 32) (word : W64) (s : State) (hs : s.memWf = true) :
    RCanon (execLmRepairWrite who core bank word s) := by
  unfold execLmRepairWrite
  with_reducible repeat' (first
    | assumption | apply State.lmRefuse_wf | apply State.reachRecord_wf | apply State.writeReg_wf | apply State.updCore_wf
    | apply RCanon.next | apply RCanon.refused | apply RCanon.fault | apply fold_wf1 | apply fold_wf2 | apply fold_wf | split
    | intro _ _ _ | intro _ _ | intro _ | simp only | dsimp only | refine Canon.fst (by assumption) ?_)

theorem execLmTestStart_wf (who : Requester) (core : Fin 8192) (word : W64) (s : State) (hs : s.memWf = true) :
    RCanon (execLmTestStart who core word s) := by
  unfold execLmTestStart
  with_reducible repeat' (first
    | assumption | apply State.regAction_wf | apply State.updCore_wf | apply State.fset_wf | apply State.lmRefuse_wf
    | apply ECanon.done | apply ECanon.jump | apply ECanon.wait | apply ECanon.busy | apply ECanon.raise | exact ECanon.stop
    | apply RCanon.next | apply RCanon.refused | apply RCanon.fault | split | intro _ _ _ | intro _ _ | intro _ | simp only
    | dsimp only | dsimp only [id] | refine RCanon.elim (by assumption) ?_)

theorem execLmUnitWakeDone_wf (core : Fin 8192) (unit : Fin 32) (s : State) (hs : s.memWf = true) :
    RCanon (execLmUnitWakeDone core unit s) := by
  unfold execLmUnitWakeDone
  with_reducible repeat' (first
    | assumption | apply need_wf | apply State.updCore_wf | apply RCanon.next | apply RCanon.refused | apply RCanon.fault
    | split | simp only | dsimp only)

theorem execLmZeroDone_wf (core : Fin 8192) (unit : Fin 32) (s : State) (hs : s.memWf = true) :
    RCanon (execLmZeroDone core unit s) := by
  unfold execLmZeroDone
  with_reducible repeat' (first
    | assumption | apply need_wf | apply State.fset_wf | apply State.unitZero_wf | apply RCanon.next | apply RCanon.refused
    | apply RCanon.fault | split | simp only | dsimp only)

theorem execLmZeroRequest_wf (who : Requester) (core : Fin 8192) (word : W32) (s : State) (hs : s.memWf = true) :
    RCanon (execLmZeroRequest who core word s) := by
  unfold execLmZeroRequest
  with_reducible repeat' (first
    | assumption | apply State.reachRecord_wf | apply State.fset_wf | apply State.lmRefuse_wf | apply RCanon.next
    | apply RCanon.refused | apply RCanon.fault | apply fold_wf1 | apply fold_wf2 | apply fold_wf | split | intro _ _ _
    | intro _ _ | intro _ | simp only | dsimp only | refine Canon.fst (by assumption) ?_)

/-! ### Canopy -/

theorem State.allocUnits_wf (s : State) (core : Nat) (units : List Nat) (zero : Bool) (hs : s.memWf = true) :
    (State.allocUnits s core units zero).memWf = true := by
  unfold State.allocUnits
  with_reducible repeat' (first
    | assumption | apply State.updCore_wf | apply State.setUnitPower_wf | apply fold_wf1 | apply fold_wf2 | apply fold_wf
    | split | intro _ _ _ | intro _ _ | intro _ | simp only | dsimp only | simp only [memWf_mk, cmpWf_mk, memOk_cmp, cmpWf]
    | refine Canon.fst (by assumption) ?_)

theorem State.clusterLeft_wf (s : State) (k : Nat) (hs : s.memWf = true) :
    (State.clusterLeft s k).memWf = true := by
  unfold State.clusterLeft
  with_reducible repeat' (first
    | assumption | apply State.updCluster_wf | split | simp only | dsimp only)

theorem State.ctxStopped_wf (s : State) (c : Nat) (hs : s.memWf = true) :
    (State.ctxStopped s c).memWf = true := by
  unfold State.ctxStopped
  with_reducible repeat' (first
    | assumption | apply State.updCtx_wf | split | simp only | dsimp only)

theorem State.blockLeaves_wf (s : State) (k slot : Nat) (b : Blk) (x : BClus) (hs : s.memWf = true) :
    (State.blockLeaves s k slot b x).memWf = true := by
  unfold State.blockLeaves
  with_reducible repeat' (first
    | assumption | apply State.dropRsv_wf | apply State.clearRegs_wf | apply State.bcastBack_wf | apply State.ctxStopped_wf
    | apply State.clusterLeft_wf | apply fold_wf1 | apply fold_wf2 | apply fold_wf | split | intro _ _ _ | intro _ _ | intro _
    | simp only | dsimp only | simp only [memWf_mk, cmpWf_mk, memOk_cmp, cmpWf] | refine Canon.fst (by assumption) ?_)

theorem State.wakeCore_wf (s : State) (core : Nat) (hs : s.memWf = true) :
    (State.wakeCore s core).memWf = true := by
  unfold State.wakeCore
  with_reducible repeat' (first
    | assumption | apply State.updCore_wf | split | simp only | dsimp only | simp only [memWf_mk, cmpWf_mk, memOk_cmp, cmpWf])

theorem State.coreReady_wf (s : State) (core ctx kernel cls : Nat) (hs : s.memWf = true) :
    (State.coreReady s core ctx kernel cls).1.memWf = true := by
  unfold State.coreReady
  with_reducible repeat' (first
    | assumption | apply State.coreZero_wf | apply State.nearClean_wf | apply State.updCore_wf | apply State.wakeCore_wf
    | apply State.fset_wf | split | simp only | dsimp only | refine Canon.fst (by assumption) ?_)

theorem State.groupStart_wf (s : State) (g args index c rank i entry : Nat) (hs : s.memWf = true) :
    (State.groupStart s g args index c rank i entry).memWf = true := by
  unfold State.groupStart
  with_reducible repeat' (first
    | assumption | apply State.setS_wf | apply State.setV_wf | apply State.updGrp_wf | apply fold_wf1 | apply fold_wf2
    | apply fold_wf | split | intro _ _ _ | intro _ _ | intro _ | simp only | dsimp only | refine Canon.fst (by assumption) ?_)

theorem State.haltNew_wf (s : State) (c : Nat) (gs : List Nat) (hs : s.memWf = true) :
    (State.haltNew s c gs).memWf = true := by
  unfold State.haltNew
  with_reducible repeat' (first
    | assumption | apply State.haltOne_wf | apply fold_wf1 | apply fold_wf2 | apply fold_wf | split | intro _ _ _ | intro _ _
    | intro _ | simp only | dsimp only | refine Canon.fst (by assumption) ?_)

theorem State.turn_wf (s : State) (l : List Nat) (hs : s.memWf = true) :
    (State.turn s l).1.memWf = true := by
  unfold State.turn
  with_reducible repeat' (first
    | assumption | apply State.pick_wf | split | simp only | dsimp only | refine Canon.fst (by assumption) ?_
    | refine Canon.snd (by assumption) ?_)

theorem State.placeBlock_wf (s : State) (core ctx kernel cls bc rank : Nat) (n : Needs) (hs : s.memWf = true) :
    (State.placeBlock s core ctx kernel cls bc rank n).1.memWf = true := by
  unfold State.placeBlock
  with_reducible repeat' (first
    | assumption | apply State.coreReady_wf | apply State.turn_wf | apply State.allocUnits_wf | apply State.clearRegs_wf
    | apply fold_wf1 | apply fold_wf2 | apply fold_wf | split | intro _ _ _ | intro _ _ | intro _ | simp only | dsimp only
    | simp only [memWf_mk, cmpWf_mk, memOk_cmp, cmpWf] | refine Canon.fst (by assumption) ?_)

theorem State.retainCluster_wf (s : State) (k : Nat) (hs : s.memWf = true) :
    (State.retainCluster s k).memWf = true := by
  unfold State.retainCluster
  with_reducible repeat' (first
    | assumption | apply State.resetRegs_wf | apply State.setUnitPower_wf | apply State.updCore_wf | apply fold_wf1
    | apply fold_wf2 | apply fold_wf | split | intro _ _ _ | intro _ _ | intro _ | simp only | dsimp only
    | simp only [memWf_mk, cmpWf_mk, memOk_cmp, cmpWf] | refine Canon.fst (by assumption) ?_)

theorem State.retainDie_wf (s : State) (d : Nat) (hs : s.memWf = true) :
    (State.retainDie s d).memWf = true := by
  unfold State.retainDie
  with_reducible repeat' (first
    | assumption | split | simp only | dsimp only | simp only [memWf_mk, cmpWf_mk, memOk_cmp, cmpWf])

theorem State.retainQuadrant_wf (s : State) (q : Nat) (hs : s.memWf = true) :
    (State.retainQuadrant s q).memWf = true := by
  unfold State.retainQuadrant
  with_reducible repeat' (first
    | assumption | apply State.resetRegs_wf | split | simp only | dsimp only
    | simp only [memWf_mk, cmpWf_mk, memOk_cmp, cmpWf])

theorem State.retainFrom_wf (s : State) (core : Nat) (hs : s.memWf = true) :
    (State.retainFrom s core).memWf = true := by
  unfold State.retainFrom
  with_reducible repeat' (first
    | assumption | apply State.pick_wf | apply State.retainCluster_wf | apply State.retainQuadrant_wf
    | apply State.retainDie_wf | split | simp only | dsimp only | refine Canon.snd (by assumption) ?_)

theorem State.takeCluster_wf (s : State) (c : Nat) (x : Ctx) (k slot : Nat) (st : ClState) (hs : s.memWf = true) :
    (State.takeCluster s c x k slot st).memWf = true := by
  unfold State.takeCluster
  with_reducible repeat' (first
    | assumption | apply State.dutyMoved_wf | apply State.updCluster_wf | split | simp only | dsimp only)

theorem execBlockClusterPlace_wf (ctx : BitVec 16) (cluster : Fin 1024) (s : State) (hs : s.memWf = true) :
    RCanon (execBlockClusterPlace ctx cluster s) := by
  unfold execBlockClusterPlace
  with_reducible repeat' (first
    | assumption | apply stop_wf | apply need_wf | apply State.takeCluster_wf | apply State.turn_wf
    | apply State.placeBlock_wf | apply State.haltNew_wf | apply State.groupStart_wf | apply State.pump_wf
    | apply State.updCtx_wf | apply RCanon.next | apply RCanon.refused | apply RCanon.fault | exact OCanon.none
    | apply OCanon.someId | apply OCanon.some | apply OCanon.mapId | apply OCanon.mapFst | apply OCanon.map | apply fold_wf1
    | apply fold_wf2 | apply fold_wf | split | intro _ _ _ | intro _ _ | intro _ | simp only | dsimp only | dsimp only [id]
    | simp only [memWf_mk, cmpWf_mk, memOk_cmp, cmpWf] | refine Canon.fst (by assumption) ?_
    | refine OCanon.snd (by assumption) ?_)

theorem execBlockComplete_wf (core : Fin 8192) (block : Fin 16) (s : State) (hs : s.memWf = true) :
    RCanon (execBlockComplete core block s) := by
  unfold execBlockComplete
  with_reducible repeat' (first
    | assumption | apply stop_wf | apply need_wf | apply State.raiseDeferred_wf | apply State.pump_wf
    | apply State.releaseSide_wf | apply State.blockLeaves_wf | apply State.updBlk_wf | apply RCanon.next
    | apply RCanon.refused | apply RCanon.fault | exact OCanon.none | apply OCanon.someId | apply OCanon.some
    | apply OCanon.mapId | apply OCanon.mapFst | apply OCanon.map | split | intro _ _ _ | intro _ _ | intro _ | simp only
    | dsimp only | dsimp only [id] | refine OCanon.snd (by assumption) ?_)

theorem execCoreGate_wf (core : Fin 8192) (s : State) (hs : s.memWf = true) :
    RCanon (execCoreGate core s) := by
  unfold execCoreGate
  with_reducible repeat' (first
    | assumption | apply need_wf | apply State.retainFrom_wf | apply State.updCore_wf | apply RCanon.next
    | apply RCanon.refused | apply RCanon.fault | split | simp only | dsimp only)

theorem execKernelComplete_wf (ctx : BitVec 16) (s : State) (hs : s.memWf = true) :
    RCanon (execKernelComplete ctx s) := by
  unfold execKernelComplete
  with_reducible repeat' (first
    | assumption | apply stop_wf | apply need_wf | apply State.qpComplete_wf | apply State.updCtx_wf | apply RCanon.next
    | apply RCanon.refused | apply RCanon.fault | split | simp only | dsimp only)

theorem execKernelDeadline_wf (ctx : BitVec 16) (s : State) (hs : s.memWf = true) :
    RCanon (execKernelDeadline ctx s) := by
  unfold execKernelDeadline
  with_reducible repeat' (first
    | assumption | apply stop_wf | apply need_wf | apply State.fset_wf | apply State.updCtx_wf | apply State.reach_wf
    | apply RCanon.next | apply RCanon.refused | apply RCanon.fault | split | simp only | dsimp only)

/-! ### Agent -/

theorem State.agentHost_wf (s : State) (c f p va : Nat) (wr : Bool) (hs : s.memWf = true) :
    (State.agentHost s c f p va wr).1.memWf = true := by
  unfold State.agentHost
  with_reducible repeat' (first
    | assumption | apply State.startHost_wf | split | simp only | dsimp only
    | simp only [memWf_mk, cmpWf_mk, memOk_cmp, cmpWf] | refine Canon.fst (by assumption) ?_)

theorem State.pairAux_wf (s : State) (q : Nat) (hs : s.memWf = true) :
    OCanon Prod.fst (State.pairAux s q) := by
  unfold State.pairAux
  with_reducible repeat' (first
    | assumption | apply State.updQp_wf | exact OCanon.none | apply OCanon.someId | apply OCanon.some | split | simp only
    | dsimp only | refine OCanon.fst (by assumption) ?_)

theorem State.pairDue_wf (s : State) (q : Nat) (hs : s.memWf = true) :
    (State.pairDue s q).memWf = true := by
  unfold State.pairDue
  with_reducible repeat' (first
    | assumption | apply State.updQp_wf | split | simp only | dsimp only)

theorem State.pairGot_wf (s : State) (q : Nat) (b : List Byte) (ok : Bool) (hs : s.memWf = true) :
    (State.pairGot s q b ok).memWf = true := by
  unfold State.pairGot
  with_reducible repeat' (first
    | assumption | apply State.updQp_wf | split | simp only | dsimp only)

theorem State.pairRead_wf (s : State) (q c va len : Nat) (hs : s.memWf = true) :
    (State.pairRead s q c va len).1.memWf = true := by
  unfold State.pairRead
  with_reducible repeat' (first
    | assumption | apply State.pairAux_wf | apply State.agentWalk_wf | apply State.agentHost_wf | apply State.readBytes_wf
    | apply State.egress_wf | apply State.pairDue_wf | apply State.emit_wf | exact OCanon.none | apply OCanon.someId
    | apply OCanon.some | split | simp only | dsimp only | simp only [memWf_mk, cmpWf_mk, memOk_cmp, cmpWf]
    | refine Canon.fst (by assumption) ?_ | refine OCanon.fst (by assumption) ?_)

theorem State.pairWrite_wf (s : State) (q c va : Nat) (b : List Byte) (hs : s.memWf = true) :
    (State.pairWrite s q c va b).1.memWf = true := by
  unfold State.pairWrite
  with_reducible repeat' (first
    | assumption | apply State.pairAux_wf | apply State.agentWalk_wf | apply State.agentHost_wf | apply State.writeBytes_wf
    | apply State.egress_wf | apply State.pairDue_wf | apply State.emit_wf | exact OCanon.none | apply OCanon.someId
    | apply OCanon.some | split | simp only | dsimp only | refine Canon.fst (by assumption) ?_
    | refine OCanon.fst (by assumption) ?_)

end Sys2Proof.Machine
end

