-- ==== Sys2Proof/Laws/CanonHost.lean ====
section
/-! SUPPORT. Memory stays canonical under queues, contexts, saving, the sideband, the links and the host port. -/

set_option linter.unusedSimpArgs false
set_option linter.unusedVariables false

namespace Sys2Proof.Machine

/-! ### Queue -/

theorem State.qpError_wf (s : State) (q code : Nat) (hs : s.memWf = true) :
    (State.qpError s q code).memWf = true := by
  unfold State.qpError
  with_reducible repeat' (first
    | assumption | apply State.event_wf | apply State.fset_wf | split | simp only | dsimp only)

theorem State.fetchCmd_wf (s : State) (q : Nat) (hs : s.memWf = true) :
    OCanon Prod.fst (State.fetchCmd s q) := by
  unfold State.fetchCmd
  with_reducible repeat' (first
    | assumption | apply State.emit_wf | apply State.updQp_wf | apply State.readBytes_wf | apply State.qpError_wf
    | exact OCanon.none | apply OCanon.someId | apply OCanon.some | split | simp only | dsimp only
    | simp only [memWf_mk, cmpWf_mk, memOk_cmp, cmpWf] | refine Canon.fst (by assumption) ?_
    | refine OCanon.fst (by assumption) ?_)

theorem State.heldDone_wf (s : State) (q status : Nat) (hs : s.memWf = true) :
    (State.heldDone s q status).memWf = true := by
  unfold State.heldDone
  with_reducible repeat' (first
    | assumption | apply State.qpPost_wf | apply State.updQp_wf | split | simp only | dsimp only)

theorem State.pairForget_wf (s : State) (q : Nat) (hs : s.memWf = true) :
    (State.pairForget s q).memWf = true := by
  unfold State.pairForget
  with_reducible repeat' (first
    | assumption | apply State.updQp_wf | split | simp only | dsimp only | simp only [memWf_mk, cmpWf_mk, memOk_cmp, cmpWf])

theorem State.popCmd_wf (s : State) (q : Nat) (hs : s.memWf = true) :
    (State.popCmd s q).memWf = true := by
  unfold State.popCmd
  with_reducible repeat' (first
    | assumption | apply State.updQp_wf | apply State.fset_wf | split | simp only | dsimp only)

theorem State.qpMessage_wf (s : State) (q : Nat) (hs : s.memWf = true) :
    (State.qpMessage s q).memWf = true := by
  unfold State.qpMessage
  with_reducible repeat' (first
    | assumption | apply State.updQp_wf | apply State.msixSend_wf | split | simp only | dsimp only)

theorem State.waitRead_wf (s : State) (q : Nat) (c : QCmd) (hs : s.memWf = true) :
    (State.waitRead s q c).memWf = true := by
  unfold State.waitRead
  with_reducible repeat' (first
    | assumption | apply State.pairRead_wf | apply State.heldDone_wf | split | simp only | dsimp only
    | refine Canon.fst (by assumption) ?_)

theorem State.withCmd_wf (s : State) (q : Nat) (mine : Nat → Bool) (act : State → Packet → Res) (hs : s.memWf = true) (hact : ∀ (y0 : State) (y1 : Packet), y0.memWf = true → RCanon (act y0 y1)) :
    RCanon (State.withCmd s q mine act) := by
  unfold State.withCmd
  with_reducible repeat' (first
    | assumption | apply hact | apply State.fetchCmd_wf | apply stop_wf | apply State.qpPost_wf | apply State.popCmd_wf
    | apply ECanon.done | apply ECanon.jump | apply ECanon.wait | apply ECanon.busy | apply ECanon.raise | exact ECanon.stop
    | apply RCanon.next | apply RCanon.refused | apply RCanon.fault | exact OCanon.none | apply OCanon.someId
    | apply OCanon.some | split | intro _ _ _ | intro _ _ | intro _ | simp only | dsimp only | dsimp only [id]
    | refine OCanon.fst (by assumption) ?_)

theorem execCompletionEntryWrite_wf (q : Fin 4096) (s : State) (hs : s.memWf = true) :
    RCanon (execCompletionEntryWrite q s) := by
  unfold execCompletionEntryWrite
  with_reducible repeat' (first
    | assumption | apply stop_wf | apply State.updQp_wf | apply State.fset_wf | apply State.qpMessage_wf | apply State.emit_wf
    | apply State.writeBytes_wf | apply State.qpError_wf | apply RCanon.next | apply RCanon.refused | apply RCanon.fault
    | split | simp only | dsimp only | refine Canon.fst (by assumption) ?_)

theorem execDoorbellCqHead_wf (page : DoorPage) (value : W32) (s : State) (hs : s.memWf = true) :
    RCanon (execDoorbellCqHead page value s) := by
  unfold execDoorbellCqHead
  with_reducible repeat' (first
    | assumption | apply State.qpError_wf | apply State.updQp_wf | apply RCanon.next | apply RCanon.refused
    | apply RCanon.fault | split | simp only | dsimp only)

theorem execDoorbellSqTail_wf (page : DoorPage) (value : W32) (s : State) (hs : s.memWf = true) :
    RCanon (execDoorbellSqTail page value s) := by
  unfold execDoorbellSqTail
  with_reducible repeat' (first
    | assumption | apply State.qpError_wf | apply State.updQp_wf | apply RCanon.next | apply RCanon.refused
    | apply RCanon.fault | split | simp only | dsimp only)

theorem execQpIrqInterval_wf (q : Fin 4096) (s : State) (hs : s.memWf = true) :
    RCanon (execQpIrqInterval q s) := by
  unfold execQpIrqInterval
  with_reducible repeat' (first
    | assumption | apply need_wf | apply State.updQp_wf | apply State.msixSend_wf | apply RCanon.next | apply RCanon.refused
    | apply RCanon.fault | split | simp only | dsimp only)

theorem execQueueNop_wf (q : Fin 4096) (s : State) (hs : s.memWf = true) :
    RCanon (execQueueNop q s) := by
  unfold execQueueNop
  with_reducible repeat' (first
    | assumption | apply State.withCmd_wf | apply State.qpPost_wf | apply State.popCmd_wf | apply ECanon.done
    | apply ECanon.jump | apply ECanon.wait | apply ECanon.busy | apply ECanon.raise | exact ECanon.stop | apply RCanon.next
    | apply RCanon.refused | apply RCanon.fault | split | intro _ _ _ | intro _ _ | intro _ | simp only | dsimp only
    | dsimp only [id] | refine RCanon.elim (by assumption) ?_)

theorem execQueueSignal_wf (q : Fin 4096) (s : State) (hs : s.memWf = true) :
    RCanon (execQueueSignal q s) := by
  unfold execQueueSignal
  with_reducible repeat' (first
    | assumption | apply State.withCmd_wf | apply State.updQp_wf | apply State.popCmd_wf | apply ECanon.done
    | apply ECanon.jump | apply ECanon.wait | apply ECanon.busy | apply ECanon.raise | exact ECanon.stop | apply RCanon.next
    | apply RCanon.refused | apply RCanon.fault | split | intro _ _ _ | intro _ _ | intro _ | simp only | dsimp only
    | dsimp only [id] | refine RCanon.elim (by assumption) ?_)

theorem execQueueWait_wf (q : Fin 4096) (s : State) (hs : s.memWf = true) :
    RCanon (execQueueWait q s) := by
  unfold execQueueWait
  with_reducible repeat' (first
    | assumption | apply State.withCmd_wf | apply State.waitRead_wf | apply State.updQp_wf | apply State.popCmd_wf
    | apply ECanon.done | apply ECanon.jump | apply ECanon.wait | apply ECanon.busy | apply ECanon.raise | exact ECanon.stop
    | apply RCanon.next | apply RCanon.refused | apply RCanon.fault | split | intro _ _ _ | intro _ _ | intro _ | simp only
    | dsimp only | dsimp only [id] | refine RCanon.elim (by assumption) ?_)

theorem execSignalWrite_wf (q : Fin 4096) (s : State) (hs : s.memWf = true) :
    RCanon (execSignalWrite q s) := by
  unfold execSignalWrite
  with_reducible repeat' (first
    | assumption | apply stop_wf | apply need_wf | apply State.pairWrite_wf | apply State.heldDone_wf | apply RCanon.next
    | apply RCanon.refused | apply RCanon.fault | split | simp only | dsimp only | refine Canon.fst (by assumption) ?_)

theorem execWaitPoll_wf (q : Fin 4096) (s : State) (hs : s.memWf = true) :
    RCanon (execWaitPoll q s) := by
  unfold execWaitPoll
  with_reducible repeat' (first
    | assumption | apply stop_wf | apply need_wf | apply State.waitRead_wf | apply RCanon.next | apply RCanon.refused
    | apply RCanon.fault | split | simp only | dsimp only)

theorem execWaitTimeout_wf (q : Fin 4096) (s : State) (hs : s.memWf = true) :
    RCanon (execWaitTimeout q s) := by
  unfold execWaitTimeout
  with_reducible repeat' (first
    | assumption | apply stop_wf | apply need_wf | apply State.heldDone_wf | apply State.pairForget_wf
    | apply State.reachLocal_wf | apply RCanon.next | apply RCanon.refused | apply RCanon.fault | split | simp only
    | dsimp only)

/-! ### Save -/

theorem State.cleanForSave_wf (s : State) (bc : Nat) (hs : s.memWf = true) :
    (State.cleanForSave s bc).memWf = true := by
  unfold State.cleanForSave
  with_reducible repeat' (first
    | assumption | apply State.pump_wf | apply State.nearClean_wf | apply fold_wf1 | apply fold_wf2 | apply fold_wf | split
    | intro _ _ _ | intro _ _ | intro _ | simp only | dsimp only | refine Canon.fst (by assumption) ?_)

theorem State.put_wf (s : State) (pa : Nat) (l : List Byte) (hs : s.memWf = true) :
    (State.put s pa l).memWf = true := by
  unfold State.put
  with_reducible repeat' (first
    | assumption | apply State.writeBytes_wf | split | simp only | dsimp only | refine Canon.fst (by assumption) ?_)

theorem State.clearSlot_wf (s : State) (x : Ctx) (slot : Nat) (hs : s.memWf = true) :
    (State.clearSlot s x slot).memWf = true := by
  unfold State.clearSlot
  with_reducible repeat' (first
    | assumption | apply State.put_wf | apply fold_wf1 | apply fold_wf2 | apply fold_wf | split | intro _ _ _ | intro _ _
    | intro _ | simp only | dsimp only | refine Canon.fst (by assumption) ?_)

theorem State.replayCfgs_wf (a2 : Nat) (a1 : List (Nat × List (Nat × List Nat))) (a : State) (ha : a.memWf = true) :
    (State.replayCfgs a2 a1 a).memWf = true := by
  induction a2 generalizing a1 a with
  | zero => exact ha
  | succ n ih =>
    unfold State.replayCfgs
    split
    · exact ha
    · exact ih _ _ (State.regang_wf _ _ _ _ _ ha)

theorem State.loadEngines_wf (s : State) (core slot r : Nat) (b0 : Blk) (hs : s.memWf = true) :
    (State.loadEngines s core slot r b0).memWf = true := by
  unfold State.loadEngines
  with_reducible repeat' (first
    | assumption | apply State.updBlk_wf | apply State.take_wf | apply State.replayCfgs_wf | exact OCanon.none
    | apply OCanon.someId | apply OCanon.some | apply OCanon.mapId | apply OCanon.mapFst | apply OCanon.map | apply fold_wf1
    | apply fold_wf2 | apply fold_wf | split | intro _ _ _ | intro _ _ | intro _ | simp only | dsimp only | dsimp only [id]
    | simp only [memWf_mk, cmpWf_mk, memOk_cmp, cmpWf] | refine Canon.snd (by assumption) ?_
    | refine OCanon.snd (by assumption) ?_ | refine Canon.fst (by assumption) ?_)

theorem State.loadRegs_wf (s : State) (g : Nat) (rec_ : List Byte) (units : List Nat) (r : Nat) (hs : s.memWf = true) :
    (State.loadRegs s g rec_ units r).memWf = true := by
  unfold State.loadRegs
  with_reducible repeat' (first
    | assumption | apply State.setS_wf | apply State.setP_wf | apply State.setV_wf | apply fold_wf1 | apply fold_wf2
    | apply fold_wf | split | intro _ _ _ | intro _ _ | intro _ | simp only | dsimp only | refine Canon.fst (by assumption) ?_)

theorem State.loadSteq_wf (s : State) (k ctx core seq slot i : Nat) (l : List Byte) (hs : s.memWf = true) :
    (State.loadSteq s k ctx core seq slot i l).memWf = true := by
  unfold State.loadSteq
  with_reducible repeat' (first
    | assumption | apply State.take_wf | apply State.updSteq_wf | exact OCanon.none | apply OCanon.someId | apply OCanon.some
    | apply OCanon.mapId | apply OCanon.mapFst | apply OCanon.map | split | intro _ _ _ | intro _ _ | intro _ | simp only
    | dsimp only | dsimp only [id] | refine Canon.snd (by assumption) ?_ | refine OCanon.snd (by assumption) ?_)

theorem State.loadUnit_wf (s : State) (core u r : Nat) (hs : s.memWf = true) :
    (State.loadUnit s core u r).memWf = true := by
  unfold State.loadUnit
  with_reducible repeat' (first
    | assumption | apply State.readLine_wf | apply State.setLmPoison_wf | apply State.lmPut_wf | apply fold_wf1
    | apply fold_wf2 | apply fold_wf | split | intro _ _ _ | intro _ _ | intro _ | simp only | dsimp only
    | refine Canon.fst (by assumption) ?_)

theorem State.loadBlock_wf (s : State) (c : Nat) (x : Ctx) (slot i core j bc : Nat) (l : List Byte) (hs : s.memWf = true) :
    (State.loadBlock s c x slot i core j bc l).memWf = true := by
  unfold State.loadBlock
  with_reducible repeat' (first
    | assumption | apply State.loadUnit_wf | apply State.setUnitPower_wf | apply State.loadRegs_wf | apply State.clearRegs_wf
    | apply State.loadEngines_wf | apply State.loadSteq_wf | exact OCanon.none | apply OCanon.someId | apply OCanon.some
    | apply OCanon.mapId | apply OCanon.mapFst | apply OCanon.map | apply fold_wf1 | apply fold_wf2 | apply fold_wf | split
    | intro _ _ _ | intro _ _ | intro _ | simp only | dsimp only | dsimp only [id]
    | simp only [memWf_mk, cmpWf_mk, memOk_cmp, cmpWf] | refine OCanon.snd (by assumption) ?_
    | refine Canon.fst (by assumption) ?_)

theorem State.orWord_wf (s : State) (pa n v : Nat) (hs : s.memWf = true) :
    (State.orWord s pa n v).memWf = true := by
  unfold State.orWord
  with_reducible repeat' (first
    | assumption | apply State.put_wf | split | simp only | dsimp only)

theorem State.removeBc_wf (s : State) (bc : Nat) (hs : s.memWf = true) :
    (State.removeBc s bc).memWf = true := by
  unfold State.removeBc
  with_reducible repeat' (first
    | assumption | apply State.dropRsv_wf | apply State.clearRegs_wf | apply State.bcastBack_wf | apply fold_wf1
    | apply fold_wf2 | apply fold_wf | split | intro _ _ _ | intro _ _ | intro _ | simp only | dsimp only
    | simp only [memWf_mk, cmpWf_mk, memOk_cmp, cmpWf] | refine Canon.fst (by assumption) ?_)

theorem State.unrestore_wf (s : State) (k : Nat) (hs : s.memWf = true) :
    (State.unrestore s k).memWf = true := by
  unfold State.unrestore
  with_reducible repeat' (first
    | assumption | apply State.removeBc_wf | apply State.dutyMoved_wf | apply State.updCluster_wf | apply State.updCtx_wf
    | apply fold_wf1 | apply fold_wf2 | apply fold_wf | split | intro _ _ _ | intro _ _ | intro _ | simp only | dsimp only
    | refine Canon.fst (by assumption) ?_)

theorem State.preemptCluster_wf (s : State) (k : Nat) (hs : s.memWf = true) :
    (State.preemptCluster s k).memWf = true := by
  unfold State.preemptCluster
  with_reducible repeat' (first
    | assumption | apply State.updCluster_wf | apply State.unrestore_wf | exact OCanon.none | apply OCanon.someId
    | apply OCanon.some | apply OCanon.mapId | apply OCanon.mapFst | apply OCanon.map | split | intro _ _ _ | intro _ _
    | intro _ | simp only | dsimp only | dsimp only [id] | refine OCanon.snd (by assumption) ?_)

theorem State.rearrive_wf (s : State) (g : Nat) (grp : Grp) (hs : s.memWf = true) :
    (State.rearrive s g grp).memWf = true := by
  unfold State.rearrive
  with_reducible repeat' (first
    | assumption | apply State.updBlk_wf | exact OCanon.none | apply OCanon.someId | apply OCanon.some | apply OCanon.mapId
    | apply OCanon.mapFst | apply OCanon.map | split | intro _ _ _ | intro _ _ | intro _ | simp only | dsimp only
    | dsimp only [id] | refine OCanon.snd (by assumption) ?_)

theorem State.reissue_wf (s : State) (c core : Nat) (l : List Byte) (hs : s.memWf = true) :
    (State.reissue s c core l).memWf = true := by
  unfold State.reissue
  with_reducible repeat' (first
    | assumption | apply State.tick1_wf | apply State.addAcc_wf | exact OCanon.none | apply OCanon.someId | apply OCanon.some
    | apply OCanon.mapId | apply OCanon.mapFst | apply OCanon.map | apply fold_wf1 | apply fold_wf2 | apply fold_wf | split
    | intro _ _ _ | intro _ _ | intro _ | simp only | dsimp only | dsimp only [id] | refine Canon.snd (by assumption) ?_
    | refine OCanon.snd (by assumption) ?_ | refine Canon.fst (by assumption) ?_)

theorem State.restoreSlot_wf (s : State) (c : Nat) (x : Ctx) (slot k kernel : Nat) (grid : Nat × Nat × Nat) (args : Nat) (recs : List (Nat × List (Nat × List Byte))) (cores : List Nat) (hs : s.memWf = true) :
    (State.restoreSlot s c x slot k kernel grid args recs cores).memWf = true := by
  unfold State.restoreSlot
  with_reducible repeat' (first
    | assumption | apply State.coreReady_wf | apply State.loadUnit_wf | apply State.setUnitPower_wf | apply State.loadBlock_wf
    | apply State.rearrive_wf | apply State.reissue_wf | apply State.updGrp_wf | apply State.haltOne_wf | exact OCanon.none
    | apply OCanon.someId | apply OCanon.some | apply OCanon.mapId | apply OCanon.mapFst | apply OCanon.map | apply fold_wf1
    | apply fold_wf2 | apply fold_wf | split | intro _ _ _ | intro _ _ | intro _ | simp only | dsimp only | dsimp only [id]
    | simp only [memWf_mk, cmpWf_mk, memOk_cmp, cmpWf] | refine Canon.fst (by assumption) ?_
    | refine OCanon.snd (by assumption) ?_)

theorem State.rewind_wf (s : State) (k : Nat) (hs : s.memWf = true) :
    (State.rewind s k).memWf = true := by
  unfold State.rewind
  with_reducible repeat' (first
    | assumption | apply State.delChunk_wf | apply State.xferSettle_wf | apply State.updHead_wf | apply fold_wf1
    | apply fold_wf2 | apply fold_wf | split | intro _ _ _ | intro _ _ | intro _ | simp only | dsimp only
    | refine Canon.fst (by assumption) ?_)

theorem State.saveEngines_wf (s : State) (core slot r : Nat) (forced : Bool) (hs : s.memWf = true) :
    (State.saveEngines s core slot r forced).memWf = true := by
  unfold State.saveEngines
  with_reducible repeat' (first
    | assumption | apply State.put_wf | apply fold_wf1 | apply fold_wf2 | apply fold_wf | split | intro _ _ _ | intro _ _
    | intro _ | simp only | dsimp only | refine Canon.fst (by assumption) ?_)

theorem State.saveRegs_wf (s : State) (g : Nat) (grp : Grp) (r : Nat) (hs : s.memWf = true) :
    (State.saveRegs s g grp r).memWf = true := by
  unfold State.saveRegs
  with_reducible repeat' (first
    | assumption | apply State.orWord_wf | apply State.put_wf | apply fold_wf1 | apply fold_wf2 | apply fold_wf | split
    | intro _ _ _ | intro _ _ | intro _ | simp only | dsimp only | refine Canon.fst (by assumption) ?_)

theorem State.saveGroup_wf (s : State) (c slot i g r : Nat) (hs : s.memWf = true) :
    (State.saveGroup s c slot i g r).memWf = true := by
  unfold State.saveGroup
  with_reducible repeat' (first
    | assumption | apply State.orWord_wf | apply State.put_wf | apply State.saveRegs_wf | apply State.updCtx_wf | split
    | simp only | dsimp only | simp only [memWf_mk, cmpWf_mk, memOk_cmp, cmpWf])

theorem State.saveRemote_wf (s : State) (gs : List Nat) (r : Nat) (hs : s.memWf = true) :
    (State.saveRemote s gs r).memWf = true := by
  unfold State.saveRemote
  with_reducible repeat' (first
    | assumption | apply State.put_wf | apply fold_wf1 | apply fold_wf2 | apply fold_wf | split | intro _ _ _ | intro _ _
    | intro _ | simp only | dsimp only | refine Canon.fst (by assumption) ?_)

theorem State.saveUnit_wf (s : State) (core u r : Nat) (hs : s.memWf = true) :
    (State.saveUnit s core u r).memWf = true := by
  unfold State.saveUnit
  with_reducible repeat' (first
    | assumption | apply State.lmFind_wf | apply State.putLine_wf | apply State.orWord_wf | apply State.lmErrLog_wf
    | apply fold_wf1 | apply fold_wf2 | apply fold_wf | split | intro _ _ _ | intro _ _ | intro _ | simp only | dsimp only
    | refine Canon.fst (by assumption) ?_)

theorem State.saveXfers_wf (s : State) (c slot bk : Nat) (hs : s.memWf = true) :
    (State.saveXfers s c slot bk).memWf = true := by
  unfold State.saveXfers
  with_reducible repeat' (first
    | assumption | apply State.updCtx_wf | split | simp only | dsimp only)

theorem State.saveBlock_wf (s : State) (c : Nat) (ctx : Ctx) (slot bk : Nat) (b : Blk) (x : BClus) (forced : Bool) (hs : s.memWf = true) :
    (State.saveBlock s c ctx slot bk b x forced).memWf = true := by
  unfold State.saveBlock
  with_reducible repeat' (first
    | assumption | apply State.rewind_wf | apply State.put_wf | apply State.orWord_wf | apply State.saveUnit_wf
    | apply State.saveGroup_wf | apply State.saveXfers_wf | apply State.saveRemote_wf | apply State.saveEngines_wf
    | apply fold_wf1 | apply fold_wf2 | apply fold_wf | split | intro _ _ _ | intro _ _ | intro _ | simp only | dsimp only
    | refine Canon.fst (by assumption) ?_)

theorem State.saveHeld_wf (s : State) (ctx : Ctx) (slot rank : Nat) (units : List Nat) (x : BClus) (hs : s.memWf = true) :
    (State.saveHeld s ctx slot rank units x).memWf = true := by
  unfold State.saveHeld
  with_reducible repeat' (first
    | assumption | apply State.put_wf | apply State.orWord_wf | apply State.saveUnit_wf | apply fold_wf1 | apply fold_wf2
    | apply fold_wf | split | intro _ _ _ | intro _ _ | intro _ | simp only | dsimp only | refine Canon.fst (by assumption) ?_)

theorem State.writeBc_wf (s : State) (bc : Nat) (forced : Bool) (hs : s.memWf = true) :
    (State.writeBc s bc forced).memWf = true := by
  unfold State.writeBc
  with_reducible repeat' (first
    | assumption | apply State.updCluster_wf | apply State.clearSlot_wf | apply State.saveBlock_wf | apply State.saveHeld_wf
    | apply State.account_wf | apply fold_wf1 | apply fold_wf2 | apply fold_wf | split | intro _ _ _ | intro _ _ | intro _
    | simp only | dsimp only | refine Canon.fst (by assumption) ?_)

theorem execClusterCleanComplete_wf (cluster : Fin 1024) (s : State) (hs : s.memWf = true) :
    RCanon (execClusterCleanComplete cluster s) := by
  unfold execClusterCleanComplete
  with_reducible repeat' (first
    | assumption | apply stop_wf | apply State.flushLines_wf | apply State.updCore_wf | apply State.coreZero_wf
    | apply State.nearClean_wf | apply State.updCluster_wf | apply State.pump_wf | apply RCanon.next | apply RCanon.refused
    | apply RCanon.fault | exact OCanon.none | apply OCanon.someId | apply OCanon.some | apply fold_wf1 | apply fold_wf2
    | apply fold_wf | split | intro _ _ _ | intro _ _ | intro _ | simp only | dsimp only | dsimp only [id]
    | refine OCanon.id_ (by assumption) ?_ | refine Canon.fst (by assumption) ?_)

theorem execGraceExpiry_wf (cluster : Fin 1024) (s : State) (hs : s.memWf = true) :
    RCanon (execGraceExpiry cluster s) := by
  unfold execGraceExpiry
  with_reducible repeat' (first
    | assumption | apply stop_wf | apply need_wf | apply State.updCluster_wf | apply State.reachDisc_wf
    | apply State.cleanForSave_wf | apply State.writeBc_wf | apply State.stopTile_wf | apply State.removeBc_wf
    | apply State.clusterLeft_wf | apply RCanon.next | apply RCanon.refused | apply RCanon.fault | apply fold_wf1
    | apply fold_wf2 | apply fold_wf | split | intro _ _ _ | intro _ _ | intro _ | simp only | dsimp only
    | refine Canon.fst (by assumption) ?_)

theorem execSaveComplete_wf (cluster : Fin 1024) (s : State) (hs : s.memWf = true) :
    RCanon (execSaveComplete cluster s) := by
  unfold execSaveComplete
  with_reducible repeat' (first
    | assumption | apply need_wf | apply State.updCtx_wf | apply State.ctxStopped_wf | apply State.dutyMoved_wf
    | apply State.updCluster_wf | apply RCanon.next | apply RCanon.refused | apply RCanon.fault | split | simp only
    | dsimp only)

theorem execTileMarkSave_wf (clus : Nat) (s : State) (hs : s.memWf = true) :
    RCanon (execTileMarkSave clus s) := by
  unfold execTileMarkSave
  with_reducible repeat' (first
    | assumption | apply stop_wf | apply need_wf | apply State.cleanForSave_wf | apply State.removeBc_wf
    | apply State.writeBc_wf | apply State.clusterLeft_wf | apply RCanon.next | apply RCanon.refused | apply RCanon.fault
    | split | simp only | dsimp only)

/-! ### Contexts -/

theorem State.enqueue_wf (s : State) (q c : Nat) (k : Kernel) (hs : s.memWf = true) :
    (State.enqueue s q c k).memWf = true := by
  unfold State.enqueue
  with_reducible repeat' (first
    | assumption | apply State.updCtx_wf | apply State.updQp_wf | split | simp only | dsimp only
    | simp only [memWf_mk, cmpWf_mk, memOk_cmp, cmpWf])

theorem State.takeVictims_wf (s : State) (c : Nat) (x : Ctx) (k : Kernel) (hs : s.memWf = true) :
    (State.takeVictims s c x k).memWf = true := by
  unfold State.takeVictims
  with_reducible repeat' (first
    | assumption | apply State.preemptCluster_wf | apply fold_wf1 | apply fold_wf2 | apply fold_wf | split | intro _ _ _
    | intro _ _ | intro _ | simp only | dsimp only | refine Canon.fst (by assumption) ?_)

theorem State.admitted_wf (s : State) (q c : Nat) (x : Ctx) (p : Packet) (k : Kernel) (hs : s.memWf = true) :
    (State.admitted s q c x p k).memWf = true := by
  unfold State.admitted
  with_reducible repeat' (first
    | assumption | apply State.qpPost_wf | apply State.take_wf | apply State.pick_wf | apply State.takeVictims_wf
    | apply State.enqueue_wf | split | simp only | dsimp only | simp only [memWf_mk, cmpWf_mk, memOk_cmp, cmpWf]
    | refine Canon.snd (by assumption) ?_)

theorem State.cnpAllowed_wf (s : State) (ctx : Nat) (p : Ctx → Bool) (act : State → Ctx → State) (hs : s.memWf = true) (hact : ∀ (y0 : State) (y1 : Ctx), y0.memWf = true → (act y0 y1).memWf = true) :
    (State.cnpAllowed s ctx p act).1.memWf = true := by
  unfold State.cnpAllowed
  with_reducible repeat' (first
    | assumption | apply hact | apply ECanon.done | apply ECanon.jump | apply ECanon.wait | apply ECanon.busy
    | apply ECanon.raise | exact ECanon.stop | apply RCanon.next | apply RCanon.refused | apply RCanon.fault | split
    | intro _ _ _ | intro _ _ | intro _ | simp only | dsimp only | dsimp only [id] | refine Canon.fst (by assumption) ?_)

theorem State.cnpCmd_wf (s : State) (who : Requester) (op ctx : Nat) (act : State → State × Nat) (hs : s.memWf = true) (hact : ∀ (y0 : State), y0.memWf = true → (act y0).1.memWf = true) :
    RCanon (State.cnpCmd s who op ctx act) := by
  unfold State.cnpCmd
  with_reducible repeat' (first
    | assumption | apply hact | apply State.regAction_wf | apply State.fset_wf | apply ECanon.done | apply ECanon.jump
    | apply ECanon.wait | apply ECanon.busy | apply ECanon.raise | exact ECanon.stop | apply RCanon.next
    | apply RCanon.refused | apply RCanon.fault | split | intro _ _ _ | intro _ _ | intro _ | simp only | dsimp only
    | dsimp only [id] | refine Canon.fst (by assumption) ?_ | refine RCanon.elim (by assumption) ?_)

theorem State.launchFault_wf (s : State) (c : Nat) (x : Ctx) (desc rule : Nat) (hs : s.memWf = true) :
    (State.launchFault s c x desc rule).memWf = true := by
  unfold State.launchFault
  with_reducible repeat' (first
    | assumption | apply State.sendRecord_wf | split | simp only | dsimp only)

theorem State.launch_wf (s : State) (q c : Nat) (x : Ctx) (p : Packet) (l : List Byte) (hs : s.memWf = true) :
    (State.launch s q c x p l).memWf = true := by
  unfold State.launch
  with_reducible repeat' (first
    | assumption | apply State.qpPost_wf | apply State.launchFault_wf | apply State.admitted_wf | apply State.takeVictims_wf
    | apply State.enqueue_wf | split | simp only | dsimp only)

theorem State.stopCtx_wf (s : State) (c : Nat) (hs : s.memWf = true) :
    (State.stopCtx s c).memWf = true := by
  unfold State.stopCtx
  with_reducible repeat' (first
    | assumption | apply State.preemptCluster_wf | apply State.ctxStopped_wf | apply State.updCtx_wf | apply fold_wf1
    | apply fold_wf2 | apply fold_wf | split | intro _ _ _ | intro _ _ | intro _ | simp only | dsimp only
    | refine Canon.fst (by assumption) ?_)

theorem State.prune_wf (s : State) (c : Nat) (x : Ctx) (hs : s.memWf = true) :
    (State.prune s c x).1.memWf = true := by
  unfold State.prune
  with_reducible repeat' (first
    | assumption | apply State.readBytes_wf | apply State.qpComplete_wf | apply State.updSteq_wf | apply State.updCtx_wf
    | apply State.stopCtx_wf | apply fold_wf1 | apply fold_wf2 | apply fold_wf | split | intro _ _ _ | intro _ _ | intro _
    | simp only | dsimp only | refine Canon.fst (by assumption) ?_)

theorem State.putCtx_wf (s : State) (c : Nat) (x : Ctx) (hs : s.memWf = true) :
    (State.putCtx s c x).memWf = true := by
  unfold State.putCtx
  with_reducible repeat' (first
    | assumption | split | simp only | dsimp only | simp only [memWf_mk, cmpWf_mk, memOk_cmp, cmpWf])

theorem State.readDesc_wf (s : State) (c desc : Nat) (hs : s.memWf = true) :
    OCanon Prod.fst (State.readDesc s c desc) := by
  unfold State.readDesc
  with_reducible repeat' (first
    | assumption | apply State.readBytes_wf | exact OCanon.none | apply OCanon.someId | apply OCanon.some | split | simp only
    | dsimp only | refine Canon.fst (by assumption) ?_ | refine OCanon.fst (by assumption) ?_)

theorem State.register_wf (s : State) (c : Nat) (hs : s.memWf = true) :
    (State.register s c).1.memWf = true := by
  unfold State.register
  with_reducible repeat' (first
    | assumption | apply State.readBytes_wf | apply State.cttLoad_wf | apply State.putCtx_wf | exact OCanon.none
    | apply OCanon.someId | apply OCanon.some | apply OCanon.mapId | apply OCanon.mapFst | apply OCanon.map | split
    | intro _ _ _ | intro _ _ | intro _ | simp only | dsimp only | dsimp only [id]
    | simp only [memWf_mk, cmpWf_mk, memOk_cmp, cmpWf] | refine Canon.fst (by assumption) ?_
    | refine OCanon.snd (by assumption) ?_)

theorem State.restoreKernel_wf (s : State) (c : Nat) (x : Ctx) (hs : s.memWf = true) :
    (State.restoreKernel s c x).1.memWf = true := by
  unfold State.restoreKernel
  with_reducible repeat' (first
    | assumption | apply State.agentWalk_wf | apply State.readDesc_wf | apply State.take_wf | exact OCanon.none
    | apply OCanon.someId | apply OCanon.some | split | simp only | dsimp only | refine Canon.fst (by assumption) ?_
    | refine Canon.snd (by assumption) ?_ | refine OCanon.fst (by assumption) ?_)

theorem State.unregister_wf (s : State) (c : Nat) (hs : s.memWf = true) :
    (State.unregister s c).memWf = true := by
  unfold State.unregister
  with_reducible repeat' (first
    | assumption | apply State.updCtx_wf | apply State.attEnd_wf | split | simp only | dsimp only
    | simp only [memWf_mk, cmpWf_mk, memOk_cmp, cmpWf])

theorem execAcctFinalRecord_wf (ctx : BitVec 16) (s : State) (hs : s.memWf = true) :
    RCanon (execAcctFinalRecord ctx s) := by
  unfold execAcctFinalRecord
  with_reducible repeat' (first
    | assumption | apply stop_wf | apply State.acctWrite_wf | apply State.updCtx_wf | apply State.fset_wf
    | apply State.unregister_wf | apply RCanon.next | apply RCanon.refused | apply RCanon.fault | exact OCanon.none
    | apply OCanon.someId | apply OCanon.some | split | simp only | dsimp only | dsimp only [id]
    | refine OCanon.id_ (by assumption) ?_)

theorem execEnergyCalibration_wf (shares : List (BitVec 16 × Nat)) (s : State) (hs : s.memWf = true) :
    RCanon (execEnergyCalibration shares s) := by
  unfold execEnergyCalibration
  with_reducible repeat' (first
    | assumption | apply State.updCtx_wf | apply State.fset_wf | apply RCanon.next | apply RCanon.refused | apply RCanon.fault
    | apply fold_wf1 | apply fold_wf2 | apply fold_wf | split | intro _ _ _ | intro _ _ | intro _ | simp only | dsimp only
    | simp only [memWf_mk, cmpWf_mk, memOk_cmp, cmpWf] | refine Canon.fst (by assumption) ?_)

theorem execExportComplete_wf (ctx : BitVec 16) (s : State) (hs : s.memWf = true) :
    RCanon (execExportComplete ctx s) := by
  unfold execExportComplete
  with_reducible repeat' (first
    | assumption | apply stop_wf | apply need_wf | apply State.ctxEnd_wf | apply RCanon.next | apply RCanon.refused
    | apply RCanon.fault | split | simp only | dsimp only)

theorem execKillCtx_wf (who : Requester) (ctx : BitVec 16) (s : State) (hs : s.memWf = true) :
    RCanon (execKillCtx who ctx s) := by
  unfold execKillCtx
  with_reducible repeat' (first
    | assumption | apply State.cnpCmd_wf | apply State.cnpAllowed_wf | apply State.ctxEnd_wf | apply ECanon.done
    | apply ECanon.jump | apply ECanon.wait | apply ECanon.busy | apply ECanon.raise | exact ECanon.stop | apply RCanon.next
    | apply RCanon.refused | apply RCanon.fault | split | intro _ _ _ | intro _ _ | intro _ | simp only | dsimp only
    | dsimp only [id] | refine Canon.fst (by assumption) ?_ | refine RCanon.elim (by assumption) ?_)

theorem execLaunchKernel_wf (q : Fin 4096) (s : State) (hs : s.memWf = true) :
    RCanon (execLaunchKernel q s) := by
  unfold execLaunchKernel
  with_reducible repeat' (first
    | assumption | apply State.withCmd_wf | apply State.qpPost_wf | apply State.popCmd_wf | apply State.pairRead_wf
    | apply State.pick_wf | apply State.launch_wf | apply ECanon.done | apply ECanon.jump | apply ECanon.wait
    | apply ECanon.busy | apply ECanon.raise | exact ECanon.stop | apply RCanon.next | apply RCanon.refused
    | apply RCanon.fault | split | intro _ _ _ | intro _ _ | intro _ | simp only | dsimp only | dsimp only [id]
    | refine Canon.fst (by assumption) ?_ | refine Canon.snd (by assumption) ?_ | refine RCanon.elim (by assumption) ?_)

theorem execPruneCtx_wf (who : Requester) (ctx : BitVec 16) (s : State) (hs : s.memWf = true) :
    RCanon (execPruneCtx who ctx s) := by
  unfold execPruneCtx
  with_reducible repeat' (first
    | assumption | apply State.cnpCmd_wf | apply State.prune_wf | apply ECanon.done | apply ECanon.jump | apply ECanon.wait
    | apply ECanon.busy | apply ECanon.raise | exact ECanon.stop | apply RCanon.next | apply RCanon.refused
    | apply RCanon.fault | split | intro _ _ _ | intro _ _ | intro _ | simp only | dsimp only | dsimp only [id]
    | refine Canon.fst (by assumption) ?_ | refine RCanon.elim (by assumption) ?_)

theorem execPruneDeadline_wf (ctx : BitVec 16) (s : State) (hs : s.memWf = true) :
    RCanon (execPruneDeadline ctx s) := by
  unfold execPruneDeadline
  with_reducible repeat' (first
    | assumption | apply stop_wf | apply need_wf | apply State.ctxEnd_wf | apply State.reach_wf | apply RCanon.next
    | apply RCanon.refused | apply RCanon.fault | split | simp only | dsimp only)

theorem execRegisterCtx_wf (who : Requester) (ctx : BitVec 16) (s : State) (hs : s.memWf = true) :
    RCanon (execRegisterCtx who ctx s) := by
  unfold execRegisterCtx
  with_reducible repeat' (first
    | assumption | apply State.cnpCmd_wf | apply State.register_wf | apply ECanon.done | apply ECanon.jump | apply ECanon.wait
    | apply ECanon.busy | apply ECanon.raise | exact ECanon.stop | apply RCanon.next | apply RCanon.refused
    | apply RCanon.fault | split | intro _ _ _ | intro _ _ | intro _ | simp only | dsimp only | dsimp only [id]
    | refine Canon.fst (by assumption) ?_ | refine RCanon.elim (by assumption) ?_)

theorem execRestoreComplete_wf (cluster : Fin 1024) (s : State) (hs : s.memWf = true) :
    RCanon (execRestoreComplete cluster s) := by
  unfold execRestoreComplete
  with_reducible repeat' (first
    | assumption | apply need_wf | apply State.updCluster_wf | apply State.updCtx_wf | apply RCanon.next
    | apply RCanon.refused | apply RCanon.fault | split | simp only | dsimp only
    | simp only [memWf_mk, cmpWf_mk, memOk_cmp, cmpWf])

theorem execRestoreStart_wf (ctx : BitVec 16) (slot cluster : Fin 1024) (s : State) (hs : s.memWf = true) :
    RCanon (execRestoreStart ctx slot cluster s) := by
  unfold execRestoreStart
  with_reducible repeat' (first
    | assumption | apply stop_wf | apply need_wf | apply State.restoreKernel_wf | apply State.turn_wf
    | apply State.takeCluster_wf | apply State.restoreSlot_wf | apply State.updCtx_wf | apply RCanon.next
    | apply RCanon.refused | apply RCanon.fault | split | simp only | dsimp only | refine Canon.fst (by assumption) ?_)

theorem execResumeCtx_wf (who : Requester) (ctx : BitVec 16) (s : State) (hs : s.memWf = true) :
    RCanon (execResumeCtx who ctx s) := by
  unfold execResumeCtx
  with_reducible repeat' (first
    | assumption | apply State.cnpCmd_wf | apply State.cnpAllowed_wf | apply State.updCtx_wf | apply ECanon.done
    | apply ECanon.jump | apply ECanon.wait | apply ECanon.busy | apply ECanon.raise | exact ECanon.stop | apply RCanon.next
    | apply RCanon.refused | apply RCanon.fault | split | intro _ _ _ | intro _ _ | intro _ | simp only | dsimp only
    | dsimp only [id] | refine Canon.fst (by assumption) ?_ | refine RCanon.elim (by assumption) ?_)

theorem execSuspendCtx_wf (who : Requester) (ctx : BitVec 16) (s : State) (hs : s.memWf = true) :
    RCanon (execSuspendCtx who ctx s) := by
  unfold execSuspendCtx
  with_reducible repeat' (first
    | assumption | apply State.cnpCmd_wf | apply State.cnpAllowed_wf | apply State.updCtx_wf | apply State.stopCtx_wf
    | apply ECanon.done | apply ECanon.jump | apply ECanon.wait | apply ECanon.busy | apply ECanon.raise | exact ECanon.stop
    | apply RCanon.next | apply RCanon.refused | apply RCanon.fault | split | intro _ _ _ | intro _ _ | intro _ | simp only
    | dsimp only | dsimp only [id] | refine Canon.fst (by assumption) ?_ | refine RCanon.elim (by assumption) ?_)

theorem execUnregisterCtx_wf (who : Requester) (ctx : BitVec 16) (s : State) (hs : s.memWf = true) :
    RCanon (execUnregisterCtx who ctx s) := by
  unfold execUnregisterCtx
  with_reducible repeat' (first
    | assumption | apply State.cnpCmd_wf | apply State.cnpAllowed_wf | apply State.unregister_wf | apply State.acctFinal_wf
    | apply ECanon.done | apply ECanon.jump | apply ECanon.wait | apply ECanon.busy | apply ECanon.raise | exact ECanon.stop
    | apply RCanon.next | apply RCanon.refused | apply RCanon.fault | split | intro _ _ _ | intro _ _ | intro _ | simp only
    | dsimp only | dsimp only [id] | refine Canon.fst (by assumption) ?_ | refine RCanon.elim (by assumption) ?_)

/-! ### Sideband -/

theorem State.pldmRsp_wf (s : State) (typ code completion : Nat) (body : List Byte) (hs : s.memWf = true) :
    (State.pldmRsp s typ code completion body).memWf = true := by
  unfold State.pldmRsp
  with_reducible repeat' (first
    | assumption | apply State.emit_wf | split | simp only | dsimp only)

theorem State.sideband_wf (s r : State) (hs : s.memWf = true) (hr : r.memWf = true) :
    RCanon (State.sideband s r) := by
  unfold State.sideband
  with_reducible repeat' (first
    | assumption | apply State.emit_wf | apply RCanon.next | apply RCanon.refused | apply RCanon.fault | split | simp only
    | dsimp only)

theorem State.spdm_wf (s : State) (path : SpdmPath) (r : State) (hs : s.memWf = true) (hr : r.memWf = true) :
    RCanon (State.spdm s path r) := by
  unfold State.spdm
  with_reducible repeat' (first
    | assumption | apply State.event_wf | apply State.emit_wf | apply State.sideband_wf | apply RCanon.next
    | apply RCanon.refused | apply RCanon.fault | split | simp only | dsimp only | refine RCanon.elim (by assumption) ?_)

theorem execChallenge_wf (path : SpdmPath) (slot : Fin 8) (nonce : BitVec 256) (s : State) (hs : s.memWf = true) :
    RCanon (execChallenge path slot nonce s) := by
  unfold execChallenge
  with_reducible repeat' (first
    | assumption | apply State.spdm_wf | apply State.emit_wf | apply RCanon.next | apply RCanon.refused | apply RCanon.fault
    | split | simp only | dsimp only | refine RCanon.elim (by assumption) ?_)

theorem execEntdaa_wf (addr : Fin 128) (s : State) (hs : s.memWf = true) :
    RCanon (execEntdaa addr s) := by
  unfold execEntdaa
  with_reducible repeat' (first
    | assumption | apply RCanon.next | apply RCanon.refused | apply RCanon.fault | split | simp only | dsimp only
    | simp only [memWf_mk, cmpWf_mk, memOk_cmp, cmpWf])

theorem execGetCapabilities_wf (path : SpdmPath) (request : List Byte) (s : State) (hs : s.memWf = true) :
    RCanon (execGetCapabilities path request s) := by
  unfold execGetCapabilities
  with_reducible repeat' (first
    | assumption | apply State.spdm_wf | apply State.emit_wf | apply RCanon.next | apply RCanon.refused | apply RCanon.fault
    | split | simp only | dsimp only | refine RCanon.elim (by assumption) ?_)

theorem execGetCertificate_wf (path : SpdmPath) (slot : Fin 8) (offset length : W16) (s : State) (hs : s.memWf = true) :
    RCanon (execGetCertificate path slot offset length s) := by
  unfold execGetCertificate
  with_reducible repeat' (first
    | assumption | apply State.spdm_wf | apply State.emit_wf | apply RCanon.next | apply RCanon.refused | apply RCanon.fault
    | split | simp only | dsimp only | refine RCanon.elim (by assumption) ?_)

theorem execGetDigests_wf (path : SpdmPath) (s : State) (hs : s.memWf = true) :
    RCanon (execGetDigests path s) := by
  unfold execGetDigests
  with_reducible repeat' (first
    | assumption | apply State.spdm_wf | apply State.emit_wf | apply RCanon.next | apply RCanon.refused | apply RCanon.fault
    | split | simp only | dsimp only | refine RCanon.elim (by assumption) ?_)

theorem execGetEndpointId_wf (s : State) (hs : s.memWf = true) :
    RCanon (execGetEndpointId s) := by
  unfold execGetEndpointId
  with_reducible repeat' (first
    | assumption | apply State.sideband_wf | apply State.emit_wf | apply RCanon.next | apply RCanon.refused
    | apply RCanon.fault | split | simp only | dsimp only | refine RCanon.elim (by assumption) ?_)

theorem execGetMctpVersionSupport_wf (msgType : Fin 256) (s : State) (hs : s.memWf = true) :
    RCanon (execGetMctpVersionSupport msgType s) := by
  unfold execGetMctpVersionSupport
  with_reducible repeat' (first
    | assumption | apply State.sideband_wf | apply State.emit_wf | apply RCanon.next | apply RCanon.refused
    | apply RCanon.fault | split | simp only | dsimp only | refine RCanon.elim (by assumption) ?_)

theorem execGetMeasurements_wf (path : SpdmPath) (index : Fin 256) (nonce : BitVec 256) (s : State) (hs : s.memWf = true) :
    RCanon (execGetMeasurements path index nonce s) := by
  unfold execGetMeasurements
  with_reducible repeat' (first
    | assumption | apply State.spdm_wf | apply State.emit_wf | apply RCanon.next | apply RCanon.refused | apply RCanon.fault
    | split | simp only | dsimp only | refine RCanon.elim (by assumption) ?_)

theorem execGetMessageTypeSupport_wf (s : State) (hs : s.memWf = true) :
    RCanon (execGetMessageTypeSupport s) := by
  unfold execGetMessageTypeSupport
  with_reducible repeat' (first
    | assumption | apply State.sideband_wf | apply State.emit_wf | apply RCanon.next | apply RCanon.refused
    | apply RCanon.fault | split | simp only | dsimp only | refine RCanon.elim (by assumption) ?_)

theorem execGetPdr_wf (handle : W32) (s : State) (hs : s.memWf = true) :
    RCanon (execGetPdr handle s) := by
  unfold execGetPdr
  with_reducible repeat' (first
    | assumption | apply State.sideband_wf | apply State.pldmRsp_wf | apply RCanon.next | apply RCanon.refused
    | apply RCanon.fault | split | simp only | dsimp only | refine RCanon.elim (by assumption) ?_)

theorem execGetPldmCommands_wf (pldmType : Fin 64) (s : State) (hs : s.memWf = true) :
    RCanon (execGetPldmCommands pldmType s) := by
  unfold execGetPldmCommands
  with_reducible repeat' (first
    | assumption | apply State.sideband_wf | apply State.pldmRsp_wf | apply RCanon.next | apply RCanon.refused
    | apply RCanon.fault | split | simp only | dsimp only | refine RCanon.elim (by assumption) ?_)

theorem execGetPldmTypes_wf (s : State) (hs : s.memWf = true) :
    RCanon (execGetPldmTypes s) := by
  unfold execGetPldmTypes
  with_reducible repeat' (first
    | assumption | apply State.sideband_wf | apply State.pldmRsp_wf | apply RCanon.next | apply RCanon.refused
    | apply RCanon.fault | split | simp only | dsimp only | refine RCanon.elim (by assumption) ?_)

theorem execGetPldmVersion_wf (pldmType : Fin 64) (s : State) (hs : s.memWf = true) :
    RCanon (execGetPldmVersion pldmType s) := by
  unfold execGetPldmVersion
  with_reducible repeat' (first
    | assumption | apply State.sideband_wf | apply State.pldmRsp_wf | apply RCanon.next | apply RCanon.refused
    | apply RCanon.fault | split | simp only | dsimp only | refine RCanon.elim (by assumption) ?_)

theorem execGetSensorReading_wf (id : W16) (s : State) (hs : s.memWf = true) :
    RCanon (execGetSensorReading id s) := by
  unfold execGetSensorReading
  with_reducible repeat' (first
    | assumption | apply State.sideband_wf | apply State.pldmRsp_wf | apply RCanon.next | apply RCanon.refused
    | apply RCanon.fault | split | simp only | dsimp only | refine RCanon.elim (by assumption) ?_)

theorem execGetStateSensorReadings_wf (id : W16) (s : State) (hs : s.memWf = true) :
    RCanon (execGetStateSensorReadings id s) := by
  unfold execGetStateSensorReadings
  with_reducible repeat' (first
    | assumption | apply State.sideband_wf | apply State.pldmRsp_wf | apply RCanon.next | apply RCanon.refused
    | apply RCanon.fault | split | simp only | dsimp only | refine RCanon.elim (by assumption) ?_)

theorem execGetTid_wf (s : State) (hs : s.memWf = true) :
    RCanon (execGetTid s) := by
  unfold execGetTid
  with_reducible repeat' (first
    | assumption | apply State.sideband_wf | apply State.pldmRsp_wf | apply RCanon.next | apply RCanon.refused
    | apply RCanon.fault | split | simp only | dsimp only | refine RCanon.elim (by assumption) ?_)

theorem execGetVersion_wf (path : SpdmPath) (s : State) (hs : s.memWf = true) :
    RCanon (execGetVersion path s) := by
  unfold execGetVersion
  with_reducible repeat' (first
    | assumption | apply State.spdm_wf | apply State.emit_wf | apply RCanon.next | apply RCanon.refused | apply RCanon.fault
    | split | simp only | dsimp only | refine RCanon.elim (by assumption) ?_)

theorem execNegotiateAlgorithms_wf (path : SpdmPath) (request : List Byte) (s : State) (hs : s.memWf = true) :
    RCanon (execNegotiateAlgorithms path request s) := by
  unfold execNegotiateAlgorithms
  with_reducible repeat' (first
    | assumption | apply State.spdm_wf | apply State.emit_wf | apply RCanon.next | apply RCanon.refused | apply RCanon.fault
    | split | simp only | dsimp only | refine RCanon.elim (by assumption) ?_)

theorem execPldmFirmwareUpdate_wf (image : List Byte) (s : State) (hs : s.memWf = true) :
    RCanon (execPldmFirmwareUpdate image s) := by
  unfold execPldmFirmwareUpdate
  with_reducible repeat' (first
    | assumption | apply State.emit_wf | apply State.pldmRsp_wf | apply State.sessionUse_wf | apply State.imageWrite_wf
    | apply State.imageCommit_wf | apply RCanon.next | apply RCanon.refused | apply RCanon.fault | split | simp only
    | dsimp only | simp only [memWf_mk, cmpWf_mk, memOk_cmp, cmpWf] | refine Canon.snd (by assumption) ?_)

theorem execPollForPlatformEventMessage_wf (s : State) (hs : s.memWf = true) :
    RCanon (execPollForPlatformEventMessage s) := by
  unfold execPollForPlatformEventMessage
  with_reducible repeat' (first
    | assumption | apply State.sideband_wf | apply State.pldmRsp_wf | apply RCanon.next | apply RCanon.refused
    | apply RCanon.fault | split | simp only | dsimp only | simp only [memWf_mk, cmpWf_mk, memOk_cmp, cmpWf]
    | refine RCanon.elim (by assumption) ?_)

theorem execSetEndpointId_wf (eid : Fin 256) (s : State) (hs : s.memWf = true) :
    RCanon (execSetEndpointId eid s) := by
  unfold execSetEndpointId
  with_reducible repeat' (first
    | assumption | apply State.sideband_wf | apply State.emit_wf | apply RCanon.next | apply RCanon.refused
    | apply RCanon.fault | split | simp only | dsimp only | simp only [memWf_mk, cmpWf_mk, memOk_cmp, cmpWf]
    | refine RCanon.elim (by assumption) ?_)

theorem execSetTid_wf (tid : Fin 256) (s : State) (hs : s.memWf = true) :
    RCanon (execSetTid tid s) := by
  unfold execSetTid
  with_reducible repeat' (first
    | assumption | apply State.sideband_wf | apply State.pldmRsp_wf | apply RCanon.next | apply RCanon.refused
    | apply RCanon.fault | split | simp only | dsimp only | simp only [memWf_mk, cmpWf_mk, memOk_cmp, cmpWf]
    | refine RCanon.elim (by assumption) ?_)

theorem execVendorDefinedRequest_wf (path : SpdmPath) (standard vendor : W16) (payload : List Byte) (s : State) (hs : s.memWf = true) :
    RCanon (execVendorDefinedRequest path standard vendor payload s) := by
  unfold execVendorDefinedRequest
  with_reducible repeat' (first
    | assumption | apply State.spdm_wf | apply State.emit_wf | apply RCanon.next | apply RCanon.refused | apply RCanon.fault
    | split | simp only | dsimp only | refine RCanon.elim (by assumption) ?_)

/-! ### Griga -/

theorem State.reply_wf (s : State) (p : Nat) (m : GMsg) (op x : Nat) (payload : List Byte) (hs : s.memWf = true) :
    (State.reply s p m op x payload).memWf = true := by
  unfold State.reply
  with_reducible repeat' (first
    | assumption | apply State.sendMsg_wf | split | simp only | dsimp only)

theorem State.answerData_wf (s : State) (p : Nat) (m : GMsg) (b : List Byte) (poison : Bool) (hs : s.memWf = true) :
    (State.answerData s p m b poison).memWf = true := by
  unfold State.answerData
  with_reducible repeat' (first
    | assumption | apply State.take_wf | apply State.reply_wf | split | simp only | dsimp only
    | refine Canon.snd (by assumption) ?_)

theorem State.issuerFail_wf (s : State) (i : Issuer) (op code : Nat) (hs : s.memWf = true) :
    (State.issuerFail s i op code).memWf = true := by
  unfold State.issuerFail
  with_reducible repeat' (first
    | assumption | apply State.pump_wf | apply State.failAcc_wf | apply State.chunkData_wf | apply State.chunkAck_wf
    | apply State.pairGot_wf | split | simp only | dsimp only)

theorem State.egressNext_wf (s : State) (hs : s.memWf = true) :
    (State.egressNext s).memWf = true := by
  unfold State.egressNext
  with_reducible repeat' (first
    | assumption | apply State.egressDrain_wf | apply State.issuerFail_wf | exact OCanon.none | apply OCanon.someId
    | apply OCanon.some | apply OCanon.mapId | apply OCanon.mapFst | apply OCanon.map | apply fold_wf1 | apply fold_wf2
    | apply fold_wf | split | intro _ _ _ | intro _ _ | intro _ | simp only | dsimp only | dsimp only [id]
    | refine Canon.fst (by assumption) ?_ | refine OCanon.snd (by assumption) ?_)

theorem State.ingressRefuse_wf (s : State) (p : Nat) (m : GMsg) (reason : Nat) (hs : s.memWf = true) :
    (State.ingressRefuse s p m reason).memWf = true := by
  unfold State.ingressRefuse
  with_reducible repeat' (first
    | assumption | apply State.portEvent_wf | apply State.pkgCount_wf | apply State.dfqWrite_wf | apply State.reply_wf | split
    | simp only | dsimp only)

theorem State.ingressServe_wf (s : State) (m : GMsg) (hs : s.memWf = true) :
    (State.ingressServe s m).memWf = true := by
  unfold State.ingressServe
  with_reducible repeat' (first
    | assumption | apply State.serve_wf | apply fold_wf1 | apply fold_wf2 | apply fold_wf | split | intro _ _ _ | intro _ _
    | intro _ | simp only | dsimp only | refine Canon.fst (by assumption) ?_)

theorem State.ingress_wf (s : State) (p : Nat) (m : GMsg) (act : State → State) (hs : s.memWf = true) (hact : ∀ (y0 : State), y0.memWf = true → (act y0).memWf = true) :
    RCanon (State.ingress s p m act) := by
  unfold State.ingress
  with_reducible repeat' (first
    | assumption | apply hact | apply need_wf | apply State.ingressRefuse_wf | apply State.ingressServe_wf | apply ECanon.done
    | apply ECanon.jump | apply ECanon.wait | apply ECanon.busy | apply ECanon.raise | exact ECanon.stop | apply RCanon.next
    | apply RCanon.refused | apply RCanon.fault | split | intro _ _ _ | intro _ _ | intro _ | simp only | dsimp only
    | dsimp only [id])

theorem State.ingressRead_wf (s : State) (p : Nat) (m : GMsg) (hs : s.memWf = true) :
    (State.ingressRead s p m).memWf = true := by
  unfold State.ingressRead
  with_reducible repeat' (first
    | assumption | apply State.readBytes_wf | apply State.answerData_wf | split | simp only | dsimp only
    | refine Canon.fst (by assumption) ?_)

theorem State.mgmt_wf (s : State) (p : Nat) (act : State → State) (hs : s.memWf = true) (hact : ∀ (y0 : State), y0.memWf = true → (act y0).memWf = true) :
    RCanon (State.mgmt s p act) := by
  unfold State.mgmt
  with_reducible repeat' (first
    | assumption | apply hact | apply need_wf | apply ECanon.done | apply ECanon.jump | apply ECanon.wait | apply ECanon.busy
    | apply ECanon.raise | exact ECanon.stop | apply RCanon.next | apply RCanon.refused | apply RCanon.fault | split
    | intro _ _ _ | intro _ _ | intro _ | simp only | dsimp only | dsimp only [id])

theorem State.portCtl_wf (s : State) (p : Nat) (was : Bool) (word : Nat) (hs : s.memWf = true) :
    (State.portCtl s p was word).memWf = true := by
  unfold State.portCtl
  with_reducible repeat' (first
    | assumption | apply State.portEnable_wf | apply State.portDisable_wf | apply State.portRetrain_wf | split | simp only
    | dsimp only)

theorem State.response_wf (s : State) (p : Nat) (msg : GMsg) (op : Nat) (act : State → EgReq → State) (hs : s.memWf = true) (hact : ∀ (y0 : State) (y1 : EgReq), y0.memWf = true → (act y0 y1).memWf = true) :
    RCanon (State.response s p msg op act) := by
  unfold State.response
  with_reducible repeat' (first
    | assumption | apply hact | apply need_wf | apply State.pkgCount_wf | apply State.egressNext_wf
    | apply State.egressFreeEntry_wf | apply ECanon.done | apply ECanon.jump | apply ECanon.wait | apply ECanon.busy
    | apply ECanon.raise | exact ECanon.stop | apply RCanon.next | apply RCanon.refused | apply RCanon.fault | split
    | intro _ _ _ | intro _ _ | intro _ | simp only | dsimp only | dsimp only [id])

theorem execAckRsp_wf (port : Fin 32) (msg : GMsg) (s : State) (hs : s.memWf = true) :
    RCanon (execAckRsp port msg s) := by
  unfold execAckRsp
  with_reducible repeat' (first
    | assumption | apply State.response_wf | apply State.pump_wf | apply State.finishStore_wf | apply State.chunkAck_wf
    | apply State.pairGot_wf | apply ECanon.done | apply ECanon.jump | apply ECanon.wait | apply ECanon.busy
    | apply ECanon.raise | exact ECanon.stop | apply RCanon.next | apply RCanon.refused | apply RCanon.fault | split
    | intro _ _ _ | intro _ _ | intro _ | simp only | dsimp only | dsimp only [id] | refine RCanon.elim (by assumption) ?_)

theorem execAtReq_wf (port : Fin 32) (msg : GMsg) (s : State) (hs : s.memWf = true) :
    RCanon (execAtReq port msg s) := by
  unfold execAtReq
  with_reducible repeat' (first
    | assumption | apply State.ingress_wf | apply State.atomLine_wf | apply State.answerData_wf | apply ECanon.done
    | apply ECanon.jump | apply ECanon.wait | apply ECanon.busy | apply ECanon.raise | exact ECanon.stop | apply RCanon.next
    | apply RCanon.refused | apply RCanon.fault | exact OCanon.none | apply OCanon.someId | apply OCanon.some
    | apply OCanon.mapId | apply OCanon.mapFst | apply OCanon.map | split | intro _ _ _ | intro _ _ | intro _ | simp only
    | dsimp only | dsimp only [id] | refine Canon.fst (by assumption) ?_ | refine OCanon.snd (by assumption) ?_
    | refine RCanon.elim (by assumption) ?_)

theorem execDataRsp_wf (port : Fin 32) (msg : GMsg) (s : State) (hs : s.memWf = true) :
    RCanon (execDataRsp port msg s) := by
  unfold execDataRsp
  with_reducible repeat' (first
    | assumption | apply State.response_wf | apply State.pump_wf | apply State.finishAtomic_wf | apply State.finishLoad_wf
    | apply State.chunkData_wf | apply State.pairGot_wf | apply ECanon.done | apply ECanon.jump | apply ECanon.wait
    | apply ECanon.busy | apply ECanon.raise | exact ECanon.stop | apply RCanon.next | apply RCanon.refused
    | apply RCanon.fault | exact OCanon.none | apply OCanon.someId | apply OCanon.some | apply OCanon.mapId
    | apply OCanon.mapFst | apply OCanon.map | split | intro _ _ _ | intro _ _ | intro _ | simp only | dsimp only
    | dsimp only [id] | refine OCanon.snd (by assumption) ?_ | refine RCanon.elim (by assumption) ?_)

theorem execDutyMsg_wf (port : Fin 32) (src : Fin 16384) (ceiling : Fin 32) (slot : W64) (s : State) (hs : s.memWf = true) :
    RCanon (execDutyMsg port src ceiling slot s) := by
  unfold execDutyMsg
  with_reducible repeat' (first
    | assumption | apply State.mgmt_wf | apply ECanon.done | apply ECanon.jump | apply ECanon.wait | apply ECanon.busy
    | apply ECanon.raise | exact ECanon.stop | apply RCanon.next | apply RCanon.refused | apply RCanon.fault | split
    | intro _ _ _ | intro _ _ | intro _ | simp only | dsimp only | dsimp only [id]
    | simp only [memWf_mk, cmpWf_mk, memOk_cmp, cmpWf] | refine RCanon.elim (by assumption) ?_)

theorem execGetReq_wf (port : Fin 32) (msg : GMsg) (s : State) (hs : s.memWf = true) :
    RCanon (execGetReq port msg s) := by
  unfold execGetReq
  with_reducible repeat' (first
    | assumption | apply State.ingress_wf | apply State.ingressRead_wf | apply ECanon.done | apply ECanon.jump
    | apply ECanon.wait | apply ECanon.busy | apply ECanon.raise | exact ECanon.stop | apply RCanon.next
    | apply RCanon.refused | apply RCanon.fault | split | intro _ _ _ | intro _ _ | intro _ | simp only | dsimp only
    | dsimp only [id] | refine RCanon.elim (by assumption) ?_)

theorem execHealthMsg_wf (port : Fin 32) (_src : Fin 16384) (_ready _reason : W64) (s : State) (hs : s.memWf = true) :
    RCanon (execHealthMsg port _src _ready _reason s) := by
  unfold execHealthMsg
  with_reducible repeat' (first
    | assumption | apply State.mgmt_wf | apply State.logEvent_wf | apply ECanon.done | apply ECanon.jump | apply ECanon.wait
    | apply ECanon.busy | apply ECanon.raise | exact ECanon.stop | apply RCanon.next | apply RCanon.refused
    | apply RCanon.fault | split | intro _ _ _ | intro _ _ | intro _ | simp only | dsimp only | dsimp only [id]
    | refine RCanon.elim (by assumption) ?_)

theorem execNackRsp_wf (port : Fin 32) (msg : GMsg) (s : State) (hs : s.memWf = true) :
    RCanon (execNackRsp port msg s) := by
  unfold execNackRsp
  with_reducible repeat' (first
    | assumption | apply State.response_wf | apply State.issuerFail_wf | apply ECanon.done | apply ECanon.jump
    | apply ECanon.wait | apply ECanon.busy | apply ECanon.raise | exact ECanon.stop | apply RCanon.next
    | apply RCanon.refused | apply RCanon.fault | split | intro _ _ _ | intro _ _ | intro _ | simp only | dsimp only
    | dsimp only [id] | refine RCanon.elim (by assumption) ?_)

theorem execPutRedReq_wf (port : Fin 32) (msg : GMsg) (s : State) (hs : s.memWf = true) :
    RCanon (execPutRedReq port msg s) := by
  unfold execPutRedReq
  with_reducible repeat' (first
    | assumption | apply State.ingress_wf | apply State.atomLine_wf | apply State.reply_wf | apply ECanon.done
    | apply ECanon.jump | apply ECanon.wait | apply ECanon.busy | apply ECanon.raise | exact ECanon.stop | apply RCanon.next
    | apply RCanon.refused | apply RCanon.fault | apply fold_wf1 | apply fold_wf2 | apply fold_wf | split | intro _ _ _
    | intro _ _ | intro _ | simp only | dsimp only | dsimp only [id] | refine Canon.fst (by assumption) ?_
    | refine RCanon.elim (by assumption) ?_)

theorem execPutReq_wf (port : Fin 32) (msg : GMsg) (s : State) (hs : s.memWf = true) :
    RCanon (execPutReq port msg s) := by
  unfold execPutReq
  with_reducible repeat' (first
    | assumption | apply State.ingress_wf | apply State.reply_wf | apply State.writeBytes_wf | apply ECanon.done
    | apply ECanon.jump | apply ECanon.wait | apply ECanon.busy | apply ECanon.raise | exact ECanon.stop | apply RCanon.next
    | apply RCanon.refused | apply RCanon.fault | split | intro _ _ _ | intro _ _ | intro _ | simp only | dsimp only
    | dsimp only [id] | refine Canon.fst (by assumption) ?_ | refine RCanon.elim (by assumption) ?_)

theorem execRdReq_wf (port : Fin 32) (msg : GMsg) (s : State) (hs : s.memWf = true) :
    RCanon (execRdReq port msg s) := by
  unfold execRdReq
  with_reducible repeat' (first
    | assumption | apply State.ingress_wf | apply State.ingressRead_wf | apply ECanon.done | apply ECanon.jump
    | apply ECanon.wait | apply ECanon.busy | apply ECanon.raise | exact ECanon.stop | apply RCanon.next
    | apply RCanon.refused | apply RCanon.fault | split | intro _ _ _ | intro _ _ | intro _ | simp only | dsimp only
    | dsimp only [id] | refine RCanon.elim (by assumption) ?_)

theorem execRemoteTimeout_wf (edge : Fin 4) (index : Fin 8192) (s : State) (hs : s.memWf = true) :
    RCanon (execRemoteTimeout edge index s) := by
  unfold execRemoteTimeout
  with_reducible repeat' (first
    | assumption | apply stop_wf | apply State.portEvent_wf | apply State.pkgCount_wf | apply State.issuerFail_wf
    | apply State.egressFreeEntry_wf | apply State.reachLocal_wf | apply State.egressNext_wf | apply RCanon.next
    | apply RCanon.refused | apply RCanon.fault | apply fold_wf1 | apply fold_wf2 | apply fold_wf | split | intro _ _ _
    | intro _ _ | intro _ | simp only | dsimp only | simp only [memWf_mk, cmpWf_mk, memOk_cmp, cmpWf]
    | refine Canon.fst (by assumption) ?_)

theorem execReportMsg_wf (port : Fin 32) (_src : Fin 16384) (_number : W32) (_report : List Byte) (s : State) (hs : s.memWf = true) :
    RCanon (execReportMsg port _src _number _report s) := by
  unfold execReportMsg
  with_reducible repeat' (first
    | assumption | apply State.mgmt_wf | apply ECanon.done | apply ECanon.jump | apply ECanon.wait | apply ECanon.busy
    | apply ECanon.raise | exact ECanon.stop | apply RCanon.next | apply RCanon.refused | apply RCanon.fault | split
    | intro _ _ _ | intro _ _ | intro _ | simp only | dsimp only | dsimp only [id] | refine RCanon.elim (by assumption) ?_)

theorem execReportReq_wf (port : Fin 32) (src : Fin 16384) (number : W32) (nonce : BitVec 256) (s : State) (hs : s.memWf = true) :
    RCanon (execReportReq port src number nonce s) := by
  unfold execReportReq
  with_reducible repeat' (first
    | assumption | apply State.mgmt_wf | apply State.emit_wf | apply ECanon.done | apply ECanon.jump | apply ECanon.wait
    | apply ECanon.busy | apply ECanon.raise | exact ECanon.stop | apply RCanon.next | apply RCanon.refused
    | apply RCanon.fault | split | intro _ _ _ | intro _ _ | intro _ | simp only | dsimp only | dsimp only [id]
    | refine RCanon.elim (by assumption) ?_)

theorem execRetrain_wf (who : Requester) (port : Fin 32) (word : W32) (s : State) (hs : s.memWf = true) :
    RCanon (execRetrain who port word s) := by
  unfold execRetrain
  with_reducible repeat' (first
    | assumption | apply State.regAction_wf | apply State.portCtl_wf | apply ECanon.done | apply ECanon.jump
    | apply ECanon.wait | apply ECanon.busy | apply ECanon.raise | exact ECanon.stop | apply RCanon.next
    | apply RCanon.refused | apply RCanon.fault | split | intro _ _ _ | intro _ _ | intro _ | simp only | dsimp only
    | dsimp only [id] | refine RCanon.elim (by assumption) ?_)

theorem execRtSync_wf (who : Requester) (word : W32) (s : State) (hs : s.memWf = true) :
    RCanon (execRtSync who word s) := by
  unfold execRtSync
  with_reducible repeat' (first
    | assumption | apply State.regAction_wf | apply State.fset_wf | apply ECanon.done | apply ECanon.jump | apply ECanon.wait
    | apply ECanon.busy | apply ECanon.raise | exact ECanon.stop | apply RCanon.next | apply RCanon.refused
    | apply RCanon.fault | split | intro _ _ _ | intro _ _ | intro _ | simp only | dsimp only | dsimp only [id]
    | refine RCanon.elim (by assumption) ?_)

theorem execRtSyncDone_wf (s : State) (hs : s.memWf = true) :
    RCanon (execRtSyncDone s) := by
  unfold execRtSyncDone
  with_reducible repeat' (first
    | assumption | apply need_wf | apply State.egressNext_wf | apply State.fset_wf | apply RCanon.next | apply RCanon.refused
    | apply RCanon.fault | split | simp only | dsimp only | simp only [memWf_mk, cmpWf_mk, memOk_cmp, cmpWf])

theorem execWrReq_wf (port : Fin 32) (msg : GMsg) (s : State) (hs : s.memWf = true) :
    RCanon (execWrReq port msg s) := by
  unfold execWrReq
  with_reducible repeat' (first
    | assumption | apply State.ingress_wf | apply State.reply_wf | apply State.putLine_wf | apply ECanon.done
    | apply ECanon.jump | apply ECanon.wait | apply ECanon.busy | apply ECanon.raise | exact ECanon.stop | apply RCanon.next
    | apply RCanon.refused | apply RCanon.fault | split | intro _ _ _ | intro _ _ | intro _ | simp only | dsimp only
    | dsimp only [id] | refine Canon.fst (by assumption) ?_ | refine RCanon.elim (by assumption) ?_)

/-! ### HostPort -/

theorem State.aerLog_wf (s : State) (f b : Nat) (hs : s.memWf = true) :
    (State.aerLog s f b).memWf = true := by
  unfold State.aerLog
  with_reducible repeat' (first
    | assumption | apply State.event_wf | apply State.setFunc_wf | split | simp only | dsimp only)

theorem State.barGet_wf (s : State) (places : List (Nat × Nat)) (hs : s.memWf = true) :
    (State.barGet s places).1.memWf = true := by
  unfold State.barGet
  with_reducible repeat' (first
    | assumption | apply State.readBytes_wf | apply fold_wf1 | apply fold_wf2 | apply fold_wf | split | intro _ _ _
    | intro _ _ | intro _ | simp only | dsimp only | refine Canon.fst (by assumption) ?_)

theorem State.barPut_wf (s : State) (places : List (Nat × Nat)) (data : List Byte) (ep : Bool) (hs : s.memWf = true) :
    (State.barPut s places data ep).1.memWf = true := by
  unfold State.barPut
  with_reducible repeat' (first
    | assumption | apply State.putLine_wf | apply State.writeBytes_wf | apply fold_wf1 | apply fold_wf2 | apply fold_wf
    | split | intro _ _ _ | intro _ _ | intro _ | simp only | dsimp only | refine Canon.fst (by assumption) ?_)

theorem State.barRefused_wf (s : State) (f : Nat) (acc : BarAcc) (event : Bool) (hs : s.memWf = true) :
    (State.barRefused s f acc event).memWf = true := by
  unfold State.barRefused
  with_reducible repeat' (first
    | assumption | apply State.aerLog_wf | apply State.event_wf | apply State.emit_wf | split | simp only | dsimp only)

theorem State.barAccess_wf (s : State) (f : Nat) (places : List (Nat × Nat)) (acc : BarAcc) (hs : s.memWf = true) :
    (State.barAccess s f places acc).memWf = true := by
  unfold State.barAccess
  with_reducible repeat' (first
    | assumption | apply State.barGet_wf | apply State.barRefused_wf | apply State.emit_wf | apply State.take_wf
    | apply State.barPut_wf | apply State.aerLog_wf | split | simp only | dsimp only | refine Canon.fst (by assumption) ?_
    | refine Canon.snd (by assumption) ?_)

theorem State.msixReleaseAll_wf (s : State) (f : Nat) (hs : s.memWf = true) :
    (State.msixReleaseAll s f).memWf = true := by
  unfold State.msixReleaseAll
  with_reducible repeat' (first
    | assumption | apply State.msixRelease_wf | apply fold_wf1 | apply fold_wf2 | apply fold_wf | split | intro _ _ _
    | intro _ _ | intro _ | simp only | dsimp only | refine Canon.fst (by assumption) ?_)

theorem State.pairClear_wf (s : State) (q : Nat) (hs : s.memWf = true) :
    (State.pairClear s q).memWf = true := by
  unfold State.pairClear
  with_reducible repeat' (first
    | assumption | apply State.updQp_wf | apply State.setReg_wf | apply State.fset_wf | apply State.setShadow_wf | split
    | simp only | dsimp only | simp only [memWf_mk, cmpWf_mk, memOk_cmp, cmpWf])

theorem State.funcDone_wf (s : State) (f : Nat) (hs : s.memWf = true) :
    (State.funcDone s f).memWf = true := by
  unfold State.funcDone
  with_reducible repeat' (first
    | assumption | apply State.setFunc_wf | apply State.pairClear_wf | apply fold_wf1 | apply fold_wf2 | apply fold_wf | split
    | intro _ _ _ | intro _ _ | intro _ | simp only | dsimp only | refine Canon.fst (by assumption) ?_)

theorem State.pairAbandon_wf (s : State) (q : Nat) (hs : s.memWf = true) :
    (State.pairAbandon s q).memWf = true := by
  unfold State.pairAbandon
  with_reducible repeat' (first
    | assumption | apply State.qpPost_wf | apply State.heldDone_wf | apply State.pairForget_wf | apply State.updQp_wf
    | apply fold_wf1 | apply fold_wf2 | apply fold_wf | split | intro _ _ _ | intro _ _ | intro _ | simp only | dsimp only
    | refine Canon.fst (by assumption) ?_)

theorem State.funcReset_wf (s : State) (f : Nat) (hs : s.memWf = true) :
    (State.funcReset s f).memWf = true := by
  unfold State.funcReset
  with_reducible repeat' (first
    | assumption | apply State.ctxEnd_wf | apply State.pairAbandon_wf | apply State.setFunc_wf | apply fold_wf1
    | apply fold_wf2 | apply fold_wf | split | intro _ _ _ | intro _ _ | intro _ | simp only | dsimp only
    | simp only [memWf_mk, cmpWf_mk, memOk_cmp, cmpWf] | refine Canon.fst (by assumption) ?_)

theorem State.dropVfs_wf (s : State) (hs : s.memWf = true) :
    (State.dropVfs s).memWf = true := by
  unfold State.dropVfs
  with_reducible repeat' (first
    | assumption | apply State.funcDone_wf | apply State.funcReset_wf | apply fold_wf1 | apply fold_wf2 | apply fold_wf
    | split | intro _ _ _ | intro _ _ | intro _ | simp only | dsimp only | simp only [memWf_mk, cmpWf_mk, memOk_cmp, cmpWf]
    | refine Canon.fst (by assumption) ?_)

theorem State.setVfs_wf (s : State) (enable : Bool) (num : Nat) (hs : s.memWf = true) :
    (State.setVfs s enable num).memWf = true := by
  unfold State.setVfs
  with_reducible repeat' (first
    | assumption | apply State.dropVfs_wf | apply State.event_wf | split | simp only | dsimp only
    | simp only [memWf_mk, cmpWf_mk, memOk_cmp, cmpWf])

theorem State.configWrite_wf (s : State) (f : Nat) (r : CfgReg) (w : Nat) (hs : s.memWf = true) :
    (State.configWrite s f r w).memWf = true := by
  unfold State.configWrite
  with_reducible repeat' (first
    | assumption | apply State.setFunc_wf | apply State.setVfs_wf | apply State.msixReleaseAll_wf | split | simp only
    | dsimp only | simp only [memWf_mk, cmpWf_mk, memOk_cmp, cmpWf])

theorem State.hostReadEnd_wf (s : State) (w : HostWant) (data : Option (List Byte)) (hs : s.memWf = true) :
    (State.hostReadEnd s w data).memWf = true := by
  unfold State.hostReadEnd
  with_reducible repeat' (first
    | assumption | apply State.updQp_wf | apply State.qpError_wf | apply State.pairGot_wf | apply State.pump_wf
    | apply State.finishLoad_wf | apply State.chunkData_wf | split | simp only | dsimp only)

theorem State.hostReadTake_wf (s : State) (tag : Nat) (hs : s.memWf = true) :
    OCanon Prod.snd (State.hostReadTake s tag) := by
  unfold State.hostReadTake
  with_reducible repeat' (first
    | assumption | exact OCanon.none | apply OCanon.someId | apply OCanon.some | apply OCanon.mapId | apply OCanon.mapFst
    | apply OCanon.map | split | intro _ _ _ | intro _ _ | intro _ | simp only | dsimp only | dsimp only [id]
    | simp only [memWf_mk, cmpWf_mk, memOk_cmp, cmpWf] | refine OCanon.snd (by assumption) ?_)

theorem State.windowWalk_wf (s : State) (v offset : Nat) (hs : s.memWf = true) :
    (State.windowWalk s v offset).memWf = true := by
  unfold State.windowWalk
  with_reducible repeat' (first
    | assumption | apply State.agentWalk_wf | split | simp only | dsimp only)

theorem execCompletionTimeout_wf (tag : Nat) (s : State) (hs : s.memWf = true) :
    RCanon (execCompletionTimeout tag s) := by
  unfold execCompletionTimeout
  with_reducible repeat' (first
    | assumption | apply State.hostReadTake_wf | apply stop_wf | apply State.aerLog_wf | apply State.hostReadEnd_wf
    | apply RCanon.next | apply RCanon.refused | apply RCanon.fault | exact OCanon.none | apply OCanon.someId
    | apply OCanon.some | split | simp only | dsimp only | refine OCanon.snd (by assumption) ?_)

theorem execConfigRequest_wf (func : Fin 256) (reg : CfgReg) (write : Option W32) (s : State) (hs : s.memWf = true) :
    RCanon (execConfigRequest func reg write s) := by
  unfold execConfigRequest
  with_reducible repeat' (first
    | assumption | apply State.emit_wf | apply State.configWrite_wf | apply RCanon.next | apply RCanon.refused
    | apply RCanon.fault | split | simp only | dsimp only)

theorem execFlrComplete_wf (func : Fin 256) (s : State) (hs : s.memWf = true) :
    RCanon (execFlrComplete func s) := by
  unfold execFlrComplete
  with_reducible repeat' (first
    | assumption | apply need_wf | apply State.emit_wf | apply State.event_wf | apply State.funcDone_wf | apply RCanon.next
    | apply RCanon.refused | apply RCanon.fault | split | simp only | dsimp only)

theorem execFunctionLevelReset_wf (func : Fin 256) (s : State) (hs : s.memWf = true) :
    RCanon (execFunctionLevelReset func s) := by
  unfold execFunctionLevelReset
  with_reducible repeat' (first
    | assumption | apply need_wf | apply State.funcReset_wf | apply State.event_wf | apply State.dropVfs_wf
    | apply RCanon.next | apply RCanon.refused | apply RCanon.fault | split | simp only | dsimp only)

theorem execHostReadCompletion_wf (tag : Nat) (status : HostStatus) (data : List Byte) (s : State) (hs : s.memWf = true) :
    RCanon (execHostReadCompletion tag status data s) := by
  unfold execHostReadCompletion
  with_reducible repeat' (first
    | assumption | apply State.hostReadTake_wf | apply stop_wf | apply State.hostReadEnd_wf | apply State.aerLog_wf
    | apply RCanon.next | apply RCanon.refused | apply RCanon.fault | exact OCanon.none | apply OCanon.someId
    | apply OCanon.some | split | simp only | dsimp only | refine OCanon.snd (by assumption) ?_)

theorem execLinkStateChange_wf (up : Bool) (rate : Fin 8) (width : Fin 4) (s : State) (hs : s.memWf = true) :
    RCanon (execLinkStateChange up rate width s) := by
  unfold execLinkStateChange
  with_reducible repeat' (first
    | assumption | apply need_wf | apply State.event_wf | apply RCanon.next | apply RCanon.refused | apply RCanon.fault
    | split | simp only | dsimp only | simp only [memWf_mk, cmpWf_mk, memOk_cmp, cmpWf])

theorem execPfBar4Access_wf (offset : Nat) (acc : BarAcc) (s : State) (hs : s.memWf = true) :
    RCanon (execPfBar4Access offset acc s) := by
  unfold execPfBar4Access
  with_reducible repeat' (first
    | assumption | apply State.barRefused_wf | apply State.barAccess_wf | apply RCanon.next | apply RCanon.refused
    | apply RCanon.fault | split | simp only | dsimp only)

theorem execPowerStateChange_wf (func : Fin 256) (d3 : Bool) (s : State) (hs : s.memWf = true) :
    RCanon (execPowerStateChange func d3 s) := by
  unfold execPowerStateChange
  with_reducible repeat' (first
    | assumption | apply need_wf | apply State.setFunc_wf | apply RCanon.next | apply RCanon.refused | apply RCanon.fault
    | split | simp only | dsimp only)

theorem execVfBar4Access_wf (vf : Fin 256) (offset : Nat) (acc : BarAcc) (s0 : State) (hs0 : s0.memWf = true) :
    RCanon (execVfBar4Access vf offset acc s0) := by
  unfold execVfBar4Access
  with_reducible repeat' (first
    | assumption | apply State.windowWalk_wf | apply State.barRefused_wf | apply State.barAccess_wf | apply RCanon.next
    | apply RCanon.refused | apply RCanon.fault | exact OCanon.none | apply OCanon.someId | apply OCanon.some
    | apply OCanon.mapId | apply OCanon.mapFst | apply OCanon.map | apply fold_wf1 | apply fold_wf2 | apply fold_wf | split
    | intro _ _ _ | intro _ _ | intro _ | simp only | dsimp only | dsimp only [id] | refine OCanon.snd (by assumption) ?_
    | refine Canon.fst (by assumption) ?_)

theorem execVfEnableChange_wf (enable : Bool) (num : Fin 256) (s : State) (hs : s.memWf = true) :
    RCanon (execVfEnableChange enable num s) := by
  unfold execVfEnableChange
  with_reducible repeat' (first
    | assumption | apply need_wf | apply State.setVfs_wf | apply RCanon.next | apply RCanon.refused | apply RCanon.fault
    | split | simp only | dsimp only)

end Sys2Proof.Machine
end

