-- ==== Sys2Proof/Laws/CanonControl.lean ====
section
/-! SUPPORT. Memory stays canonical under resets, service, firmware, power, commits, debug, fault rings, slots and register accesses. -/

set_option linter.unusedSimpArgs false
set_option linter.unusedVariables false

namespace Sys2Proof.Machine

/-! ### Reset -/

theorem State.memLost_wf (s : State) (hs : s.memWf = true) :
    (State.memLost s).memWf = true := by
  exact State.memWf_memLost _

theorem State.showStop_wf (s : State) (hs : s.memWf = true) :
    (State.showStop s).memWf = true := by
  unfold State.showStop
  with_reducible repeat' (first
    | assumption | apply State.fset_wf | split | simp only | dsimp only)

theorem State.coldState_wf (s : State) (code : Nat) (hs : s.memWf = true) :
    (State.coldState s code).memWf = true := by
  unfold State.coldState
  with_reducible repeat' (first
    | assumption | apply State.reset_wf | apply State.showStop_wf | apply State.fset_wf | apply State.memLost_wf | split
    | simp only | dsimp only | simp only [memWf_mk, cmpWf_mk, memOk_cmp, cmpWf])

theorem State.finishAccepted_wf (s : State) (hs : s.memWf = true) :
    (State.finishAccepted s).memWf = true := by
  unfold State.finishAccepted
  with_reducible repeat' (first
    | assumption | apply State.finishTxn_wf | apply fold_wf1 | apply fold_wf2 | apply fold_wf | split | intro _ _ _
    | intro _ _ | intro _ | simp only | dsimp only | refine Canon.fst (by assumption) ?_)

theorem State.powerLoss_wf (s : State) (cause unit : Nat) (latch : Bool) (hs : s.memWf = true) :
    (State.powerLoss s cause unit latch).memWf = true := by
  unfold State.powerLoss
  with_reducible repeat' (first
    | assumption | apply State.coldState_wf | split | simp only | dsimp only
    | simp only [memWf_mk, cmpWf_mk, memOk_cmp, cmpWf])

theorem State.warmCore_wf (s : State) (cmd : Bool) (hs : s.memWf = true) :
    (State.warmCore s cmd).memWf = true := by
  unfold State.warmCore
  dsimp only
  apply State.fset_wf
  simp only [memWf_mk]
  have h : ∀ c : Compute, c.warm.memWf = c.memWf := fun _ => by exact Eq.trans rfl rfl
  rw [h, cmpWf]
  with_reducible apply State.resetRegs_wf
  with_reducible apply State.finishAccepted_wf
  exact hs

theorem State.warmStart_wf (s : State) (code : Nat) (hs : s.memWf = true) :
    (State.warmStart s code).memWf = true := by
  unfold State.warmStart
  with_reducible repeat' (first
    | assumption | apply State.fset_wf | apply State.warmCore_wf | apply State.readiness_wf | split | simp only | dsimp only
    | simp only [memWf_mk, cmpWf_mk, memOk_cmp, cmpWf])

/-! ### EdgeLoss -/

theorem State.boundVoidAll_wf (s : State) (hs : s.memWf = true) :
    (State.boundVoidAll s).memWf = true := by
  unfold State.boundVoidAll
  with_reducible repeat' (first
    | assumption | apply State.boundVoid_wf | apply fold_wf1 | apply fold_wf2 | apply fold_wf | split | intro _ _ _
    | intro _ _ | intro _ | simp only | dsimp only | refine Canon.fst (by assumption) ?_)

theorem State.dieRetired_wf (s : State) (die cause : Nat) (hs : s.memWf = true) :
    (State.dieRetired s die cause).memWf = true := by
  unfold State.dieRetired
  with_reducible repeat' (first
    | assumption | apply State.fset_wf | split | simp only | dsimp only)

theorem State.portsFail_wf (s : State) (edge : Nat) (hs : s.memWf = true) :
    (State.portsFail s edge).memWf = true := by
  unfold State.portsFail
  with_reducible repeat' (first
    | assumption | apply State.setPortState_wf | apply fold_wf1 | apply fold_wf2 | apply fold_wf | split | intro _ _ _
    | intro _ _ | intro _ | simp only | dsimp only | refine Canon.fst (by assumption) ?_)

theorem State.powerDown_wf (s : State) (hs : s.memWf = true) :
    (State.powerDown s).memWf = true := by
  unfold State.powerDown
  with_reducible repeat' (first
    | assumption | apply State.fset_wf | split | simp only | dsimp only | simp only [memWf_mk, cmpWf_mk, memOk_cmp, cmpWf])

theorem State.sendHealth_wf (s : State) (reason : Nat) (hs : s.memWf = true) :
    (State.sendHealth s reason).memWf = true := by
  unfold State.sendHealth
  with_reducible repeat' (first
    | assumption | apply State.emit_wf | apply fold_wf1 | apply fold_wf2 | apply fold_wf | split | intro _ _ _ | intro _ _
    | intro _ | simp only | dsimp only | simp only [memWf_mk, cmpWf_mk, memOk_cmp, cmpWf]
    | refine Canon.fst (by assumption) ?_)

theorem State.takeOver_wf (s : State) (hs : s.memWf = true) :
    (State.takeOver s).memWf = true := by
  unfold State.takeOver
  with_reducible repeat' (first
    | assumption | apply State.fsat_wf | apply State.fset_wf | apply State.mbxReset_wf | apply State.boundVoidAll_wf
    | apply State.logEvent_wf | apply State.event_wf | split | simp only | dsimp only
    | simp only [memWf_mk, cmpWf_mk, memOk_cmp, cmpWf])

theorem State.edge0Lost_wf (s : State) (hs : s.memWf = true) :
    (State.edge0Lost s).memWf = true := by
  unfold State.edge0Lost
  with_reducible repeat' (first
    | assumption | apply State.portsFail_wf | apply State.dieRetired_wf | apply State.takeOver_wf | apply State.fset_wf
    | apply State.sendHealth_wf | apply State.logEvent_wf | apply State.ctxEnd_wf | apply State.powerDown_wf | apply fold_wf1
    | apply fold_wf2 | apply fold_wf | split | intro _ _ _ | intro _ _ | intro _ | simp only | dsimp only
    | simp only [memWf_mk, cmpWf_mk, memOk_cmp, cmpWf] | refine Canon.fst (by assumption) ?_)

theorem State.edgeLost_wf (s : State) (edge cause : Nat) (hs : s.memWf = true) :
    (State.edgeLost s edge cause).memWf = true := by
  unfold State.edgeLost
  with_reducible repeat' (first
    | assumption | apply State.portsFail_wf | apply State.dieRetired_wf | apply State.fset_wf | split | simp only | dsimp only
    | simp only [memWf_mk, cmpWf_mk, memOk_cmp, cmpWf])

/-! ### Service -/

theorem State.fusedSlot_wf (s : State) (key col : Nat) (hs : s.memWf = true) :
    (State.fusedSlot s key col).memWf = true := by
  unfold State.fusedSlot
  with_reducible repeat' (first
    | assumption | apply State.setReg_wf | split | simp only | dsimp only)

theorem State.replaceCore_wf (s : State) (core pool : Nat) (hs : s.memWf = true) :
    (State.replaceCore s core pool).memWf = true := by
  unfold State.replaceCore
  with_reducible repeat' (first
    | assumption | apply State.setPool_wf | apply State.fset_wf | split | simp only | dsimp only
    | simp only [memWf_mk, cmpWf_mk, memOk_cmp, cmpWf])

theorem State.applyFuses_wf (s : State) (hs : s.memWf = true) :
    (State.applyFuses s).memWf = true := by
  unfold State.applyFuses
  with_reducible repeat' (first
    | assumption | apply State.retireClusters_wf | apply State.setPool_wf | apply State.replaceCore_wf
    | apply State.fusedSlot_wf | apply fold_wf1 | apply fold_wf2 | apply fold_wf | split | intro _ _ _ | intro _ _ | intro _
    | simp only | dsimp only | refine Canon.fst (by assumption) ?_)

theorem State.deriveKeys_wf (s : State) (hs : s.memWf = true) :
    (State.deriveKeys s).memWf = true := by
  unfold State.deriveKeys
  with_reducible repeat' (first
    | assumption | split | simp only | dsimp only | simp only [memWf_mk, cmpWf_mk, memOk_cmp, cmpWf])

theorem State.enablePorts_wf (s : State) (hs : s.memWf = true) :
    (State.enablePorts s).memWf = true := by
  unfold State.enablePorts
  with_reducible repeat' (first
    | assumption | apply State.fset_wf | apply State.grigaDone_wf | apply State.portEnable_wf | apply fold_wf1
    | apply fold_wf2 | apply fold_wf | split | intro _ _ _ | intro _ _ | intro _ | simp only | dsimp only
    | refine Canon.fst (by assumption) ?_)

theorem State.failed_wf (s : State) (code : Nat) (hs : s.memWf = true) :
    (State.failed s code).memWf = true := by
  unfold State.failed
  with_reducible repeat' (first
    | assumption | apply State.readiness_wf | apply State.fset_wf | split | simp only | dsimp only)

theorem State.landsBack_wf (s : State) (hs : s.memWf = true) :
    (State.landsBack s).memWf = true := by
  unfold State.landsBack
  with_reducible repeat' (first
    | assumption | split | simp only | dsimp only | simp only [memWf_mk, cmpWf_mk, memOk_cmp, cmpWf])

theorem State.outerTrained_wf (s : State) (ports : List (Fin 16 × Fin 3)) (hs : s.memWf = true) :
    (State.outerTrained s ports).memWf = true := by
  unfold State.outerTrained
  with_reducible repeat' (first
    | assumption | apply State.fset_wf | exact OCanon.none | apply OCanon.someId | apply OCanon.some | apply OCanon.mapId
    | apply OCanon.mapFst | apply OCanon.map | apply fold_wf1 | apply fold_wf2 | apply fold_wf | split | intro _ _ _
    | intro _ _ | intro _ | simp only | dsimp only | dsimp only [id] | refine OCanon.snd (by assumption) ?_
    | refine Canon.fst (by assumption) ?_)

theorem State.readSecret_wf (s : State) (hs : s.memWf = true) :
    (State.readSecret s).memWf = true := by
  unfold State.readSecret
  with_reducible repeat' (first
    | assumption | split | simp only | dsimp only | simp only [memWf_mk, cmpWf_mk, memOk_cmp, cmpWf])

theorem State.resetRefuse_wf (s : State) (hs : s.memWf = true) :
    (State.resetRefuse s).memWf = true := by
  unfold State.resetRefuse
  with_reducible repeat' (first
    | assumption | apply State.fset_wf | split | simp only | dsimp only)

theorem State.resumeStandby_wf (s : State) (hs : s.memWf = true) :
    (State.resumeStandby s).memWf = true := by
  unfold State.resumeStandby
  with_reducible repeat' (first
    | assumption | apply State.fset_wf | split | simp only | dsimp only | simp only [memWf_mk, cmpWf_mk, memOk_cmp, cmpWf])

theorem State.standby_wf (s : State) (hs : s.memWf = true) :
    (State.standby s).memWf = true := by
  unfold State.standby
  with_reducible repeat' (first
    | assumption | apply State.powerDown_wf | apply State.resetRefuse_wf | split | simp only | dsimp only)

theorem State.resetAct_wf (t : State) (op : Nat) (ht : t.memWf = true) :
    (State.resetAct t op).memWf = true := by
  unfold State.resetAct
  with_reducible repeat' (first
    | assumption | apply State.warmStart_wf | apply State.resetRefuse_wf | apply State.coldState_wf | apply State.standby_wf
    | apply State.resumeStandby_wf | split | simp only | dsimp only)

theorem State.resetCommand_wf (s : State) (who : Requester) (word : Nat) (hs : s.memWf = true) :
    RCanon (State.resetCommand s who word) := by
  unfold State.resetCommand
  with_reducible repeat' (first
    | assumption | apply State.regAction_wf | apply State.resetAct_wf | apply ECanon.done | apply ECanon.jump
    | apply ECanon.wait | apply ECanon.busy | apply ECanon.raise | exact ECanon.stop | apply RCanon.next
    | apply RCanon.refused | apply RCanon.fault | split | intro _ _ _ | intro _ _ | intro _ | simp only | dsimp only
    | dsimp only [id] | refine RCanon.elim (by assumption) ?_)

theorem State.runImage_wf (s : State) (hs : s.memWf = true) :
    (State.runImage s).memWf = true := by
  unfold State.runImage
  with_reducible repeat' (first
    | assumption | apply State.fset_wf | split | simp only | dsimp only)

theorem State.showFuses_wf (s : State) (hs : s.memWf = true) :
    (State.showFuses s).memWf = true := by
  unfold State.showFuses
  with_reducible repeat' (first
    | assumption | apply State.fset_wf | split | simp only | dsimp only)

theorem State.stewardsAgain_wf (s : State) (hs : s.memWf = true) :
    (State.stewardsAgain s).memWf = true := by
  unfold State.stewardsAgain
  with_reducible repeat' (first
    | assumption | apply State.setUpdate_wf | apply State.event_wf | apply State.deriveKeys_wf | split | simp only
    | dsimp only)

theorem State.tryReady_wf (s : State) (hs : s.memWf = true) :
    (State.tryReady s).memWf = true := by
  unfold State.tryReady
  with_reducible repeat' (first
    | assumption | apply State.fset_wf | apply State.readiness_wf | split | simp only | dsimp only)

theorem State.stewardsUp_wf (s : State) (hs : s.memWf = true) :
    (State.stewardsUp s).memWf = true := by
  unfold State.stewardsUp
  with_reducible repeat' (first
    | assumption | apply State.emit_wf | apply State.readiness_wf | apply State.applyFuses_wf | apply State.tryReady_wf
    | apply State.enablePorts_wf | split | simp only | dsimp only | simp only [memWf_mk, cmpWf_mk, memOk_cmp, cmpWf])

theorem State.testFailed_wf (s : State) (die : Nat) (hs : s.memWf = true) :
    (State.testFailed s die).memWf = true := by
  unfold State.testFailed
  with_reducible repeat' (first
    | assumption | apply State.retireComputeDie_wf | apply State.homeLost_wf | apply State.dieRetired_wf
    | apply State.edgeLost_wf | split | simp only | dsimp only | simp only [memWf_mk, cmpWf_mk, memOk_cmp, cmpWf])

theorem State.trainedOut_wf (s : State) (h : Nat) (hs : s.memWf = true) :
    (State.trainedOut s h).memWf = true := by
  unfold State.trainedOut
  with_reducible repeat' (first
    | assumption | apply State.logEvent_wf | apply State.event_wf | apply State.degrade_wf | split | simp only | dsimp only)

theorem execColdReset_wf (who : Requester) (word : W32) (s : State) (hs : s.memWf = true) :
    RCanon (execColdReset who word s) := by
  unfold execColdReset
  with_reducible repeat' (first
    | assumption | apply State.resetCommand_wf | apply RCanon.next | apply RCanon.refused | apply RCanon.fault | split
    | simp only | dsimp only | refine RCanon.elim (by assumption) ?_)

theorem execFuseLoadComplete_wf (intact : Bool) (s : State) (hs : s.memWf = true) :
    RCanon (execFuseLoadComplete intact s) := by
  unfold execFuseLoadComplete
  with_reducible repeat' (first
    | assumption | apply need_wf | apply State.readSecret_wf | apply State.showFuses_wf | apply State.failed_wf
    | apply RCanon.next | apply RCanon.refused | apply RCanon.fault | split | simp only | dsimp only
    | simp only [memWf_mk, cmpWf_mk, memOk_cmp, cmpWf])

theorem execHotReset_wf (s : State) (hs : s.memWf = true) :
    RCanon (execHotReset s) := by
  unfold execHotReset
  with_reducible repeat' (first
    | assumption | apply State.warmStart_wf | apply RCanon.next | apply RCanon.refused | apply RCanon.fault | split
    | simp only | dsimp only | simp only [memWf_mk, cmpWf_mk, memOk_cmp, cmpWf])

theorem execImageVerifyComplete_wf (s : State) (hs : s.memWf = true) :
    RCanon (execImageVerifyComplete s) := by
  unfold execImageVerifyComplete
  with_reducible repeat' (first
    | assumption | apply State.fset_wf | apply State.deriveKeys_wf | apply State.runImage_wf | apply State.readiness_wf
    | apply State.logEvent_wf | apply State.dieRetired_wf | apply need_wf | apply RCanon.next | apply RCanon.refused
    | apply RCanon.fault | apply fold_wf1 | apply fold_wf2 | apply fold_wf | split | intro _ _ _ | intro _ _ | intro _
    | simp only | dsimp only | simp only [memWf_mk, cmpWf_mk, memOk_cmp, cmpWf] | refine Canon.fst (by assumption) ?_)

theorem execInputBelow40v_wf (s : State) (hs : s.memWf = true) :
    RCanon (execInputBelow40v s) := by
  unfold execInputBelow40v
  with_reducible repeat' (first
    | assumption | apply need_wf | apply RCanon.next | apply RCanon.refused | apply RCanon.fault | split | simp only
    | dsimp only | simp only [memWf_mk, cmpWf_mk, memOk_cmp, cmpWf])

theorem execInputStop_wf (cause : StopCause) (s : State) (hs : s.memWf = true) :
    RCanon (execInputStop cause s) := by
  unfold execInputStop
  with_reducible repeat' (first
    | assumption | apply need_wf | apply State.powerLoss_wf | apply RCanon.next | apply RCanon.refused | apply RCanon.fault
    | split | simp only | dsimp only)

theorem execManagedPowerDownComplete_wf (s : State) (hs : s.memWf = true) :
    RCanon (execManagedPowerDownComplete s) := by
  unfold execManagedPowerDownComplete
  with_reducible repeat' (first
    | assumption | apply State.flushLines_wf | apply stop_wf | apply need_wf | apply State.readiness_wf | apply State.fset_wf
    | apply RCanon.next | apply RCanon.refused | apply RCanon.fault | exact OCanon.none | apply OCanon.someId
    | apply OCanon.some | split | simp only | dsimp only | dsimp only [id] | simp only [memWf_mk, cmpWf_mk, memOk_cmp, cmpWf]
    | refine OCanon.id_ (by assumption) ?_)

theorem execMemoryTrainingComplete_wf (failedPcs : List (Fin 1024)) (ports : List (Fin 16 × Fin 3)) (s : State) (hs : s.memWf = true) :
    RCanon (execMemoryTrainingComplete failedPcs ports s) := by
  unfold execMemoryTrainingComplete
  with_reducible repeat' (first
    | assumption | apply State.setPcState_wf | apply State.showCapacity_wf | apply State.outerTrained_wf
    | apply State.trainedOut_wf | apply need_wf | apply State.failed_wf | apply State.tryReady_wf | apply State.readiness_wf
    | apply State.capacityChanged_wf | apply RCanon.next | apply RCanon.refused | apply RCanon.fault | apply fold_wf1
    | apply fold_wf2 | apply fold_wf | split | intro _ _ _ | intro _ _ | intro _ | simp only | dsimp only
    | refine Canon.fst (by assumption) ?_)

theorem execPerstAssert_wf (s : State) (hs : s.memWf = true) :
    RCanon (execPerstAssert s) := by
  unfold execPerstAssert
  with_reducible repeat' (first
    | assumption | apply need_wf | apply State.coldState_wf | apply RCanon.next | apply RCanon.refused | apply RCanon.fault
    | split | simp only | dsimp only | simp only [memWf_mk, cmpWf_mk, memOk_cmp, cmpWf])

theorem execPerstDeassert_wf (s : State) (hs : s.memWf = true) :
    RCanon (execPerstDeassert s) := by
  unfold execPerstDeassert
  with_reducible repeat' (first
    | assumption | apply need_wf | apply State.landsBack_wf | apply State.coldState_wf | apply RCanon.next
    | apply RCanon.refused | apply RCanon.fault | split | simp only | dsimp only
    | simp only [memWf_mk, cmpWf_mk, memOk_cmp, cmpWf])

theorem execPowerOn_wf (s : State) (hs : s.memWf = true) :
    RCanon (execPowerOn s) := by
  unfold execPowerOn
  with_reducible repeat' (first
    | assumption | apply need_wf | apply RCanon.next | apply RCanon.refused | apply RCanon.fault | split | simp only
    | dsimp only | simp only [memWf_mk, cmpWf_mk, memOk_cmp, cmpWf])

theorem execSetStateEffecterStates_wf (id : W16) (state : Fin 256) (s : State) (hs : s.memWf = true) :
    RCanon (execSetStateEffecterStates id state s) := by
  unfold execSetStateEffecterStates
  with_reducible repeat' (first
    | assumption | apply State.sideband_wf | apply State.pldmRsp_wf | apply State.standby_wf | apply State.take_wf
    | apply State.resumeStandby_wf | apply RCanon.next | apply RCanon.refused | apply RCanon.fault | split | simp only
    | dsimp only | refine Canon.snd (by assumption) ?_ | refine RCanon.elim (by assumption) ?_)

theorem execSoftStartComplete_wf (s : State) (hs : s.memWf = true) :
    RCanon (execSoftStartComplete s) := by
  unfold execSoftStartComplete
  with_reducible repeat' (first
    | assumption | apply need_wf | apply State.coldState_wf | apply RCanon.next | apply RCanon.refused | apply RCanon.fault
    | split | simp only | dsimp only | simp only [memWf_mk, cmpWf_mk, memOk_cmp, cmpWf])

theorem execStandby_wf (who : Requester) (word : W32) (s : State) (hs : s.memWf = true) :
    RCanon (execStandby who word s) := by
  unfold execStandby
  with_reducible repeat' (first
    | assumption | apply State.resetCommand_wf | apply RCanon.next | apply RCanon.refused | apply RCanon.fault | split
    | simp only | dsimp only | refine RCanon.elim (by assumption) ?_)

theorem execStandbyExitComplete_wf (s : State) (hs : s.memWf = true) :
    RCanon (execStandbyExitComplete s) := by
  unfold execStandbyExitComplete
  with_reducible repeat' (first
    | assumption | apply State.warmCore_wf | apply need_wf | apply State.readiness_wf | apply State.fset_wf
    | apply RCanon.next | apply RCanon.refused | apply RCanon.fault | split | simp only | dsimp only
    | simp only [memWf_mk, cmpWf_mk, memOk_cmp, cmpWf])

theorem execStandbyResume_wf (who : Requester) (word : W32) (s : State) (hs : s.memWf = true) :
    RCanon (execStandbyResume who word s) := by
  unfold execStandbyResume
  with_reducible repeat' (first
    | assumption | apply State.resetCommand_wf | apply RCanon.next | apply RCanon.refused | apply RCanon.fault | split
    | simp only | dsimp only | refine RCanon.elim (by assumption) ?_)

theorem execStewardSelfTestComplete_wf (die : Fin 84) (passed : Bool) (s : State) (hs : s.memWf = true) :
    RCanon (execStewardSelfTestComplete die passed s) := by
  unfold execStewardSelfTestComplete
  with_reducible repeat' (first
    | assumption | apply State.testFailed_wf | apply need_wf | apply State.failed_wf | apply State.edge0Lost_wf
    | apply State.stewardsUp_wf | apply RCanon.next | apply RCanon.refused | apply RCanon.fault | split | simp only
    | dsimp only | simp only [memWf_mk, cmpWf_mk, memOk_cmp, cmpWf])

theorem execWarmReset_wf (who : Requester) (word : W32) (s : State) (hs : s.memWf = true) :
    RCanon (execWarmReset who word s) := by
  unfold execWarmReset
  with_reducible repeat' (first
    | assumption | apply State.resetCommand_wf | apply RCanon.next | apply RCanon.refused | apply RCanon.fault | split
    | simp only | dsimp only | refine RCanon.elim (by assumption) ?_)

theorem execWarmResetComplete_wf (s : State) (hs : s.memWf = true) :
    RCanon (execWarmResetComplete s) := by
  unfold execWarmResetComplete
  with_reducible repeat' (first
    | assumption | apply stop_wf | apply State.stewardsAgain_wf | apply State.fset_wf | apply need_wf | apply State.emit_wf
    | apply State.tryReady_wf | apply State.readiness_wf | apply RCanon.next | apply RCanon.refused | apply RCanon.fault
    | split | simp only | dsimp only | simp only [memWf_mk, cmpWf_mk, memOk_cmp, cmpWf])

/-! ### Firmware -/

theorem State.boundVoidOn_wf (s : State) (die : Nat) (hs : s.memWf = true) :
    (State.boundVoidOn s die).memWf = true := by
  unfold State.boundVoidOn
  with_reducible repeat' (first
    | assumption | apply State.boundVoid_wf | apply fold_wf1 | apply fold_wf2 | apply fold_wf | split | intro _ _ _
    | intro _ _ | intro _ | simp only | dsimp only | refine Canon.fst (by assumption) ?_)

theorem State.burn_wf (s : State) (f : FuseField) (hs : s.memWf = true) :
    (State.burn s f).memWf = true := by
  unfold State.burn
  with_reducible repeat' (first
    | assumption | apply State.setReg_wf | apply State.event_wf | split | simp only | dsimp only
    | simp only [memWf_mk, cmpWf_mk, memOk_cmp, cmpWf])

theorem State.inputSample_wf (s : State) (mV tenMa : Nat) (hs : s.memWf = true) :
    (State.inputSample s mV tenMa).memWf = true := by
  unfold State.inputSample
  with_reducible repeat' (first
    | assumption | apply State.setReg_wf | apply State.fset_wf | apply fold_wf1 | apply fold_wf2 | apply fold_wf | split
    | intro _ _ _ | intro _ _ | intro _ | simp only | dsimp only | simp only [memWf_mk, cmpWf_mk, memOk_cmp, cmpWf]
    | refine Canon.fst (by assumption) ?_)

theorem State.planned_wf (s : State) (hs : s.memWf = true) :
    (State.planned s).memWf = true := by
  unfold State.planned
  with_reducible repeat' (first
    | assumption | apply State.runImage_wf | apply State.fset_wf | apply State.takeOver_wf | apply State.setUpdate_wf | split
    | simp only | dsimp only | simp only [memWf_mk, cmpWf_mk, memOk_cmp, cmpWf])

theorem State.stewardDown_wf (s : State) (die : Nat) (hs : s.memWf = true) :
    (State.stewardDown s die).memWf = true := by
  unfold State.stewardDown
  with_reducible repeat' (first
    | assumption | apply State.boundVoidOn_wf | split | simp only | dsimp only
    | simp only [memWf_mk, cmpWf_mk, memOk_cmp, cmpWf])

theorem State.unplanned_wf (s : State) (hs : s.memWf = true) :
    (State.unplanned s).memWf = true := by
  unfold State.unplanned
  with_reducible repeat' (first
    | assumption | apply State.fset_wf | apply State.takeOver_wf | split | simp only | dsimp only
    | simp only [memWf_mk, cmpWf_mk, memOk_cmp, cmpWf])

theorem State.warmEvent_wf (old new : Option Int) (s : State) (die : Nat) (hs : s.memWf = true) :
    (State.warmEvent old new s die).memWf = true := by
  unfold State.warmEvent
  with_reducible repeat' (first
    | assumption | apply State.event_wf | split | simp only | dsimp only)

theorem execEdgeDie0Loss_wf (s : State) (hs : s.memWf = true) :
    RCanon (execEdgeDie0Loss s) := by
  unfold execEdgeDie0Loss
  with_reducible repeat' (first
    | assumption | apply need_wf | apply State.edge0Lost_wf | apply RCanon.next | apply RCanon.refused | apply RCanon.fault
    | split | simp only | dsimp only)

theorem execEdgeDieLoss_wf (edge : Fin 4) (s : State) (hs : s.memWf = true) :
    RCanon (execEdgeDieLoss edge s) := by
  unfold execEdgeDieLoss
  with_reducible repeat' (first
    | assumption | apply need_wf | apply State.sendHealth_wf | apply State.logEvent_wf | apply State.edgeLost_wf
    | apply RCanon.next | apply RCanon.refused | apply RCanon.fault | split | simp only | dsimp only)

theorem execFormerPrimaryRestart_wf (passed : Bool) (s : State) (hs : s.memWf = true) :
    RCanon (execFormerPrimaryRestart passed s) := by
  unfold execFormerPrimaryRestart
  with_reducible repeat' (first
    | assumption | apply need_wf | apply State.fset_wf | apply RCanon.next | apply RCanon.refused | apply RCanon.fault | split
    | simp only | dsimp only | simp only [memWf_mk, cmpWf_mk, memOk_cmp, cmpWf])

theorem execFuseBurn_wf (field : FuseField) (verified : Bool) (s : State) (hs : s.memWf = true) :
    RCanon (execFuseBurn field verified s) := by
  unfold execFuseBurn
  with_reducible repeat' (first
    | assumption | apply need_wf | apply State.logEvent_wf | apply State.showFuses_wf | apply State.burn_wf
    | apply RCanon.next | apply RCanon.refused | apply RCanon.fault | split | simp only | dsimp only)

theorem execHeartbeat_wf (s : State) (hs : s.memWf = true) :
    RCanon (execHeartbeat s) := by
  unfold execHeartbeat
  with_reducible repeat' (first
    | assumption | apply need_wf | apply State.emit_wf | apply RCanon.next | apply RCanon.refused | apply RCanon.fault | split
    | simp only | dsimp only | simp only [memWf_mk, cmpWf_mk, memOk_cmp, cmpWf])

theorem execJournalEntry_wf (s : State) (hs : s.memWf = true) :
    RCanon (execJournalEntry s) := by
  unfold execJournalEntry
  with_reducible repeat' (first
    | assumption | apply need_wf | apply State.emit_wf | apply RCanon.next | apply RCanon.refused | apply RCanon.fault | split
    | simp only | dsimp only | simp only [memWf_mk, cmpWf_mk, memOk_cmp, cmpWf])

theorem execPrimaryFatalFault_wf (s : State) (hs : s.memWf = true) :
    RCanon (execPrimaryFatalFault s) := by
  unfold execPrimaryFatalFault
  with_reducible repeat' (first
    | assumption | apply need_wf | apply State.warmStart_wf | apply RCanon.next | apply RCanon.refused | apply RCanon.fault
    | split | simp only | dsimp only | simp only [memWf_mk, cmpWf_mk, memOk_cmp, cmpWf])

theorem execRecoverySessionTimeout_wf (s : State) (hs : s.memWf = true) :
    RCanon (execRecoverySessionTimeout s) := by
  unfold execRecoverySessionTimeout
  with_reducible repeat' (first
    | assumption | apply State.reachLocal_wf | apply need_wf | apply RCanon.next | apply RCanon.refused | apply RCanon.fault
    | split | simp only | dsimp only | simp only [memWf_mk, cmpWf_mk, memOk_cmp, cmpWf])

theorem execSensorSample_wf (sample : Sample) (s : State) (hs : s.memWf = true) :
    RCanon (execSensorSample sample s) := by
  unfold execSensorSample
  with_reducible repeat' (first
    | assumption | apply State.fset_wf | apply need_wf | apply State.warmEvent_wf | apply State.inputSample_wf
    | apply RCanon.next | apply RCanon.refused | apply RCanon.fault | split | simp only | dsimp only
    | simp only [memWf_mk, cmpWf_mk, memOk_cmp, cmpWf])

theorem execStewardHeartbeatMiss_wf (die : Fin 84) (s : State) (hs : s.memWf = true) :
    RCanon (execStewardHeartbeatMiss die s) := by
  unfold execStewardHeartbeatMiss
  with_reducible repeat' (first
    | assumption | apply need_wf | apply State.stewardDown_wf | apply RCanon.next | apply RCanon.refused | apply RCanon.fault
    | split | simp only | dsimp only)

theorem execStewardUpdate_wf (s : State) (hs : s.memWf = true) :
    RCanon (execStewardUpdate s) := by
  unfold execStewardUpdate
  with_reducible repeat' (first
    | assumption | apply State.stewardDown_wf | apply need_wf | apply State.fset_wf | apply State.logEvent_wf
    | apply State.setUpdate_wf | apply State.event_wf | apply State.deriveKeys_wf | apply RCanon.next | apply RCanon.refused
    | apply RCanon.fault | split | simp only | dsimp only)

theorem execTakeover_wf (cause : TakeoverCause) (s : State) (hs : s.memWf = true) :
    RCanon (execTakeover cause s) := by
  unfold execTakeover
  with_reducible repeat' (first
    | assumption | apply need_wf | apply State.unplanned_wf | apply State.reachLocal_wf | apply State.planned_wf
    | apply RCanon.next | apply RCanon.refused | apply RCanon.fault | split | simp only | dsimp only)

/-! ### PowerCtl -/

theorem execClampRelease_wf (s : State) (hs : s.memWf = true) :
    RCanon (execClampRelease s) := by
  unfold execClampRelease
  with_reducible repeat' (first
    | assumption | apply need_wf | apply State.dutyChange_wf | apply ECanon.done | apply ECanon.jump | apply ECanon.wait
    | apply ECanon.busy | apply ECanon.raise | exact ECanon.stop | apply RCanon.next | apply RCanon.refused
    | apply RCanon.fault | split | intro _ _ _ | intro _ _ | intro _ | simp only | dsimp only | dsimp only [id]
    | simp only [memWf_mk, cmpWf_mk, memOk_cmp, cmpWf])

theorem execCurrentClamp_wf (s : State) (hs : s.memWf = true) :
    RCanon (execCurrentClamp s) := by
  unfold execCurrentClamp
  with_reducible repeat' (first
    | assumption | apply need_wf | apply State.logEvent_wf | apply State.fsat_wf | apply State.dutyChange_wf
    | apply ECanon.done | apply ECanon.jump | apply ECanon.wait | apply ECanon.busy | apply ECanon.raise | exact ECanon.stop
    | apply RCanon.next | apply RCanon.refused | apply RCanon.fault | split | intro _ _ _ | intro _ _ | intro _ | simp only
    | dsimp only | dsimp only [id] | simp only [memWf_mk, cmpWf_mk, memOk_cmp, cmpWf])

theorem execPowerControllerTick_wf (s : State) (hs : s.memWf = true) :
    RCanon (execPowerControllerTick s) := by
  unfold execPowerControllerTick
  with_reducible repeat' (first
    | assumption | apply need_wf | apply State.dutyChange_wf | apply ECanon.done | apply ECanon.jump | apply ECanon.wait
    | apply ECanon.busy | apply ECanon.raise | exact ECanon.stop | apply RCanon.next | apply RCanon.refused
    | apply RCanon.fault | split | intro _ _ _ | intro _ _ | intro _ | simp only | dsimp only | dsimp only [id]
    | simp only [memWf_mk, cmpWf_mk, memOk_cmp, cmpWf])

theorem execThermalControllerTick_wf (die : Fin 84) (s : State) (hs : s.memWf = true) :
    RCanon (execThermalControllerTick die s) := by
  unfold execThermalControllerTick
  with_reducible repeat' (first
    | assumption | apply need_wf | apply State.dutyChange_wf | apply ECanon.done | apply ECanon.jump | apply ECanon.wait
    | apply ECanon.busy | apply ECanon.raise | exact ECanon.stop | apply RCanon.next | apply RCanon.refused
    | apply RCanon.fault | split | intro _ _ _ | intro _ _ | intro _ | simp only | dsimp only | dsimp only [id]
    | simp only [memWf_mk, cmpWf_mk, memOk_cmp, cmpWf])

theorem execThermalTrip_wf (unit : TripUnit) (s : State) (hs : s.memWf = true) :
    RCanon (execThermalTrip unit s) := by
  unfold execThermalTrip
  with_reducible repeat' (first
    | assumption | apply State.powerLoss_wf | apply need_wf | apply RCanon.next | apply RCanon.refused | apply RCanon.fault
    | split | simp only | dsimp only | simp only [memWf_mk, cmpWf_mk, memOk_cmp, cmpWf])

/-! ### Commit -/

theorem State.activate_wf (s : State) (g : Group) (e : Nat × W64) (hs : s.memWf = true) :
    (State.activate s g e).memWf = true := by
  unfold State.activate
  with_reducible repeat' (first
    | assumption | apply State.setReg_wf | apply State.setShadow_wf | split | simp only | dsimp only)

theorem State.setApplied_wf (old s : State) (g : Group) (i : Nat) (hold : old.memWf = true) (hs : s.memWf = true) :
    (State.setApplied old s g i).memWf = true := by
  cases g
  case homMap => exact State.memWf_homMap _ _ _ hs
  case tbSrc => exact State.tbSrcApplied_wf _ _ hold hs
  case homHw => exact State.fset_wf _ _ _ _ hs
  case cnpQp =>
    unfold State.setApplied
    dsimp only
    split
    · exact hs
    · exact State.updQp_wf _ _ _ (State.setReg_wf _ _ _ _ hs)
  all_goals exact hs

theorem State.withSet_wf (s : State) (g : Group) (snap : List (Nat × W64)) (hs : s.memWf = true) :
    (State.withSet s g snap).memWf = true := by
  unfold State.withSet
  with_reducible repeat' (first
    | assumption | apply State.activate_wf | apply fold_wf1 | apply fold_wf2 | apply fold_wf | split | intro _ _ _ | intro _ _
    | intro _ | simp only | dsimp only | refine Canon.fst (by assumption) ?_)

theorem State.applySet_wf (s : State) (g : Group) (i : Nat) (hs : s.memWf = true) :
    (State.applySet s g i).memWf = true := by
  unfold State.applySet
  with_reducible repeat' (first
    | assumption | apply State.setApplied_wf | apply State.withSet_wf | apply State.fadd_wf | apply State.fset_wf | split
    | simp only | dsimp only | simp only [memWf_mk, cmpWf_mk, memOk_cmp, cmpWf])

theorem State.commitNow_wf (s : State) (g : Group) (i : Nat) (hs : s.memWf = true) :
    (State.commitNow s g i).memWf = true := by
  unfold State.commitNow
  with_reducible repeat' (first
    | assumption | apply State.fset_wf | apply State.withSet_wf | apply State.updQp_wf | split | simp only | dsimp only
    | simp only [memWf_mk, cmpWf_mk, memOk_cmp, cmpWf])

theorem State.discardNow_wf (s : State) (g : Group) (i : Nat) (hs : s.memWf = true) :
    (State.discardNow s g i).memWf = true := by
  unfold State.discardNow
  with_reducible repeat' (first
    | assumption | apply State.fset_wf | split | simp only | dsimp only | simp only [memWf_mk, cmpWf_mk, memOk_cmp, cmpWf])

theorem State.commitWrite_wf (s : State) (who : Requester) (g : Group) (i word : Nat) (hs : s.memWf = true) :
    RCanon (State.commitWrite s who g i word) := by
  unfold State.commitWrite
  with_reducible repeat' (first
    | assumption | apply State.regAction_wf | apply State.commitNow_wf | apply State.discardNow_wf | apply ECanon.done
    | apply ECanon.jump | apply ECanon.wait | apply ECanon.busy | apply ECanon.raise | exact ECanon.stop | apply RCanon.next
    | apply RCanon.refused | apply RCanon.fault | split | intro _ _ _ | intro _ _ | intro _ | simp only | dsimp only
    | dsimp only [id] | refine RCanon.elim (by assumption) ?_)

theorem execCommit_wf (who : Requester) (g : Group) (i : Nat) (word : W32) (s : State) (hs : s.memWf = true) :
    RCanon (execCommit who g i word s) := by
  unfold execCommit
  with_reducible repeat' (first
    | assumption | apply State.commitWrite_wf | apply RCanon.next | apply RCanon.refused | apply RCanon.fault | split
    | simp only | dsimp only | refine RCanon.elim (by assumption) ?_)

theorem execDiscard_wf (who : Requester) (g : Group) (i : Nat) (word : W32) (s : State) (hs : s.memWf = true) :
    RCanon (execDiscard who g i word s) := by
  unfold execDiscard
  with_reducible repeat' (first
    | assumption | apply State.commitWrite_wf | apply RCanon.next | apply RCanon.refused | apply RCanon.fault | split
    | simp only | dsimp only | refine RCanon.elim (by assumption) ?_)

theorem execQueuePairStop_wf (q : Fin 4096) (s : State) (hs : s.memWf = true) :
    RCanon (execQueuePairStop q s) := by
  unfold execQueuePairStop
  with_reducible repeat' (first
    | assumption | apply need_wf | apply State.applySet_wf | apply RCanon.next | apply RCanon.refused | apply RCanon.fault
    | split | simp only | dsimp only)

/-! ### Debug -/

theorem State.attached_wf (act : State → Nat → Nat → State × Nat) (s : State) (a : Nat) (hact : ∀ (y0 : State) (y1 : Nat) (y2 : Nat), y0.memWf = true → (act y0 y1 y2).1.memWf = true) (hs : s.memWf = true) :
    (State.attached act s a).1.memWf = true := by
  unfold State.attached
  with_reducible repeat' (first
    | assumption | apply hact | apply ECanon.done | apply ECanon.jump | apply ECanon.wait | apply ECanon.busy
    | apply ECanon.raise | exact ECanon.stop | apply RCanon.next | apply RCanon.refused | apply RCanon.fault | split
    | intro _ _ _ | intro _ _ | intro _ | simp only | dsimp only | dsimp only [id] | refine Canon.fst (by assumption) ?_)

theorem State.dbgAttach_wf (s : State) (a : Nat) (hs : s.memWf = true) :
    (State.dbgAttach s a).1.memWf = true := by
  unfold State.dbgAttach
  with_reducible repeat' (first
    | assumption | apply State.fset_wf | split | simp only | dsimp only | refine Canon.fst (by assumption) ?_)

theorem State.dbgDetach_wf (s : State) (a c : Nat) (hs : s.memWf = true) :
    (State.dbgDetach s a c).1.memWf = true := by
  unfold State.dbgDetach
  with_reducible repeat' (first
    | assumption | apply State.attEnd_wf | apply State.ctxFault_wf | split | simp only | dsimp only
    | refine Canon.fst (by assumption) ?_)

theorem State.dumpUnit_wf (s : State) (core u pa : Nat) (hs : s.memWf = true) :
    (State.dumpUnit s core u pa).memWf = true := by
  unfold State.dumpUnit
  with_reducible repeat' (first
    | assumption | apply State.lmFind_wf | apply State.putLine_wf | apply fold_wf1 | apply fold_wf2 | apply fold_wf | split
    | intro _ _ _ | intro _ _ | intro _ | simp only | dsimp only | refine Canon.fst (by assumption) ?_)

theorem State.dbgDump_wf (s : State) (_a c : Nat) (hs : s.memWf = true) :
    (State.dbgDump s _a c).1.memWf = true := by
  unfold State.dbgDump
  with_reducible repeat' (first
    | assumption | apply State.put_wf | apply State.dumpUnit_wf | exact OCanon.none | apply OCanon.someId | apply OCanon.some
    | apply OCanon.mapId | apply OCanon.mapFst | apply OCanon.map | apply fold_wf1 | apply fold_wf2 | apply fold_wf | split
    | intro _ _ _ | intro _ _ | intro _ | simp only | dsimp only | dsimp only [id] | refine Canon.fst (by assumption) ?_
    | refine OCanon.snd (by assumption) ?_)

theorem State.savedHalt_wf (s : State) (r : Nat) (b : Bool) (hs : s.memWf = true) :
    (State.savedHalt s r b).memWf = true := by
  unfold State.savedHalt
  with_reducible repeat' (first
    | assumption | apply State.put_wf | split | simp only | dsimp only)

theorem State.dbgHalt_wf (s : State) (a c : Nat) (hs : s.memWf = true) :
    (State.dbgHalt s a c).1.memWf = true := by
  unfold State.dbgHalt
  with_reducible repeat' (first
    | assumption | apply State.haltOne_wf | apply State.savedHalt_wf | apply State.halt_wf | apply fold_wf1 | apply fold_wf2
    | apply fold_wf | split | intro _ _ _ | intro _ _ | intro _ | simp only | dsimp only | refine Canon.fst (by assumption) ?_)

theorem State.readUnit_wf (s : State) (core u pa : Nat) (hs : s.memWf = true) :
    (State.readUnit s core u pa).memWf = true := by
  unfold State.readUnit
  with_reducible repeat' (first
    | assumption | apply State.readLine_wf | apply State.setLmPoison_wf | apply State.lmPut_wf | apply fold_wf1
    | apply fold_wf2 | apply fold_wf | split | intro _ _ _ | intro _ _ | intro _ | simp only | dsimp only
    | refine Canon.fst (by assumption) ?_)

theorem State.dbgLoad_wf (s : State) (_a c : Nat) (hs : s.memWf = true) :
    (State.dbgLoad s _a c).1.memWf = true := by
  unfold State.dbgLoad
  with_reducible repeat' (first
    | assumption | apply State.setS_wf | apply State.setP_wf | apply State.updGrp_wf | apply State.setV_wf
    | apply State.readUnit_wf | apply fold_wf1 | apply fold_wf2 | apply fold_wf | split | intro _ _ _ | intro _ _ | intro _
    | simp only | dsimp only | refine Canon.fst (by assumption) ?_)

theorem State.release_wf (s : State) (g : Nat) (grp : Grp) (step : Bool) (hs : s.memWf = true) :
    (State.release s g grp step).memWf = true := by
  unfold State.release
  with_reducible repeat' (first
    | assumption | apply State.ctxFault_wf | apply State.updGrp_wf | split | simp only | dsimp only)

theorem State.dbgResume_wf (s : State) (_a c : Nat) (hs : s.memWf = true) :
    (State.dbgResume s _a c).1.memWf = true := by
  unfold State.dbgResume
  with_reducible repeat' (first
    | assumption | apply State.release_wf | apply State.savedHalt_wf | apply fold_wf1 | apply fold_wf2 | apply fold_wf | split
    | intro _ _ _ | intro _ _ | intro _ | simp only | dsimp only | refine Canon.fst (by assumption) ?_)

theorem State.dbgStep_wf (s : State) (_a c : Nat) (hs : s.memWf = true) :
    (State.dbgStep s _a c).1.memWf = true := by
  unfold State.dbgStep
  with_reducible repeat' (first
    | assumption | apply State.release_wf | split | simp only | dsimp only | refine Canon.fst (by assumption) ?_)

theorem State.dbgAct_wf (t : State) (op a : Nat) (ht : t.memWf = true) :
    (State.dbgAct t op a).1.memWf = true := by
  unfold State.dbgAct
  with_reducible repeat' (first
    | assumption | apply State.dbgAttach_wf | apply State.attached_wf | apply State.dbgDetach_wf | apply State.dbgHalt_wf
    | apply State.dbgResume_wf | apply State.dbgStep_wf | apply State.dbgDump_wf | apply State.dbgLoad_wf
    | apply State.take_wf | apply ECanon.done | apply ECanon.jump | apply ECanon.wait | apply ECanon.busy | apply ECanon.raise
    | exact ECanon.stop | apply RCanon.next | apply RCanon.refused | apply RCanon.fault | split | intro _ _ _ | intro _ _
    | intro _ | simp only | dsimp only | dsimp only [id] | refine Canon.fst (by assumption) ?_
    | refine Canon.snd (by assumption) ?_)

theorem State.dbgCmd_wf (s : State) (who : Requester) (word : Nat) (hs : s.memWf = true) :
    RCanon (State.dbgCmd s who word) := by
  unfold State.dbgCmd
  with_reducible repeat' (first
    | assumption | apply State.regAction_wf | apply State.dbgAct_wf | apply State.fset_wf | apply ECanon.done
    | apply ECanon.jump | apply ECanon.wait | apply ECanon.busy | apply ECanon.raise | exact ECanon.stop | apply RCanon.next
    | apply RCanon.refused | apply RCanon.fault | split | intro _ _ _ | intro _ _ | intro _ | simp only | dsimp only
    | dsimp only [id] | refine Canon.fst (by assumption) ?_ | refine RCanon.elim (by assumption) ?_)

theorem State.reportHalt_wf (s : State) (h : Halt) (hs : s.memWf = true) :
    (State.reportHalt s h).memWf = true := by
  unfold State.reportHalt
  with_reducible repeat' (first
    | assumption | apply State.fset_wf | apply State.event_wf | apply State.setReg_wf | split | simp only | dsimp only)

theorem execDebugAttach_wf (who : Requester) (word : W64) (s : State) (hs : s.memWf = true) :
    RCanon (execDebugAttach who word s) := by
  unfold execDebugAttach
  with_reducible repeat' (first
    | assumption | apply State.dbgCmd_wf | apply RCanon.next | apply RCanon.refused | apply RCanon.fault | split | simp only
    | dsimp only | refine RCanon.elim (by assumption) ?_)

theorem execDebugDetach_wf (who : Requester) (word : W64) (s : State) (hs : s.memWf = true) :
    RCanon (execDebugDetach who word s) := by
  unfold execDebugDetach
  with_reducible repeat' (first
    | assumption | apply State.dbgCmd_wf | apply RCanon.next | apply RCanon.refused | apply RCanon.fault | split | simp only
    | dsimp only | refine RCanon.elim (by assumption) ?_)

theorem execDebugDump_wf (who : Requester) (word : W64) (s : State) (hs : s.memWf = true) :
    RCanon (execDebugDump who word s) := by
  unfold execDebugDump
  with_reducible repeat' (first
    | assumption | apply State.dbgCmd_wf | apply RCanon.next | apply RCanon.refused | apply RCanon.fault | split | simp only
    | dsimp only | refine RCanon.elim (by assumption) ?_)

theorem execDebugHalt_wf (who : Requester) (word : W64) (s : State) (hs : s.memWf = true) :
    RCanon (execDebugHalt who word s) := by
  unfold execDebugHalt
  with_reducible repeat' (first
    | assumption | apply State.dbgCmd_wf | apply RCanon.next | apply RCanon.refused | apply RCanon.fault | split | simp only
    | dsimp only | refine RCanon.elim (by assumption) ?_)

theorem execDebugLoad_wf (who : Requester) (word : W64) (s : State) (hs : s.memWf = true) :
    RCanon (execDebugLoad who word s) := by
  unfold execDebugLoad
  with_reducible repeat' (first
    | assumption | apply State.dbgCmd_wf | apply RCanon.next | apply RCanon.refused | apply RCanon.fault | split | simp only
    | dsimp only | refine RCanon.elim (by assumption) ?_)

theorem execDebugResume_wf (who : Requester) (word : W64) (s : State) (hs : s.memWf = true) :
    RCanon (execDebugResume who word s) := by
  unfold execDebugResume
  with_reducible repeat' (first
    | assumption | apply State.dbgCmd_wf | apply RCanon.next | apply RCanon.refused | apply RCanon.fault | split | simp only
    | dsimp only | refine RCanon.elim (by assumption) ?_)

theorem execDebugStep_wf (who : Requester) (word : W64) (s : State) (hs : s.memWf = true) :
    RCanon (execDebugStep who word s) := by
  unfold execDebugStep
  with_reducible repeat' (first
    | assumption | apply State.dbgCmd_wf | apply RCanon.next | apply RCanon.refused | apply RCanon.fault | split | simp only
    | dsimp only | refine RCanon.elim (by assumption) ?_)

theorem execHaltReport_wf (att : Fin 16) (s : State) (hs : s.memWf = true) :
    RCanon (execHaltReport att s) := by
  unfold execHaltReport
  with_reducible repeat' (first
    | assumption | apply stop_wf | apply State.reportHalt_wf | apply State.pump_wf | apply State.nearClean_wf
    | apply RCanon.next | apply RCanon.refused | apply RCanon.fault | exact OCanon.none | apply OCanon.someId
    | apply OCanon.some | apply OCanon.mapId | apply OCanon.mapFst | apply OCanon.map | split | intro _ _ _ | intro _ _
    | intro _ | simp only | dsimp only | dsimp only [id] | simp only [memWf_mk, cmpWf_mk, memOk_cmp, cmpWf]
    | refine OCanon.snd (by assumption) ?_)

/-! ### FaultRing -/

theorem State.loseRecord_wf (s : State) (c : Nat) (x : Ctx) (r : FaultRec) (hs : s.memWf = true) :
    (State.loseRecord s c x r).memWf = true := by
  unfold State.loseRecord
  with_reducible repeat' (first
    | assumption | apply State.readWord_wf | apply State.updCtx_wf | apply State.writeBytes_wf | split | simp only
    | dsimp only | refine Canon.fst (by assumption) ?_)

theorem State.readConsumed_wf (s : State) (c : Nat) (hs : s.memWf = true) :
    (State.readConsumed s c).memWf = true := by
  unfold State.readConsumed
  with_reducible repeat' (first
    | assumption | apply State.readWord_wf | apply State.updCtx_wf | split | simp only | dsimp only
    | refine Canon.fst (by assumption) ?_)

theorem State.recordWait_wf (s : State) (r : FaultRec) (w : Wait) (hs : s.memWf = true) :
    (State.recordWait s r w).memWf = true := by
  unfold State.recordWait
  with_reducible repeat' (first
    | assumption | apply State.updGrp_wf | split | simp only | dsimp only | simp only [memWf_mk, cmpWf_mk, memOk_cmp, cmpWf])

theorem State.ringMessage_wf (s : State) (c : Nat) (x : Ctx) (hs : s.memWf = true) :
    (State.ringMessage s c x).memWf = true := by
  unfold State.ringMessage
  with_reducible repeat' (first
    | assumption | apply State.msixSend_wf | split | simp only | dsimp only | simp only [memWf_mk, cmpWf_mk, memOk_cmp, cmpWf])

theorem State.writeRecord_wf (s : State) (c : Nat) (x : Ctx) (r : FaultRec) (hs : s.memWf = true) :
    (State.writeRecord s c x r).memWf = true := by
  unfold State.writeRecord
  with_reducible repeat' (first
    | assumption | apply State.writeBytes_wf | apply State.ringMessage_wf | apply State.recordWait_wf | apply State.updCtx_wf
    | split | simp only | dsimp only | refine Canon.fst (by assumption) ?_)

theorem State.ringPoll_wf (s : State) (c : Nat) (hs : s.memWf = true) :
    (State.ringPoll s c).memWf = true := by
  unfold State.ringPoll
  with_reducible repeat' (first
    | assumption | apply State.writeRecord_wf | apply State.readConsumed_wf | apply fold_wf1 | apply fold_wf2 | apply fold_wf
    | split | intro _ _ _ | intro _ _ | intro _ | simp only | dsimp only | simp only [memWf_mk, cmpWf_mk, memOk_cmp, cmpWf]
    | refine Canon.fst (by assumption) ?_)

theorem State.takeRecord_wf (s : State) (r : FaultRec) (hs : s.memWf = true) :
    (State.takeRecord s r).memWf = true := by
  unfold State.takeRecord
  simp only
  split
  · exact hs
  rename_i x0 _
  split
  · exact State.loseRecord_wf _ _ _ _ hs
  have h : (if x0.ringFull = true then s.readConsumed r.context else s).memWf = true := by
    split
    · exact State.readConsumed_wf _ _ hs
    · exact hs
  generalize (if x0.ringFull = true then s.readConsumed r.context else s) = s1 at h ⊢
  split
  · exact h
  split
  · exact State.writeRecord_wf _ _ _ _ h
  split
  · apply State.recordWait_wf
    simpa only [memWf_mk, cmpWf] using h
  · exact State.loseRecord_wf _ _ _ _ h

theorem execFaultRingIrqInterval_wf (ctx : BitVec 16) (s : State) (hs : s.memWf = true) :
    RCanon (execFaultRingIrqInterval ctx s) := by
  unfold execFaultRingIrqInterval
  with_reducible repeat' (first
    | assumption | apply stop_wf | apply State.ringMessage_wf | apply RCanon.next | apply RCanon.refused | apply RCanon.fault
    | split | simp only | dsimp only | simp only [memWf_mk, cmpWf_mk, memOk_cmp, cmpWf])

theorem execFaultRingPoll_wf (ctx : BitVec 16) (s : State) (hs : s.memWf = true) :
    RCanon (execFaultRingPoll ctx s) := by
  unfold execFaultRingPoll
  with_reducible repeat' (first
    | assumption | apply need_wf | apply State.ringPoll_wf | apply RCanon.next | apply RCanon.refused | apply RCanon.fault
    | split | simp only | dsimp only)

theorem execFaultRingRecord_wf (k : Nat) (s : State) (hs : s.memWf = true) :
    RCanon (execFaultRingRecord k s) := by
  unfold execFaultRingRecord
  with_reducible repeat' (first
    | assumption | apply stop_wf | apply need_wf | apply State.takeRecord_wf | apply RCanon.next | apply RCanon.refused
    | apply RCanon.fault | split | simp only | dsimp only | simp only [memWf_mk, cmpWf_mk, memOk_cmp, cmpWf])

theorem execFrKick_wf (who : Requester) (ctx : BitVec 16) (s : State) (hs : s.memWf = true) :
    RCanon (execFrKick who ctx s) := by
  unfold execFrKick
  with_reducible repeat' (first
    | assumption | apply State.regAction_wf | apply State.ringPoll_wf | apply ECanon.done | apply ECanon.jump
    | apply ECanon.wait | apply ECanon.busy | apply ECanon.raise | exact ECanon.stop | apply RCanon.next
    | apply RCanon.refused | apply RCanon.fault | split | intro _ _ _ | intro _ _ | intro _ | simp only | dsimp only
    | dsimp only [id] | refine RCanon.elim (by assumption) ?_)

/-! ### Health -/

theorem State.vacate_wf (s : State) (k : Nat) (hs : s.memWf = true) :
    (State.vacate s k).memWf = true := by
  unfold State.vacate
  with_reducible repeat' (first
    | assumption | apply State.preemptCluster_wf | split | simp only | dsimp only)

theorem State.testedFailed_wf (s : State) (core : Nat) (hs : s.memWf = true) :
    (State.testedFailed s core).memWf = true := by
  unfold State.testedFailed
  with_reducible repeat' (first
    | assumption | apply State.coreFailed_wf | apply State.vacate_wf | split | simp only | dsimp only
    | simp only [memWf_mk, cmpWf_mk, memOk_cmp, cmpWf])

theorem execClusterRetire_wf (core : Fin 8192) (passing : BitVec 8) (s : State) (hs : s.memWf = true) :
    RCanon (execClusterRetire core passing s) := by
  unfold execClusterRetire
  with_reducible repeat' (first
    | assumption | apply need_wf | apply State.setPool_wf | apply State.retireClusters_wf | apply RCanon.next
    | apply RCanon.refused | apply RCanon.fault | split | simp only | dsimp only
    | simp only [memWf_mk, cmpWf_mk, memOk_cmp, cmpWf])

theorem execComputeDieLoss_wf (die : Fin 64) (cause : Fin 3) (s : State) (hs : s.memWf = true) :
    RCanon (execComputeDieLoss die cause s) := by
  unfold execComputeDieLoss
  with_reducible repeat' (first
    | assumption | apply need_wf | apply State.retireComputeDie_wf | apply RCanon.next | apply RCanon.refused
    | apply RCanon.fault | split | simp only | dsimp only)

theorem execCoreHangDetect_wf (core : Fin 8192) (s : State) (hs : s.memWf = true) :
    RCanon (execCoreHangDetect core s) := by
  unfold execCoreHangDetect
  with_reducible repeat' (first
    | assumption | apply stop_wf | apply State.coreFailed_wf | apply State.ctxFault_wf | apply RCanon.next
    | apply RCanon.refused | apply RCanon.fault | split | simp only | dsimp only
    | simp only [memWf_mk, cmpWf_mk, memOk_cmp, cmpWf])

theorem execCoreReplacement_wf (core : Fin 8192) (pool : Nat) (s : State) (hs : s.memWf = true) :
    RCanon (execCoreReplacement core pool s) := by
  unfold execCoreReplacement
  with_reducible repeat' (first
    | assumption | apply State.nearDrop_wf | apply State.coreZero_wf | apply State.replaceCore_wf | apply State.updCore_wf
    | apply State.setReg_wf | apply need_wf | apply State.logEvent_wf | apply RCanon.next | apply RCanon.refused
    | apply RCanon.fault | apply fold_wf1 | apply fold_wf2 | apply fold_wf | split | intro _ _ _ | intro _ _ | intro _
    | simp only | dsimp only | refine Canon.fst (by assumption) ?_)

theorem execCoreTest_wf (core : Fin 8192) (passed : Bool) (s : State) (hs : s.memWf = true) :
    RCanon (execCoreTest core passed s) := by
  unfold execCoreTest
  with_reducible repeat' (first
    | assumption | apply need_wf | apply State.testedFailed_wf | apply RCanon.next | apply RCanon.refused | apply RCanon.fault
    | split | simp only | dsimp only)

theorem execD2dLinkRetrain_wf (die : Fin 84) (side : Fin 4) (restored : Bool) (s : State) (hs : s.memWf = true) :
    RCanon (execD2dLinkRetrain die side restored s) := by
  unfold execD2dLinkRetrain
  with_reducible repeat' (first
    | assumption | apply State.fset_wf | apply need_wf | apply State.degrade_wf | apply State.retireComputeDie_wf
    | apply State.homeLost_wf | apply State.edge0Lost_wf | apply State.edgeLost_wf | apply RCanon.next | apply RCanon.refused
    | apply RCanon.fault | split | simp only | dsimp only)

theorem execLmTestDone_wf (core : Fin 8192) (failing : List (Fin 32 × Fin 137)) (s : State) (hs : s.memWf = true) :
    RCanon (execLmTestDone core failing s) := by
  unfold execLmTestDone
  with_reducible repeat' (first
    | assumption | apply State.fset_wf | apply State.coreZero_wf | apply State.updCore_wf | apply State.setReg_wf
    | apply need_wf | apply State.testedFailed_wf | apply RCanon.next | apply RCanon.refused | apply RCanon.fault
    | apply fold_wf1 | apply fold_wf2 | apply fold_wf | split | intro _ _ _ | intro _ _ | intro _ | simp only | dsimp only
    | refine Canon.fst (by assumption) ?_)

/-! ### Slot -/

theorem State.periodicRecords_wf (s : State) (old : Nat) (hs : s.memWf = true) :
    (State.periodicRecords s old).memWf = true := by
  unfold State.periodicRecords
  with_reducible repeat' (first
    | assumption | apply State.updCtx_wf | apply State.acctPeriodic_wf | exact OCanon.none | apply OCanon.someId
    | apply OCanon.some | apply OCanon.mapId | apply OCanon.mapFst | apply OCanon.map | apply fold_wf1 | apply fold_wf2
    | apply fold_wf | split | intro _ _ _ | intro _ _ | intro _ | simp only | dsimp only | dsimp only [id]
    | refine OCanon.snd (by assumption) ?_ | refine Canon.fst (by assumption) ?_)

theorem State.rotate_wf (s : State) (hs : s.memWf = true) :
    (State.rotate s).memWf = true := by
  unfold State.rotate
  with_reducible repeat' (first
    | assumption | apply State.pick_wf | apply State.preemptCluster_wf | apply fold_wf1 | apply fold_wf2 | apply fold_wf
    | split | intro _ _ _ | intro _ _ | intro _ | simp only | dsimp only | refine Canon.snd (by assumption) ?_
    | refine Canon.fst (by assumption) ?_)

theorem State.sendBeats_wf (s : State) (hs : s.memWf = true) :
    (State.sendBeats s).memWf = true := by
  unfold State.sendBeats
  with_reducible repeat' (first
    | assumption | apply State.emit_wf | apply fold_wf1 | apply fold_wf2 | apply fold_wf | split | intro _ _ _ | intro _ _
    | intro _ | simp only | dsimp only | refine Canon.fst (by assumption) ?_)

theorem State.sendDelays_wf (s : State) (hs : s.memWf = true) :
    (State.sendDelays s).memWf = true := by
  unfold State.sendDelays
  with_reducible repeat' (first
    | assumption | apply State.emit_wf | apply fold_wf1 | apply fold_wf2 | apply fold_wf | split | intro _ _ _ | intro _ _
    | intro _ | simp only | dsimp only | refine Canon.fst (by assumption) ?_)

theorem State.slotCommits_wf (s : State) (hs : s.memWf = true) :
    (State.slotCommits s).memWf = true := by
  unfold State.slotCommits
  with_reducible repeat' (first
    | assumption | apply State.applySet_wf | apply fold_wf1 | apply fold_wf2 | apply fold_wf | split | intro _ _ _ | intro _ _
    | intro _ | simp only | dsimp only | refine Canon.fst (by assumption) ?_)

theorem State.standCeiling_wf (s : State) (hs : s.memWf = true) :
    (State.standCeiling s).memWf = true := by
  unfold State.standCeiling
  with_reducible repeat' (first
    | assumption | apply State.dutyChange_wf | apply ECanon.done | apply ECanon.jump | apply ECanon.wait | apply ECanon.busy
    | apply ECanon.raise | exact ECanon.stop | apply RCanon.next | apply RCanon.refused | apply RCanon.fault | split
    | intro _ _ _ | intro _ _ | intro _ | simp only | dsimp only | dsimp only [id]
    | simp only [memWf_mk, cmpWf_mk, memOk_cmp, cmpWf])

theorem State.toBoundary_wf (s : State) (hs : s.memWf = true) :
    (State.toBoundary s).memWf = true := by
  unfold State.toBoundary
  with_reducible repeat' (first
    | assumption | apply State.reach_wf | split | simp only | dsimp only | simp only [memWf_mk, cmpWf_mk, memOk_cmp, cmpWf])

theorem execSlotBoundary_wf (s : State) (hs : s.memWf = true) :
    RCanon (execSlotBoundary s) := by
  unfold execSlotBoundary
  with_reducible repeat' (first
    | assumption | apply State.slotCommits_wf | apply State.toBoundary_wf | apply need_wf | apply State.periodicRecords_wf
    | apply State.rotate_wf | apply State.sendDelays_wf | apply State.sendBeats_wf | apply State.standCeiling_wf
    | apply RCanon.next | apply RCanon.refused | apply RCanon.fault | split | simp only | dsimp only
    | simp only [memWf_mk, cmpWf_mk, memOk_cmp, cmpWf])

theorem execCommitApply_wf (g : Group) (i : Nat) (s : State) (hs : s.memWf = true) :
    RCanon (execCommitApply g i s) := by
  unfold execCommitApply
  with_reducible repeat' (first
    | assumption | apply need_wf | apply execSlotBoundary_wf | apply State.applySet_wf | apply RCanon.next
    | apply RCanon.refused | apply RCanon.fault | split | simp only | dsimp only | refine RCanon.elim (by assumption) ?_)

/-! ### RegAccess -/

theorem State.msixWrite_wf (s : State) (f off : Nat) (v : W32) (hs : s.memWf = true) :
    (State.msixWrite s f off v).memWf = true := by
  unfold State.msixWrite
  with_reducible repeat' (first
    | assumption | apply State.msixRelease_wf | apply State.setMsixVec_wf | split | simp only | dsimp only)

theorem State.bar2Word_wf (s : State) (f x : Nat) (v : W32) (hs : s.memWf = true) :
    RCanon (State.bar2Word s f x v) := by
  unfold State.bar2Word
  with_reducible repeat' (first
    | assumption | apply execDoorbellSqTail_wf | apply execDoorbellCqHead_wf | apply State.msixWrite_wf | apply RCanon.next
    | apply RCanon.refused | apply RCanon.fault | split | simp only | dsimp only | refine RCanon.elim (by assumption) ?_)

theorem State.bar2Write_wf (s : State) (f x size : Nat) (value : W64) (hs : s.memWf = true) :
    RCanon (State.bar2Write s f x size value) := by
  unfold State.bar2Write
  with_reducible repeat' (first
    | assumption | apply State.bar2Word_wf | apply RCanon.next | apply RCanon.refused | apply RCanon.fault | split | simp only
    | dsimp only | refine RCanon.elim (by assumption) ?_)

theorem State.cnpGo_wf (s : State) (who : Requester) (w : Nat) (hs : s.memWf = true) :
    RCanon (State.cnpGo s who w) := by
  unfold State.cnpGo
  with_reducible repeat' (first
    | assumption | apply execRegisterCtx_wf | apply execUnregisterCtx_wf | apply execSuspendCtx_wf | apply execResumeCtx_wf
    | apply execKillCtx_wf | apply execPruneCtx_wf | apply State.cnpCmd_wf | apply State.take_wf | apply ECanon.done
    | apply ECanon.jump | apply ECanon.wait | apply ECanon.busy | apply ECanon.raise | exact ECanon.stop | apply RCanon.next
    | apply RCanon.refused | apply RCanon.fault | split | intro _ _ _ | intro _ _ | intro _ | simp only | dsimp only
    | dsimp only [id] | refine Canon.fst (by assumption) ?_ | refine Canon.snd (by assumption) ?_
    | refine RCanon.elim (by assumption) ?_)

theorem State.written_wf (s t : State) (r : Reg) (i value mask : Nat) (hs : s.memWf = true) (ht : t.memWf = true) :
    (State.written s t r i value mask).memWf = true := by
  unfold State.written
  with_reducible repeat' (first
    | assumption | apply State.fset_wf | apply State.evcDeliver_wf | apply State.levelSource_wf | apply State.portCtl_wf
    | apply fold_wf1 | apply fold_wf2 | apply fold_wf | split | intro _ _ _ | intro _ _ | intro _ | simp only | dsimp only
    | simp only [memWf_mk, cmpWf_mk, memOk_cmp, cmpWf] | refine Canon.fst (by assumption) ?_)

theorem State.writeFields_wf (s : State) (r : Reg) (i value mask : Nat) (hs : s.memWf = true) :
    (State.writeFields s r i value mask).memWf = true := by
  unfold State.writeFields
  with_reducible repeat' (first
    | assumption | apply State.writeReg_wf | apply State.fset_wf | apply State.written_wf | split | simp only | dsimp only)

theorem State.plainWrite_wf (s : State) (who : Requester) (r : Reg) (i value mask : Nat) (hs : s.memWf = true) :
    RCanon (State.plainWrite s who r i value mask) := by
  unfold State.plainWrite
  with_reducible repeat' (first
    | assumption | apply State.reachRecord_wf | apply State.writeFields_wf | apply RCanon.next | apply RCanon.refused
    | apply RCanon.fault | split | simp only | dsimp only)

theorem State.hwGo_wf (s : State) (who : Requester) (r w value mask : Nat) (hs : s.memWf = true) :
    RCanon (State.hwGo s who r w value mask) := by
  unfold State.hwGo
  with_reducible repeat' (first
    | assumption | apply State.plainWrite_wf | apply State.hwCommand_wf | apply RCanon.next | apply RCanon.refused
    | apply RCanon.fault | split | simp only | dsimp only | refine RCanon.elim (by assumption) ?_)

theorem State.mbxGo_wf (s : State) (who : Requester) (w mask : Nat) (hs : s.memWf = true) :
    RCanon (State.mbxGo s who w mask) := by
  unfold State.mbxGo
  with_reducible repeat' (first
    | assumption | apply State.plainWrite_wf | apply execMbxAbort_wf | apply State.regAction_wf | apply State.mbxCommand_wf
    | apply ECanon.done | apply ECanon.jump | apply ECanon.wait | apply ECanon.busy | apply ECanon.raise | exact ECanon.stop
    | apply RCanon.next | apply RCanon.refused | apply RCanon.fault | split | intro _ _ _ | intro _ _ | intro _ | simp only
    | dsimp only | dsimp only [id] | refine RCanon.elim (by assumption) ?_)

theorem State.mbxOddWrite_wf (s : State) (who : Requester) (addr : Nat) (hs : s.memWf = true) :
    (State.mbxOddWrite s who addr).memWf = true := by
  unfold State.mbxOddWrite
  with_reducible repeat' (first
    | assumption | apply State.reachRecord_wf | apply State.seqErr_wf | split | simp only | dsimp only)

theorem State.read1_wf (s : State) (who : Requester) (a : Acc1) (hs : s.memWf = true) :
    (State.read1 s who a).1.memWf = true := by
  unfold State.read1
  with_reducible repeat' (first
    | assumption | apply State.reachRecord_wf | split | simp only | dsimp only | refine Canon.fst (by assumption) ?_)

theorem State.resumeGo_wf (s : State) (who : Requester) (lo value mask : Nat) (hs : s.memWf = true) :
    RCanon (State.resumeGo s who lo value mask) := by
  unfold State.resumeGo
  with_reducible repeat' (first
    | assumption | apply State.resumeWrite_wf | apply execXltResumeLowHalf_wf | apply RCanon.next | apply RCanon.refused
    | apply RCanon.fault | exact OCanon.none | apply OCanon.someId | apply OCanon.some | apply OCanon.mapId
    | apply OCanon.mapFst | apply OCanon.map | split | intro _ _ _ | intro _ _ | intro _ | simp only | dsimp only
    | dsimp only [id] | refine OCanon.snd (by assumption) ?_ | refine RCanon.elim (by assumption) ?_)

theorem State.write1_wf (s : State) (who : Requester) (a : Acc1) (hs : s.memWf = true) :
    RCanon (State.write1 s who a) := by
  unfold State.write1
  with_reducible repeat' (first
    | assumption | apply State.plainWrite_wf | apply execLmPowerWrite_wf | apply execLmZeroRequest_wf
    | apply execLmTestStart_wf | apply execLmRepairWrite_wf | apply execQdcFlush_wf | apply execPcMapout_wf
    | apply State.hwGo_wf | apply State.iqBaseWrite_wf | apply State.resumeGo_wf | apply State.cnpGo_wf
    | apply execEvcPendWrite_wf | apply execFrKick_wf | apply State.mbxGo_wf | apply execMbxDataWrite_wf | apply execRtSync_wf
    | apply State.resetCommand_wf | apply State.dbgCmd_wf | apply State.dutyChange_wf | apply State.writeFields_wf
    | apply State.commitWrite_wf | apply ECanon.done | apply ECanon.jump | apply ECanon.wait | apply ECanon.busy
    | apply ECanon.raise | exact ECanon.stop | apply RCanon.next | apply RCanon.refused | apply RCanon.fault | split
    | intro _ _ _ | intro _ _ | intro _ | simp only | dsimp only | dsimp only [id] | refine RCanon.elim (by assumption) ?_)

theorem State.writeAll_wf (s : State) (who : Requester) (l : List Acc1) (hs : s.memWf = true) :
    RCanon (State.writeAll s who l) := by
  induction l generalizing s with
  | nil => exact RCanon.next hs
  | cons a r ih =>
    unfold State.writeAll
    split
    · rename_i t e
      exact ih t (RCanon.elim e (State.write1_wf _ _ _ hs))
    · exact RCanon.fault
    · exact RCanon.refused

theorem execOutOfReachRead_wf (who : Requester) (addr : Nat) (size : Fin 4) (s : State) (hs : s.memWf = true) :
    RCanon (execOutOfReachRead who addr size s) := by
  unfold execOutOfReachRead
  with_reducible repeat' (first
    | assumption | apply need_wf | apply State.read1_wf | apply State.emit_wf | apply RCanon.next | apply RCanon.refused
    | apply RCanon.fault | apply fold_wf1 | apply fold_wf2 | apply fold_wf | split | intro _ _ _ | intro _ _ | intro _
    | simp only | dsimp only | refine Canon.fst (by assumption) ?_)

theorem execRegisterWrite_wf (who : Requester) (addr : Nat) (size : Fin 4) (value : W64) (s : State) (hs : s.memWf = true) :
    RCanon (execRegisterWrite who addr size value s) := by
  unfold execRegisterWrite
  with_reducible repeat' (first
    | assumption | apply State.mbxOddWrite_wf | apply State.writeAll_wf | apply State.bar2Write_wf | apply RCanon.next
    | apply RCanon.refused | apply RCanon.fault | split | simp only | dsimp only | refine RCanon.elim (by assumption) ?_)

end Sys2Proof.Machine
end

