-- ==== Sys2Proof/Laws/Issue.lean ====
section
/-! SUPPORT. What the shared issue of an instruction answers, once its group may issue it. -/

namespace Sys2Proof.Machine

/-- What the issue answers for what the instruction's own part answers. -/
def Eff.outcome (e : Eff) (g len : Nat) : Res :=
  match e with
  | .done u => .next (u.finish g len)
  | .jump u => .next (u.issued g)
  | .wait u => .next (u.hold g 3)
  | .busy u => .next (u.hold g 1)
  | .raise u code lanes addr info => .next (u.raise g code lanes addr false info)
  | .stop => Machine.stop

/-- An instruction whose group may issue it and that acts on a lane is carried out. -/
theorem State.issue_fetched {s t : State} {w : Who} {grp : Grp} {head : Nat → Grp → Head}
    {body : State → Nat → Grp → Nat → Eff} (hf : s.fetched w (head w.group grp).len = some (grp, t))
    (hr : (head w.group grp).reserved = false)
    (hp : (t.pendingRefs w.group).any (fun r => (head w.group grp).refs.contains r) = false)
    (hm : grp.active &&& (head w.group grp).mask ≠ 0) :
    s.issue w head body =
      (body t w.group grp (grp.active &&& (head w.group grp).mask)).outcome w.group (head w.group grp).len := by
  unfold State.fetched at hf
  unfold State.issue
  cases hg : s.grp w.group with
  | none => simp [hg] at hf
  | some g0 =>
    simp only [hg] at hf ⊢
    split at hf
    · cases hf
    rename_i hready
    rw [if_neg hready]
    split at hf <;> try cases hf
    rename_i a ha
    split at hf <;> try cases hf
    rename_i b hb
    split at hf
    · cases hf
    rename_i hbp
    simp only [Bool.or_eq_true, not_or, Bool.not_eq_true] at hbp
    cases hf
    simp only [ha, hb, hbp.1, hbp.2, hr, hp, hm]
    simp only [Bool.false_eq_true, if_false]
    split <;> simp_all [Eff.outcome]

/-- An instruction of format R that issues is carried out on its lanes. -/
theorem State.issueR_issues {s t : State} {w : Who} {grp : Grp} {f : Form} {i : FmtR}
    {body : State → Nat → Grp → Nat → Eff} {extra : Bool} (h : s.issuesR t w grp f i) (he : extra = false) :
    s.issueR w f i body extra = (body t w.group grp (s.lanesR w grp f i)).outcome w.group (lenOf i.w) := by
  obtain ⟨hf, hr, hp, hm, hv⟩ := h
  unfold State.issueR
  rw [State.issue_fetched (grp := grp) (t := t)]
  · simp only [List.append_nil, hv]
    simp [State.lanesR]
  · exact hf
  · simp [hr, he]
  · simpa using hp
  · exact hm

/-- A collective instruction that issues is carried out on all its lanes. -/
theorem State.collective_issues {s t : State} {w : Who} {grp : Grp} {f : Form} {i : FmtR}
    {body : State → Nat → Grp → Eff} {extra : Bool} (h : s.issuesAll t w grp f i) (he : extra = false) :
    s.collective w f i extra [] body = (body t w.group grp).outcome w.group (lenOf i.w) := by
  unfold State.collective
  rw [State.issueR_issues h.1 he]
  simp [h.2]

/-- A control instruction that issues is carried out. -/
theorem State.issueC_issues {s t : State} {w : Who} {grp : Grp} {i : FmtC} {long cond low : Bool} {refs : List RegRef}
    {body : State → Nat → Grp → Eff} (h : s.issuesC t w grp i long cond low refs) :
    s.issueC w i long cond low refs body = (body t w.group grp).outcome w.group (lenOf i.w) := by
  obtain ⟨hf, hl, hlow, hc, hp, ha⟩ := h
  unfold State.issueC
  rw [State.issue_fetched (grp := grp) (t := t)]
  · exact hf
  · subst hl
    rcases hc with hc | hc <;> simp [hc, hlow]
  · exact hp
  · exact ha

/-- A memory instruction that issues is carried out on its lanes. -/
theorem State.issueM_issues {s t : State} {w : Who} {grp : Grp} {i : FmtM} {reserved : Bool} {vecs : List (Nat × Nat)}
    {refs : List RegRef} {body : State → Nat → Grp → Nat → Eff} {early : State → Grp → Option Nat}
    (h : s.issuesM t w grp i reserved vecs refs) (he : early t grp = none) :
    s.issueM w i reserved vecs refs body early =
      (body t w.group grp (s.lanesM w grp i)).outcome w.group (lenOf i.w) := by
  obtain ⟨hf, hr, hp, hm, hv⟩ := h
  unfold State.issueM
  rw [State.issue_fetched (grp := grp) (t := t)]
  · simp only [he, hv, Option.none_or]
    rfl
  · exact hf
  · exact hr
  · exact hp
  · exact hm

/-- A matrix instruction that issues is carried out for its block. -/
theorem State.matrix_issues {s t : State} {w : Who} {grp : Grp} {b : Blk} {f : Form} {i : FmtR} {flag : Bool}
    {vecs : List (Nat × Bool)} {body : State → Nat → Grp → Nat → Blk → Nat → Bool → Eff}
    (h : s.issuesMx t w grp b f i flag vecs) :
    s.matrix w f i flag vecs body =
      (body t w.group grp (grp.active &&& 0xFFFFFFFF) b (i.aux.val % 16) (decide (16 ≤ i.aux.val))).outcome w.group
        (lenOf i.w) := by
  obtain ⟨hf, hr, hx, hp, hm, hv, hb, _⟩ := h
  unfold State.matrix State.issueR
  rw [State.issue_fetched (grp := grp) (t := t)]
  · simp only [hv, hb, if_true]
  · exact hf
  · have : (!flag && decide (16 ≤ i.aux.val)) = false := by
      rcases hx with hx | hx
      · simp [hx]
      · simp [Nat.not_le.mpr hx]
    simp [hr, this]
  · exact hp
  · simpa using hm

/-- Filling the instruction cache leaves the groups alone. -/
theorem State.icFill_groups (s : State) (core va : Nat) : (s.icFill core va).cmp.groups = s.cmp.groups := rfl

/-- Filling a TLB leaves the groups alone. -/
theorem State.tlbFill_groups (s : State) (t : Tlb) : (s.tlbFill t).cmp.groups = s.cmp.groups := by
  simp only [State.tlbFill]

/-- A look-up of an address leaves the groups alone. -/
theorem State.lookUp_groups (s : State) (cluster ctx va : Nat) (host : Bool) :
    (s.lookUp cluster ctx va host).cmp.groups = s.cmp.groups := by
  simp only [State.lookUp]
  repeat' split
  all_goals simp [State.tlbFill_groups]

/-- A look-up of the TLBs leaves the groups alone. -/
theorem State.tlbUse_groups (s : State) (cluster ctx va : Nat) : (s.tlbUse cluster ctx va).cmp.groups = s.cmp.groups := by
  simp only [State.tlbUse]
  repeat' split
  all_goals simp [State.lookUp_groups]

/-- A TLB entry that is dropped leaves the groups alone. -/
theorem State.tlbDrop_groups (cluster : Nat) (s : State) (t : Tlb) : (State.tlbDrop cluster s t).cmp.groups = s.cmp.groups := by
  simp only [State.tlbDrop, State.qtlbCount_cmp, State.foundUpset]

/-- The parity errors that look-ups find leave the groups alone. -/
theorem State.tlbSweep_groups (s : State) (cluster ctx : Nat) (l : List Nat) :
    (s.tlbSweep cluster ctx l).cmp.groups = s.cmp.groups := by
  unfold State.tlbSweep
  dsimp only
  split
  · rfl
  · exact foldl_keeps (fun t : State => t.cmp.groups) (State.tlbDrop cluster) (State.tlbDrop_groups cluster) _ _

/-- The parity errors that a fetch finds in the instruction cache leave the groups alone. -/
theorem State.icFind_groups (s : State) (core va : Nat) : (s.icFind core va).cmp.groups = s.cmp.groups := by
  unfold State.icFind
  dsimp only
  split
  · simp [State.foundUpset]
  · rfl

/-- A fetch that succeeds leaves the groups alone. -/
theorem State.fetchLine_groups {s t : State} {g : Nat} {grp : Grp} {va : Nat} (h : s.fetchLine g grp va = .ok t) :
    t.cmp.groups = s.cmp.groups := by
  unfold State.fetchLine at h
  dsimp only at h
  repeat' split at h
  all_goals first | cases h | skip
  all_goals first | rfl | (simp only [State.icFill_groups, State.tlbUse_groups, State.tlbSweep_groups, State.icFind_groups])

/-- The group that may issue is resident before the fetch and after it. -/
theorem State.fetched_grp {s t : State} {w : Who} {len : Nat} {grp : Grp} (h : s.fetched w len = some (grp, t)) :
    s.grp w.group = some grp ∧ t.grp w.group = some grp := by
  unfold State.fetched at h
  split at h <;> try cases h
  rename_i g0 hg
  split at h
  · cases h
  split at h <;> try cases h
  rename_i a ha
  split at h <;> try cases h
  rename_i b hb
  split at h
  · cases h
  cases h
  refine ⟨hg, ?_⟩
  unfold State.grp at *
  rw [State.fetchLine_groups hb, State.fetchLine_groups ha]
  exact hg

/-- A global access that finds no array error and has passed its checks acts on the places of its lanes. -/
theorem State.globalAccess_reaches {t : State} {g : Nat} {grp : Grp} {m : Nat} {addrs : List Nat} {checks : State → Checked}
    {load : Bool} {near : State → Nat → Option (State × Bool)} {act : State → List (Nat × Nat × Dst) → Eff}
    {l : List (Nat × Nat × Dst)} {scalar : Bool} (h : t.reaches g grp load addrs checks l) (hg : (t.grp g).isNone = false)
    (hq : scalar = true → ∀ x ∈ l.head?, (t.swept g grp addrs).struck .scalar (ncKey (g / 32) x.2.1) = false) :
    t.globalAccess g grp m .none addrs checks load near act scalar = act (t.looked g grp addrs) l := by
  obtain ⟨ha, hc, hr, hl⟩ := h
  have hs : ((t.tlbSweep (clusterOf (g / 32)) grp.ctx addrs).grp g).isNone = false := by
    unfold State.grp at *
    rwa [State.tlbSweep_groups]
  unfold State.swept at hc hr hq
  cases l with
  | nil => exact absurd rfl hl
  | cons x r =>
    have hn : (scalar && (t.tlbSweep (clusterOf (g / 32)) grp.ctx addrs).struck .scalar (ncKey (g / 32) x.2.1)) = false := by
      cases scalar with
      | false => rfl
      | true => simpa using hq rfl x (by simp)
    unfold State.globalAccess
    simp [ha, hc, hr, State.quadErr, hs, hn, State.looked, State.swept]

end Sys2Proof.Machine
end

