-- ==== Sys2Proof/Laws/Regs.lean ====
section
/-! SUPPORT. The register file: what a register and a field read after a register or a field is written. -/

namespace Sys2Proof.Machine

/-! ### Numbers of registers -/

/-- The register with a number. -/
theorem Reg.list_code (r : Reg) : Reg.list[r.code]? = some r := by cases r <;> rfl

theorem Reg.code_inj {r q : Reg} (h : r.code = q.code) : r = q := by
  have := Reg.list_code r
  rw [h, Reg.list_code q] at this
  exact (Option.some.inj this).symm

theorem Reg.mem_list (r : Reg) : r ∈ Reg.list := List.mem_of_getElem? (Reg.list_code r)

theorem Reg.key_div {r : Reg} {i : Nat} (h : i < 2 ^ 20) : r.key i / 2 ^ 20 = r.code := by
  simp only [Reg.key]; omega

theorem Reg.key_mod {r : Reg} {i : Nat} (h : i < 2 ^ 20) : r.key i % 2 ^ 20 = i := by
  simp only [Reg.key]; omega

/-- Registers and instances have numbers of their own. -/
theorem Reg.key_inj {r q : Reg} {i j : Nat} (hi : i < 2 ^ 20) (hj : j < 2 ^ 20) (h : r.key i = q.key j) : r = q ∧ i = j := by
  refine ⟨Reg.code_inj ?_, ?_⟩
  · rw [← Reg.key_div hi, h, Reg.key_div hj]
  · rw [← Reg.key_mod (r := r) hi, h, Reg.key_mod hj]

/-! ### Registers -/

@[simp] theorem State.reg_setReg_self (s : State) (r : Reg) (i : Nat) (v : W64) : (s.setReg r i v).reg r i = v :=
  SMap.get_set_self _ _ _ _

theorem State.reg_setReg_key (s : State) {r q : Reg} {i j : Nat} (v : W64) (h : q.key j ≠ r.key i) :
    (s.setReg r i v).reg q j = s.reg q j := SMap.get_set_ne _ _ _ _ h

theorem State.reg_setReg_reg (s : State) {r q : Reg} {i j : Nat} (v : W64) (hi : i < 2 ^ 20) (hj : j < 2 ^ 20) (h : q ≠ r) :
    (s.setReg r i v).reg q j = s.reg q j := State.reg_setReg_key s v (fun e => h (Reg.key_inj hj hi e).1)

theorem State.reg_setReg_inst (s : State) {r : Reg} {i j : Nat} (v : W64) (h : j ≠ i) :
    (s.setReg r i v).reg r j = s.reg r j := State.reg_setReg_key s v (fun e => h (by simp only [Reg.key] at e; omega))

/-! ### Bits -/

theorem testBit_bits (n lo w k : Nat) : (bits n lo w).testBit k = (decide (k < w) && n.testBit (lo + k)) := by
  simp only [bits, Nat.testBit_mod_two_pow, Nat.testBit_div_two_pow]
  rw [Nat.add_comm k lo]

theorem bits_lt (n lo w : Nat) : bits n lo w < 2 ^ w := Nat.mod_lt _ (Nat.two_pow_pos w)

theorem testBit_setBits (n lo w v k : Nat) :
    (setBits n lo w v).testBit k = if k < lo then n.testBit k else if k < lo + w then v.testBit (k - lo) else n.testBit k := by
  have h1 : n % 2 ^ lo < 2 ^ lo := Nat.mod_lt _ (Nat.two_pow_pos lo)
  have h2 : v % 2 ^ w < 2 ^ w := Nat.mod_lt _ (Nat.two_pow_pos w)
  have e : setBits n lo w v = 2 ^ lo * (2 ^ w * (n / 2 ^ (lo + w)) + v % 2 ^ w) + n % 2 ^ lo := by
    simp only [setBits, Nat.pow_add, Nat.mul_add]
    rw [Nat.mul_comm (2 ^ lo) (v % 2 ^ w), Nat.mul_comm (n / _) (2 ^ lo * 2 ^ w), Nat.mul_assoc]
  rw [e, Nat.testBit_two_pow_mul_add _ h1]
  split
  · rename_i h; simp [Nat.testBit_mod_two_pow, h]
  · rename_i h
    rw [Nat.testBit_two_pow_mul_add _ h2]
    have hk : (k - lo < w) ↔ (k < lo + w) := by omega
    simp only [hk]
    split
    · rename_i h3
      simp only [Nat.testBit_mod_two_pow, hk.mpr h3, decide_true, Bool.true_and]
    · rename_i h3
      rw [Nat.testBit_div_two_pow]
      congr 1
      omega

theorem setBits_lt {n lo w v m : Nat} (hn : n < 2 ^ m) (h : lo + w ≤ m) : setBits n lo w v < 2 ^ m := by
  apply Nat.lt_pow_two_of_testBit
  intro k hk
  rw [testBit_setBits]
  have : n.testBit k = false := Nat.testBit_lt_two_pow (Nat.lt_of_lt_of_le hn (Nat.pow_le_pow_right (by decide) hk))
  split
  · exact this
  split
  · omega
  · exact this

theorem bits_setBits_self (n lo w v : Nat) : bits (setBits n lo w v) lo w = v % 2 ^ w := by
  apply Nat.eq_of_testBit_eq
  intro k
  rw [testBit_bits, testBit_setBits, Nat.testBit_mod_two_pow]
  by_cases h : k < w
  · have : ¬ lo + k < lo := by omega
    simp [h, this]
  · simp [h]

theorem bits_setBits_other (n lo w v lo' w' : Nat) (h : lo + w ≤ lo' ∨ lo' + w' ≤ lo) :
    bits (setBits n lo w v) lo' w' = bits n lo' w' := by
  apply Nat.eq_of_testBit_eq
  intro k
  rw [testBit_bits, testBit_bits, testBit_setBits]
  by_cases hk : k < w'
  · have : lo' + k < lo ∨ lo + w ≤ lo' + k := by omega
    rcases this with h' | h'
    · simp [h']
    · simp [Nat.not_lt.mpr (Nat.le_trans (Nat.le_add_right lo w) h'), Nat.not_lt.mpr h']
  · simp [hk]

/-! ### Fields -/

theorem State.reg_fset_self (s : State) (f : Fld) (n i : Nat) :
    (s.fset f n i).reg f.reg i = BitVec.ofNat 64 (setBits (s.reg f.reg i).toNat f.lo f.width n) := State.reg_setReg_self _ _ _ _

/-- A field reads what was written to it, in its width. -/
theorem State.fget_fset_self (s : State) (f : Fld) (n i : Nat) (h : f.lo + f.width ≤ 64) :
    (s.fset f n i).fget f i = n % 2 ^ f.width := by
  simp only [State.fget, State.reg_fset_self, BitVec.toNat_ofNat]
  rw [Nat.mod_eq_of_lt (setBits_lt (s.reg f.reg i).isLt h), bits_setBits_self]

/-- Another field of the same instance keeps its value. -/
theorem State.fget_fset_field (s : State) {f g : Fld} (n i : Nat) (hr : g.reg = f.reg) (hf : f.lo + f.width ≤ 64)
    (h : f.lo + f.width ≤ g.lo ∨ g.lo + g.width ≤ f.lo) : (s.fset f n i).fget g i = s.fget g i := by
  simp only [State.fget, hr, State.reg_fset_self, BitVec.toNat_ofNat]
  rw [Nat.mod_eq_of_lt (setBits_lt (s.reg f.reg i).isLt hf), bits_setBits_other _ _ _ _ _ _ h]

theorem State.reg_fset_reg (s : State) {f : Fld} {q : Reg} (n : Nat) {i j : Nat} (hi : i < 2 ^ 20) (hj : j < 2 ^ 20)
    (h : q ≠ f.reg) : (s.fset f n i).reg q j = s.reg q j := State.reg_setReg_reg s _ hi hj h

theorem State.reg_fset_inst (s : State) {f : Fld} (n : Nat) {i j : Nat} (h : j ≠ i) :
    (s.fset f n i).reg f.reg j = s.reg f.reg j := State.reg_setReg_inst s _ h

theorem State.fget_fset_reg (s : State) {f g : Fld} (n : Nat) {i j : Nat} (hi : i < 2 ^ 20) (hj : j < 2 ^ 20)
    (h : g.reg ≠ f.reg) : (s.fset f n i).fget g j = s.fget g j := by
  simp only [State.fget, State.reg_fset_reg s n hi hj h]

theorem State.fget_fset_inst (s : State) {f g : Fld} (n : Nat) {i j : Nat} (hr : g.reg = f.reg) (h : j ≠ i) :
    (s.fset f n i).fget g j = s.fget g j := by
  simp only [State.fget, hr, State.reg_fset_inst s n h]

theorem State.flag_iff (s : State) (f : Fld) (i : Nat) : s.flag f i = true ↔ s.fget f i ≠ 0 := by simp [State.flag]

end Sys2Proof.Machine
end

