-- ==== Sys2Proof/Tests/Slice0.lean ====
section
/-! SUPPORT. Tests of the model: one small theorem after the other, each on one step of a small state; the witnesses that the
hypotheses of the statements can be met; and ill-formed commands that the check refuses. -/

namespace Sys2Proof.Tests

open Sys2Proof.Machine

/-! ### A small machine: core 0 holds a block of one group, whose instruction lines are in the instruction cache -/

/-- The group in slot 0 of core 0. -/
def grp0 : Grp := { ctx := 1, pc := 0x1000 }

/-- The machine with the group `x` in slot 0 of core 0. -/
def withGroup (x : Grp) : State :=
  { State.reset with
    cmp :=
      { ctxs := [(1, { state := .running })]
        groups := [(0, x)]
        blocks := [(0, { groups := [0], vunits := 2, units := [0, 1], engines := [0, 1] })]
        bclus := [(0, { ctx := 1, kernel := 1, number := 3, cluster := 0, desc := 0, size := 1, grid := (4, 1, 1),
                        blocks := [(0, 0)] })]
        clus := [(0, { state := .running, ctx := 1, holder := some 1 })]
        near := { ic := [(ncKey 0 0x1000, 0)] } } }

/-- The machine with one ready group. -/
def small : State := withGroup grp0

/-- The group's issuer. -/
def who0 : Who := { core := 0, slot := 0 }

/-! ### Instructions of the cores: witnesses -/

/-- A format R instruction with an 8-bit immediate. -/
def imm5 : FmtR := { bmode := 2, d := 3, a := 1, b := 5 }

theorem witness_scalarInteger : small.issuesR small who0 grp0 (scalarForm .add) imm5 :=
  ⟨rfl, rfl, rfl, by decide, rfl⟩

theorem witness_scalarSel : small.issuesR small who0 grp0 (selForm true) { imm5 with c := 1 } :=
  ⟨rfl, rfl, rfl, by decide, rfl⟩

theorem witness_scalarMov : small.issuesR small who0 grp0 (movForm true) { imm5 with a := 0 } :=
  ⟨rfl, rfl, rfl, by decide, rfl⟩

theorem witness_scalarCmp :
    small.issuesR small who0 grp0 { types := intTypes, d := .p, a := .s, sec := .scalar, mods := 6 } { imm5 with mod := 2 } :=
  ⟨rfl, rfl, rfl, by decide, rfl⟩

theorem witness_srRd :
    small.issuesR small who0 grp0 { d := .s, sec := .literal } { d := 3, b := 0x18 } ∧
      small.issuesR small who0 grp0 { d := .v, sec := .literal } { d := 3 } ∧
      small.issuesR small who0 grp0 { a := .s, sec := .literal } { a := 3, b := 0x18 } :=
  ⟨⟨rfl, rfl, rfl, by decide, rfl⟩, ⟨rfl, rfl, rfl, by decide, rfl⟩, ⟨rfl, rfl, rfl, by decide, rfl⟩⟩

theorem witness_special : (small.blk (blockKey 0 grp0)).isSome ∧ (SMap.find small.cmp.bclus 0).isSome := by decide

theorem witness_vectorInteger :
    small.issuesR small who0 grp0 (vectorForm .mulHi) { imm5 with type := 1 } ∧
      small.issuesR small who0 grp0 (selForm false) { imm5 with c := 1, type := 3, d := 4, a := 2 } ∧
      small.issuesR small who0 grp0 (movForm false) { imm5 with a := 0 } ∧
      small.issuesR small who0 grp0 { types := [0, 1], d := .v, a := .v, sec := .vector, c := .v } imm5 :=
  ⟨⟨rfl, rfl, rfl, by decide, rfl⟩, ⟨rfl, rfl, rfl, by decide, rfl⟩, ⟨rfl, rfl, rfl, by decide, rfl⟩,
    ⟨rfl, rfl, rfl, by decide, rfl⟩⟩

theorem witness_predicates :
    small.issuesR small who0 grp0 { d := .p, a := .p, sec := .pred } { d := 1, a := 2, b := 3 } ∧
      small.issuesR small who0 grp0 { d := .p, a := .p } { d := 0, a := 2 } ∧
      small.issuesR small who0 grp0 { types := [0, 1, 2, 3, 4, 5, 6, 7, 8], d := .p, a := .v, sec := .vector, mods := 6 }
        { imm5 with type := 4, mod := 5 } :=
  ⟨⟨rfl, rfl, rfl, by decide, rfl⟩, ⟨rfl, rfl, rfl, by decide, rfl⟩, ⟨rfl, rfl, rfl, by decide, rfl⟩⟩

theorem witness_lanes :
    small.issuesR small who0 grp0 { types := [7], d := .v, a := .v, sec := .vector, mods := 4 } { imm5 with type := 7, mod := 1 } ∧
      small.issuesR small who0 grp0 { d := .s, a := .p } { d := 3, a := 2 } ∧
      small.issuesR small who0 grp0 { d := .s, a := .v, sec := .lane } imm5 ∧
      small.issuesR small who0 grp0 { d := .v, a := .s } { d := 3, a := 2 } :=
  ⟨⟨rfl, rfl, rfl, by decide, rfl⟩, ⟨rfl, rfl, rfl, by decide, rfl⟩, ⟨rfl, rfl, rfl, by decide, rfl⟩,
    ⟨rfl, rfl, rfl, by decide, rfl⟩⟩

theorem witness_float :
    small.issuesR small who0 grp0 { types := [4, 5, 6], d := .v, a := .v, sec := .vector, mods := 4 } { imm5 with type := 4 } ∧
      small.issuesR small who0 grp0 { types := [4, 5, 6], d := .v, a := .v, sec := .vector, c := .v, mods := 4 }
        { imm5 with type := 5, mod := 3 } ∧
      small.issuesR small who0 grp0 { types := [4, 5, 6], d := .v, a := .v, sec := .vector } { imm5 with type := 6 } ∧
      small.issuesR small who0 grp0 { types := [4, 5, 6], d := .v, a := .v } { type := 4, d := 3, a := 1 } ∧
      small.issuesR small who0 grp0 { types := [4], d := .v, a := .v } { type := 4, d := 3, a := 1 } :=
  ⟨⟨rfl, rfl, rfl, by decide, rfl⟩, ⟨rfl, rfl, rfl, by decide, rfl⟩, ⟨rfl, rfl, rfl, by decide, rfl⟩,
    ⟨rfl, rfl, rfl, by decide, rfl⟩, ⟨rfl, rfl, rfl, by decide, rfl⟩⟩

theorem witness_rounding : fp16 ∈ [fp32, fp16, bf16] ∧ (fp16.encode 0 true 3 (-1)).2 &&& 4 = 0 := by decide

theorem witness_nan : fp32.decode 0x7FC00000 = .nan ∧ fp32.decode 0x3F800000 ≠ .nan ∧ fp32.decode 0xBF800000 = .fin true (2 ^ 23) (-23) := by
  decide

theorem witness_conversions :
    small.issuesR small who0 grp0 { d := .v, a := .v, mods := 4, auxs := 32 } { d := 3, a := 1, aux := 16 } ∧
      cvtPair 1 0 ∧
      small.issuesAll small who0 grp0 { d := .v, a := .v, sec := .imm8 } { bmode := 2, d := 3, a := 1, b := 6 } ∧
      small.issuesAll small who0 grp0 { d := .v, a := .v, sec := .imm8, mods := 4, auxs := 2 } { bmode := 2, d := 3, a := 1, b := 8 } ∧
      small.issuesAll small who0 grp0 { d := .v, a := .v, mods := 4 } { d := 3, a := 1 } ∧
      small.issuesAll small who0 grp0 { d := .s, a := .v, sec := .imm8 } { bmode := 2, d := 3, a := 1, b := 3 } ∧ mxEmax 3 = some 8 :=
  ⟨⟨rfl, rfl, rfl, by decide, rfl⟩, by decide, ⟨⟨rfl, rfl, rfl, by decide, rfl⟩, rfl⟩, ⟨⟨rfl, rfl, rfl, by decide, rfl⟩, rfl⟩,
    ⟨⟨rfl, rfl, rfl, by decide, rfl⟩, rfl⟩, ⟨⟨rfl, rfl, rfl, by decide, rfl⟩, rfl⟩, rfl⟩

/-- A group inside a loop: a LOOP entry, then a JOIN entry at its own address, and half its lanes active. -/
def grpLoop : Grp := { grp0 with stack := [⟨.loop, 0x2000, 0xFFFFFFFF⟩, ⟨.join, 0x1000, 0xFFFFFFFF⟩], active := 0xFFFF }

/-- A group with a PENDING entry on top. -/
def grpPending : Grp := { grp0 with stack := [⟨.join, 0x2000, 0xFFFFFFFF⟩, ⟨.pending, 0x1800, 0xF0⟩], active := 0xFFFF }

theorem witness_branches :
    small.issuesC small who0 grp0 ⟨false, 0, false, 4, 0⟩ false true true [] ∧
      badTarget (relTarget grp0.pc (cOff ⟨false, 0, false, 4, 0⟩)) = false ∧
      small.guardMask 0 0 false &&& grp0.active = grp0.active ∧ small.guardMask 0 0 true &&& grp0.active = 0 ∧
      small.issuesC small who0 grp0 ⟨true, 1, false, 4, 8⟩ true true true [] ∧
      small.issuesC small who0 grp0 ⟨false, 0, false, 4, 0⟩ false false true [] ∧
      small.issuesC small who0 grp0 ⟨false, 0, false, 2 ^ 23, 0⟩ false false true [.s 1] ∧
      badTarget (small.sReg 0 1) = false ∧
      small.issuesC small who0 grp0 ⟨false, 0, false, 2 ^ 31, 0⟩ false false true [.s 1] :=
  ⟨⟨rfl, rfl, rfl, .inl rfl, rfl, by decide⟩, by decide, by decide, by decide, ⟨rfl, rfl, rfl, .inl rfl, rfl, by decide⟩,
    ⟨rfl, rfl, rfl, .inr ⟨rfl, rfl⟩, rfl, by decide⟩, ⟨rfl, rfl, rfl, .inr ⟨rfl, rfl⟩, rfl, by decide⟩, by decide,
    ⟨rfl, rfl, rfl, .inr ⟨rfl, rfl⟩, rfl, by decide⟩⟩

/-- Lanes 0 to 15 of predicate p1 are set: a divergent branch splits the group. -/
def smallSplit : State := small.setP 0 1 0xFFFF

theorem witness_split :
    grp0.active &&& smallSplit.guardMask 0 1 false ≠ 0 ∧
      grp0.active &&& (smallSplit.guardMask 0 1 false ^^^ 0xFFFFFFFF) ≠ 0 ∧ grp0.stack.length ≤ 30 := by decide

theorem witness_join :
    (withGroup grpLoop).issuesC (withGroup grpLoop) who0 grpLoop {} false false true [] ∧
      grpLoop.stack = [⟨.loop, 0x2000, 0xFFFFFFFF⟩] ++ [⟨.join, 0x1000, 0xFFFFFFFF⟩] ∧
      (withGroup grpPending).issuesC (withGroup grpPending) who0 grpPending {} false false true [] :=
  ⟨⟨rfl, rfl, rfl, .inr ⟨rfl, rfl⟩, rfl, by decide⟩, rfl, ⟨rfl, rfl, rfl, .inr ⟨rfl, rfl⟩, rfl, by decide⟩⟩

/-- Lanes 0 to 7 leave the loop, or exit. -/
def loopSplit : State := (withGroup grpLoop).setP 0 1 0xFF

theorem witness_brk :
    loopSplit.issuesC loopSplit who0 grpLoop { pg := 1 } false true true [] ∧
      grpLoop.stack = [] ++ [⟨.loop, 0x2000, 0xFFFFFFFF⟩] ++ [⟨.join, 0x1000, 0xFFFFFFFF⟩] ∧
      grpLoop.active &&& ((grpLoop.active &&& loopSplit.guardMask 0 1 false) ^^^ 0xFFFFFFFF) ≠ 0 :=
  ⟨⟨rfl, rfl, rfl, .inl rfl, rfl, by decide⟩, rfl, by decide⟩

theorem witness_unwind :
    (0xF0 : Nat) &&& (0xFF ^^^ 0xFFFFFFFF) = 0 ∧ (0xF00 : Nat) &&& (0xFF ^^^ 0xFFFFFFFF) ≠ 0 := by decide

/-- No LOOP on the stack, a full stack, a split predicate, and an instruction whose lanes are none. -/
theorem witness_mismatches :
    (∀ e ∈ grp0.stack, e.kind ≠ .loop) ∧ (∀ e ∈ grp0.stack, e.kind = .pending ∧ e.mask = 0) ∧
      32 ≤ (List.replicate 32 (⟨.join, 0, 1⟩ : StackEntry)).length ∧
      smallSplit.guardMask 0 1 false &&& grp0.active ≠ 0 ∧ smallSplit.guardMask 0 1 false &&& grp0.active ≠ grp0.active ∧
      badTarget 4 = true ∧ small.lanesR who0 grp0 { d := .s, a := .p } { pneg := true } = 0 ∧
      small.fetched who0 8 = some (grp0, small) := ⟨by decide, by decide, by decide, by decide, by decide, by decide, by decide, rfl⟩

/-! ### Memory instructions: witnesses -/

/-- Translation is enabled, and the micro-TLB of cluster 0 maps the page at 0x10000 onto itself with every right. -/
def mapped : State :=
  let s := small.fset F.XLT_CTT_BASE_EN 1 0
  { s with cmp := { s.cmp with
      tlbs := [{ quad := false, unit := 0, ctx := 1, base := 0x10000, size := 65536, rd := true, wr := true, at' := true,
                 out := 0x10000 }]
      sregs := [(1, 0x10008)]
      ctxs := [(1, { state := .running, service := true })] } }

/-- One lane of the group is active. -/
def lane0 : State := { mapped with cmp := { mapped.cmp with groups := [(0, { grp0 with active := 1 })] } }

/-- A group with one active lane. -/
def grp1 : Grp := { grp0 with active := 1 }

/-- A format M instruction with its base in scalar register 1, SIZE 2. -/
def mem4 : FmtM := { size := 2, d := 4, a := 1, low := 2 ^ 22 }

/-- The base in scalar register 1 holds a local address. -/
def lane0L : State := { lane0 with cmp := { lane0.cmp with sregs := [(1, 0x10)] } }

theorem witness_local :
    lane0L.issuesM lane0L who0 grp1 mem4 (({ pair := false } : MForm).reserved mem4) (memVecs 4 false false mem4) [] ∧
      lane0L.localLanes 0 grp1 mem4 (mOffset mem4) 4 1 true false = .ok [(0, 0x10)] ∧
      lane0L.localLanes 0 grp1 mem4 (mOffset mem4) 4 1 false true = .ok [(0, 0x10)] ∧ lane0L.lmPoisoned 0x10 = false :=
  ⟨⟨rfl, rfl, rfl, by decide, rfl⟩, rfl, rfl, by decide⟩

/-- An atomic's fields: D 4, A scalar register 1, B 6; `u32`, without order and as a release and acquire. -/
def atom0 : FmtM := { size := 0, d := 4, a := 1, low := 2 ^ 22 + 6 * 2 ^ 10 }
def atom3 : FmtM := { size := 0, scope := 1, d := 4, a := 1, low := 2 ^ 22 + 3 * 2 ^ 20 + 6 * 2 ^ 10 }

theorem witness_atomLocal :
    lane0L.issuesM lane0L who0 grp1 atom0 (atomReserved .add false atom0) (atomVecs .add false false atom0)
        (atomRefs .add false atom0) ∧
      lane0L.localLanes 0 grp1 atom0 0 4 1 true true = .ok [(0, 0x10)] ∧ lane0L.atomReady lane0L 0 atom0 ∧ lane0L.localHeld 0 [(0, 0x10)] 4 = false ∧
      lane0L.atomReady lane0L 0 atom3 :=
  ⟨⟨rfl, rfl, rfl, by decide, rfl⟩, rfl, rfl, rfl, ⟨rfl, rfl⟩⟩

theorem witness_global :
    lane0.issuesM lane0 who0 grp1 mem4 (({ hint := true } : MForm).reserved mem4) (memVecs 4 true false mem4) [] ∧
      lane0.issuesM lane0 who0 grp1 mem4 (({ scope := true } : MForm).reserved mem4) (memVecs 4 true false mem4) [] ∧
      lane0.issuesM lane0 who0 grp1 mem4 (({} : MForm).reserved mem4) (memVecs 4 true false mem4) [] ∧
      lane0.serviceLevel grp1 ∧
      lane0.reaches 0 grp1 true (lane0.laneAddrs 0 mem4 0 1) (fun t => t.globalLanes 0 grp1 mem4 0 4 1 .read true false) [(0, 0x10008, ⟨0, 0, 0x10008⟩)] ∧
      lane0.reaches 0 grp1 false (lane0.laneAddrs 0 mem4 0 1) (fun t => t.globalLanes 0 grp1 mem4 0 4 1 .write false true) [(0, 0x10008, ⟨0, 0, 0x10008⟩)] ∧
      lane0.reaches 0 grp1 true [] (fun t => t.physicalLanes 0 mem4 0 4 1) [(0, 0x10008, ⟨0, 3, 0x10008⟩)] ∧
      lane0.releaseFirst 0 0 = .done lane0 :=
  ⟨⟨rfl, rfl, rfl, by decide, rfl⟩, ⟨rfl, rfl, rfl, by decide, rfl⟩, ⟨rfl, rfl, rfl, by decide, rfl⟩, by decide,
    ⟨rfl, rfl, rfl, by decide⟩, ⟨rfl, rfl, rfl, by decide⟩, ⟨rfl, rfl, rfl, by decide⟩, rfl⟩

theorem witness_notService :
    lane0L.issuesM lane0L who0 grp1 mem4 (({} : MForm).reserved mem4) (memVecs 4 true false mem4) [] ∧
      (withGroup grp1).serviceLevel grp1 = false :=
  ⟨⟨rfl, rfl, rfl, by decide, rfl⟩, by decide⟩

/-- Whether the scalar cache holds the line, and whether its page is UC. -/
def lane0Hit : State :=
  { lane0 with cmp := { lane0.cmp with near := { lane0.cmp.near with sc := [(ncKey 0 0x10008, { data := 0 })] } } }
def lane0Uc : State :=
  { lane0 with cmp := { lane0.cmp with
      tlbs := [{ quad := false, unit := 0, ctx := 1, base := 0x10000, size := 65536, rd := true, wr := true, attr := 3,
                 out := 0x10000 }] } }

theorem witness_scalar :
    lane0.issuesM lane0 who0 grp1 mem4 (({ high := 3, scalar := true } : MForm).reserved mem4) (memVecs 4 true true mem4)
        [.s mem4.d.val] ∧
      lane0.scFilling 0 0x10008 = false ∧ (lane0.scHit 0 0x10008).isNone ∧ (lane0Hit.scHit 0 0x10008).isSome ∧
      lane0Uc.reaches 0 grp1 false (lane0Uc.laneAddrs 0 mem4 0 1) (fun t => t.globalLanes 0 grp1 mem4 0 4 1 .write false true) [(0, 0x10008, ⟨0, 3, 0x10008⟩)] :=
  ⟨⟨rfl, rfl, rfl, by decide, rfl⟩, by decide, by decide, by decide, ⟨rfl, rfl, rfl, by decide⟩⟩

/-- A `st.cond` of scalar register 5. -/
def cond4 : FmtM := { size := 2, d := 4, a := 1, low := 5 * 2 ^ 15 }

theorem witness_reserved :
    lane0.reaches 0 grp1 true (lane0.laneAddrs 0 mem4 0 1) (fun t => t.globalLanes 0 grp1 mem4 0 4 1 .loadRsv true true) [(0, 0x10008, ⟨0, 0, 0x10008⟩)] ∧
      lane0.issuesM lane0 who0 grp1 mem4 (({ low := 2, high := 3, scalar := true } : MForm).reserved mem4)
        (memVecs 4 true true mem4) [.s mem4.d.val] ∧
      lane0.issuesM lane0 who0 grp1 { cond4 with low := 2 ^ 22 } (condReserved cond4) [] [.s 4, .s 5] ∧
      lane0.reaches 0 grp1 true (lane0.laneAddrs 0 { cond4 with low := 2 ^ 22 } 0 1) (fun t => t.globalLanes 0 grp1 { cond4 with low := 2 ^ 22 } 0 4 1 .storeCond true true)
        [(0, 0x10008, ⟨0, 0, 0x10008⟩)] ∧
      lane0.issuesM lane0 who0 grp1 atom0 (atomReserved .add false atom0) (atomVecs .add false true atom0)
        (atomRefs .add false atom0) ∧
      lane0.reaches 0 grp1 false (lane0.laneAddrs 0 atom0 0 1) (fun t => t.globalLanes 0 grp1 atom0 0 4 1 .atomic true true) [(0, 0x10008, ⟨0, 0, 0x10008⟩)] :=
  ⟨⟨rfl, rfl, rfl, by decide⟩, ⟨rfl, rfl, rfl, by decide, rfl⟩, ⟨rfl, rfl, rfl, by decide, rfl⟩, ⟨rfl, rfl, rfl, by decide⟩,
    ⟨rfl, rfl, rfl, by decide, rfl⟩, ⟨rfl, rfl, rfl, by decide⟩⟩

/-! ### Fences, barriers and cache control: witnesses -/

theorem witness_fence :
    small.issuesR small who0 grp0 { mods := 6 } {} ∧ small.loadsBack 0 ∧ small.storesDone 0 1 ∧ small.errorsKnown 0 1 ∧
      (small.grp 0).bind (fun x => x.deferredIn 1) = none ∧
      ((small.releaseSide 0).pump).storesDone 0 2 ∧ ((small.releaseSide 0).pump).errorsKnown 0 2 :=
  ⟨⟨rfl, rfl, rfl, by decide, rfl⟩, by decide, by decide, by decide, by decide, by decide, by decide⟩

/-- A load of the group is outstanding. -/
def smallLoad : State :=
  { small with cmp := { small.cmp with accs := [{ core := 0, slot := 0, ctx := 1, kind := .load, line := 5 }] } }

/-- A store of the group is outstanding. -/
def smallStore : State :=
  { small with cmp := { small.cmp with
      accs := [{ core := 0, slot := 0, ctx := 1, kind := .store, line := 5, rel := some 1 }] } }

theorem witness_fenceWaits :
    smallLoad.issuesR smallLoad who0 grp0 { mods := 6 } {} ∧ smallLoad.loadsBack 0 = false ∧
      smallStore.issuesR smallStore who0 grp0 { mods := 6 } {} ∧ smallStore.storesDone 0 0 = false :=
  ⟨⟨rfl, rfl, rfl, by decide, rfl⟩, by decide, ⟨rfl, rfl, rfl, by decide, rfl⟩, by decide⟩

/-- `bar.block` with n = 2 by an 8-bit immediate. -/
def bar2 : FmtR := { bmode := 2, b := 2 }

/-- A round of two groups that is full; another that is not. -/
def smallRound (full : Bool) : State :=
  { small with cmp := { small.cmp with
      blocks := [(0, { groups := [0], rounds := [(0, { n := 2, arrived := if full then [0, 1] else [1] })] })] } }

theorem witness_barriers :
    small.issuesR small who0 grp0 { sec := .imm, auxs := 4 } bar2 ∧ (small.blk (blockKey 0 grp0)).isSome ∧
      small.issuesR small who0 grp0 {} {} ∧ (smallRound false).issuesR (smallRound false) who0 grp0 { sec := .imm, auxs := 4 } bar2 ∧
      (smallRound true).storesDone 0 1 ∧ (smallRound true).storesDone 1 1 :=
  ⟨⟨rfl, rfl, rfl, by decide, rfl⟩, by decide, ⟨rfl, rfl, rfl, by decide, rfl⟩, ⟨rfl, rfl, rfl, by decide, rfl⟩, by decide, by decide⟩

/-- The block's cluster of two blocks. -/
def smallPair : State :=
  { small with cmp := { small.cmp with
      bclus := [(0, { ctx := 1, kernel := 1, number := 0, cluster := 0, desc := 0, size := 2, grid := (2, 1, 1),
                      blocks := [(0, 0), (1, 0)] })] } }

theorem witness_barCluster :
    smallPair.issuesR smallPair who0 grp0 {} {} ∧
      (((smallPair.releaseSide 0).pump.blk 0).bind (fun b => SMap.find (smallPair.releaseSide 0).pump.cmp.bclus b.bc)).map (·.size) =
        some 2 :=
  ⟨⟨rfl, rfl, rfl, by decide, rfl⟩, by decide⟩

/-- `cinv` on all lines, and on a range of 0x20 bytes by a long immediate. -/
def cinvAll : FmtR := { bmode := 1, aux := 1 }
def cinvRange : FmtR := { w := true, bmode := 3, a := 1, imm := 0x20 }

/-- Cache control, a tile mark. -/
theorem witness_cache :
    small.issuesR small who0 grp0 { a := .s, sec := .scalar, auxs := 2 } cinvAll ∧
      small.issuesR small who0 grp0 { a := .s, sec := .scalar, auxs := 2 } cinvRange ∧
      small.issuesR small who0 grp0 { sec := .literal } { b := 7 } ∧ small.preempt 0 = false ∧ small.matrixBusy 0 = false :=
  ⟨⟨rfl, rfl, rfl, by decide, rfl⟩, ⟨rfl, rfl, rfl, by decide, rfl⟩, ⟨rfl, rfl, rfl, by decide, rfl⟩, by decide, by decide⟩

/-- A write that covers a granule and the end of the one before makes the covered one sound and leaves the other poisoned (R188). -/
theorem test_wide_write_clears_poison :
    (({ State.reset with cmp := { State.reset.cmp with lmPoison := [0, 1] } } : State).lmWrite
      [(12, List.replicate 20 7)]).cmp.lmPoison = [0] := by rfl

/-- An acquire of the group is outstanding; so is one on the bytes at 0x10 of local memory. -/
def lane0Acq : State :=
  { lane0L with cmp := { lane0L.cmp with accs := [{ core := 0, slot := 0, ctx := 1, kind := .load, line := 5, acq := some 2 }] } }

/-- The line of 0x10008 is being filled into the scalar cache. -/
def lane0Fill : State :=
  { lane0 with cmp := { lane0.cmp with
      accs := [{ core := 0, slot := 0, ctx := 1, kind := .load, line := 5, va := 0x10008, fill := .scalar }] } }

/-- The addresses of the lane of a scalar access, and the state in which it acts. -/
def addrs4 : List Nat := lane0.laneAddrs 0 mem4 (mOffset mem4) 1
def looked4 (s : State) : State := s.looked 0 grp1 addrs4

theorem witness_held :
    lane0L.localHeld 0 [(0, 0x10)] 4 = false ∧ lane0Acq.localHeld 0 [(0, 0x10)] 4 = true ∧ lane0.acquiring 0 = false ∧
      (lane0.swept 0 grp1 addrs4).struck .scalar (ncKey 0 0x10008) = false ∧ (looked4 lane0).scFilling 0 0x10008 = false ∧
      (looked4 lane0Fill).scFilling 0 0x10008 = true ∧ ((looked4 lane0).scHit 0 0x10008).isNone ∧
      ((looked4 lane0Hit).scHit 0 0x10008).map (fun x => x.2.2) = some false ∧ ((looked4 lane0).scRoom 0).2 = false ∧
      ordRel (mOrd atom0) = false ∧ ordRel (mOrd atom3) = true ∧
      (lane0L.lmFind (lmPartial [(0x10, 4)])).lmPoisoned 0x10 = false := by
  decide

/-- Pages of the three other cache policies: the lane's destination carries ATTR. -/
theorem witness_attr :
    ∀ a ∈ [1, 2, 3],
      (match ({ lane0 with cmp := { lane0.cmp with
          tlbs := [{ quad := false, unit := 0, ctx := 1, base := 0x10000, size := 65536, rd := true, wr := true, attr := a,
                     out := 0x10000 }] } } : State).globalLanes 0 grp1 mem4 0 4 1 .write false true with
        | .ok l => l.map (fun x => (x.2.1, x.2.2.target, x.2.2.attr))
        | _ => []) = [(0x10008, 0, a)] := by
  decide

theorem witness_marks :
    let s : State := small.updCluster 0 (fun c => { c with state := .stopping, grace := some 5 })
    s.preempt 0 = true ∧ s.matrixBusy 0 = false ∧
      ({ s with cmp := { s.cmp with engs := [(0, { block := 0, handle := 0, act := { leader := 0 }, pend := { leader := 0 }, queue := [.zero 0] })] } } : State).matrixBusy 0 = true := by
  decide

/-! ### Matrix engines: witnesses -/

/-- The two engines of the block, both idle, of gangs of one. -/
def eng0 : Eng := { block := 0, handle := 0, act := { leader := 0 }, pend := { leader := 0 } }
def eng1 : Eng := { block := 0, handle := 1, act := { leader := 1 }, pend := { leader := 1 } }

/-- The small machine with its engines. -/
def smallMx (e : Eng) : State := { small with cmp := { small.cmp with engs := [(0, e), (1, eng1)] } }

/-- The block of the small machine. -/
def blk0 : Blk := { groups := [0], vunits := 2, units := [0, 1], engines := [0, 1] }

theorem witness_mx :
    blk0.engKey 0 0 = some 0 ∧ (smallMx eng0).eng 0 = some eng0 ∧ (smallMx eng0).queueFree 0 ∧ grp0.feedError 1 = none ∧
      (smallMx eng0).issuesMx (smallMx eng0) who0 grp0 blk0 {} {} true [] ∧
      (smallMx eng0).issuesMx (smallMx eng0) who0 grp0 blk0 {} { aux := 16 } true [] ∧
      (smallMx eng0).issuesMx (smallMx eng0) who0 grp0 blk0 { d := .v } { d := 8 } false (eight 8) ∧
      (smallMx eng0).issuesMx (smallMx eng0) who0 grp0 blk0 { a := .v } { a := 8 } false (eight 8) ∧
      (smallMx eng0).accWrites 0 < 2 ∧
      (smallMx eng0).issuesMx (smallMx eng0) who0 grp0 blk0 { d := .s } { d := 3 } true [] :=
  ⟨rfl, rfl, fun e h => by cases h; decide, rfl, ⟨rfl, rfl, .inl rfl, rfl, by decide, rfl, rfl, rfl⟩,
    ⟨rfl, rfl, .inl rfl, rfl, by decide, rfl, rfl, rfl⟩, ⟨rfl, rfl, .inr (by decide), rfl, by decide, rfl, rfl, rfl⟩,
    ⟨rfl, rfl, .inr (by decide), rfl, by decide, rfl, rfl, rfl⟩, by decide, ⟨rfl, rfl, .inl rfl, rfl, by decide, rfl, rfl, rfl⟩⟩

/-- Descriptors of a tile in scalar registers 1, 2 and 3: panels at 0 and 0x4000, one chunk. -/
def smallTile : State :=
  { smallMx eng0 with cmp := { (smallMx eng0).cmp with sregs := [(2, 0x4000), (3, 1)] } }

theorem witness_mxTile :
    (smallMx eng0).issuesMx (smallMx eng0) who0 grp0 blk0 { a := .s } { a := 1 } false [] ∧ cfgReserved 0 = false ∧
      (smallMx eng0).flag F.MXE_CTL_BCAST_ONLY 0 = false ∧
      smallTile.issuesMx smallTile who0 grp0 blk0 { a := .s, sec := .sOnly, c := .s } { a := 1, b := 2, c := 3, bmode := 1 } false
        [] ∧
      smallTile.sReg 0 1 = 0 ∧ smallTile.sReg 0 2 = 0x4000 + 0 * 2 ^ 24 ∧ smallTile.sReg 0 3 = 1 ∧ cfgAch 0 ≤ 65536 ∧
      0x4000 + cfgWch 0 ≤ 65536 :=
  ⟨⟨rfl, rfl, .inr (by decide), rfl, by decide, rfl, rfl, rfl⟩, by decide, by decide,
    ⟨rfl, rfl, .inr (by decide), rfl, by decide, rfl, rfl, rfl⟩, by decide, by decide, by decide, by decide, by decide⟩

theorem witness_mxDivergence :
    (withGroup grp1).fetched who0 8 = some (grp1, withGroup grp1) ∧ grp1.active ≠ grp1.live ∧ (withGroup grp1).pendingRefs 0 = [] :=
  ⟨rfl, by decide, by decide⟩

theorem witness_mxQueue :
    (smallMx { eng0 with queue := [.cfg 0 1 [0]] }).enginesRun 0 ∧
      ((smallMx { eng0 with queue := [.cfg 0 1 [0]] }).eng 0).bind (fun x => x.queue.head?) = some (.cfg 0 1 [0]) ∧
      (smallMx { eng0 with queue := [.mma 0 0 0x4000 0 0 1 0] }).gangOf 0 { eng0 with queue := [.mma 0 0 0x4000 0 0 1 0] } = [0] ∧
      (smallMx { eng0 with queue := [.accRd 0 8] }).grp 0 = some grp0 := by
  decide

/-- The engine at a tile of one chunk, before it starts and in it. -/
def engTile (run : Bool) : Eng :=
  { eng0 with queue := [.mma 0 0 0x4000 0 0 1 0x1000], running := run }

theorem witness_mxEvents :
    (engTile false).tile.isSome ∧ (smallMx (engTile true)).enginesRun 0 ∧ (smallMx (engTile true)).gangOf 0 (engTile true) = [0] ∧
      (engTile true).chunk < (((engTile true).tile.map (fun t => t.2.2.kch)).getD 0) ∧
      (smallMx { engTile true with chunk := 1 }).gangOf 0 { engTile true with chunk := 1 } = [0] ∧ cfgMode 0 = 0 ∧ cfgMode 1 = 1 := by
  decide

theorem witness_mxWaits :
    (smallMx { eng0 with queue := [.zero 0] }).issuesMx (smallMx { eng0 with queue := [.zero 0] }) who0 grp0 blk0 {} {} true [] ∧
      grp0.engines = [] ∧ grp0.feedError 1 = none ∧ ((blk0.engKey 0 0).bind (smallMx eng0).eng).isSome :=
  ⟨⟨rfl, rfl, .inl rfl, rfl, by decide, rfl, rfl, rfl⟩, rfl, rfl, rfl⟩

/-! ### Registers, commit groups and Ring time: witnesses -/

/-- The machine after reset with Taproot and the registers open to the PF and to Taproot. -/
def rst : State := State.reset

theorem witness_fields :
    Reg.TB_STATUS.spec.fields.any (fun f => f.acc = .ro) ∧ Reg.XLT_RESUME.spec.fields.any (fun f => f.acc = .wo) ∧
      Reg.TB_SRC_COMMIT.spec.fields.any (fun f => f.acc = .sc) ∧ Reg.TB_SRC_COMMIT.spec.fields.any (fun f => f.acc = .w1c) ∧
      Reg.TB_SRC_COMMIT.spec.fields.any (fun f => f.acc = .rw ∧ f.legal = none) ∧
      Reg.TB_SRC_CFG.spec.fields.any (fun f => f.acc = .cm) ∧ clearedWith ⟨.TB_SRC_COMMIT, 3, 1⟩ = [] := by
  decide

theorem witness_access :
    writeFormed .taproot 0x500 3 = true ∧ mbxOdd 0x500 3 = false ∧ writeFormed .taproot 0x410000 0 = true ∧ mbxOdd 0x410000 0 = true ∧ accessParts 0x500 3 5 = [] ∧
      (accessParts (Reg.TB_GRIGA_PORTS.addr 0) 2 5).map (fun a => (a.reg, a.reg.plain)) = [(.TB_GRIGA_PORTS, true)] ∧
      reachOk Reg.TB_GRIGA_PORTS.spec.wr .taproot = true ∧ rst.regOpen .taproot .TB_GRIGA_PORTS 0 = true ∧
      reachOk Reg.TB_GRIGA_PORTS.spec.wr (.vf 1) = false ∧ rst.regOpen .pf .TB_GRIGA_PORTS 0 = false ∧
      accessFormed (Reg.TB_GRIGA_PORTS.addr 0) 2 = true ∧ readable (.vf 1) .TB_GRIGA_PORTS = false := by
  decide

/-- Taproot holds the high half of a reading of Ring time. -/
def latched : State := { rst with ring := { rst.ring with latches := [(.taproot, 7)] } }

theorem witness_tbNow :
    rst.arrives .taproot false false = true ∧ rst.latchOf .taproot = none ∧ latched.latchOf .taproot = some 7 := by
  decide

/-- The PF may write the commit register of the time sources; COMMIT reads 1. -/
def committing : State := rst.fset (fCommit .tbSrc) 1 0

theorem witness_commit :
    0 < groupCount .tbSrc ∧ groupCount .tbSrc ≤ 1 ∧ rst.mayWrite .taproot .TB_SRC_COMMIT 0 ∧ (5 : W32).getLsbD 2 = true ∧
      (rst.writeReg .TB_SRC_COMMIT 0 1 Reg.TB_SRC_COMMIT.full).flag (fCommit .tbSrc) 0 = false ∧
      committing.mayWrite .taproot .TB_SRC_COMMIT 0 ∧
      (committing.writeReg .TB_SRC_COMMIT 0 1 Reg.TB_SRC_COMMIT.full).flag (fCommit .tbSrc) 0 = true :=
  ⟨by decide, by decide, ⟨by decide, by decide⟩, by decide, by decide, ⟨by decide, by decide⟩, by decide⟩

/-- A commit of EN = 0 of queue pair 0 waits until the pair's commands are over. -/
def stoppingPair : State :=
  let s := ((rst.fset F.CNP_QP_CFG_EN 1 0).fset (fCommit .cnpQp) 1 0).updQp 0 (fun p => { p with stopping := true })
  { s with snaps := [(Reg.CNP_QP_COMMIT.key 0, [(Reg.CNP_QP_CFG.key 0, 0)])] }

theorem witness_commitApply :
    committing.flag (fCommit .tbSrc) 0 = true ∧ committing.qpStops .tbSrc 0 [] = false ∧ committing.pwr.pwrGood = true ∧ rst.flag F.TB_SRC_COMMIT_COMMIT = false ∧
      (∀ h < 16, h ≠ 3 → (rst.fset (fCommit .homRsv) 1 3).flag F.HOM_RSV_COMMIT_COMMIT h = false) ∧
      (rst.fset (fCommit .homRsv) 1 3).flag (fCommit .homRsv) 3 = true ∧ rst.slotNo = rst.ring.slot ∧ rst.ring.due = false ∧
      rst.now + 250000 < 2 ^ 64 ∧
      stoppingPair.flag (fCommit .cnpQp) 0 = true ∧
      stoppingPair.qpStops .cnpQp 0 (SMap.get stoppingPair.snaps [] (Reg.CNP_QP_COMMIT.key 0)) = true ∧
      (stoppingPair.qp 0).stopping = true ∧ (stoppingPair.qp 0).started = [] ∧ (stoppingPair.qp 0).held = none ∧
      (stoppingPair.qp 0).waiting = [] ∧ (stoppingPair.qp 0).fetching = false := by
  decide

/-- Griga time is enabled on port 2; PTM, both pulse inputs. -/
def sourcesOn : State :=
  ((((rst.fset F.TB_SRC_CFG_EN_GRIGA 1 0).fset F.TB_GRIGA_PORTS_PORTS 4 0).fset F.TB_SRC_CFG_EN_PTM 1 0).fset
    F.TB_SRC_CFG_EN_PPS0 1 0).fset F.TB_SRC_CFG_EN_PPS2 1 0

/-- A qualified track. -/
def track : Track := { count := 4, qualified := true, last := some (0, 100) }

/-- Port 5 is qualified, PTM too, and port 2 is in use. -/
def onPort : State :=
  let s := (rst.fset F.TB_STATUS_SRC 1 0).fset F.TB_STATUS_STATE 1 0
  { s with ring := { s.ring with ports := [(5, track)], ptm := track, port := 2 } }

theorem witness_sources :
    (sourcesOn.flag F.TB_SRC_CFG_EN_GRIGA ∧ sourcesOn.flag F.TB_SRC_CFG_MASTER = false ∧
      (sourcesOn.fget F.TB_GRIGA_PORTS_PORTS).testBit 2) ∧
    sourcesOn.flag F.TB_SRC_CFG_EN_PTM ∧ (rst.fset F.TB_SRC_CFG_EN_PTM 0 0).flag F.TB_SRC_CFG_EN_PTM = false ∧
    (sourcesOn.setFunc 0 { ptmEnable := true }).flag F.TB_SRC_CFG_EN_PTM ∧
    ((sourcesOn.setFunc 0 { ptmEnable := true }).func 0).ptmEnable ∧
    sourcesOn.flag F.TB_SRC_CFG_EN_PPS0 ∧ sourcesOn.ring.secWrites = [] ∧ sourcesOn.secHeld.2 = false ∧
    ({ sourcesOn with ring := { sourcesOn.ring with secWrites := [(0, 7)] } } : State).secHeld = (7, true) ∧ sourcesOn.flag F.TB_SRC_CFG_EN_PPS2 := by
  decide

theorem witness_sourceEvents :
    (onPort.portTrack 5).last.isSome ∧ onPort.ring.ptm.last.isSome ∧ onPort.preferredPort = some 5 ∧
      onPort.fget F.TB_STATUS_SRC = 1 ∧ onPort.ring.port = 2 ∧ onPort.bestSource = 1 ∧
      (onPort.fset F.TB_STATUS_SRC 2 0).higherSources = [1] ∧
      ({ onPort with ring := { onPort.ring with pref := some (5, 0) } } : State).ring.pref = some (5, 0) ∧
      (rst.fset F.TB_STATUS_STATE 2 0).fget F.TB_STATUS_STATE = 2 := by
  decide

/-- A lock from Unlocked, and one with an offset of 100 ns and one beyond 10 µs. -/
theorem witness_lock :
    rst.fget F.TB_STATUS_STATE = 0 ∧ onPort.fget F.TB_STATUS_STATE ≠ 0 ∧ (onPort.srcTime 2 : Int) - onPort.now = 100 ∧
      ({ onPort with ring := { onPort.ring with ptm := { track with last := some (0, 10001) } } } : State).srcTime 2 = 10001 := by
  decide

/-- Port 0 is Up on a package that is the master of the stand's time. -/
def masterUp : State :=
  ((((rst.fset F.GRG_PORT_STATUS_STATE 4 0).fset F.TB_SRC_CFG_MASTER 1 0).fset F.TB_STATUS_STATE 1 0).fset
    F.TB_GRIGA_PORTS_PORTS 1 0)

theorem witness_slotBoundary :
    masterUp.pwr.pwrGood ∧ masterUp.flag F.TB_SRC_COMMIT_COMMIT = false ∧
      (∀ h < 16, masterUp.flag F.HOM_RSV_COMMIT_COMMIT h = false) ∧ masterUp.duty.announced = none ∧
      masterUp.flag F.CNP_CTL_EN = false ∧ masterUp.flag F.CNP_CTL_ACCT_EN = false ∧ masterUp.slotNo = masterUp.ring.slot ∧
      masterUp.ring.due = false ∧ masterUp.now + 250000 < 2 ^ 64 ∧ masterUp.ring.ringU < 2 ^ 64 * 110000 ∧
      masterUp.fget F.GRG_PORT_STATUS_STATE 0 = 4 ∧ masterUp.flag F.TB_SRC_CFG_MASTER ∧ masterUp.fget F.TB_STATUS_STATE ≠ 0 ∧
      (masterUp.fget F.TB_GRIGA_PORTS_PORTS).testBit 0 ∧
      ({ masterUp with ring := { masterUp.ring with ringU := 250000 * 110000 } } : State).slotNo ≠ masterUp.ring.slot := by
  decide

theorem witness_idle : rst.pending = [] ∧ rst.ring.slew = 0 ∧ rst.ring.rate = 0 ∧ rst.ring.phase = 0 := by decide

/-! ### Stream engines, placement and local-memory service: witnesses -/

/-- A descriptor: one row of 16 bytes from local 0 to local 0x100. -/
def copyDesc : List Byte :=
  toBytes 0x30 8 ++ toBytes 0 8 ++ toBytes 0x100 8 ++ toBytes (16 + 2 ^ 32) 8 ++ List.replicate 32 0

/-- A scalar register of the group holds the address of a descriptor. -/
def withS (s : State) (n : Nat) (v : W64) : State := { s with cmp := { s.cmp with sregs := [(n, v)] } }

/-- The descriptor stands in local memory at 0x40. -/
def withDesc : State :=
  let s := withS small 1 0x40
  { s with cmp := { s.cmp with lm := [(0x40, 0x30), (0x51, 1), (0x58, 16), (0x5C, 1)] } }

set_option maxRecDepth 4000 in
theorem witness_steSub :
    let f : Form := { d := .s, a := .s, auxs := 2, noGuard := true }
    let i : FmtR := { d := 3, a := 1 }
    let s := withS small 1 0x41
    let u := withS small 1 0x800000
    let v := withS small 1 0x40
    ((s.steFirst 0).2 = true ∧ s.issuesR s who0 grp0 f i ∧ ((s.steFirst 0).1.steq 0).xfers.length < 8 ∧ s.sReg 0 1 % 64 ≠ 0) ∧
      ((u.steFirst 0).2 = true ∧ u.issuesR u who0 grp0 f i ∧ u.sReg 0 1 % 64 = 0 ∧ 2 ^ 23 ≤ u.sReg 0 1) ∧
      ((v.steFirst 0).2 = true ∧ v.issuesR v who0 grp0 f i ∧
        (v.lmFetch 0 0x40 64).map (fun x => (x.1.descFault 0 (Desc.of x.2.1), x.2.2)) = some (some 2, false)) ∧
      ((withDesc.steFirst 0).2 = true ∧ withDesc.issuesR withDesc who0 grp0 f i ∧
        (withDesc.lmFetch 0 0x40 64).map (fun x => (x.1.descFault 0 (Desc.of x.2.1), x.2.2)) = some (none, false)) :=
  ⟨⟨by decide, ⟨rfl, rfl, rfl, by decide, rfl⟩, by decide, by decide⟩, ⟨by decide, ⟨rfl, rfl, rfl, by decide, rfl⟩, by decide, by decide⟩,
    ⟨by decide, ⟨rfl, rfl, rfl, by decide, rfl⟩, by decide⟩, ⟨by decide, ⟨rfl, rfl, rfl, by decide, rfl⟩, by decide⟩⟩

/-- A transfer of the descriptor above. -/
def xfer0 : Xfer := { desc := copyDesc, seq := 1, ctx := 1, core := 0, slot := 0 }

/-- The block's first stream queue. -/
def withQueue (q : SteQ) : State := { small with cmp := { small.cmp with steqs := [(0, q)] } }

theorem witness_steWait :
    let f : Form := { d := .s, a := .s, noGuard := true }
    let i : FmtR := { d := 3, a := 1 }
    let s := withS (withQueue { seq := 1, xfers := [xfer0] }) 1 1
    let t := withS (withQueue { seq := 1, held := [(1, 1)] }) 1 1
    (s.steFirst 0).2 = true ∧ (smallStore.steFirst 0).2 = false ∧ s.issuesR s who0 grp0 f i ∧ grp0.streamError (fun p => p == 1) = none ∧
      (s.steFirst 0).1.ticketStatus 0 1 = none ∧ (t.steFirst 0).2 = true ∧ t.issuesR t who0 grp0 f i ∧
      (t.steFirst 0).1.ticketStatus 0 1 = some 1 ∧ s.issuesR s who0 grp0 { auxs := 4, noGuard := true } { aux := 3 } ∧
      ((s.steFirst 0).1.steq 0).xfers ≠ [] ∧ ((t.steFirst 0).1.steq 0).xfers = [] ∧ ((t.steFirst 0).1.steq 1).xfers = [] ∧
      grp0.streamError (fun p => [0, 1].contains (p / 2 ^ 32)) = none :=
  ⟨by decide, by decide, ⟨rfl, rfl, rfl, by decide, rfl⟩, by decide, by decide, by decide, ⟨rfl, rfl, rfl, by decide, rfl⟩, by decide,
    ⟨rfl, rfl, rfl, by decide, rfl⟩, by decide, by decide, by decide, by decide⟩

/-- The transfer stands in the block's first stream queue, from 0 to 0x100; a chunk of it is in flight. -/
def withXfer : State := withQueue { seq := 1, xfers := [xfer0] }

theorem witness_chunkIssue :
    let d := Desc.of xfer0.desc
    withXfer.rotationOf 0 0 = [0] ∧ (withXfer.steq 0).xfers = [xfer0] ∧ withXfer.inFlight 0 = [] ∧ withXfer.streamReady 0 ∧
      d.op = 0 ∧ d.srcL ∧ d.dstL ∧ d.chkS = false ∧ d.chkD = false ∧ d.red = 0 ∧ d.rows = 1 ∧ d.rowlen = 16 ∧ d.src = 0 ∧
      d.dst = 0x100 ∧ (withXfer.engineChunks 0).length < 64 ∧ withXfer.blkPlace 0 d.src = some 0 ∧ withXfer.blkPlace 0 d.dst = some 0x100 ∧
      (∀ j < d.rowlen, (withXfer.lmFind ((List.range d.rowlen).map (fun j => 0 + j))).lmPoisoned (0 + j) = false) := by
  decide

/-- A chunk of the transfer whose source bytes are here; one that met an error. -/
def chunk0 : Chunk :=
  { queue := 0, engine := 0, index := 0, ctx := 1, row := 0, pos := 0, va := 0, rowEnd := true,
    srcs := [some (List.replicate 16 7)], dsts := [(.lm 0x100, 16)], len := 16, cover := 16, putting := true }
def withChunk (c : Chunk) : State := { withXfer with cmp := { withXfer.cmp with chunks := [(1, c)] } }

theorem witness_chunkComplete :
    (withChunk chunk0).cmp.chunks[0]? = some (1, chunk0) ∧ chunk0.queue < 2 ^ 20 ∧
      ((withChunk chunk0).steq chunk0.queue).xfers = [xfer0] ∧ (Desc.of xfer0.desc).op ≠ 4 ∧
      (Desc.of xfer0.desc).doneEn = false ∧ chunk0.err = none ∧ chunk0.due = 0 ∧ chunk0.bytes.length = 16 ∧ (chunk0.chkD = false ∨ chunk0.lead = 0) ∧ chunk0.checked = false ∧
      ({ chunk0 with err := some 0x28 } : Chunk).err = some 0x28 := by
  decide

/-- A PREFETCH of ring slots whose CREDIT stands at 0x40, and which found its ring full. -/
def fullRing : Xfer :=
  { xfer0 with desc := toBytes 0x24 8 ++ List.replicate 40 0 ++ toBytes (2 + 0x40 * 2 ^ 16) 8 ++ List.replicate 8 0, full := true }

theorem witness_creditPoll :
    ((withQueue { xfers := [fullRing] }).steq 0).xfers = [fullRing] ∧ (withQueue { xfers := [fullRing] }).streamReady 0 ∧
      ((withQueue { xfers := [fullRing] }).lmFetch 0 (Desc.of fullRing.desc).creditAt 4).map (fun x => (x.2.1.length, x.2.2)) =
        some (4, false) := by
  decide

/-- A kernel of four block clusters of one block of one group. -/
def kern0 : Kernel :=
  { number := 1, qp := 0, cid := 9, desc := 0, entry := 0x1000, gridX := 4, gridY := 1, gridZ := 1, groups := 1, cluster := 1,
    vunits := 1, lmUnits := 1, engines := 0, timed := false, args := 0, wcet := 0 }

/-- Canopy runs, and cluster 0 belongs to the partition of the running context 1, which has launched the kernel. -/
def placing : State :=
  let s := ((rst.fset F.CNP_CTL_EN 1 0).fset F.CNP_CLUSTER_OWNED 1 0).fset F.CNP_PART_EN 1 0
  { s with cmp := { s.cmp with ctxs := [(1, { state := .queued, launches := [kern0] })] } }

/-- The context already runs on the cluster. -/
def placingMore : State :=
  { placing with cmp := { placing.cmp with clus := [(0, { state := .running, ctx := 1, holder := some 0 })] } }

theorem witness_placement :
    (placing.ctx 1).map (·.launches) = some [kern0] ∧ kern0.next < kern0.gridX * kern0.gridY * kern0.gridZ ∧
      placing.mayTake 1 { state := .queued, launches := [kern0] } 0 = true ∧
      kern0.cluster ≤ ((coresOfCluster 0).filter (fun core => placing.coreFits core kern0.needs)).length ∧
      (placingMore.cluster 0).state = .running ∧ (placingMore.cluster 0).ctx = 1 ∧ (placingMore.cluster 0).grace = none ∧
      placingMore.canopyActs 0 = true ∧ placingMore.clusterSound 0 = true ∧
      kern0.cluster ≤ ((coresOfCluster 0).filter (fun core => placingMore.coreFits core kern0.needs)).length ∧
      rst.groupsUsed 5 = [] ∧ (rst.core 5).gated = false ∧ ((rst.updCore 5 (fun c => { c with gated := true })).core 5).gated = true ∧ 5 ∉ rst.health.retiredCores ∧ 5 / 128 ∉ rst.pwr.diesOff := by
  decide

/-- The small machine's group has exited; it holds a deferred exception, or it does not. -/
def exitedGrp (d : List Deferred) : State := withGroup { grp0 with complete := true, active := 0, exited := 0xFFFFFFFF, deferred := d }

/-- A deferred exception. -/
def deferred0 : Deferred := { code := 0x28, pc := 0x1000, lanes := 1, addr := 0x10000 }

/-- Core 0 holds a dirty scalar byte, whose write-back is a store without a group. -/
def dirtyBlock : State :=
  let s := exitedGrp []
  { s with cmp := { s.cmp with near := { s.cmp.near with sc := [(ncKey 0 0x8000, { data := 0, dirty := 1 })] } } }

theorem witness_blockDrains :
    (((exitedGrp []).releaseSide 0).pump).sideWrites 0 = [] ∧ ((dirtyBlock.releaseSide 0).pump).sideWrites 0 ≠ [] ∧
      blk0.draining = none ∧ (({ blk0 with draining := some [7] } : Blk).draining = some [7]) ∧ (∀ n ∈ [7], n ∉ rst.sideWrites 0) := by
  decide

theorem witness_blockComplete :
    let s := exitedGrp []
    let gs := blk0.groupKeys 0
    s.blk 0 = some blk0 ∧ (SMap.find s.cmp.bclus blk0.bc).map (·.restoring) = some false ∧
      (∀ g ∈ gs, ∀ y ∈ s.grp g, y.complete = true ∧ y.halted = false) ∧ s.cmp.accs = [] ∧ s.cmp.engs = [] ∧
      (s.steq 0).xfers = [] ∧ (s.steq 1).xfers = [] ∧ s.blockDeferred gs = none ∧
      (exitedGrp [deferred0]).blockDeferred gs = some (0, deferred0) := by
  decide

/-- All block clusters of the kernel are done; the kernel of a Guaranteed context. -/
def kernelDone : State :=
  { rst with cmp := { rst.cmp with ctxs := [(1, { state := .running, launches := [{ kern0 with next := 4 }] })] } }

theorem witness_kernelComplete :
    (kernelDone.ctx 1).map (fun x => (x.launches, x.state, x.slots, x.cls)) = some ([{ kern0 with next := 4 }], .running, [], 0) ∧
      kernelDone.cmp.bclus = [] ∧ kernelDone.cmp.accs = [] ∧
      [({ kern0 with next := 4 } : Kernel)].find? (fun k => !k.late) = some { kern0 with next := 4 } ∧ kern0.deadline < 2 ^ 63 ∧
      kernelDone.ring.ringU < 2 ^ 64 * 110000 := by
  decide

/-- Core 5 with a unit that wakes, a zero-fill of unit 0, a bank test, and a granule to write back. -/
def lmWaking : State := rst.updCore 5 (fun c => { c with waking := [3] })
def lmZeroing : State := rst.fset F.CORE_LM_ZERO_UNITS 1 5
def lmTesting : State := (rst.updCore 5 (fun c => { c with testing := true })).fset F.CORE_LM_TEST_BANKS 0xFFFFFFFF 5
def lmRetained : State := rst.updCore 5 (fun c => { c with retain := true })
def lmCorrected : State := rst.updCore 5 (fun c => { c with corrected := [65535] })

theorem witness_lmQuiet :
    lmZeroing.lmQuiet 5 [0] = true ∧ lmTesting.lmQuiet 5 (List.range 32) = true ∧ (lmRetained.core 5).retain = true ∧
      (rst.setUnitPower 5 0 0).unitPower 5 0 = 0 ∧ 0 ∉ (rst.core 5).waking ∧ (rst.core 5).retain = false := by
  decide

theorem witness_lmService :
    rst.mayWrite .taproot .CORE_LM_POWER 5 ∧ (∀ u < 32, bits (2 : W64).toNat (2 * u) 2 ≠ 3) ∧ 0 ∉ rst.unitsUsed 5 ∧
      0 ∈ small.unitsUsed 0 ∧ (3 : Fin 32).val ∈ (lmWaking.core 5).waking ∧ rst.mayWrite .taproot .CORE_LM_ZERO 5 ∧
      (lmZeroing.fget F.CORE_LM_ZERO_UNITS 5).testBit 0 = true ∧ rst.mayWrite .taproot .CORE_LM_TEST 5 ∧
      (2 ^ 32 : W64).getLsbD 32 = true ∧ rst.lmIdle 5 = true ∧ small.lmIdle 0 = false ∧ (lmTesting.core 5).testing = true ∧
      (lmTesting.fget F.CORE_LM_TEST_BANKS 5).testBit 31 = true ∧ rst.regOpen .taproot .CORE_LM_REPAIR (5 * 32) = true ∧
      (∀ j < 4, bits (136 : W64).toNat (16 * j) 8 ≤ 136) ∧ (65535 : Fin 65536).val ∈ (lmCorrected.core 5).corrected :=
  ⟨⟨by decide, by decide⟩, by decide, by decide, by decide, by decide, ⟨by decide, by decide⟩, by decide, ⟨by decide, by decide⟩,
    by decide, by decide, by decide, by decide, by decide, by decide, by decide, by decide⟩

/-! ### Coherence: witnesses -/

/-- A message about line 5, to or from quadrant 2; an atomic; the network holds one message. -/
def req5 (k : MsgKind) : Msg := { kind := k, line := 5, quad := 2, acc := 7, mask := 2 ^ 128 - 1, fwd := some 9 }
def atomReq5 : Msg := { req5 .atomic with atom := some { op := .add, type := 0, lanes := [⟨0, 0, 1, 0⟩] } }
def inFlight (m : Msg) : State := { rst with cmp := { rst.cmp with net := [m] } }

/-- With a directory entry of the line; with a reservation on it; with an open transaction; with a copy in quadrant 2. -/
def withDir (s : State) (e : DirEntry) : State := { s with cmp := { s.cmp with dir := [(5, e)] } }
def withRsv (s : State) : State := { s with cmp := { s.cmp with rsvs := [⟨3, 5⟩] } }
def withTxn (s : State) (x : Txn) : State := { s with cmp := { s.cmp with txns := [(5, x)] } }
def withCopy (s : State) (st : LState) : State := { s with cmp := { s.cmp with qlines := [(qkey 2 5, { st := st })] } }

theorem witness_homeFree :
    (∀ k ∈ [MsgKind.getS, .getM, .readOnce, .writeInvFull, .writeInvPart],
      let s := inFlight (req5 k)
      (s.startable k 0).map (·.1.kind) = some k ∧ s.populated (5 * 128) = true ∧ s.hwRefused (5 * 128) = none ∧
        s.dirEntry 5 = none ∧ s.fifoHeld 5 = false ∧ (s.dirWays 5).length < 16 ∧ s.dirFound 5 = .none ∧ s.struck .mem 5 = false) ∧
      ((inFlight atomReq5).startable .atomic 0).map (fun x => x.1.atom.map (·.op)) = some (some .add) ∧
      (inFlight atomReq5).isPoisoned 5 = false ∧
      ((withRsv (inFlight (req5 .getS))).startable .getS 0).map (·.1.kind) = some .getS ∧
      (∃ r ∈ (withRsv (inFlight (req5 .getS))).cmp.rsvs, r.line = 5) := by
  decide

theorem witness_homeHeld :
    ∀ k ∈ [MsgKind.getS, .getM, .readOnce, .writeInvFull, .atomic],
      let s := withDir (inFlight (req5 k)) { kind := .o, owner := 1, sharers := [4, 2] }
      (s.startable k 0).map (·.1.kind) = some k ∧ (s.dirEntry 5).bind (·.owned) = some 1 ∧ s.dirFound 5 = .none ∧ 1 ≠ (req5 k).quad := by
  decide

/-- Sixteen busy lines of the set of line 5. -/
def fullSet : State :=
  let s := inFlight (req5 .getS)
  { s with cmp := { s.cmp with
      dir := (List.range 16).map (fun j => ((j + 1) * 2 ^ 23 + 32 * (j + 1) + 5, { kind := .s, sharers := [1], busy := true })) } }

set_option maxRecDepth 4000 in
theorem witness_homeRetry :
    (fullSet.startable .getS 0).map (·.1.kind) = some .getS ∧ (req5 .getS).atom = none ∧ fullSet.dirEntry 5 = none ∧
      fullSet.fifoHeld 5 = false ∧ fullSet.dirFound 5 = .none ∧ 16 ≤ (fullSet.dirWays 5).length ∧ (∀ w ∈ fullSet.dirWays 5, w.2.busy = true) := by
  decide

theorem witness_snoops :
    (∀ k ∈ [MsgKind.snpShared, .snpInvFwd, .snpOnce, .snpInv, .snpRecall],
      let s := inFlight (req5 k)
      (s.arrival k 0).map (·.1.kind) = some k ∧ 2 ∉ s.cmp.qdead ∧ (s.qline 2 5).isNone ∧
      ∀ st ∈ [LState.m, .o, .e, .s], ((withCopy s st).arrival k 0).map (·.1.kind) = some k ∧
        ((withCopy s st).qline 2 5).map (fun l => (l.st, l.st.stable)) = some (st, true)) ∧
      (let s := inFlight (req5 .snpInv)
       let d : State := { s with cmp := { s.cmp with qdead := [2] } }
       2 ∈ d.cmp.qdead ∧ (d.arrival .snpInv 0).map (·.1.kind) = some .snpInv) := by
  decide

/-- The home waits for quadrants 2 and 3; for quadrant 2 alone. -/
def waits (k : MsgKind) : State := withTxn (withDir (inFlight (req5 k)) { kind := .x, owner := 2 }) { req := some (req5 .getS), wait := [2, 3] }

theorem witness_homeAnswers :
    (∀ k ∈ [MsgKind.snpMiss, .snpMissWbp, .snpRspFwd, .snpRspData, .snpAck, .snpPoison],
      ((waits k).arrival k 0).map (·.1.kind) = some k ∧ (SMap.find (waits k).cmp.txns 5).map (·.wait) = some [2, 3] ∧
        [2, 3].erase 2 ≠ [] ∧ (waits k).isOwner 5 2 = true) ∧
      (let s := withTxn (withDir (inFlight (req5 .snpAck)) { kind := .o, owner := 1, sharers := [2, 3] }) { wait := [2, 3] }
       (s.arrival .snpAck 0).map (·.1.kind) = some .snpAck ∧ s.isOwner 5 2 = false) ∧
      (let r : Msg := { kind := .getS, line := 5, quad := 4, acc := 7 }
       let s := withTxn (withDir (inFlight { req5 .snpRspFwd with state := some .o }) { kind := .x, owner := 2 })
         { req := some r, wait := [2] }
       (s.arrival .snpRspFwd 0).map (fun x => (x.1.kind, x.1.state)) = some (.snpRspFwd, some .o) ∧
         (s.dirEntry 5).map (fun e => (e.kind, e.owner, e.sharers, e.coarse)) = some (.x, 2, [], false)) ∧
      (let s := withTxn (inFlight (req5 .compAck)) { req := some (req5 .getS), answered := true }
       (s.arrival .compAck 0).map (·.1.kind) = some .compAck ∧
         (SMap.find s.cmp.txns 5).map (fun x => (x.answered, x.req.map (·.quad))) = some (true, some 2)) ∧
      (let s := withDir (inFlight (req5 .wbData)) { kind := .x, owner := 2 }
       s.isOwner 5 2 = true ∧ s.struck .memWrite 5 = false ∧ s.lineBusy 5 = false ∧ (s.arrival .wbData 0).map (·.1.kind) = some .wbData ∧ s.populated (5 * 128) = true ∧
         s.hwRefused (5 * 128) = none) := by
  decide

/-- A parked request takes a way. -/
theorem witness_fifoGrant :
    let s : State := { rst with cmp := { rst.cmp with parked := [req5 .getS] } }
    (takeFirst (fun m => s.setKey m.line == (0 : Fin 16).val * 2 ^ 18 + (5 : Fin 262144).val) s.cmp.parked).map (·.1.kind) =
        some .getS ∧ s.lineBusy 5 = false ∧ s.dirEntry 5 = none ∧ (s.dirWays 5).length < 16 := by
  decide

/-- A line of quadrant 2 with an open request, and an access that an answer ends. -/
def opened (m : Msg) (l : QLine) : State :=
  let s := inFlight m
  { s with cmp := { s.cmp with qlines := [(qkey 2 5, l)], accs := [{ id := 7, core := 0, slot := 0, ctx := 1, kind := .load, line := 5 }] } }

/-- Data and Comp for the line: data with Comp, or of an owner before and after the home's Comp. -/
def ans5 (k : MsgKind) (fwd : Option Nat) : Msg := { kind := k, line := 5, quad := 2, fwd := fwd }

theorem witness_requesterData :
    ∀ k ∈ [MsgKind.dataS, .dataE, .dataM, .comp], ∀ f ∈ [none, some 3],
      ((opened (ans5 k f) { st := .im }).arrival k 0).map (fun x => (x.1.kind, x.1.fwd)) = some (k, f) ∧
        ((opened (ans5 k f) { st := .im }).qline 2 5).map (fun l => (l.st.stable, l.comp, l.got)) = some (false, none, none) ∧
        ((opened (ans5 k f) { st := .im, comp := some true, got := some .m }).qline 2 5).map (fun l => (l.comp, l.got)) =
          some (some true, some .m) := by
  decide

theorem witness_requesterEnd :
    (∀ k ∈ [MsgKind.comp, .dataOnce, .atomResult],
      ((opened { atomReq5 with kind := k } { st := .im }).arrival k 0).map
        (fun x => (x.1.kind, x.1.acc, x.1.atom.isSome, (x.2.accOf 7).map (·.id))) = some (k, 7, true, some 7)) ∧
      ((inFlight (req5 .retry)).arrival .retry 0).map (·.1.kind) = some .retry ∧
      ((withCopy (inFlight (req5 .wbAck)) .wb).arrival .wbAck 0).map (fun x => (x.1.kind, (x.2.qline 2 5).map (·.st))) =
        some (.wbAck, some .wb) := by
  decide

/-- A flush of quadrant 2 in mode 1 runs; a set is being recalled. -/
def flush2 : Flush := { quad := 2, mode := 1, part := 0, lines := [5] }
def flushing2 : State :=
  { rst with cmp := { rst.cmp with flushing := [flush2], qlines := [(qkey 2 5, { st := .m })] } }

theorem witness_flush :
    flushing2.cmp.flushing.find? (fun f => f.quad == (2 : Fin 256).val) = some flush2 ∧
      (∀ e ∈ flushing2.cmp.qlines, e.2.st.stable = true ∧ flushing2.lineBusy (e.1 % 2 ^ 39) = false) ∧
      5 ∈ flush2.lines ∧ (∀ e ∈ flushing2.cmp.qlines, e.1 = qkey 2 5 → flush2.covers e.2 = true) ∧
      (0 * 2 ^ 18 + 5) ∈ ({ flushing2 with cmp := { flushing2.cmp with recalls := [5] } } : State).cmp.recalls ∧
      flushing2.setKey 5 = 5 := by
  decide

/-! ### The memory of the home dies in service: witnesses -/

theorem witness_flushStart :
    rst.mayWrite .taproot .QDC_FLUSH 2 ∧ (0x8001 : W32).getLsbD 15 = true ∧ (∀ f ∈ rst.cmp.flushing, f.quad ≠ (2 : Fin 256).val) ∧
      (∃ f ∈ flushing2.cmp.flushing, f.quad = (2 : Fin 256).val) ∧ flushing2.mayWrite .taproot .QDC_FLUSH 2 :=
  ⟨⟨by decide, by decide⟩, by decide, by decide, by decide, by decide, by decide⟩

theorem witness_memService :
    (∀ l ∈ [5], rst.homeOf l = (0 : Fin 16).val ∧ rst.populated (l * 128) = true ∧ rst.isPoisoned l = false) ∧
      rst.mayWrite .taproot .HOM_PC_MAPOUT 3 ∧ (2 ^ 31 : W32).getLsbD 31 = true ∧
      (rst.fset F.HOM_PC_MAPOUT_GO 1 3).flag F.HOM_PC_MAPOUT_GO 3 = true ∧
      (rst.fset F.HOM_PC_MAPOUT_GO 1 3).chanState (chanOf 3 (some 0)) ≠ 2 ∧ rst.chanState (chanOf 3 none) < 2 ∧
      (∀ l ∈ [5], rst.chanAt l = .pc 0) ∧ rst.pcState 0 = 0 ∧ rst.fget F.TAP_DIE_HEALTH_STATE (64 + 3) ≠ 2 :=
  ⟨by decide, ⟨by decide, by decide⟩, by decide, by decide, by decide, by decide, by decide, by decide, by decide⟩

/-- Region 63 in a state, with a command that runs. -/
def region (state cmd : Nat) : State := (rst.fset F.HOM_HW_CTL_STATE state 63).fset F.HOM_HW_CTL_CMD cmd 63

theorem witness_heartwood :
    (∀ st ∈ [0, 1, 2, 4], (region st 0).mayWrite .taproot .HOM_HW_CTL 63 ∧ (region st 0).fget F.HOM_HW_CTL_CMD 63 = 0 ∧
      (region st 0).hwState 63 = st) ∧
      bits (0x10 : W64).toNat 4 3 = 1 ∧ bits (0x20 : W64).toNat 4 3 = 2 ∧ bits (0x30 : W64).toNat 4 3 = 3 ∧
      (region 1 1).fget F.HOM_HW_CTL_CMD 63 = 1 ∧
      (∀ b < (region 1 1).fget F.HOM_HW_LEN_LEN 63 * 32, ((region 1 1).hwBlockGood 63 0 b).1 = true) ∧
      (region 2 2).fget F.HOM_HW_CTL_CMD 63 = 2 ∧ (region 2 2).cmp.txns = [] ∧ (region 2 2).cmp.net = [] ∧ (region 2 2).cmp.qlines = [] ∧
      (region 1 0).cmp.dir = [] ∧
      ((region 2 0).fset F.HOM_HW_CNT_FALLBACKS 1 63).fget F.HOM_HW_CNT_FALLBACKS 63 ≠ 0 ∧ (region 3 0).hwState 63 = 3 := by
  unfold State.mayWrite
  decide

/-! ### Address translation: witnesses -/

/-- Translation is enabled; one leaf of context 1 maps the page at 0x10000. -/
def leafed (t : Tlb) : State :=
  let s := rst.fset F.XLT_CTT_BASE_EN 1 0
  { s with cmp := { s.cmp with tlbs := [t], ctxs := [(1, { state := .running, service := true }), (2, { state := .running })] } }
def leaf1 : Tlb := { quad := false, unit := 0, ctx := 1, base := 0x10000, size := 65536, rd := true, out := 0x20000 }

theorem witness_translate :
    rst.flag F.XLT_CTT_BASE_EN = false ∧ (leafed leaf1).flag F.XLT_CTT_BASE_EN = true ∧ (leafed leaf1).leaf 0 1 0x20000 = none ∧
      (leafed leaf1).leaf 0 1 0x1FFFF = some (leaf1, true) ∧ leaf1.rd = true ∧ leaf1.wr = false ∧ leaf1.at' = false ∧
      (∀ x ∈ (leafed leaf1).ctx 1, x.service = true) ∧ ((leafed leaf1).ctx 1).isSome ∧ (leafed leaf1).populated 0x2FFFF = true ∧
      (leafed leaf1).populated (2 ^ 46) = false ∧ (∀ x ∈ (leafed leaf1).ctx 2, x.service = false) ∧
      (leafed leaf1).ownStand (0x123 * 2 ^ 46) = false ∧
      (((leafed leaf1).fset F.GRG_PKG_ID_V 1 0).fset F.GRG_PKG_ID_ID 0x123 0).ownStand (0x123 * 2 ^ 46 + 128) = true := by
  decide

/-- Region 0 is in the quarantine filter, at address 0. -/
def filtered : State :=
  let s := (leafed { leaf1 with ctx := 2, out := 0 }).fset F.HOM_HW_LEN_LEN 1 0
  { s with cmp := { s.cmp with qfilter := [0] } }

theorem witness_quarantine :
    filtered.leaf 0 2 0x10000 = some ({ leaf1 with ctx := 2, out := 0 }, true) ∧ 0 ∈ filtered.cmp.qfilter ∧
      filtered.hwBase 0 0 ≤ 0 ∧ 0 < filtered.hwBase 0 0 + hwCopyLen (filtered.fget F.HOM_HW_LEN_LEN 0) := by
  decide

/-- The tables of context 1 map the first 2 MiB onto itself for reading; without their last entry, nothing. -/
def tables (leaf : Bool) : List Host.Cell :=
  [(16, 1), (17, 0x10), (0x1000, 1), (0x1001, 0x20), (0x2000, 1), (0x2001, 0x30), (0x3000, 1), (0x3001, 0x40)] ++
    (if leaf then [(0x4000, 7)] else [])

/-- A walk of the page that the group in slot 0 waits for. -/
def walking (mem : List Host.Cell) (again : Bool) : State :=
  let s := withGroup { grp0 with wait := .walk 1 }
  { s with cmp := { s.cmp with mem := mem, walks := [{ quad := 0, cluster := 0, ctx := 1, page := 1, again := again }] } }

/-- What the walk finds, as a number: 0 a leaf, a code, or 1 a decode error. -/
def found (s : State) : Nat :=
  match (({ s with cmp := { s.cmp with walks := [] } } : State).walk 0 1 0x10000).2 with
  | .leaf _ _ => 0
  | .fault c => c
  | .bad _ _ => 1

theorem witness_walks :
    (walking [] true).cmp.walks[0]? = some { quad := 0, cluster := 0, ctx := 1, page := 1, again := true } ∧
      found (walking (tables true) false) = 0 ∧ found (walking (tables false) false) = 0x22 ∧ found (walking [] false) = 1 ∧
      ((walking [] false).grp 0).map (fun x => (x.ctx, x.wait)) = some (1, .walk 1) := by
  decide +kernel

/-- A host translation is outstanding, in a phase. -/
def hostXlt (phase : Nat) : State :=
  { rst with cmp := { rst.cmp with
      hostXlt := [{ func := 3, pasid := 4, ctx := 1, page := 16, write := false, cluster := 0, phase := phase }] } }

theorem witness_hostXlt :
    ((hostXlt 0).hostNth (fun h => h.phase != 1 && h.phase != 3) 0).map (fun x => (x.1.phase, x.1.write, x.1.cluster)) =
        some (0, false, 0) ∧
      ((hostXlt 2).hostNth (fun h => h.phase != 1 && h.phase != 3) 0).map (fun x => x.1.phase) = some 2 ∧
      ((hostXlt 1).hostNth (fun h => h.phase == 1) 0).map (fun x => x.1.phase) = some 1 ∧ (0 : Nat) ≠ hostAgent ∧
      3 ∉ (hostXlt 0).cmp.priFailed ∧ (hostXlt 0).hostNth (fun h => h.phase == 1) 0 = none ∧
      (hostXlt 1).hostNth (fun h => h.phase != 1 && h.phase != 3) 0 = none ∧
      ((hostXlt 0).cmp.hostXlt.filter (fun x => x.func == 3 && x.phase == 1)).length < 512 := by
  decide

/-- The group waits on its fault record 7; the command names it, or a later one. -/
def faulted : State := withGroup { grp0 with wait := .fault (some 7) }

theorem witness_resume :
    faulted.mayWrite .taproot .XLT_RESUME 0 ∧ (1 + 7 * 2 ^ 32 : W64).getLsbD 16 = false ∧
      (1 + 2 ^ 16 + 9 * 2 ^ 32 : W64).getLsbD 16 = true ∧ (faulted.ctx 1).map (·.state) = some .running ∧ faulted.attOf 1 = none ∧
      (faulted.grp 0).map (fun x => (x.ctx, x.wait.covered 7, x.wait.covered 9)) = some (1, true, true) ∧
      SMap.sorted faulted.cmp.groups = true := by
  unfold State.mayWrite
  decide

/-- The invalidation queue is enabled, and its head descriptor covers all contexts (OP 3, ALL). -/
def iqOn (op : Nat) : State :=
  let s := ((rst.fset F.XLT_IQ_BASE_EN 1 0).fset F.XLT_IQ_BASE_SIZE 6 0).fset F.XLT_IQ_TAIL_TAIL 1 0
  { s with cmp := { s.cmp with mem := [(0, BitVec.ofNat 8 op)] } }

/-- An invalidation that is due; one of the host's. -/
def invDone (tag : Option (Nat × Nat)) : State :=
  { rst with cmp := { rst.cmp with invs := [{ seq := 7, op := 3, tag := tag }] } }

/-- Core 0 holds a dirty scalar line that an invalidation of all contexts writes back first. -/
def invDirty : State :=
  { small with cmp := { small.cmp with
      invs := [{ seq := 7, op := 3 }]
      near := { small.cmp.near with sc := [(ncKey 0 0x8000, { data := 0, dirty := 1 })] } } }

theorem witness_invBacks :
    invDirty.invDue { seq := 7, op := 3 } = true ∧ (invDirty.invNear { seq := 7, op := 3 }).invBacks { seq := 7, op := 3 } ≠ [] ∧
      ((invDone none).invNear { seq := 7, op := 3 }).invBacks { seq := 7, op := 3 } = [] ∧
      (∀ a ∈ [9], ∀ x ∈ (invDone none).cmp.accs, x.id ≠ a) := by
  decide

theorem witness_invalidation :
    rst.mayWrite .taproot .XLT_IQ_TAIL 0 ∧ rst.mayWrite .taproot .XLT_IQ_BASE 0 ∧ (6 + 2 ^ 63 : W64).getLsbD 63 = true ∧
      6 ≤ (6 + 2 ^ 63 : W64).toNat % 32 ∧ rst.flag F.XLT_IQ_BASE_EN = false ∧ (iqOn 3).flag F.XLT_IQ_BASE_EN = true ∧
      (iqOn 3).fget F.XLT_IQ_BASE_SIZE ≤ 16 ∧ (iqOn 3).fget F.XLT_IQ_HEAD_HEAD % 64 ≠ (iqOn 3).fget F.XLT_IQ_TAIL_TAIL % 64 ∧
      (∀ op ∈ [1, 2, 3, 4], (iqOn op).iqHead.2.2 = 0) ∧ (invOf 3 0 0 0).map (·.op) = some 3 ∧ (invOf 4 0 0 0).map (·.op) = some 4 ∧
      ((invDone none).cmp.invs.find? (fun i => i.tag.isNone)).map (fun i => (invDone none).invDue i) = some true ∧
      rst.funcExists 0 = true ∧ (∀ i ∈ rst.cmp.invs, i.tag ≠ some ((0 : Fin 256).val, (4 : Fin 32).val)) ∧
      ((invDone (some (3, 4))).cmp.invs.find? (fun i => i.tag == some ((3 : Fin 256).val, (4 : Fin 32).val))).map
        (fun i => (invDone (some (3, 4))).invDue i) = some true := by
  unfold State.mayWrite
  decide +kernel

/-! ### Contexts, launches, saves and accounting: witnesses -/

/-- Context 1 in a state and a class. -/
def ctxIn (st : CtxState) (cls : Nat) : State := { rst with cmp := { rst.cmp with ctxs := [(1, { state := st, cls := cls })] } }

/-- The state in which a command of Canopy acts. -/
def commanded (s : State) (op : Nat) : State := s.writeReg .CNP_CMD 0 (op + 16 + 2 ^ 63) (Reg.full .CNP_CMD)

theorem witness_contextCommands :
    rst.mayWrite .taproot .CNP_CMD 0 ∧
      (∀ op ∈ [1, 2, 3, 4, 5, 6], (commanded rst op).flag F.CNP_CMD_STATUS_BUSY = false ∧ (commanded rst op).ctx 1 = none ∧
        (commanded rst op).fget F.CNP_CMD_ARG0_ARG0 = 0) ∧
      (commanded (rst.fset F.CNP_CMD_STATUS_BUSY 1) 6).flag F.CNP_CMD_STATUS_BUSY = true ∧
      ((commanded (ctxIn .idle 2) 1).ctx 1).isSome ∧
      ((commanded (ctxIn .idle 2) 2).ctx 1).map (fun x => (x.leaving, x.finalWait)) = some (false, []) ∧
      (commanded (ctxIn .idle 2) 2).flag F.CNP_CTL_ACCT_EN = false ∧
      (commanded ((ctxIn .idle 2).fset F.CNP_CMD_ARG0_ARG0 1) 2).fget F.CNP_CMD_ARG0_ARG0 ≠ 0 ∧
      SMap.sorted (commanded (ctxIn .running 2) 3).cmp.clus = true ∧
      ((commanded { ctxIn .saved 2 with cmp := { (ctxIn .saved 2).cmp with ctxs := [(1, { state := .saved, suspended := true })] } }
        4).ctx 1).map (·.suspended) = some true := by
  unfold State.mayWrite
  decide

/-- The entry of context 1 in the context table: Borrowed, one save cluster at 4 GiB, a fault ring at 4 KiB. -/
def entryMem : List Host.Cell := [(64, 2), (72, 1), (76, 1), (80, 6), (81, 0x10)]
def entered (mem : List Host.Cell) (part : Nat) : State :=
  let s := rst.fset F.CNP_PART_EN part 0
  { s with cmp := { s.cmp with mem := mem } }

/-- What REGISTER reads, and what it checks of it. -/
def entryChecks (s : State) : Bool × Bool × Bool × Bool :=
  let r := (commanded s 1).readBytes (2 ^ 22 * (commanded s 1).fget F.CNP_CTX_BASE_BASE + 64) 64
  let x := entryCtx r.2.1 ((commanded s 1).fget F.CNP_CTL_DEF_GRACE)
  (entryBad r.2.1, r.1.flag F.CNP_PART_EN x.partition, r.1.saveAreaBad x, r.1.faultRingBad 1 x)

theorem witness_register :
    (entryChecks (entered [] 1)).1 = true ∧ entryChecks (entered entryMem 1) = (false, true, false, false) := by
  decide +kernel

/-- The partition is not enabled; the save area lies outside memory; the fault ring overlaps the save area. -/
theorem witness_registerRefused :
    (entryChecks (entered entryMem 0)).2.1 = false ∧
      (entryChecks (entered [(64, 2), (72, 1), (77, 0x20), (80, 6), (81, 0x10)] 1)).2.2.1 = true ∧
      (entryChecks (entered [(64, 2), (72, 1), (76, 1), (80, 6), (84, 1)] 1)).2.2.2 = true := by
  decide +kernel

/-- Context 1 runs with a group, a cluster and a kernel of queue pair 0. -/
def runningKernel : State :=
  { small with cmp := { small.cmp with ctxs := [(1, { state := .running, launches := [kern0] })] } }

/-- An export list of one entry: the save area. -/
def pruneMem : State :=
  let s := (ctxIn .idle 2).fset F.CNP_CMD_ARG1_ENTRIES 1
  { s with cmp := { s.cmp with mem := [(24, 2)] } }

/-- What PRUNE reads of its list: the entry count, and whether an entry is malformed. -/
def pruneChecks (s : State) : Nat × Bool × Nat :=
  let t := commanded s 6
  let n := t.fget F.CNP_CMD_ARG1_ENTRIES
  let r := t.readBytes (t.fget F.CNP_CMD_ARG1_LIST * 32) (n * 32)
  (n, ((List.range n).map (fun i => (r.2.1.drop (32 * i)).take 32)).any exportBad, r.2.2)

theorem witness_killPrune :
    ((commanded runningKernel 5).ctx 1).map (fun x => x.launches.map (·.qp)) = some [0] ∧
      (commanded runningKernel 5).flag F.CNP_CMD_STATUS_BUSY = false ∧ (commanded runningKernel 5).flag F.CNP_CTL_ACCT_EN = false ∧
      (commanded runningKernel 5).fget F.CNP_CMD_ARG0_ARG0 = 0 ∧
      ((commanded pruneMem 6).ctx 1).map (fun x => (x.cls, x.state, x.launches)) = some (2, .idle, []) ∧
      pruneChecks pruneMem = (1, false, 0) ∧ pruneChecks (ctxIn .idle 2) = (0, false, 0) := by
  decide +kernel

/-- A LAUNCH packet of CID 9, of D slots and V bytes, in front of queue pair 0 of context 1. -/
def launchPacket (d v : Nat) : List Byte :=
  toBytes (1 + 9 * 2 ^ 16) 8 ++ toBytes 0x8000 8 ++ toBytes 0 8 ++ toBytes (d + v * 2 ^ 32) 8 ++ List.replicate 32 0

/-- A descriptor: four block clusters of one group; TIMED, with GAP 1. -/
def launchDesc (timed : Bool) : List Byte :=
  toBytes 0x1000 8 ++ toBytes (4 + 2 ^ 32 + 2 ^ 48) 8 ++ toBytes (1 + 2 ^ 6 + 2 ^ 16 + 2 ^ 22 + nb timed * 2 ^ 33) 8 ++ toBytes 0 8 ++
    toBytes (nb timed * 2 ^ 32) 8 ++ List.replicate 24 0

/-- Queue pair 0 of context 1 has its packet and the bytes of the descriptor. -/
def pairOf (s : State) (b l : List Byte) (n : Nat) : State :=
  (((s.fset F.CNP_QP_CFG_EN 1 0).fset F.CNP_QP_CFG_CONTEXT 1 0).updQp 0 (fun p =>
    { p with sqTail := 1, fetched := some b, aux := .got l, started := List.replicate n { cid := 1, op := 1 } }))

/-- The descriptor of the pair's launch has come. -/
def gotDesc : Bool :=
  match (pairOf (ctxIn .idle 2) (launchPacket 0 0) (launchDesc false) 0).pairRead 0 1 0x8000 64 with
  | (t, .bytes l) => l == launchDesc false && ((t.popCmd 0).ctx 1).isSome
  | _ => false

theorem witness_launch :
    ((pairOf (ctxIn .idle 2) (launchPacket 0 0) [] 0).fetchCmd 0).map (·.2) = some (some (launchPacket 0 0)) ∧
      (Packet.of (launchPacket 0 0)).op = 1 ∧ (Packet.of (launchPacket 0 0)).bad = false ∧
      (pairOf (ctxIn .idle 2) (launchPacket 0 0) [] 0).pairAllowed 0 = true ∧
      (Packet.of (launchPacket 0 0)).badLaunch 2 = false ∧ (Packet.of (launchPacket 0 0)).badLaunch 0 = true ∧
      64 ≤ ((pairOf (ctxIn .idle 2) (launchPacket 0 0) [] 64).qp 0).started.length ∧
      (∀ st ∈ [CtxState.faulted, .killed, .exported, .pruning, .idle],
        ((pairOf (ctxIn st 2) (launchPacket 0 0) [] 0).ctx 1).map (·.state) = some st) ∧
      descRule (launchDesc false) 2 = 0 ∧ descRule [] 2 ≠ 0 ∧ descRule (launchDesc true) 0 = 0 ∧
      gotDesc = true := by
  decide +kernel

/-- Context 1 is Guaranteed, and its partition owns cluster 0 with no reserved volume. -/
def guaranteed : State := (ctxIn .idle 0).fset F.CNP_CLUSTER_OWNED 1 0

theorem witness_admission :
    (guaranteed.worstCase 0 (descKernel (launchDesc true) 0 0 9 0x8000)).map (fun n => decide (n ≤ 1 * 274958)) = some true ∧
      (guaranteed.worstCase 0 (descKernel (launchDesc true) 0 0 9 0x8000)).map (fun n => decide (0 * 274958 < n)) = some true ∧
      guaranteed.overVolume 0 0 true = false ∧ guaranteed.overVolume 0 1 false = true ∧
      (Packet.of (launchPacket 1 0)).badLaunch 0 = false := by
  decide +kernel

/-- Cluster 0 with block cluster 0 is being stopped; its group waits at its tile mark. -/
def stopping (st : ClState) (b : Bool) : State :=
  let s := withGroup { grp0 with wait := .mark }
  { s with cmp := { s.cmp with
      ctxs := [(1, { state := .stopping })]
      clus := [(0, { state := st, ctx := 1, holder := some 0, grace := some 50000, saved := true })]
      accs := if b then [{ core := 0, slot := 0, ctx := 1, kind := .store, line := 5, rel := some 1 }] else [] } }

/-- Nothing of the context is left on cluster 0. -/
def emptied (st : ClState) : State :=
  { rst with cmp := { rst.cmp with
      ctxs := [(1, { state := .stopping })]
      clus := [(0, { state := st, ctx := 1, holder := some 0, grace := some 50000, saved := true })] } }

theorem witness_saves :
    (∀ b ∈ [true, false],
      let s := stopping .stopping b
      (SMap.find s.cmp.bclus 0).map (·.cluster) = some 0 ∧ (s.cluster 0).state = .stopping ∧ (s.cluster 0).grace = some 50000 ∧
        (∀ g ∈ s.groupsOfBc 0, ∀ x ∈ s.grp g, x.halted = false ∧ x.stepping = false ∧ x.trapped = none ∧ x.wait = .mark) ∧
        (∀ b ∈ s.blocksOfBc 0, s.lmQuiet (b / 16) [] = true) ∧ (s.cleanForSave 0).drained 0 = !b) ∧
      ((emptied .saving).cluster 0).state = .saving ∧ ((emptied .saving).cluster 0).saved = true ∧
      SMap.sorted (emptied .saving).cmp.clus = true ∧ (emptied .saving).cmp.bclus = [] ∧ ((emptied .saving).ctx 1).isSome ∧
      (emptied .saving).clustersOf 1 = [0] ∧ ((emptied .cleaning).cluster 0).holder = some 0 ∧
      ((emptied .cleaning).flushLines (fun q _ l => q == 0 && !l.hw && l.part == 0)).isSome ∧
      ((withCopy (emptied .cleaning) .wb).flushLines (fun q _ l => q == 2 && !l.hw && l.part == 0)).isNone := by
  decide

theorem witness_savedGroup :
    grp0.pc < 2 ^ 64 ∧ grp0.active < 2 ^ 32 ∧ grp0.exited < 2 ^ 32 ∧ grp0.flags < 32 ∧ grp0.stack.length ≤ 32 ∧ grp0.block < 128 ∧
      grp0.vunits.length ≤ 32 := by
  decide

/-- Context 1 is saved in slot 0, with no block, and may take cluster 0. -/
def restorable : State :=
  { placing with cmp := { placing.cmp with ctxs := [(1, { state := .saved, slots := [0] })] } }

theorem witness_restore :
    (restorable.ctx 1).map (fun x => (x.state, x.suspended, x.slots, restorable.mayTake 1 x 0, (restorable.slotBlocks x 0).length)) =
        some (.saved, false, [0], true, 0) ∧
      ((emptied .restoring).cluster 0).state = .restoring ∧ ((ctxIn .pruning 2).ctx 1).map (·.state) = some .pruning ∧
      (ctxIn .pruning 2).flag F.CNP_CTL_ACCT_EN = false ∧ ((ctxIn .pruning 2).steq (2 ^ 20 + 1)).xfers = [] ∧
      (∀ e ∈ (ctxIn .pruning 2).cmp.ctxs, e.2.state = .pruning → 0 ≤ e.2.deadline) := by
  decide +kernel

/-- A final record waits: for room, or not. -/
def finalWaits (head : Nat) : State :=
  let s := (rst.fset F.CNP_ACCT_BASE_SIZE 6).fset F.CNP_ACCT_HEAD_HEAD head
  { s with cmp := { s.cmp with ctxs := [(1, { state := .killed, finalWait := [3] })] } }

theorem witness_accounting :
    ((finalWaits 1).ctx 1).map (fun x => (x.finalWait, x.leaving)) = some ([3], false) ∧
      ((finalWaits 1).fget F.CNP_ACCT_TAIL_TAIL + 1) % 64 = (finalWaits 1).fget F.CNP_ACCT_HEAD_HEAD % 64 ∧
      ((finalWaits 0).fget F.CNP_ACCT_TAIL_TAIL + 1) % 64 ≠ (finalWaits 0).fget F.CNP_ACCT_HEAD_HEAD % 64 ∧
      2 ^ (finalWaits 0).fget F.CNP_ACCT_BASE_SIZE = 64 := by
  decide

/-! ### Event controllers and fault records: witnesses -/

/-- Source 5 of die 3 is routed to vector 0 of the PF, whose messages are on; its vector is masked, or the whole function is. -/
def routed (msix masked : Bool) : State :=
  (((rst.fset F.EVC_ROUTE_TARGET 2 (srcKey 3 5)).fset F.EVC_MASK_MASK 0 (srcWord 3 5)).setFunc 0 { msixEnable := msix }).setMsixVec 0 0 { masked := masked }

/-- Die 3 is Off; its control clock is stopped, and source 5 is latched. -/
def dieOff : State := { rst with pwr := { rst.pwr with diesOff := [3] } }
def clockStopped : State := { rst with evc := { rst.evc with stopped := [3], latched := [srcKey 3 5, srcKey 4 6] } }

theorem witness_events :
    dieOff.pwr.diesOff.contains (3 : Fin 84).val = true ∧ clockStopped.pwr.diesOff.contains (3 : Fin 84).val = false ∧
      clockStopped.evc.stopped.contains (3 : Fin 84).val = true ∧ rst.evc.stopped.contains (3 : Fin 84).val = false ∧
      (rst.fget F.EVC_MASK_MASK (srcWord 3 5)).testBit 5 = true ∧
      ((routed true true).fget F.EVC_MASK_MASK (srcWord 3 5)).testBit 5 = false ∧ rst.fget F.EVC_ROUTE_TARGET (srcKey 3 200) ≠ 2 ∧
      (routed false false).fget F.EVC_ROUTE_TARGET (srcKey 3 5) = 2 ∧ (routed false false).msixTaken 0 0 = false ∧
      (routed true false).msixTaken 0 0 = true ∧ ((routed true false).func 0).functionMask = false ∧
      ((routed true false).msixVec 0 0).masked = false ∧ ((routed true true).msixVec 0 0).masked = true := by
  decide

/-- The device fault queue of die 3 holds a number of records. -/
def dfqWith (n : Nat) : State := rst.fset F.EVC_DFQ_TAIL_TAIL n 3

theorem witness_pending :
    rst.arrives .taproot false false = true ∧ rst.fget F.TAP_DIE_HEALTH_STATE (3 : Fin 84).val ≠ 2 ∧
      rst.arrives (.vf 1) false false = true ∧ reachOk .all (.vf 1) = false ∧ reachOk .all .taproot = true ∧
      (∀ b < 32, rst.fget F.EVC_ROUTE_TARGET (srcKey 3 (30 * 32 + b)) ≠ 2) ∧ srcKey 3 5 / 1024 = 3 ∧ srcKey 4 6 / 1024 ≠ 3 ∧
      (dfqWith 254).dfqHeld 3 < 255 ∧ (dfqWith 255).dfqHeld 3 = 255 ∧ (dfqWith 255).flag F.EVC_DFQ_TAIL_SUMMARY 3 = false ∧
      255 < (dfqWith 256).dfqHeld 3 := by
  decide

/-- A record of context 1 is on its way; others wait. -/
def inRing (st : CtxState) (waiting : List FaultRec) (r : FaultRec) : State :=
  { rst with
    evc := { rst.evc with flight := [r], waiting := waiting }
    cmp := { rst.cmp with ctxs := [(1, { state := st })] } }
def rec1 (code : Nat) : FaultRec := { cls := 1, code := code, context := 1 }

theorem witness_faultRing :
    (inRing .running [] (rec1 2)).evc.flight[0]?.map (fun r => (r.context, r.code)) = some (1, 2) ∧
      ((inRing .running [] (rec1 2)).ctx 1).map (fun x => (x.ringLost, x.ringFull)) = some (false, false) ∧
      (∀ st ∈ [CtxState.running, .faulted], (inRing st [] (rec1 2)).storesOut 1 = false) ∧
      (inRing .running [rec1 0x22] (rec1 0x22)).evc.waiting.any (fun q => q.context == 1) = true ∧ (rec1 0x22).deferred = false ∧
      ((inRing .faulted [rec1 0x22] (rec1 2)).ctx 1).map (·.state) = some .faulted ∧ (rec1 2).cls = 1 ∧
      (inRing .running [rec1 0x22] (rec1 2)).evc.waiting.map (·.context) = [1] := by
  decide +kernel

theorem witness_kick : rst.mayWrite .taproot .EVC_FR_KICK 0 := by
  unfold State.mayWrite
  decide

/-- The message interval of context 1 runs; it covers records, or not. -/
def interval (covers irq : Bool) : State :=
  let s := (rst.setFunc 0 { msixEnable := true }).setMsixVec 0 0 {  masked := false }
  { s with
    evc := { s.evc with interval := [(1, covers)] }
    cmp := { s.cmp with ctxs := [(1, { state := .running, irqEn := irq })] } }

theorem witness_interval :
    SMap.find (interval false true).evc.interval 1 = some false ∧ SMap.find (interval true true).evc.interval 1 = some true ∧
      ((interval true true).ctx 1).map (·.irqEn) = some true ∧ ((interval true true).ctxFunc 1).1 = 0 ∧
      (interval true true).msixTaken 0 0 = true ∧ ((interval true true).func 0).functionMask = false ∧
      ((interval true true).msixVec 0 0).masked = false := by
  decide +kernel

/-! ### Queue pairs, the host attachment and the mailbox: witnesses -/

/-- The host reaches the package, which is Ready; BAR4 of the PF has a window; 255 VFs. -/
def hosted : State :=
  let s := ((rst.fset F.TAP_READY_STATE 3).fset F.TAP_READY_HBM 1).fset F.CNP_BAR4_WIN_EN 1 0
  { s with host := { s.host with served := true, vfEnable := true, numVfs := 255 }, pwr := { s.pwr with inReset := none } }

/-- Queue pair 5 of the PF is enabled, with rings of 16 entries; doorbell page 5 of the PF is its own. -/
def pair5 : State :=
  ((((hosted.fset F.CNP_QP_CFG_EN 1 5).fset F.CNP_QP_CFG_SQ_SIZE 4 5).fset F.CNP_QP_CFG_CQ_SIZE 4 5).fset F.CNP_QP_CFG_CONTEXT 1 5)

/-- A packet of an OP, with its reserved byte. -/
def packet (op r : Nat) : List Byte := toBytes (op + r * 2 ^ 8 + 9 * 2 ^ 16) 8 ++ toBytes 0x8000 8 ++ List.replicate 48 0

/-- The packet stands at the head of pair 5, whose context is registered or not. -/
def pairWith (b : Option (List Byte)) (ctx : Bool) : State :=
  let s := pair5.updQp 5 (fun p => { p with sqTail := 1, fetched := b, fetching := b.isNone })
  if ctx then { s with cmp := { s.cmp with ctxs := [(1, { state := .running })] } } else s

/-- A command holds the pair; the access that it made has answered. -/
def pairHeld (op : Nat) : State :=
  pair5.updQp 5 (fun p => { p with held := some { cid := 9, op := op, addr := 0x8000, timeout := 5 }, aux := .got (toBytes 3 8) })

theorem witness_queues :
    pair5.pagePair (.pf 5) = some 5 ∧ rst.pagePair (.vf 1 0) = none ∧ (15 : W32).toNat < pair5.sqSize 5 ∧
      pair5.sqSize 5 ≤ (16 : W32).toNat ∧ pair5.cqSize 5 ≤ (16 : W32).toNat ∧ (pair5.qp 5).cqHead = 0 ∧
      pair5.fget F.CNP_QP_STATUS_ERR 5 = 0 ∧ ((pairWith none true).fetchCmd 5).map (·.2) = some none ∧
      (∀ op ∈ [0, 1, 2, 3, 4], ((pairWith (some (packet op 0)) true).fetchCmd 5).map (fun x => (x.2.map (fun b => (Packet.of b).op))) =
        some (some op)) ∧
      (Packet.of (packet 0 1)).bad = true ∧ (Packet.of (packet 0 0)).bad = false ∧
      (pairWith (some (packet 0 0)) false).pairAllowed 5 = false ∧ (pairWith (some (packet 2 0)) true).pairAllowed 5 = true ∧
      (∀ op ∈ [2, 3], ((pairHeld op).qp 5).held.map (fun c => (c.op, c.timeout)) = some (op, 5)) ∧
      ((pairHeld 2).qp 5).started = [] := by
  decide +kernel

/-- A completion of pair 5 waits; the CQ is in host memory; the interval of its messages runs. -/
def completing (irq : Nat) (s : State) : State :=
  ((s.fset F.CNP_QP_CQ_HOST 1 5).fset F.CNP_QP_CFG_IRQ_EN irq 5).updQp 5 (fun p =>
    { p with waiting := [⟨9, 0, false, 0, 0, false⟩], interval := true, covered := irq = 1 })

theorem witness_completions :
    ((completing 0 pair5).qp 5).waiting = [⟨9, 0, false, 0, 0, false⟩] ∧ (completing 0 pair5).storesOut 1 = false ∧
      (completing 0 pair5).fget F.CNP_QP_CFG_CONTEXT 5 = 1 ∧ (completing 0 rst).flag F.CNP_QP_CFG_EN 5 = false ∧
      (completing 0 pair5).flag F.CNP_QP_CFG_EN 5 = true ∧ (completing 0 pair5).cqFull 5 = false ∧
      (completing 0 pair5).flag F.CNP_QP_CQ_HOST 5 = true ∧ (completing 0 pair5).flag F.CNP_QP_CFG_IRQ_EN 5 = false ∧
      (completing 1 pair5).flag F.CNP_QP_CFG_IRQ_EN 5 = true ∧ ((completing 1 pair5).qp 5).interval = true ∧
      ((completing 0 pair5).qp 5).covered = false ∧ ((completing 1 pair5).qp 5).covered = true ∧
      ((completing 1 pair5).setFunc 0 { msixEnable := true }).msixTaken 0 0 = true := by
  decide

theorem witness_config :
    { hosted with host := { hosted.host with vfEnable := false } }.funcExists 255 = false ∧ hosted.funcExists 255 = true ∧
      hosted.configServed 255 = true ∧ { hosted with host := { hosted.host with served := false } }.configServed 255 = false := by
  decide

theorem witness_bar4 :
    barFormed 4095 (.read 1) = true ∧ rst.decodes 0 = false ∧ hosted.decodes 0 = true ∧ hosted.flag F.CNP_BAR4_WIN_EN 0 = true ∧
      hosted.flag F.TAP_READY_HBM = true ∧ hosted.decodes 255 = true ∧ (hosted.vfWindow 255 0 false).isNone ∧
      (rst.readBytes 0x100 4).2.2 = 0 ∧ (rst.readBytes (2 ^ 46) 4).2.2 = 0x24 := by
  decide +kernel

/-- The window of VF 255 leads through context 1, whose tables map the first GiB onto itself. -/
def vfMapped : State :=
  let s := ((hosted.fset F.XLT_CTT_BASE_EN 1).fset F.CNP_BAR4_WIN_EN 1 255).fset F.CNP_BAR4_CTX_CONTEXT 1 255
  { s with cmp := { s.cmp with
      ctxs := [(1, { state := .running, ctt := some (1 + 0x1000 + 255 * 2 ^ 84) })]
      mem := [(0x1000, 1), (0x1001, 0x20), (0x2000, 1), (0x2001, 0x30), (0x3000, 0xF)] } }

/-- An access of eight bytes across a page of 4 KiB has two parts, each with its place. -/
theorem witness_vfWindow :
    let cuts := barCuts 0xFFC 8
    let u := cuts.foldl (fun (s : State) c => s.windowWalk 255 c.1) vfMapped
    vfMapped.decodes 255 = true ∧ vfMapped.flag F.TAP_READY_HBM = true ∧ 0xFFC < 2 ^ (20 + vfMapped.host.vfBar4) ∧
      cuts.map (fun c => u.vfWindow 255 c.1 true) = [(0xFFC, 4), (0x1000, 4)].map (fun p => some p.1) ∧
      [(0xFFC, 4), (0x1000, 4)].map (·.2) = cuts.map (·.2) := by
  decide +kernel

/-- Reads of host memory are outstanding: for a queue entry, and for a WAIT. -/
def reading : State := { rst with host := { rst.host with reads := [(1, .sqEntry 5), (2, .waitWord 5)] } }

theorem witness_reads :
    SMap.find reading.host.reads 1 = some (.sqEntry 5) ∧ SMap.find reading.host.reads 2 = some (.waitWord 5) ∧
      reading.fget F.CNP_QP_STATUS_ERR 5 = 0 := by
  decide

theorem witness_functions :
    hosted.funcExists 255 = true ∧ (hosted.func 255).inFlr = false ∧ hosted.flag F.CNP_CTL_ACCT_EN = false ∧
      ((hosted.setFunc 255 { inFlr := true }).func 255).inFlr = true ∧ true ≠ rst.host.vfEnable ∧ true ≠ rst.host.linkUp := by
  decide

/-- A mailbox in a state, with a count and an operation. -/
def mbx (st n op : Nat) : State :=
  let s := (hosted.fset F.TAP_MBX_CMD_STATE st).fset F.TAP_MBX_CMD_COUNT n
  { s with host := { s.host with mbxOp := op, mbxRsp := if st = 3 then [7] else [] } }

theorem witness_mailbox :
    reachOk .pfTaproot .pf = true ∧ (mbx 1 2 1).arrives .pf true true = true ∧ (mbx 1 2 1).fget F.TAP_MBX_CMD_STATE = 1 ∧
      1 < (mbx 1 2 1).fget F.TAP_MBX_CMD_COUNT ∧ (mbx 1 1 1).fget F.TAP_MBX_CMD_COUNT = 1 ∧
      (mbx 1 1 1).mbxServed (mbx 1 1 1).host.mbxOp = true ∧ (mbx 1 1 0).mbxServed (mbx 1 1 0).host.mbxOp = false ∧
      (mbx 0 0 0).fget F.TAP_MBX_CMD_STATE ≠ 1 ∧ (mbx 3 0 1).fget F.TAP_MBX_CMD_STATE = 3 ∧ (mbx 3 0 1).host.mbxRsp = [7] := by
  decide

/-- A request of an operation that has come whole; the image is free for the host or not. -/
def request (op : Nat) (l : List W32) (busy : Bool) : State :=
  let s := (hosted.fset F.TAP_MBX_CMD_STATE 2).fset F.TAP_FW_STATUS_UPDATE (nb busy)
  let r : LogRec := { seq := 3, time := 0, u := false, severity := 0, die := 0, kind := 0 }
  { s with host := { s.host with mbxOp := op, mbxReq := l }, tap := { s.tap with flashLog := [r] } }

/-- A write of four bytes of the image at an offset, with the right checksum. -/
def imageRequest (off : Nat) : State :=
  request 5 [BitVec.ofNat 32 off, 4, crc32c (wordBytes [7]), 0, 7] false

theorem witness_mailboxOps :
    (∀ op ∈ [1, 2, 3, 4, 5, 6], (request op [0] false).mbxBusy op = true) ∧ (request 1 [0] false).mbxWord 0 = 0 ∧
      bits ((request 2 [2048] false).mbxWord 0) 0 12 = 2048 ∧ (request 3 [3, 2048] false).mbxWord 1 = 2048 ∧
      (request 3 [3, 1] false).tap.flashLog.map (·.seq) = [3] ∧ (request 4 [1] false).mbxWord 0 = 1 ∧
      (request 5 [] false).imageBusy false = false ∧ (request 5 [] true).imageBusy false = true ∧
      (request 6 [0, 1] false).imageBusy false = false ∧ (request 6 [0, 1] false).mbxWord 1 = 1 := by
  decide

theorem witness_image :
    (imageRequest 4096).imageBusy false = false ∧
      (crc32c (wordBytes ((imageRequest 4096).host.mbxReq.drop 4))).toNat = (imageRequest 4096).mbxWord 2 ∧
      (imageRequest 4096).host.mbxReq.length = 4 + 4 / 4 ∧ (imageRequest 4096).mbxWord 1 = 4 ∧ (imageRequest 4096).mbxWord 3 = 0 ∧
      (imageRequest 4096).mbxWord 0 % 4096 = 0 ∧ (imageRequest 4096).tap.imageUpd.meets 4096 4 = false ∧
      (imageRequest 4).mbxWord 0 % 4096 ≠ 0 ∧
      (crc32c (wordBytes ((request 5 [0, 4, 1, 0, 7] false).host.mbxReq.drop 4))).toNat ≠ (request 5 [0, 4, 1, 0, 7] false).mbxWord 2 := by
  decide +kernel

/-! ### Griga: witnesses -/

/-- Port 3 in a state, with what it holds. -/
def portIn (st : Nat) (g : GPort) : State :=
  (((rst.fset F.GRG_PORT_STATUS_STATE st 3).fset F.GRG_PORT_CTL_EN 1 3).fset F.GRG_PORT_STATUS_LANES 15 3).setGport 3 g

/-- All eight slots of the governor are in use. -/
def slotsFull (s : State) : State := (List.range 8).foldl (fun (s : State) k => s.setGport (10 + k) { slot := true }) s

theorem witness_training :
    rst.portState 3 = 0 ∧ (portIn 1 {}).portState 3 = 1 ∧ ((portIn 1 {}).gport 3).holdWait = false ∧ ((portIn 1 {}).gport 3).asked = none ∧
      (slotsFull (portIn 1 {})).slotsUsed = 8 ∧ ((portIn 1 { holdWait := true }).gport 3).holdWait = true ∧
      SMap.sorted (portIn 1 { holdWait := true }).grg.ports = true ∧ ((portIn 2 { asked := some 4 }).gport 3).asked = some 4 ∧
      (∀ e ∈ (portIn 2 { asked := some 4 }).grg.ports, e.2.asked = some 4) ∧ (portIn 2 { asked := some 4 }).slotsUsed < 8 ∧
      lanesLegal (7 : BitVec 4).toNat = false ∧ lanesLegal (8 : BitVec 4).toNat = true ∧ (portIn 3 {}).portState 3 = 3 ∧
      laneWidth (15 : BitVec 4).toNat ≤ (portIn 3 {}).maxWidth 3 := by
  decide +kernel

theorem witness_retrainWord :
    rst.mayWrite .taproot .GRG_PORT_CTL 3 ∧ (portIn 4 {}).mayWrite .taproot .GRG_PORT_CTL 3 ∧
      ((portIn 4 {}).writeReg .GRG_PORT_CTL 3 0x1001 (Reg.full .GRG_PORT_CTL)).flag F.GRG_PORT_CTL_EN 3 = true :=
  ⟨⟨by decide, by decide⟩, ⟨by decide, by decide⟩, by decide⟩

theorem witness_retrain :
    (portIn 6 {}).portState 3 = 6 ∧ (portIn 5 { cand := 15 }).portState 3 = 5 ∧ (portIn 4 {}).fget F.GRG_PORT_STATUS_LANES 3 = 15 ∧
      (15 : Nat) &&& (1 : BitVec 4).toNat ≠ 0 ∧ (15 : Nat) &&& (0 : BitVec 4).toNat = 0 := by
  decide

theorem witness_retry :
    (portIn 4 {}).portState 3 = 4 ∧ ((portIn 4 {}).gport 3).rxSeq = 0 ∧ ((portIn 4 {}).gport 3).acked = 4095 ∧
      (0 : Nat) < (4 + 4096 - ((portIn 4 { unacked := 5 }).gport 3).acked) % 4096 ∧
      (4 + 4096 - ((portIn 4 { unacked := 5 }).gport 3).acked) % 4096 ≤ ((portIn 4 { unacked := 5 }).gport 3).unacked ∧
      ((portIn 4 { unacked := 5 }).gport 3).unacked ≠ 0 ∧
      (0 + 8191 - ((portIn 4 { unacked := 5 }).gport 3).acked) % 4096 = 0 ∧
      (portIn 4 { unacked := 5, replays := 15 }).fget F.GRG_PORT_CTL_REPLAY_LIMIT 3 ≤ 15 + 1 ∧
      0 + 1 < (portIn 4 { unacked := 5 }).fget F.GRG_PORT_CTL_REPLAY_LIMIT 3 := by
  decide +kernel

/-- The package has number 9; window 0 admits every request to the first 64 KiB; port 3 is Up. -/
def ingressUp : State :=
  let s := (((portIn 4 {}).fset F.GRG_PKG_ID_V 1).fset F.GRG_PKG_ID_ID 9).fset F.GRG_WIN_BASE_EN 1 0
  ((s.fset F.GRG_WIN_BASE_RD 1 0).fset F.GRG_WIN_BASE_WR 1 0).fset F.GRG_WIN_BASE_AT 1 0

/-- A request of an opcode and class, of some bytes at address 0, with its payload. -/
def reqTo (dst op cls len : Nat) (payload : List Byte) : GMsg :=
  { dst := dst, src := 7, cls := cls, op := op, tag := 5, len := len, payload := payload }

theorem witness_ingressForms :
    (∀ e ∈ [(rdFormed (reqTo 9 opRd 1 128 (List.replicate 16 255)), 1), (getFormed (reqTo 9 opGet 0 64 []), 2),
      (wrFormed (reqTo 9 opWr 1 128 (List.replicate 144 1)), 3), (atFormed (reqTo 9 opAt 1 4 (List.replicate 8 1)), 4),
      (putForm (reqTo 9 opPut 0 64 (List.replicate 64 1)) opPut, 5)], e.1 = true) ∧
      rdFormed (reqTo 9 opRd 1 127 []) = false ∧ (portIn 1 {}).portState 3 ≠ 4 := by
  decide +kernel

theorem witness_putRed : putRedFormed { reqTo 9 opPutRed 0 64 (List.replicate 64 1) with x := 1 } = true := by decide +kernel

theorem witness_ingress :
    ingressUp.portState 3 = 4 ∧ ingressUp.ingressReason (reqTo 9 opGet 0 64 []) = none ∧
      ingressUp.ingressReason (reqTo 8 opGet 0 64 []) = some 1 ∧
      ingressUp.ingressReason { reqTo 9 opGet 0 64 [] with addr := regBase } = some 2 ∧
      ingressUp.ingressReason { reqTo 9 opGet 0 64 [] with addr := 65536 } = some 3 ∧
      (ingressUp.fset F.GRG_WIN_BASE_RD 0 0).ingressReason (reqTo 9 opGet 0 64 []) = some 4 ∧
      (ingressUp.readBytes 0 64).2.2 = 0 := by
  decide +kernel

/-- Queue pair 6 waits for the answer of entry 2 of edge die 0. -/
def asking : State :=
  let s := (portIn 4 {}).updQp 6 (fun p => { p with aux := .due })
  let r : EgReq := { msg := reqTo 7 opGet 0 8 [], port := 3, route := 0, issuer := .pair 6, issued := 0 }
  { s with grg := { s.grg with egress := [(2, { r with msg := { r.msg with tag := 2 } })] } }

/-- An answer of an opcode to that request, from its package or another, with its status. -/
def ansTo (op src x : Nat) : GMsg := { dst := 9, src := src, cls := 2, op := op, tag := 2, x := x, payload := List.replicate 8 1 }

theorem witness_egress :
    (∀ op ∈ [opData, opAck, opNack], (ansTo op 7 0).op = op ∧ (ansTo op 7 0).cls = 2) ∧ asking.portState 3 = 4 ∧
      SMap.find asking.grg.egress (3 / 8 * 8192 + (ansTo opAck 7 0).tag % 8192) ≠ none ∧
      (portIn 4 {}).grg.egress = [] ∧ (asking.qp 6).aux = .due ∧ asking.grg.egWait = [] ∧
      (SMap.find asking.grg.egress 2).map (fun r => (r.msg.tag, r.msg.dst, r.issuer)) = some (2, 7, .pair 6) ∧
      bit (ansTo opData 7 1).x 0 = true ∧ (ansTo opAck 8 0).src = 8 := by
  decide +kernel

theorem witness_sync :
    rst.mayWrite .taproot .GRG_RT_SYNC 0 ∧ (1 : W32).getLsbD 0 = true ∧ (0 : W32).getLsbD 0 = false ∧
      (rst.fset F.GRG_RT_SYNC_SYNC 1).flag F.GRG_RT_SYNC_SYNC = true ∧ rst.grg.egWait = [] := by
  unfold State.mayWrite
  decide +kernel

theorem witness_management :
    (portIn 4 {}).fget F.TAP_READY_STATE ≠ 3 ∧ ((portIn 4 {}).fset F.TAP_READY_STATE 3).fget F.TAP_READY_STATE = 3 ∧
      (rst.fset F.TB_STATUS_SRC 1).fget F.TB_STATUS_SRC = 1 ∧ (rst.portTrack rst.ring.port).master = 0 ∧
      (rst.fset F.TAP_READY_TAPROOT 1).flag F.TAP_READY_TAPROOT = true := by
  decide +kernel

/-! ### Power, bring-up and resets: witnesses -/

/-- The package with other power inputs. -/
def powered (f : Power → Power) : State := { rst with pwr := f rst.pwr }

theorem witness_power :
    (let s := powered (fun p => { p with converting := false, pwrGood := false })
     s.pwr.converting = false ∧ s.pwr.softStart = false ∧ s.pwr.latchedOff = false) ∧
      (powered (fun p => { p with latchedOff := true })).pwr.latchedOff = true ∧
      (powered (fun p => { p with softStart := true })).pwr.softStart = true ∧ rst.pwr.converting = true ∧ rst.pwr.perst = false ∧
      (powered (fun p => { p with perst := true })).pwr.perst = true ∧ rst.pwr.pwrGood = true ∧ rst.jtag.ir = .idcode := by
  decide

/-- A readiness state; the processors of Taproot run or not. -/
def atState (st : Nat) (taproot : Bool) : State :=
  { (rst.fset F.TAP_READY_STATE st).fset F.TAP_READY_TAPROOT (nb taproot) with
    pwr := { rst.pwr with inReset := none, fusesLoaded := true } }

/-- All dies but one have passed their self-test. -/
def testedBut (d : Nat) : State :=
  { atState 2 true with pwr := { (atState 2 true).pwr with selfTested := (List.range 84).filter (fun e => e != d) } }

theorem witness_bringUp :
    rst.pwr.inReset = none ∧ rst.fget F.TAP_READY_STATE = 0 ∧ rst.pwr.fusesLoaded = false ∧ (atState 0 false).pwr.fusesLoaded = true ∧
      (atState 0 false).fget F.TAP_READY_STATE = 0 ∧ (testedBut 81).fget F.TAP_READY_STATE = 2 ∧
      (testedBut 81).flag F.TAP_READY_TAPROOT = true ∧ (testedBut 81).flag F.TAP_READY_STEWARDS = false ∧
      (testedBut 81).pwr.selfTested.contains 81 = false ∧ (testedBut 81).fget F.TAP_DIE_HEALTH_STATE 81 ≠ 2 ∧
      (testedBut 81).pwr.edge0Failed = false ∧ (atState 2 true).pwr.selfTested.contains 5 = false ∧
      (testedBut 82).pwr.selfTested.contains edge2 = false := by
  decide +kernel

/-- The device secret may have been read already, or not. -/
theorem witness_secret :
    rst.tap.secretLocked = false ∧ ({ rst with tap := { rst.tap with secretLocked := true } } : State).tap.secretLocked = true := by decide

theorem witness_selfTest :
    (∀ e < 84, e ≠ 81 → (testedBut 81).pwr.selfTested.contains e = true ∨ (testedBut 81).fget F.TAP_DIE_HEALTH_STATE e = 2) ∧
      ((atState 2 true).fset F.TAP_READY_STEWARDS 1).flag F.TAP_READY_STEWARDS = true ∧ rst.flag F.TAP_READY_HBM = false ∧
      rst.pcState 5 ≠ 2 := by
  decide +kernel

/-- In Ready, with the key and a command. -/
def keyed (op : Nat) : BitVec 32 := BitVec.ofNat 32 (op + 0xA5 * 256)

theorem witness_resetCommands :
    (atState 3 true).mayWrite .taproot .TAP_RESET_CTL 0 ∧ rst.mayWrite .taproot .TAP_RESET_CTL 0 ∧
      (∀ op ∈ [0, 1, 2, 3, 4, 7], bits (keyed op).toNat 0 3 = op ∧ bits (keyed op).toNat 8 8 = 0xA5) ∧
      ((atState 3 true).writeReg .TAP_RESET_CTL 0 (keyed 1).toNat (Reg.full .TAP_RESET_CTL)).resetOpen = true ∧
      (rst.writeReg .TAP_RESET_CTL 0 (keyed 1).toNat (Reg.full .TAP_RESET_CTL)).resetOpen = false ∧
      ((atState 4 true).writeReg .TAP_RESET_CTL 0 (keyed 4).toNat (Reg.full .TAP_RESET_CTL)).fget F.TAP_READY_STATE = 4 ∧
      ((atState 4 true).writeReg .TAP_RESET_CTL 0 (keyed 4).toNat (Reg.full .TAP_RESET_CTL)).flag F.TAP_RESET_CTL_BUSY = false ∧
      (atState 4 true).pwr.edge0Failed = false ∧ (atState 3 true).cmp.ctxs = [] := by
  unfold State.mayWrite
  decide

/-- A Standby entry, or its exit, is in progress; a warm reset is. -/
def entering : State := powered (fun p => { p with standbyEntry := true })
def leaving : State := powered (fun p => { p with standbyExit := true })
def resetting : State :=
  let s := powered (fun p => { p with inReset := some 3 })
  { s with host := { s.host with served := true } }

theorem witness_warm :
    rst.cmp.txns = [] ∧ (atState 3 true).flag F.TAP_READY_TAPROOT = true ∧ (atState 3 true).fget F.TAP_READY_STATE ≠ 5 ∧
      rst.flag F.TAP_READY_TAPROOT = false ∧ resetting.pwr.inReset = some 3 ∧ resetting.host.served = true ∧
      entering.pwr.standbyEntry = true ∧ (entering.flushLines (fun _ _ _ => true)).isSome = true ∧ leaving.pwr.standbyExit = true ∧
      leaving.cmp.txns = [] ∧ keptWarm .TAP_READY = true ∧ keptWarm .CNP_CTL = false := by
  decide

/-! ### Taproot: witnesses -/

/-- Both Taproots run, with a firmware update in a state. -/
def paired (upd : Nat) (f : Taproot → Taproot) : State :=
  let s := ((atState 3 true).fset F.TAP_STATUS_STANDBY_OK 1).fset F.TAP_FW_STATUS_UPDATE upd
  { s with tap := f s.tap }

theorem witness_pair :
    (paired 0 id).taprootUp = true ∧ (paired 0 id).tap.fatal = false ∧ (paired 0 id).flag F.TAP_STATUS_STANDBY_OK = true ∧
      (paired 0 (fun t => { t with journalSent := 1 })).tap.journalApplied < (paired 0 (fun t => { t with journalSent := 1 })).tap.journalSent ∧
      (atState 3 true).flag F.TAP_STATUS_STANDBY_OK = false ∧ (paired 0 (fun t => { t with fatal := true })).tap.fatal = true ∧
      (paired 1 id).fget F.TAP_FW_STATUS_UPDATE = 1 ∧ (paired 2 (fun t => { t with handBack := true })).tap.handBack = true ∧
      (paired 2 (fun t => { t with handBack := true })).fget F.TAP_FW_STATUS_UPDATE = 2 ∧
      (paired 2 (fun t => { t with formerDown := true })).tap.formerDown = true ∧ (paired 0 id).pwr.edge0Failed = false ∧
      (paired 0 id).flag F.CNP_CTL_ACCT_EN = false ∧ (atState 3 true).flag F.TAP_STATUS_ACTIVE = false ∧
      (paired 0 id).fget F.TAP_DIE_HEALTH_STATE (80 + 1) ≠ 2 := by
  decide

theorem witness_services :
    (2 : Fin 8).val < sensorCount (5 : Fin 84) ∧ sensorCount (80 : Fin 84) ≤ (7 : Fin 8).val ∧
      (paired 0 id).pwr.diesOff.contains 5 = false ∧ (paired 0 id).fget F.TAP_DIE_HEALTH_STATE 5 ≠ 2 ∧ (paired 0 id).tap.inputs = [] ∧
      (paired 3 id).fget F.TAP_FW_STATUS_UPDATE = 3 ∧ (paired 3 id).fget F.TAP_FW_STATUS_DIE < 83 ∧
      83 ≤ ((paired 3 id).fset F.TAP_FW_STATUS_DIE 83).fget F.TAP_FW_STATUS_DIE ∧
      ((paired 0 id).fset F.TAP_READY_STEWARDS 1).flag F.TAP_READY_STEWARDS = true ∧
      (paired 0 id).fget F.TAP_READY_STATE ≠ 0 ∧ (paired 0 (fun t => { t with burnSvn := true })).burnable .svnMinimum = true := by
  decide

/-- The sideband is up. -/
def sideband : State :=
  { (paired 0 id).fset F.TAP_READY_MCTP 1 with tap := { (paired 0 id).tap with i3cAddr := some 8 } }

theorem witness_sideband :
    sideband.flag F.TAP_READY_MCTP = true ∧ sideband.tap.i3cAddr.isSome = true ∧ sideband.pwr.edge0Failed = false ∧
      rst.flag F.TAP_READY_MCTP = false ∧ (atState 3 true).pwr.fusesLoaded = true ∧ rst.pwr.fusesLoaded = false ∧ rst.localNs < 25000000 ∧
      sideband.standby.pwr.standbyEntry = true ∧ sideband.pwr.standbyEntry = false ∧
      (sideband.fset F.TAP_READY_STATE 4).resumeStandby.pwr.standbyExit = true ∧ sideband.pwr.standbyExit = false := by
  decide

theorem witness_update :
    rst.flag F.TAP_READY_MCTP = false ∧ rst.fget F.TAP_READY_STATE ≠ 1 ∧ sideband.fget F.TAP_READY_STATE = 3 ∧
      sideband.imageBusy true = false ∧ (sideband.fset F.TAP_FW_STATUS_UPDATE 1).imageBusy true = true ∧
      (atState 1 false).fget F.TAP_READY_STATE = 1 ∧ (paired 0 (fun t => { t with session := some true })).tap.session.isSome = true := by
  decide

theorem witness_attestation :
    (0 : W16).toNat + (0 : W16).toNat ≤ (sideband.certChain 0).length ∧ (List.replicate 32 (7 : Byte)).length = 32 :=
  ⟨by simp, rfl⟩

theorem witness_measurementReport :
    (List.replicate 32 (7 : Byte)).length = 32 ∧ ({ rst with host := { rst.host with served := true } } : State).host.served = true ∧
      sideband.flag F.TAP_READY_MCTP = true ∧ sideband.tap.i3cAddr.isSome = true ∧ sideband.pwr.edge0Failed = false := by decide

/-! ### Retirement, power control, debug: witnesses -/

/-- Core 40 has failed; its quadrant's pool holds physical core 33, or nothing. -/
def failedCore (pool : List Nat) : State :=
  { rst with health := { rst.health with failing := [40], pool := SMap.put rst.health.pool 1 pool } }

theorem witness_retirement :
    (rst.groupsUsed 40).isEmpty = true ∧ rst.health.retiredCores.contains 40 = false ∧ (rst.cluster 5).state ≠ .retired ∧
      rst.pwr.diesOff.contains (dieOf 40) = false ∧
      (small.cmp.groups.find? (fun e => e.1 / 32 == 0 && small.ready e.1 e.2)).map (·.1) = some 0 ∧
      (small.ctx 1).map (·.state) = some .running ∧ small.flag F.CNP_CTL_ACCT_EN = false ∧ (failedCore [33]).health.failing.contains 40 = true ∧
      ((failedCore [33]).cluster 5).state = .idle ∧ ((failedCore [33]).poolOf (40 / 32)).contains 33 = true ∧
      (failedCore []).poolOf (40 / 32) = [] ∧ bit (outerSides 5) (2 : Fin 4).val = false ∧
      rst.fget F.TAP_DIE_HEALTH_STATE (5 : Fin 84).val ≠ 2 ∧
      setBits (rst.fget F.TAP_DIE_HEALTH_LINKS_DOWN 5) 2 1 (nb (!false)) ||| outerSides 5 ≠ 15 := by
  decide +kernel

/-- The package's power, in tenths of its unit, with a limit. -/
def drawing (pin lim : Nat) : State := (rst.fset F.TAP_POWER_PIN pin).fset F.TAP_PWR_LIMIT_PLIM lim

theorem witness_duty :
    rst.pwr.pwrGood = true ∧ (drawing 5 4).overPin = true ∧ (drawing 1 4).overPin = false ∧ (drawing 1 4).overIin = false ∧
      (drawing 1 4).calm = true ∧ rst.duty.clamp = false ∧ rst.duty.calmMs < 9 ∧ rst.pwr.converting = true ∧
      ((rst.fset F.TAP_TEMP_VALID 1 0).fset F.TAP_TEMP_TEMP 1600 0).dieTemp 0 = some 1600 := by
  decide +kernel

/-- Debug is enabled, and attachment 2 holds context 1; its group 0 of block 0 is named, ready or halted; a command is in the word. -/
def attached (grp : Grp) : State :=
  (((withGroup grp).fset F.DBG_CTL_EN 1).fset F.DBG_ATT_VALID 1 2).fset F.DBG_ATT_CONTEXT 1 2

/-- The state after the write of a debug command of attachment 2. -/
def debugCmd (op : Nat) (grp : Grp) : State :=
  (attached grp).writeReg .DBG_CMD 0 (op + 2 * 16 + 2 ^ 63) (Reg.full .DBG_CMD)

/-- The number of the block of the small machine. -/
def named (s : State) : State := s.setReg .DBG_CMD_ARG0 0 (BitVec.ofNat 64 (s.blockIndex 0 grp0))

theorem witness_debug :
    rst.mayWrite .taproot .DBG_CMD 0 ∧
      (∀ k ∈ [1, 2, 3, 4, 5, 6, 7], bits (k + 2 * 16 + 2 ^ 63) 0 4 = k ∧ bit (k + 2 * 16 + 2 ^ 63) 63 = true) ∧ bit 0 63 = false ∧
      (debugCmd 2 grp0).flag F.DBG_ATT_VALID 2 = true ∧ rst.flag F.DBG_ATT_VALID 2 = false ∧ rst.flag F.DBG_CTL_EN = false ∧
      (rst.ctx 0).isNone ∧ (small.fset F.DBG_CTL_EN 1).flag F.DBG_CTL_EN = true ∧ (small.fset F.DBG_CTL_EN 1).attOf 1 = none ∧
      (debugCmd 2 grp0).fget F.DBG_ATT_CONTEXT 2 = 1 ∧ (debugCmd 3 grp0).flag F.DBG_CMD_ALL = false ∧
      (debugCmd 3 grp0).flag F.DBG_ATT_STOPALL 2 = false := by
  unfold State.mayWrite
  decide +kernel

theorem witness_debugGroup :
    ((named (debugCmd 3 grp0)).selected 1).map (·.1) = some 0 ∧ (debugCmd 3 grp0).preemptPending 1 = false ∧
      ((named (debugCmd 4 { grp0 with halted := true })).selected 1).map (fun x => (x.1, x.2.halted, x.2.trapped.isSome)) =
        some (0, true, false) ∧
      (match (named (debugCmd 6 grp0)).inspected 1 with
        | .error r => r
        | .ok _ => 0) = 3 ∧
      (match (named (debugCmd 6 { grp0 with halted := true })).inspected 1 with
        | .error r => r
        | .ok _ => 0) = 0 := by
  decide +kernel

/-- A halt of the group waits to be reported. -/
def haltWaits : State := { attached { grp0 with halted := true } with halts := [⟨2, 0, 0, 3, 0, 0⟩] }

theorem witness_haltReport :
    (haltWaits.halts.filter (fun x => x.att == 2)).length = 1 ∧ haltWaits.haltDrained ⟨2, 0, 0, 3, 0, 0⟩ = true ∧
      haltWaits.scalarDirty 0 = false ∧
      { haltWaits with cmp := { haltWaits.cmp with accs := [{ id := 0, core := 0, slot := 0, ctx := 1, kind := .store, line := 5 }] } }.haltDrained
        ⟨2, 0, 0, 3, 0, 0⟩ = false := by
  decide +kernel

theorem witness_landsBack :
    ({ rst with pwr := { rst.pwr with perst := true }, jtag := { ir := .clamp } } : State).pwr.perst = true ∧
      JtagInstr.clamp ∈ [JtagInstr.extest, .extestPulse, .extestTrain, .clamp, .highz] := by decide

/-! ### The machine as a whole: witnesses -/

theorem witness_issue :
    (withGroup { grp0 with halted := true }).ready 0 { grp0 with halted := true } = false ∧
      (small.fetched who0 (lenOf imm5.w)).map (·.1.pc) = some 0x1000 ∧ (scalarForm .add).reserved { imm5 with mod := 1 } = true ∧
      (scalarForm .add).reserved imm5 = false ∧ small.lanesR who0 { grp0 with active := 0 } (scalarForm .add) imm5 = 0 := by
  decide +kernel

theorem witness_exceptions :
    (small.grp 0).map (·.ctx) = some 1 ∧ (small.ctx 1).map (·.state) = some .running ∧ small.attOf 1 = none ∧
      (attached grp0).attOf 1 = some 2 ∧ ((attached grp0).fset F.DBG_ATT_TRAPFAULT 1 2).flag F.DBG_ATT_TRAPFAULT 2 = true := by
  decide

theorem witness_memory : small.memWf = true := by decide

theorem witness_mismatch :
    (smallRound false).issuesR (smallRound false) who0 grp0 { sec := .imm, auxs := 4 } { bar2 with b := 3 } ∧
      ((smallRound false).blk (blockKey 0 grp0)).isSome ∧
      (((smallRound false).blk (blockKey 0 grp0)).bind (fun b => SMap.find b.rounds 0)).map (·.n) = some 2 :=
  ⟨⟨rfl, rfl, rfl, by decide, rfl⟩, by decide, by decide⟩

/-! ### Ill-formed commands are refused: one for each check -/

/-- A message without an opcode. -/
def noMsg : GMsg := {}

theorem wf_registers :
    (Instr.registerWrite .taproot 3 0 0).wellFormed = false ∧ (Instr.registerWrite .taproot 0 2 0).wellFormed = true ∧
      (Instr.registerWrite .pf (0x20000001 + msixBase 0) 2 0).wellFormed = false ∧ (Instr.outOfReachRead .taproot 4 3).wellFormed = false ∧
      (Instr.commit .taproot .tbSrc 0 0).wellFormed = false ∧ (Instr.commit .taproot .tbSrc 1 1).wellFormed = false ∧
      (Instr.commitApply .tbSrc 1).wellFormed = false ∧ (Instr.discard .taproot .tbSrc 0 5).wellFormed = false := by
  decide

/-- An access that R9 gives no form: of one byte, or not aligned. -/
theorem witness_illFormed :
    writeFormed .taproot 3 0 = false ∧ writeFormed .pf (0x20000001 + msixBase 0) 2 = false ∧ accessFormed 4 3 = false ∧ accessFormed 0 2 = true := by
  decide

theorem wf_words :
    (Instr.hwSeal .taproot 0 0).wellFormed = false ∧ (Instr.hwRelease .taproot 0 0x10).wellFormed = false ∧
      (Instr.hwReload .taproot 0 0x40).wellFormed = false ∧ (Instr.resumeRetranslate .taproot 0x10000).wellFormed = false ∧
      (Instr.resumeUnresolvable .taproot 0).wellFormed = false ∧ (Instr.warmReset .taproot 0).wellFormed = false ∧
      (Instr.coldReset .taproot 1).wellFormed = false ∧ (Instr.standby .taproot 4).wellFormed = false ∧
      (Instr.standbyResume .taproot 3).wellFormed = false ∧ (Instr.portUp 0 7).wellFormed = false ∧
      (∀ c ∈ [Instr.debugAttach .taproot 1, .debugDetach .taproot 2, .debugHalt .taproot 3, .debugResume .taproot 4,
        .debugStep .taproot 5, .debugDump .taproot 6, .debugLoad .taproot 7], c.wellFormed = false) := by
  decide

theorem wf_host :
    (Instr.pfBar4Access 4095 (.read 2)).wellFormed = false ∧ (Instr.vfBar4Access 1 0 (.write [] false)).wellFormed = false ∧
      (Instr.sensorSample (.dieTemp 80 7 0)).wellFormed = false := by
  decide

theorem wf_messages :
    ∀ c ∈ [Instr.rdReq 0 noMsg, .wrReq 0 noMsg, .atReq 0 noMsg, .putReq 0 noMsg, .putRedReq 0 noMsg, .getReq 0 noMsg, .dataRsp 0 noMsg,
      .ackRsp 0 noMsg, .nackRsp 0 noMsg], c.wellFormed = false := by
  decide

/-! ### The words of instructions (R91, R92, R98) -/

/-- The word of the spec's example of `fma.f32.rn` under p3. -/
def fmaWord : W64 := 0x0A1990060203A280

theorem test_decodeFma :
    decodeWatrix who0 fmaWord 0 = some (.floatFma who0 { pg := 3, type := 4, d := 12, a := 4, b := 7, bmode := 1, c := 20 }) := by decide

/-- The word of the spec's example of `mx.mma`. -/
theorem test_decodeMma :
    decodeWatrix who0 0x401000000202A0C2 0 = some (.mxMma who0 { a := 4, b := 5, bmode := 1, c := 6, aux := 2 }) := by decide

/-- One word of format C with its long target, one of format M, and the scalar form of a global atomic, written out from R92, R105,
R107 and R113. -/
theorem test_decodeFormats :
    decodeWatrix who0 0xA038000000000000 0x2000 = some (.call who0 { w := true, imm := 0x2000 }) ∧
      decodeWatrix who0 0x2A000C8280800000 0 = some (.ldG who0 { size := 3, scope := 1, d := 5, a := 1 } .none) ∧
      decodeWatrix who0 0x2F000C0000000000 0 = some (.atomAdd who0 true { size := 3 }) := by decide

/-- CLASS 0x3F, OP 0x20 of class 0x09 and OP 0x04 of class 0x30 are assigned to nothing. -/
theorem test_unassigned :
    decodeWatrix who0 0x7E00000000000000 0 = none ∧ decodeWatrix who0 0x1300000000000000 0 = none ∧
      decodeWatrix who0 0x6020000000000000 0 = none := by decide

theorem witness_words :
    (decodeWatrix who0 fmaWord 0).map (fun c => (c.parts.map (·.2.1), meetsNoError c, c.word, c.wordFits)) =
        some (some ⟨5, 3⟩, true, some fmaWord, true) ∧
      (opcodeOf fmaWord).listed = true ∧ (opcodeOf 0x7E00000000000000).listed = false := by decide

/-- A group meets a word with CLASS 0x3F. -/
def whoIllegal : Who := { who0 with word := some 0x7E00000000000000 }

theorem witness_illegal :
    illegal whoIllegal = true ∧ (small.fetched { whoIllegal with word := none } (lenOf imm5.w)).map (·.1.pc) = some 0x1000 := by decide

/-- The exception's record has code 0x01. -/
theorem test_illegal :
    (match exec (.scalarAdd whoIllegal imm5) small with
      | .next t => t.evc.flight.map (·.code)
      | _ => []) = [1] := by decide

/-- A word that is another instruction's makes the command ill-formed. -/
theorem wf_word : (Instr.scalarAdd { who0 with word := some fmaWord } imm5).wellFormed = false := by decide

end Sys2Proof.Tests
end

section
/-! COMMIT and DISCARD of a commit group (R27 to R30, R34): what the write of a commit register leaves alone, then one lemma per
way that each of the two commands ends. -/

namespace Sys2Proof.Machine

/-! ### Flags after a write of a field -/

theorem State.flag_fset_bit (s : State) (r : Reg) {lo : Nat} (n i : Nat) (h : lo < 64) :
    (s.fset ⟨r, lo, 1⟩ n i).flag ⟨r, lo, 1⟩ i = (n % 2 != 0) := by
  simp only [State.flag, State.fget_fset_self s ⟨r, lo, 1⟩ n i h, Nat.pow_one]

theorem State.flag_fset_bit_ne (s : State) (r : Reg) {lo lo' : Nat} (n i : Nat) (h : lo < 64) (hne : lo' ≠ lo) :
    (s.fset ⟨r, lo, 1⟩ n i).flag ⟨r, lo', 1⟩ i = s.flag ⟨r, lo', 1⟩ i := by
  have hother : (s.fset ⟨r, lo, 1⟩ n i).fget ⟨r, lo', 1⟩ i = s.fget ⟨r, lo', 1⟩ i :=
    State.fget_fset_field s n i rfl h (Nat.lt_or_gt_of_ne hne.symm)
  simp only [State.flag, hother]

/-! ### Changes that stay within one register -/

/-- As far as the register file, the shadows and the snapshots go, `t` differs from `s` at most in the register `r` of
number `i`. -/
structure State.OnlyReg (r : Reg) (i : Nat) (s t : State) : Prop where
  reg : ∀ (q : Reg) (j : Nat), q.key j ≠ r.key i → t.reg q j = s.reg q j
  shadow : t.shadow = s.shadow
  snaps : t.snaps = s.snaps

namespace State.OnlyReg

variable {r : Reg} {i : Nat} {s t u : State}

theorem refl : State.OnlyReg r i s s := ⟨fun _ _ _ => rfl, rfl, rfl⟩

theorem trans (h : State.OnlyReg r i s t) (k : State.OnlyReg r i t u) : State.OnlyReg r i s u :=
  ⟨fun q j hq => (k.reg q j hq).trans (h.reg q j hq), k.shadow.trans h.shadow, k.snaps.trans h.snaps⟩

theorem fset (f : Fld) (n : Nat) : State.OnlyReg f.reg i s (s.fset f n i) :=
  ⟨fun _ _ hq => State.reg_setReg_key s _ hq, State.fset_shadow .., State.fset_snaps ..⟩

theorem take (w : Nat) : State.OnlyReg r i s (s.take w).2 := ⟨fun _ _ _ => rfl, rfl, rfl⟩

/-- A field that is not CM, and clears no other field with it, is written in the active copy alone (R5, R27). -/
theorem writeField {f : FieldSpec} (value mask : Nat) (hcm : f.acc ≠ .cm) (hclr : clearedWith ⟨r, f.lo, f.width⟩ = []) :
    State.OnlyReg r i s (s.writeField r i value mask f) := by
  have hset : ∀ (x : State) (n : Nat), State.OnlyReg r i x (x.fset ⟨r, f.lo, f.width⟩ n i) :=
    fun _ n => fset ⟨r, f.lo, f.width⟩ n
  simp only [State.writeField, hclr, List.foldl_nil, ite_self]
  split
  · exact refl
  split
  case h_1 | h_2 | h_3 => exact refl
  case h_4 | h_5 => exact hset _ _
  case h_6 =>
    split
    · exact hset _ _
    split
    · exact hset _ _
    · exact (take f.width).trans (hset _ _)
  case h_7 hacc => exact absurd hacc hcm

theorem writeReg (value mask : Nat)
    (h : ∀ f ∈ r.spec.fields, f.acc ≠ .cm ∧ clearedWith ⟨r, f.lo, f.width⟩ = []) :
    State.OnlyReg r i s (s.writeReg r i value mask) :=
  List.foldlRecOn (motive := State.OnlyReg r i s) _ _ refl fun _ hb f hf =>
    hb.trans (writeField value mask (h f hf).1 (h f hf).2)

end State.OnlyReg

/-! ### Commit registers and members -/

theorem lt_of_lt_groupCount {g : Group} {i : Nat} (h : i < groupCount g) : i < 2 ^ 20 := by
  cases g <;> simp only [groupCount] at h <;> omega

theorem commitReg_notMem (g : Group) : commitReg g ∉ groupRegs g := by cases g <;> decide

theorem commitReg_fields (g : Group) :
    ∀ f ∈ (commitReg g).spec.fields, f.acc ≠ .cm ∧ clearedWith ⟨commitReg g, f.lo, f.width⟩ = [] := by
  cases g <;> decide

/-- No member of a group shares its place in the register file with the group's commit register. -/
theorem key_ne_commitReg {g : Group} {i j : Nat} {q : Reg} (hi : i < groupCount g) (hq : q ∈ groupRegs g) (hj : j < 2 ^ 20) :
    q.key j ≠ (commitReg g).key i := fun h =>
  commitReg_notMem g ((Reg.key_inj hj (lt_of_lt_groupCount hi) h).1 ▸ hq)

/-! ### COMMIT -/

/-- The commit register of a group when a COMMIT of a valid set begins: COMMIT reads 1, PENDING reads 0. -/
def State.startCommit (s : State) (g : Group) (i : Nat) : State := (s.fset (fCommit g) 1 i).fset (fPending g) 0 i

/-- The commit register of a group when a COMMIT of an invalid set ends: REJECT and PENDING read 1. -/
def State.rejectCommit (s : State) (g : Group) (i : Nat) : State := (s.fset (fReject g) 1 i).fset (fPending g) 1 i

theorem State.startCommit_onlyReg (s : State) (g : Group) (i : Nat) : State.OnlyReg (commitReg g) i s (s.startCommit g i) :=
  (State.OnlyReg.fset (fCommit g) 1).trans (State.OnlyReg.fset (fPending g) 0)

theorem State.rejectCommit_onlyReg (s : State) (g : Group) (i : Nat) : State.OnlyReg (commitReg g) i s (s.rejectCommit g i) :=
  (State.OnlyReg.fset (fReject g) 1).trans (State.OnlyReg.fset (fPending g) 1)

theorem State.startCommit_commit (s : State) (g : Group) (i : Nat) : (s.startCommit g i).flag (fCommit g) i = true := by
  simp [State.startCommit, fCommit, fPending, State.flag_fset_bit, State.flag_fset_bit_ne]

theorem State.startCommit_pending (s : State) (g : Group) (i : Nat) : (s.startCommit g i).flag (fPending g) i = false := by
  simp [State.startCommit, fPending, State.flag_fset_bit]

theorem State.rejectCommit_commit (s : State) (g : Group) (i : Nat) :
    (s.rejectCommit g i).flag (fCommit g) i = s.flag (fCommit g) i := by
  simp [State.rejectCommit, fCommit, fPending, fReject, State.flag_fset_bit_ne]

theorem State.rejectCommit_pending (s : State) (g : Group) (i : Nat) : (s.rejectCommit g i).flag (fPending g) i = true := by
  simp [State.rejectCommit, fPending, State.flag_fset_bit]

theorem State.rejectCommit_reject (s : State) (g : Group) (i : Nat) : (s.rejectCommit g i).flag (fReject g) i = true := by
  simp [State.rejectCommit, fPending, fReject, State.flag_fset_bit, State.flag_fset_bit_ne]

theorem State.overrun_commit (s : State) (g : Group) (i : Nat) :
    (s.fset (fOverrun g) 1 i).flag (fCommit g) i = s.flag (fCommit g) i := by
  simp [fCommit, fOverrun, State.flag_fset_bit_ne]

section
variable {s : State} {g : Group} {i : Nat}

theorem State.commitNow_of_committing (h : s.flag (fCommit g) i = true) :
    s.commitNow g i = s.fset (fOverrun g) 1 i := if_pos h

/-- A valid set becomes the snapshot; beside the commit register only the queue pair of a group of `.cnpQp` may change (R28,
R405). -/
theorem State.commitNow_of_valid (h : s.flag (fCommit g) i = false)
    (hv : s.setValid (s.withSet g (s.snapshot g i)) g i = true) :
    ∃ host, s.commitNow g i = { s.startCommit g i with
      snaps := SMap.put s.snaps ((commitReg g).key i) (s.snapshot g i), host := host } := by
  simp only [State.commitNow, h, hv, Bool.false_eq_true, if_false, if_true, State.fset_snaps]
  split
  · exact ⟨_, rfl⟩
  · exact ⟨_, rfl⟩

theorem State.commitNow_of_invalid (h : s.flag (fCommit g) i = false)
    (hv : s.setValid (s.withSet g (s.snapshot g i)) g i = false) : s.commitNow g i = s.rejectCommit g i := by
  simp only [State.commitNow, h, hv, Bool.false_eq_true, if_false, State.rejectCommit]

/-! ### DISCARD -/

theorem State.discardNow_of_committing (h : s.flag (fCommit g) i = true) : s.discardNow g i = s := if_pos h

theorem State.discardNow_of_idle (h : s.flag (fCommit g) i = false) :
    s.discardNow g i =
      ({ s with shadow := s.shadow.filter (fun e => !(s.snapshot g i).contains e) } : State).fset (fPending g) 0 i :=
  if_neg (by rw [h]; exact Bool.false_ne_true)

/-- A listed shadow of a member is in the snapshot of its group. -/
theorem State.mem_snapshot {q : Reg} {j : Nat} {v : W64} (hq : q ∈ groupRegs g) (hj : j < 2 ^ 20) (hi : groupInst g j = i)
    (h : (q.key j, v) ∈ s.shadow) : (q.key j, v) ∈ s.snapshot g i := by
  have hreg : (groupReg g (q.key j)).isSome = true :=
    List.find?_isSome.mpr ⟨q, hq, by rw [Reg.key_div hj]; exact beq_self_eq_true _⟩
  simp only [State.snapshot, List.mem_filter, Reg.key_mod hj, hreg, hi, beq_self_eq_true, Bool.and_self, and_true]
  exact h

/-- Without the shadows of a snapshot, the members of the group list no shadow. -/
theorem State.find_shadow_sub_snapshot {q : Reg} {j : Nat} (hq : q ∈ groupRegs g) (hj : j < 2 ^ 20) (hi : groupInst g j = i) :
    SMap.find (s.shadow.filter (fun e => !(s.snapshot g i).contains e)) (q.key j) = none := by
  refine List.lookup_eq_none_iff.mpr fun e he => ?_
  obtain ⟨hin, hout⟩ := List.mem_filter.mp he
  refine bne_iff_ne.mpr fun hk => ?_
  have hmem : e ∈ s.snapshot g i := by
    obtain ⟨k, v⟩ := e
    obtain rfl : q.key j = k := hk
    exact State.mem_snapshot hq hj hi hin
  simp only [List.contains_iff_mem.mpr hmem, Bool.not_true, Bool.false_eq_true] at hout

theorem State.discardNow_reg (s : State) {q : Reg} {j : Nat} (h : q.key j ≠ (commitReg g).key i) :
    (s.discardNow g i).reg q j = s.reg q j := by
  cases hc : s.flag (fCommit g) i with
  | true => rw [State.discardNow_of_committing hc]
  | false => rw [State.discardNow_of_idle hc]; exact (State.OnlyReg.fset (fPending g) 0).reg q j h

/-- After a DISCARD the shadow of a member reads as its active copy (R34). -/
theorem State.discardNow_shadowReg (h : s.flag (fCommit g) i = false) {q : Reg} {j : Nat} (hq : q ∈ groupRegs g)
    (hj : j < 2 ^ 20) (hi : groupInst g j = i) : (s.discardNow g i).shadowReg q j = (s.discardNow g i).reg q j := by
  have hnone : SMap.find (s.discardNow g i).shadow (q.key j) = none := by
    rw [State.discardNow_of_idle h, State.fset_shadow]
    exact State.find_shadow_sub_snapshot hq hj hi
  simp only [State.shadowReg, SMap.get, hnone, Option.getD_none]

theorem State.discardNow_snaps (s : State) : (s.discardNow g i).snaps = s.snaps := by
  cases hc : s.flag (fCommit g) i with
  | true => rw [State.discardNow_of_committing hc]
  | false => rw [State.discardNow_of_idle hc, State.fset_snaps]

theorem State.discardNow_pending (h : s.flag (fCommit g) i = false) : (s.discardNow g i).flag (fPending g) i = false := by
  simp [State.discardNow_of_idle h, fPending, State.flag_fset_bit]

/-! ### The word of a commit register -/

/-- What the bits COMMIT and DISCARD of a word do, in that order (log 55). -/
def State.commitBits (s : State) (g : Group) (i : Nat) (word : W32) : State :=
  let t := if word.getLsbD 0 then s.commitNow g i else s
  if word.getLsbD 2 then t.discardNow g i else t

/-- Both commands write the commit register of the group by the word they hold (log 19). -/
theorem exec_commit_or_discard {who : Requester} {word : W32} {c : Instr}
    (hc : c ∈ [Instr.commit who g i word, .discard who g i word]) (s : State) :
    exec c s = s.commitWrite who g i word.toNat := by
  simp only [List.mem_cons, List.not_mem_nil, or_false] at hc
  rcases hc with rfl | rfl
  · rfl
  · rfl

theorem State.commitWrite_of_absent (who : Requester) (word : Nat) (h : groupCount g ≤ i) :
    s.commitWrite who g i word = .next s := if_pos h

theorem State.commitWrite_of_mayWrite {who : Requester} (word : W32) (hi : i < groupCount g)
    (hw : s.mayWrite who (commitReg g) i) :
    s.commitWrite who g i word.toNat =
      .next ((s.writeReg (commitReg g) i word.toNat (commitReg g).full).commitBits g i word) := by
  obtain ⟨hreach, hopen⟩ := hw
  simp only [State.commitWrite, State.regAction, hreach, hopen, Nat.not_le.mpr hi, not_true_eq_false, if_false]
  rfl

theorem State.commitBits_of_overrun {word : W32} (h0 : word.getLsbD 0 = true) (h : s.flag (fCommit g) i = true) :
    s.commitBits g i word = s.fset (fOverrun g) 1 i := by
  simp only [State.commitBits, h0, if_true, State.commitNow_of_committing h]
  rw [State.discardNow_of_committing (by rw [State.overrun_commit, h]), ite_self]

/-- A DISCARD in the same word comes after the COMMIT and is ignored (R34, log 55). -/
theorem State.commitBits_of_valid {word : W32} (h0 : word.getLsbD 0 = true) (h : s.flag (fCommit g) i = false)
    (hv : s.setValid (s.withSet g (s.snapshot g i)) g i = true) :
    ∃ host, s.commitBits g i word = { s.startCommit g i with
      snaps := SMap.put s.snaps ((commitReg g).key i) (s.snapshot g i), host := host } := by
  obtain ⟨host, hnow⟩ := State.commitNow_of_valid h hv
  have hflag : (s.commitNow g i).flag (fCommit g) i = true := by rw [hnow]; exact State.startCommit_commit s g i
  refine ⟨host, ?_⟩
  simp only [State.commitBits, h0, if_true]
  rw [State.discardNow_of_committing hflag, ite_self, hnow]

theorem State.commitBits_of_invalid {word : W32} (h0 : word.getLsbD 0 = true) (h2 : word.getLsbD 2 = false)
    (h : s.flag (fCommit g) i = false) (hv : s.setValid (s.withSet g (s.snapshot g i)) g i = false) :
    s.commitBits g i word = s.rejectCommit g i := by
  simp only [State.commitBits, h0, h2, if_true, Bool.false_eq_true, if_false, State.commitNow_of_invalid h hv]

theorem State.commitBits_of_neither {word : W32} (h0 : word.getLsbD 0 = false) (h2 : word.getLsbD 2 = false) :
    s.commitBits g i word = s := by
  simp only [State.commitBits, h0, h2, Bool.false_eq_true, if_false]

theorem State.commitBits_of_discard {word : W32} (h0 : word.getLsbD 0 = false) (h2 : word.getLsbD 2 = true) :
    s.commitBits g i word = s.discardNow g i := by
  simp only [State.commitBits, h0, h2, Bool.false_eq_true, if_false, if_true]

/-! ### What the word of a commit register comes to -/

/-- How a COMMIT ends that no other COMMIT of the group precedes (R28, R29): by the validity of the new set, with the shadows and
the active set as they were. -/
theorem State.commitBits_of_commit {t : State} {word : W32} (hi : i < groupCount g) (ht : State.OnlyReg (commitReg g) i s t)
    (h0 : word.getLsbD 0 = true) (h : t.flag (fCommit g) i = false) {valid : Bool}
    (hv : t.setValid (t.withSet g (t.snapshot g i)) g i = valid) (h2 : valid = true ∨ word.getLsbD 2 = false) :
    let u := t.commitBits g i word
    u.flag (fPending g) i = !valid ∧ u.flag (fCommit g) i = valid ∧
      (valid = true → SMap.find u.snaps ((commitReg g).key i) = some (t.snapshot g i)) ∧
      (valid = false → u.flag (fReject g) i = true ∧ u.snaps = s.snaps) ∧ u.shadow = s.shadow ∧
      ∀ q ∈ groupRegs g, ∀ j < 2 ^ 20, u.reg q j = s.reg q j := by
  cases valid with
  | true =>
    obtain ⟨host, hu⟩ := State.commitBits_of_valid h0 h hv
    have hk := ht.trans (t.startCommit_onlyReg g i)
    rw [hu]
    exact ⟨t.startCommit_pending g i, t.startCommit_commit g i, fun _ => SMap.find_put_self .., nofun, hk.shadow,
      fun q hq j hj => hk.reg q j (key_ne_commitReg hi hq hj)⟩
  | false =>
    have hk := ht.trans (t.rejectCommit_onlyReg g i)
    rw [State.commitBits_of_invalid h0 (h2.resolve_left Bool.false_ne_true) h hv]
    exact ⟨t.rejectCommit_pending g i, (t.rejectCommit_commit g i).trans h, nofun,
      fun _ => ⟨t.rejectCommit_reject g i, hk.snaps⟩, hk.shadow, fun q hq j hj => hk.reg q j (key_ne_commitReg hi hq hj)⟩

/-- How a DISCARD without COMMIT ends while no commit of the group is under way (R34): the shadows follow the active set, which
keeps its values. -/
theorem State.commitBits_of_discard_idle {t : State} {word : W32} (hi : i < groupCount g)
    (ht : State.OnlyReg (commitReg g) i s t) (h0 : word.getLsbD 0 = false) (h2 : word.getLsbD 2 = true)
    (h : t.flag (fCommit g) i = false) :
    let u := t.commitBits g i word
    u.flag (fPending g) i = false ∧ u.snaps = s.snaps ∧
      ∀ q ∈ groupRegs g, ∀ j < 2 ^ 20, u.reg q j = s.reg q j ∧ (groupInst g j = i → u.shadowReg q j = u.reg q j) := by
  rw [State.commitBits_of_discard h0 h2]
  refine ⟨State.discardNow_pending h, (State.discardNow_snaps t).trans ht.snaps, fun q hq j hj => ⟨?_, ?_⟩⟩
  · have hk := key_ne_commitReg hi hq hj
    exact (State.discardNow_reg t hk).trans (ht.reg q j hk)
  · exact State.discardNow_shadowReg h hq hj

end

/-- Settles O18: by the bits COMMIT and DISCARD of the word and by whether COMMIT reads 1 after the word's plain fields are
written. -/
theorem commitAndDiscardResults : Obligations.CommitAndDiscardResults := by
  intro who g i word s r t c hc
  have ht : State.OnlyReg r i s t := State.OnlyReg.writeReg _ _ (commitReg_fields g)
  rw [exec_commit_or_discard hc]
  refine ⟨State.commitWrite_of_absent who _, fun hi hw => ?_⟩
  rw [State.commitWrite_of_mayWrite word hi hw]
  refine ⟨fun h0 => ⟨fun h => ?_, ?_⟩, fun h0 h2 => ?_, fun h0 h2 => ⟨fun h => ?_, fun h => ?_⟩⟩
  · rw [State.commitBits_of_overrun h0 h]
  · intro h valid h2
    exact ⟨_, rfl, State.commitBits_of_commit hi ht h0 h rfl h2⟩
  · rw [State.commitBits_of_neither h0 h2]
  · rw [State.commitBits_of_discard h0 h2, State.discardNow_of_committing h]
  · exact ⟨_, rfl, State.commitBits_of_discard_idle hi ht h0 h2 h⟩

end Sys2Proof.Machine
end

section
/-! The reconvergence stack (R62 to R68): what `join` finds under the entries it discards, what `brk` finds above the innermost
LOOP, where the unwind stops; then one lemma per way that each instruction of class 0x10 ends. -/

namespace Sys2Proof.Machine

/-! ### The stack, its top first -/

/-- An entry that `join` discards: a PENDING entry without lanes (R65). -/
def StackEntry.Spent (e : StackEntry) : Prop := e.kind = .pending ∧ e.mask = 0

/-- An entry without some lanes (R66, R67). -/
def StackEntry.without (lanes : Nat) (e : StackEntry) : StackEntry := { e with mask := e.mask &&& (lanes ^^^ 0xFFFFFFFF) }

theorem joinStack_spent_append (here : Nat) {gone : List StackEntry} (r : List StackEntry)
    (h : ∀ e ∈ gone, StackEntry.Spent e) :
    joinStack here (gone ++ r) = joinStack here r := by
  induction gone with
  | nil => rfl
  | cons e gone ih =>
    obtain ⟨hk, hm⟩ := h e List.mem_cons_self
    rw [List.cons_append, joinStack, hk]
    simpa [hm] using ih fun x hx => h x (List.mem_cons_of_mem e hx)

theorem joinStack_of_all_spent (here : Nat) {l : List StackEntry} (h : ∀ e ∈ l, StackEntry.Spent e) :
    joinStack here l = none := by
  rw [← List.append_nil l, joinStack_spent_append here [] h, joinStack]

theorem joinStack_pending (here : Nat) {e : StackEntry} (r : List StackEntry) (hk : e.kind = .pending) (hm : e.mask ≠ 0) :
    joinStack here (e :: r) = some (e.mask, e.addr, r) := by
  simp [joinStack, hk, hm]

theorem joinStack_join {here : Nat} {e : StackEntry} (r : List StackEntry) (hk : e.kind = .join) (ha : e.addr = here) :
    joinStack here (e :: r) = some (e.mask, wrapPc (here + 8), r) := by
  simp [joinStack, hk, ha]

theorem joinStack_mismatch {here : Nat} {e : StackEntry} (r : List StackEntry)
    (h : e.kind = .loop ∨ (e.kind = .join ∧ e.addr ≠ here)) : joinStack here (e :: r) = none := by
  rcases h with hk | ⟨hk, ha⟩
  · simp [joinStack, hk]
  · simp [joinStack, hk, ha]

theorem brkStack_of_no_loop (lanes : Nat) {l : List StackEntry} (h : ∀ e ∈ l, e.kind ≠ .loop) : brkStack lanes l = none := by
  induction l with
  | nil => rfl
  | cons e l ih =>
    rw [brkStack, if_neg (h e List.mem_cons_self), ih fun x hx => h x (List.mem_cons_of_mem e hx), Option.map_none]

theorem brkStack_append_loop (lanes : Nat) {above : List StackEntry} {l : StackEntry} (r : List StackEntry)
    (hl : l.kind = .loop) (h : ∀ e ∈ above, e.kind ≠ .loop) :
    brkStack lanes (above ++ l :: r) = some (above.map (StackEntry.without lanes) ++ l :: r) := by
  induction above with
  | nil => simp [brkStack, hl]
  | cons e above ih =>
    rw [List.cons_append, brkStack, if_neg (h e List.mem_cons_self), ih fun x hx => h x (List.mem_cons_of_mem e hx)]
    rfl

theorem unwindStack_cons_of_no_lane {exited : Nat} (y : Grp) {e : StackEntry} (r : List StackEntry)
    (h : e.mask &&& (exited ^^^ 0xFFFFFFFF) = 0) : unwindStack exited y (e :: r) = unwindStack exited y r := by
  rw [unwindStack]
  exact if_pos h

theorem unwindStack_cons_of_lane {exited : Nat} (y : Grp) {e : StackEntry} (r : List StackEntry)
    (h : e.mask &&& (exited ^^^ 0xFFFFFFFF) ≠ 0) :
    unwindStack exited y (e :: r) =
      { y with
        active := e.mask &&& (exited ^^^ 0xFFFFFFFF)
        stack := r.reverse
        pc := if e.kind = .join then wrapPc (e.addr + 8) else e.addr } := by
  obtain ⟨kind, addr, mask⟩ := e
  cases kind <;> exact if_neg h

/-! ### A control instruction that issues -/

theorem State.issuesC_lenOf {s t : State} {w : Who} {grp : Grp} {i : FmtC} {long cond low : Bool} {refs : List RegRef}
    (h : s.issuesC t w grp i long cond low refs) : lenOf i.w = lenOf long := by
  obtain ⟨-, hw, -⟩ := h
  rw [hw]

/-! ### `bra` -/

section
variable {w : Who} {i : FmtC} {s t : State} {grp : Grp}
  (h : s.issuesC t w grp i false true (decide (i.low.toNat < 2 ^ 32)) [])
include h

theorem exec_bra_of_divergent (hsome : t.guardMask w.group i.pg i.pneg &&& grp.active ≠ 0)
    (hall : t.guardMask w.group i.pg i.pneg &&& grp.active ≠ grp.active) :
    exec (.bra w i) s = .next (t.raise w.group 0x10 grp.active noAddr) := by
  change execBra w i s = _
  rw [execBra, State.issueC_issues h]
  simp [hsome, hall, Eff.outcome]

theorem exec_bra_not_taken (ht : badTarget (relTarget grp.pc (cOff i)) = false)
    (hnone : t.guardMask w.group i.pg i.pneg &&& grp.active = 0) :
    exec (.bra w i) s = .next (t.finish w.group 8) := by
  change execBra w i s = _
  rw [execBra, State.issueC_issues h, State.issuesC_lenOf h]
  simp [hnone, ht, Eff.outcome, lenOf]

theorem exec_bra_taken (ht : badTarget (relTarget grp.pc (cOff i)) = false)
    (hall : t.guardMask w.group i.pg i.pneg &&& grp.active = grp.active)
    (hsome : t.guardMask w.group i.pg i.pneg &&& grp.active ≠ 0) :
    exec (.bra w i) s = .next ((t.goto w.group (relTarget grp.pc (cOff i))).issued w.group) := by
  have hactive : grp.active ≠ 0 := hall ▸ hsome
  change execBra w i s = _
  rw [execBra, State.issueC_issues h]
  simp [hall, hactive, ht, Eff.outcome]

end

/-! ### `bra.div` -/

/-- The active lanes on which a condition holds: those that take a branch, leave a loop or exit. -/
def Grp.taken (grp : Grp) (p : Nat) : Nat := grp.active &&& p

/-- The active lanes on which a condition does not hold: those that a branch leaves at the next instruction. -/
def Grp.notTaken (grp : Grp) (p : Nat) : Nat := grp.active &&& (p ^^^ 0xFFFFFFFF)

/-- The stack of a group with a JOIN entry for all its active lanes pushed onto it (R64). -/
def Grp.joinPushed (grp : Grp) (meet : Nat) : List StackEntry := grp.stack ++ [⟨.join, meet, grp.active⟩]

section
variable {w : Who} {i : FmtC} {s t : State} {grp : Grp}
  (h : s.issuesC t w grp i true true (decide (i.low.toNat < 2 ^ 32)) [])
include h

theorem exec_braDiv_of_overflow
    (hover : 32 < grp.stack.length +
      (if grp.taken (t.guardMask w.group i.pg i.pneg) ≠ 0 ∧ grp.notTaken (t.guardMask w.group i.pg i.pneg) ≠ 0
        then 2 else 1)) :
    exec (.braDiv w i) s = .next (t.raise w.group 0x11 grp.active noAddr) := by
  unfold Grp.taken Grp.notTaken at hover
  change execBraDiv w i s = _
  rw [execBraDiv, State.issueC_issues h]
  dsimp only
  rw [if_pos]
  · rfl
  · split at hover
    case isTrue hsplit =>
      have hboth : nb (grp.active &&& t.guardMask w.group i.pg i.pneg != 0 &&
          grp.active &&& (t.guardMask w.group i.pg i.pneg ^^^ 0xFFFFFFFF) != 0) = 1 := by
        simp [nb, hsplit]
      rw [hboth]
      exact hover
    case isFalse hsplit => omega

variable (ht : badTarget (relTarget grp.pc (cOff i)) = false)
  (hm : badTarget (relTarget grp.pc (sgn 32 i.imm.toNat)) = false)
include ht hm

theorem exec_braDiv_of_split (hyes : grp.taken (t.guardMask w.group i.pg i.pneg) ≠ 0)
    (hno : grp.notTaken (t.guardMask w.group i.pg i.pneg) ≠ 0) (hroom : grp.stack.length ≤ 30) :
    exec (.braDiv w i) s = .next ((t.updGrp w.group (fun x =>
      { x with
        stack := grp.joinPushed (relTarget grp.pc (sgn 32 i.imm.toNat)) ++
          [⟨.pending, wrapPc (grp.pc + 16), grp.notTaken (t.guardMask w.group i.pg i.pneg)⟩]
        active := grp.taken (t.guardMask w.group i.pg i.pneg)
        pc := relTarget grp.pc (cOff i) })).issued w.group) := by
  unfold Grp.taken at hyes
  unfold Grp.notTaken at hno
  have hfits : ¬ 32 < grp.stack.length + 1 + 1 := by omega
  change execBraDiv w i s = _
  rw [execBraDiv, State.issueC_issues h]
  simp [hyes, hno, ht, hm, hfits, nb, Eff.outcome, Grp.taken, Grp.notTaken, Grp.joinPushed]

/-- Where one of the two sets of lanes is empty, only JOIN is pushed, and the group goes on as one. -/
theorem exec_braDiv_of_unsplit
    (hone : grp.taken (t.guardMask w.group i.pg i.pneg) = 0 ∨ grp.notTaken (t.guardMask w.group i.pg i.pneg) = 0)
    (hroom : grp.stack.length ≤ 31) :
    exec (.braDiv w i) s = .next ((t.updGrp w.group (fun x =>
      { x with
        stack := grp.joinPushed (relTarget grp.pc (sgn 32 i.imm.toNat))
        pc := if grp.notTaken (t.guardMask w.group i.pg i.pneg) = 0 then relTarget grp.pc (cOff i)
          else wrapPc (grp.pc + 16) })).issued w.group) := by
  have hsplit : (grp.active &&& t.guardMask w.group i.pg i.pneg != 0 &&
      grp.active &&& (t.guardMask w.group i.pg i.pneg ^^^ 0xFFFFFFFF) != 0) = false := by
    rcases hone with hyes | hno
    · rw [Grp.taken] at hyes
      simp [hyes]
    · rw [Grp.notTaken] at hno
      simp [hno]
  have hfits : ¬ 32 < grp.stack.length + 1 := by omega
  change execBraDiv w i s = _
  rw [execBraDiv, State.issueC_issues h]
  simp only [hsplit, ht, hm, hfits, nb, Bool.false_eq_true, Bool.or_false, if_false, Nat.add_zero]
  rfl

end

/-! ### `join` -/

section
variable {w : Who} {i : FmtC} {s t : State} {grp : Grp} (h : s.issuesC t w grp i false false (i.low == 0) [])
include h

theorem exec_join_of_none (hj : joinStack grp.pc grp.stack.reverse = none) :
    exec (.join w i) s = .next (t.raise w.group 0x12 grp.active noAddr) := by
  change execJoin w i s = _
  rw [execJoin, State.issueC_issues h, hj]
  rfl

theorem exec_join_of_some {m pc : Nat} {r : List StackEntry} (hj : joinStack grp.pc grp.stack.reverse = some (m, pc, r)) :
    exec (.join w i) s =
      .next ((t.updGrp w.group (fun x => { x with active := m, pc := pc, stack := r.reverse })).issued w.group) := by
  change execJoin w i s = _
  rw [execJoin, State.issueC_issues h, hj]
  rfl

end

/-! ### `loop.enter` -/

section
variable {w : Who} {i : FmtC} {s t : State} {grp : Grp}
  (h : s.issuesC t w grp i false false (decide (i.low.toNat < 2 ^ 32)) [])
include h

theorem exec_loopEnter_of_overflow (hfull : 32 ≤ grp.stack.length) :
    exec (.loopEnter w i) s = .next (t.raise w.group 0x11 grp.active noAddr) := by
  change execLoopEnter w i s = _
  rw [execLoopEnter, State.issueC_issues h]
  simp [hfull, Eff.outcome]

theorem exec_loopEnter_pushes (hroom : grp.stack.length ≤ 31) (ht : badTarget (relTarget grp.pc (cOff i)) = false) :
    exec (.loopEnter w i) s =
      .next ((t.updGrp w.group (fun x =>
        { x with stack := x.stack ++ [⟨.loop, relTarget grp.pc (cOff i), x.active⟩] })).finish w.group 8) := by
  have hfits : ¬ 32 ≤ grp.stack.length := by omega
  change execLoopEnter w i s = _
  rw [execLoopEnter, State.issueC_issues h, State.issuesC_lenOf h]
  simp [hfits, ht, Eff.outcome, lenOf]

end

/-! ### `brk` and `exit` -/

/-- The group goes on as another after `brk` or `exit`: at the next instruction, or unwound where no lane is left (R68). -/
def State.goesOn (t : State) (g next : Nat) (y : Grp) : State := (t.updGrp g (fun _ => y.afterLoss next)).issued g

section
variable {w : Who} {i : FmtC} {s t : State} {grp : Grp} (h : s.issuesC t w grp i false true (i.low == 0) [])
include h

theorem exec_brk_of_no_loop (hl : ∀ e ∈ grp.stack, e.kind ≠ .loop) :
    exec (.brk w i) s = .next (t.raise w.group 0x12 grp.active noAddr) := by
  have hnone : ∀ lanes, brkStack lanes grp.stack.reverse = none := fun lanes =>
    brkStack_of_no_loop lanes fun e he => hl e (List.mem_reverse.mp he)
  change execBrk w i s = _
  rw [execBrk, State.issueC_issues h]
  simp only [hnone]
  rfl

theorem exec_brk_of_loop {above below : List StackEntry} {l : StackEntry} (hs : grp.stack = below ++ [l] ++ above)
    (hl : l.kind = .loop) (ha : ∀ e ∈ above, e.kind ≠ .loop) :
    exec (.brk w i) s = .next (t.goesOn w.group (wrapPc (grp.pc + 8))
      { grp with
        stack := below ++ [l] ++ above.map (StackEntry.without (grp.taken (t.guardMask w.group i.pg i.pneg)))
        active := grp.active &&& (grp.taken (t.guardMask w.group i.pg i.pneg) ^^^ 0xFFFFFFFF) }) := by
  have hsome : ∀ lanes, brkStack lanes grp.stack.reverse =
      some (below ++ [l] ++ above.map (StackEntry.without lanes)).reverse := by
    intro lanes
    have hrev : grp.stack.reverse = above.reverse ++ l :: below.reverse := by simp [hs]
    rw [hrev, brkStack_append_loop lanes _ hl fun e he => ha e (List.mem_reverse.mp he)]
    simp
  change execBrk w i s = _
  rw [execBrk, State.issueC_issues h]
  simp only [hsome, List.reverse_reverse]
  rfl

theorem exec_exit_goesOn :
    exec (.exit w i) s = .next (t.goesOn w.group (wrapPc (grp.pc + 8))
      { grp with
        exited := grp.exited ||| grp.taken (t.guardMask w.group i.pg i.pneg)
        active := grp.active &&& (grp.taken (t.guardMask w.group i.pg i.pneg) ^^^ 0xFFFFFFFF)
        stack := grp.stack.map (StackEntry.without (grp.taken (t.guardMask w.group i.pg i.pneg))) }) := by
  change execExit w i s = _
  rw [execExit, State.issueC_issues h]
  rfl

end

/-- Settles O7: by the ways that each instruction ends; `join` looks below the entries it discards, `brk` above the innermost
LOOP. -/
theorem reconvergenceResults : Obligations.ReconvergenceResults := by
  intro w i s t grp
  refine ⟨fun h => ⟨?_, ?_, ?_⟩, fun h => ⟨?_, ?_⟩, fun h => ⟨?_, ?_⟩, fun h => ⟨?_, ?_⟩, fun h => ⟨?_, ?_, ?_⟩,
    fun y exited => ⟨?_, ?_, ?_, ?_⟩⟩
  · exact exec_bra_of_divergent h
  · exact exec_bra_not_taken h
  · exact exec_bra_taken h
  · exact exec_braDiv_of_overflow h
  · intro ht hm
    refine ⟨exec_braDiv_of_split h ht hm, fun hno hroom => ?_, fun hyes hno hroom => ?_⟩
    · exact (exec_braDiv_of_unsplit h ht hm (.inr hno) hroom).trans (by rw [Grp.notTaken, if_pos hno]; rfl)
    · exact (exec_braDiv_of_unsplit h ht hm (.inl hyes) hroom).trans (by rw [Grp.notTaken, if_neg hno]; rfl)
  · intro hgone
    exact exec_join_of_none h (joinStack_of_all_spent _ fun e he => hgone e (List.mem_reverse.mp he))
  · intro top rest gone hs hgone
    have hj : joinStack grp.pc grp.stack.reverse = joinStack grp.pc (top :: rest.reverse) := by
      have hrev : grp.stack.reverse = gone.reverse ++ top :: rest.reverse := by simp [hs]
      rw [hrev, joinStack_spent_append _ _ fun e he => hgone e (List.mem_reverse.mp he)]
    refine ⟨fun hk hm => ?_, fun hk ha => ?_, fun hbad => ?_⟩
    · rw [exec_join_of_some h (hj.trans (joinStack_pending _ _ hk hm)), List.reverse_reverse]
    · rw [exec_join_of_some h (hj.trans (joinStack_join _ hk ha)), List.reverse_reverse]
      rfl
    · exact exec_join_of_none h (hj.trans (joinStack_mismatch _ hbad))
  · exact exec_loopEnter_of_overflow h
  · exact exec_loopEnter_pushes h
  · exact exec_brk_of_no_loop h
  · intro above l below
    exact exec_brk_of_loop h
  · exact exec_exit_goesOn h
  · rfl
  · rfl
  · intro e r
    exact unwindStack_cons_of_no_lane y r
  · intro e r
    exact unwindStack_cons_of_lane y r

end Sys2Proof.Machine
end

section
/-! Votes, lane moves and shuffles (R103, R104): what an instruction of format R comes to when it writes and when it acts on no
lane, and the source lane of `shfl` as the spec counts it. -/

namespace Sys2Proof.Machine

/-! ### An instruction of format R whose encoding is well formed and whose registers are free -/

/-- An instruction of format R that issues and has an effect on the state is done with that effect. -/
theorem State.issueR_done {s t u : State} {w : Who} {grp : Grp} {f : Form} {i : FmtR} {body : State → Nat → Grp → Nat → Eff}
    (h : s.issuesR t w grp f i) (hb : body t w.group grp (s.lanesR w grp f i) = .done u) :
    s.issueR w f i body = u.doneR w i := by
  rw [State.issueR_issues h rfl, hb]
  rfl

/-- An instruction whose group may issue it and that acts on no lane only passes (R94). -/
theorem State.issue_of_no_lane {s t : State} {w : Who} {grp : Grp} {head : Nat → Grp → Head}
    {body : State → Nat → Grp → Nat → Eff} (hf : s.fetched w (head w.group grp).len = some (grp, t))
    (hr : (head w.group grp).reserved = false)
    (hp : (t.pendingRefs w.group).any (fun r => (head w.group grp).refs.contains r) = false)
    (hm : grp.active &&& (head w.group grp).mask = 0) :
    s.issue w head body = .next (t.finish w.group (head w.group grp).len) := by
  obtain ⟨hg, -⟩ := State.fetched_grp hf
  unfold State.fetched at hf
  unfold State.issue
  simp only [hg] at hf ⊢
  split at hf
  · cases hf
  rename_i hready
  split at hf <;> try cases hf
  rename_i a ha
  split at hf <;> try cases hf
  rename_i b hb
  split at hf
  · cases hf
  rename_i hstop
  obtain ⟨hbp, hill⟩ := not_or.mp (Bool.or_eq_true _ _ ▸ hstop)
  cases hf
  simp only [ha, hb]
  rw [if_neg hready, if_neg hbp, if_neg hill, if_neg (ne_true_of_eq_false hr),
    if_neg (ne_true_of_eq_false hp), if_pos hm]

/-- An instruction of format R that acts on no lane only passes, whatever its form and its effect (R94). -/
theorem State.issueR_of_no_lane {s t : State} {w : Who} {grp : Grp} {f : Form} {i : FmtR}
    {body : State → Nat → Grp → Nat → Eff} (hf : s.fetched w (lenOf i.w) = some (grp, t)) (hr : f.reserved i = false)
    (hp : (t.pendingRefs w.group).any (fun r => (f.refs i).contains r) = false) (hm : s.lanesR w grp f i = 0) :
    s.issueR w f i body = .next (t.finish w.group (lenOf i.w)) := by
  unfold State.issueR
  rw [State.issue_of_no_lane (grp := grp) (t := t)]
  · exact hf
  · simp [hr]
  · simpa using hp
  · exact hm

/-! ### The source lane of `shfl` -/

/-- The source lane of `shfl` as R103 counts it, below 0 where `up` goes past lane 0. -/
def shflLane (kind l b : Nat) : Int :=
  match kind with
  | 0 => ((b % 32 : Nat) : Int)
  | 1 => (l : Int) - b
  | 2 => (l : Int) + b
  | _ => ((l ^^^ b : Nat) : Int)

/-- The model names the source lane of R103 by its number, and any lane below 0 by 32. -/
theorem shflSource_eq (kind l b : Nat) :
    shflSource kind l b = if 0 ≤ shflLane kind l b then (shflLane kind l b).toNat else 32 := by
  match kind with
  | 0 =>
    simp only [shflSource, shflLane]
    rw [if_pos (Int.natCast_nonneg _), Int.toNat_natCast]
  | 1 =>
    simp only [shflSource, shflLane]
    split <;> split <;> omega
  | 2 =>
    simp only [shflSource, shflLane]
    rw [if_pos (by omega)]
    omega
  | _ + 3 =>
    simp only [shflSource, shflLane]
    rw [if_pos (Int.natCast_nonneg _), Int.toNat_natCast]

/-- The source lane of the model lies in the group exactly where that of R103 does, and is then the same lane. -/
theorem shflSource_lt_iff (kind l b : Nat) :
    shflSource kind l b < 32 ↔ 0 ≤ shflLane kind l b ∧ shflLane kind l b ≤ 31 := by
  rw [shflSource_eq]
  split <;> omega

theorem shflSource_of_nonneg {kind l b : Nat} (h : 0 ≤ shflLane kind l b) :
    shflSource kind l b = (shflLane kind l b).toNat := by
  rw [shflSource_eq, if_pos h]

/-- What a lane of `shfl` receives, by the source lane of the model and by that of R103. -/
theorem shflSource_select (kind l b m : Nat) (v : Nat → Nat) :
    (if shflSource kind l b < 32 ∧ bit m (shflSource kind l b) then v (shflSource kind l b) else v l) =
      if 0 ≤ shflLane kind l b ∧ shflLane kind l b ≤ 31 ∧ m.testBit (shflLane kind l b).toNat then
        v (shflLane kind l b).toNat
      else v l := by
  by_cases h : 0 ≤ shflLane kind l b
  · have hlt := shflSource_lt_iff kind l b
    rw [shflSource_of_nonneg h] at hlt ⊢
    simp only [hlt, bit, and_assoc]
  · have hout : ¬ shflSource kind l b < 32 := fun hlt => h ((shflSource_lt_iff kind l b).mp hlt).1
    rw [if_neg (fun hc => hout hc.1), if_neg (fun hc => h hc.1)]

theorem exec_shfl_done {w : Who} {i : FmtR} {s t : State} {grp : Grp}
    (h : s.issuesR t w grp { types := [7], d := .v, a := .v, sec := .vector, mods := 4 } i) :
    exec (.shfl w i) s =
      (t.setLanes32 w.group 7 i.d.val (s.lanesR w grp { types := [7], d := .v, a := .v, sec := .vector, mods := 4 } i)
        (fun l =>
          let src := shflLane i.mod.val l (t.secondV w.group i 7 l)
          if 0 ≤ src ∧ src ≤ 31 ∧
              (s.lanesR w grp { types := [7], d := .v, a := .v, sec := .vector, mods := 4 } i).testBit src.toNat then
            t.vReg w.group i.a.val src.toNat
          else t.vReg w.group i.a.val l)).doneR w i := by
  change execShfl w i s = _
  refine State.issueR_done h (congrArg Eff.done (congrArg _ (funext fun l => ?_)))
  exact shflSource_select i.mod.val l _ _ (t.vReg w.group i.a.val)

/-- Settles O4: each instruction that issues is done with what its own part writes, the source lane of `shfl` counted as in R103;
one that acts on no lane only passes. -/
theorem laneExchangeResults : Obligations.LaneExchangeResults := by
  intro w i s t grp
  refine ⟨fun h => ?shfl, fun h => ⟨?any, ?all⟩, fun h => ?ballot, fun h => ?toScalar, fun h => ?toVector, ?noLane⟩
  case shfl => exact exec_shfl_done h
  case any =>
    change execVoteAny w i s = _
    exact State.issueR_done h rfl
  case all =>
    change execVoteAll w i s = _
    exact State.issueR_done h rfl
  case ballot =>
    change execVoteBallot w i s = _
    exact State.issueR_done h rfl
  case toScalar =>
    change execMovSv w i s = _
    exact State.issueR_done h rfl
  case toVector =>
    change execMovVs w i s = _
    exact State.issueR_done h rfl
  case noLane =>
    intro c f hc hf hr hp hm
    simp only [List.mem_cons, List.not_mem_nil, or_false, Prod.mk.injEq] at hc
    rcases hc with ⟨rfl, rfl⟩ | ⟨rfl, rfl⟩ | ⟨rfl, rfl⟩ | ⟨rfl, rfl⟩ | ⟨rfl, rfl⟩
    · change execVoteAny w i s = _
      exact State.issueR_of_no_lane hf hr hp hm
    · change execVoteAll w i s = _
      exact State.issueR_of_no_lane hf hr hp hm
    · change execVoteBallot w i s = _
      exact State.issueR_of_no_lane hf hr hp hm
    · change execMovSv w i s = _
      exact State.issueR_of_no_lane hf hr hp hm
    · change execMovVs w i s = _
      exact State.issueR_of_no_lane hf hr hp hm

end Sys2Proof.Machine
end

section
/-! The measurement report (R477): the fields of its table in order, their places, and the request that returns it. -/

namespace Sys2Proof.Machine

/-! ### Numbers as bytes -/

@[simp] theorem length_toBytes (n w : Nat) : (toBytes n w).length = w := by simp [toBytes]

theorem toBytes_succ (n w : Nat) : toBytes n (w + 1) = BitVec.ofNat 8 n :: toBytes (n / 256) w := by
  simp only [toBytes, List.range_succ_eq_map, List.map_cons, List.map_map, Nat.mul_zero, Nat.pow_zero, Nat.div_one]
  congr 1
  refine List.map_congr_left fun i _ => ?_
  have hplace : 8 * i.succ = 8 + 8 * i := by omega
  simp only [Function.comp, hplace, Nat.pow_add, Nat.div_div_eq_div_mul]

theorem ofBytes_toBytes (n w : Nat) : ofBytes (toBytes n w) = n % 2 ^ (8 * w) := by
  induction w generalizing n with
  | zero => simp [toBytes, ofBytes, Nat.mod_one]
  | succ w ih =>
    have hcons : ofBytes (toBytes n (w + 1)) = n % 256 + 256 * ofBytes (toBytes (n / 256) w) := by
      rw [toBytes_succ]
      rfl
    rw [hcons, ih, Nat.mul_succ, Nat.add_comm (8 * w) 8, Nat.pow_add, Nat.mod_mul]

/-- Where the bytes of a number stand, the word there is that number in its width. -/
theorem wordAt_of_toBytes {l : List Byte} {off n x : Nat} (h : (l.drop off).take n = toBytes x n) :
    wordAt l off n = x % 2 ^ (8 * n) := by
  rw [wordAt, h, ofBytes_toBytes]

/-! ### A byte string made of fields -/

/-- A field stands after the sizes of the fields before it. -/
theorem take_drop_flatten_of_getElem? {L : List (List Byte)} {i : Nat} {f : List Byte} (h : L[i]? = some f) :
    (L.flatten.drop ((L.map List.length).take i).sum).take f.length = f := by
  induction L generalizing i with
  | nil => simp at h
  | cons x xs ih =>
    cases i with
    | zero =>
      obtain rfl : x = f := by simpa using h
      simp
    | succ i =>
      have hrest : xs[i]? = some f := by simpa using h
      simpa [List.drop_length_add_append] using ih hrest

/-! ### The fields of the report -/

/-- The word at 0x034 of the report: [0] U, [2:1] active Taproot, [15:8] running SVN. -/
def State.reportStatus (s : State) : Nat :=
  nb s.uFlag + s.fget F.TAP_STATUS_ACTIVE * 2 + s.fget F.TAP_FW_STATUS_RUN_SVN * 2 ^ 8

/-- The fields that the signatures of the report cover, in the order of R477's table. -/
def State.reportSigned (s : State) (nonce : List Byte) : List (List Byte) :=
  [toBytes 1 4, nonce, toBytes (s.reg .TAP_SERIAL 0).toNat 8, toBytes s.now 8, toBytes s.reportStatus 8] ++
    (List.range 6).map (fun i => measBytes (s.measurement (i + 1))) ++
    [toBytes s.capacity.1 4, toBytes s.capacity.2 4, toBytes s.clustersLeft 4]

/-- The hash that both signatures of the report are made over. -/
def State.reportHash (s : State) (nonce : List Byte) : List Byte :=
  measBytes (Config.sha384 (s.reportSigned nonce).flatten)

/-- All fields of the report, in the order of R477's table. -/
def State.reportFields (s : State) (nonce : List Byte) : List (List Byte) :=
  s.reportSigned nonce ++ [s.signEd25519 (s.reportHash nonce), s.signMlDsa (s.reportHash nonce)]

/-- The sizes of the fields that the signatures cover, as R477's table gives them. -/
def reportSignedSizes : List Nat := [4, 32, 8, 8, 8] ++ List.replicate 6 48 ++ [4, 4, 4]

/-- The sizes of all fields, as R477's table gives them. -/
def reportSizes : List Nat := reportSignedSizes ++ [64, 3309]

theorem State.report_eq_flatten (s : State) (nonce : List Byte) : s.report nonce = (s.reportFields nonce).flatten := by
  have hbody : (s.reportSigned nonce).flatten = toBytes 1 4 ++ nonce ++ toBytes (s.reg .TAP_SERIAL 0).toNat 8 ++
      toBytes s.now 8 ++ toBytes s.reportStatus 8 ++ (List.range 6).flatMap (fun i => measBytes (s.measurement (i + 1))) ++
      toBytes s.capacity.1 4 ++ toBytes s.capacity.2 4 ++ toBytes s.clustersLeft 4 := by
    simp [State.reportSigned, List.flatMap_def]
  simp only [State.reportFields, State.reportHash, List.flatten_append, hbody, List.flatten_cons, List.flatten_nil,
    List.append_nil, ← List.append_assoc]
  rfl

theorem State.reportSigned_sizes (s : State) {nonce : List Byte} (hn : nonce.length = 32) :
    (s.reportSigned nonce).map List.length = reportSignedSizes := by
  simp [State.reportSigned, measBytes, reportSignedSizes, hn, List.range_succ]

theorem State.reportFields_sizes (s : State) {nonce : List Byte} (hn : nonce.length = 32) :
    (s.reportFields nonce).map List.length = reportSizes := by
  simp [State.reportFields, s.reportSigned_sizes hn, State.signEd25519, State.signMlDsa, reportSizes]

theorem State.length_report (s : State) {nonce : List Byte} (hn : nonce.length = 32) :
    (s.report nonce).length = 0x168 + 64 + 3309 := by
  rw [State.report_eq_flatten, List.length_flatten, s.reportFields_sizes hn]
  rfl

/-- Field `i` of the report stands at the place that the sizes before it give. -/
theorem State.report_field (s : State) {nonce f : List Byte} (i : Nat) (hn : nonce.length = 32)
    (hf : (s.reportFields nonce)[i]? = some f) :
    ((s.report nonce).drop (reportSizes.take i).sum).take (reportSizes.getD i 0) = f := by
  have hlen : reportSizes.getD i 0 = f.length := by
    rw [← s.reportFields_sizes hn, List.getD_eq_getElem?_getD, List.getElem?_map, hf]
    rfl
  rw [hlen, State.report_eq_flatten, ← s.reportFields_sizes hn]
  exact take_drop_flatten_of_getElem? hf

/-- The bytes before the signatures are those that the signatures cover. -/
theorem State.take_report (s : State) {nonce : List Byte} (hn : nonce.length = 32) :
    (s.report nonce).take 0x168 = (s.reportSigned nonce).flatten := by
  have hlen : (s.reportSigned nonce).flatten.length = 0x168 := by
    rw [List.length_flatten, s.reportSigned_sizes hn]
    rfl
  rw [State.report_eq_flatten, State.reportFields, List.flatten_append, ← hlen, List.take_left]

theorem State.report_measurement (s : State) {nonce : List Byte} (hn : nonce.length = 32) {i : Nat} (hi : i < 6) :
    ((s.report nonce).drop (0x3C + 48 * i)).take 48 = measBytes (s.measurement (i + 1)) := by
  have hf : (s.reportFields nonce)[5 + i]? = some (measBytes (s.measurement (i + 1))) := by
    rw [Nat.add_comm]
    simp [State.reportFields, State.reportSigned, List.getElem?_append, hi]
  have hplace : ∀ i < 6, (reportSizes.take (5 + i)).sum = 0x3C + 48 * i ∧ reportSizes.getD (5 + i) 0 = 48 := by decide
  obtain ⟨hoff, hsize⟩ := hplace i hi
  simpa only [hoff, hsize] using s.report_field (5 + i) hn hf

theorem State.drop_report (s : State) {nonce : List Byte} (hn : nonce.length = 32) :
    (s.report nonce).drop 0x1A8 = s.signMlDsa (s.reportHash nonce) := by
  have hall : ((s.report nonce).drop 0x1A8).length ≤ 3309 := by
    have hlen := s.length_report hn
    have hdrop : ((s.report nonce).drop 0x1A8).length = (s.report nonce).length - 0x1A8 := List.length_drop
    omega
  rw [← List.take_of_length_le hall]
  exact s.report_field 15 hn rfl

/-! ### The word at 0x034 -/

theorem State.nb_uFlag_lt (s : State) : nb s.uFlag < 2 := by
  cases s.uFlag <;> decide

theorem State.active_lt (s : State) : s.fget F.TAP_STATUS_ACTIVE < 2 := bits_lt _ _ _

theorem State.runSvn_lt (s : State) : s.fget F.TAP_FW_STATUS_RUN_SVN < 64 := bits_lt _ _ _

theorem State.reportStatus_lt (s : State) : s.reportStatus < 2 ^ 64 := by
  have hu := s.nb_uFlag_lt
  have ha := s.active_lt
  have hv := s.runSvn_lt
  simp only [State.reportStatus]
  omega

theorem State.bit_reportStatus (s : State) : bit s.reportStatus 0 = s.uFlag := by
  have hlow : s.reportStatus % 2 = nb s.uFlag := by
    have hu := s.nb_uFlag_lt
    simp only [State.reportStatus]
    omega
  rw [bit, Nat.testBit_zero, hlow]
  cases s.uFlag <;> rfl

theorem State.bits_reportStatus_active (s : State) : bits s.reportStatus 1 2 = s.fget F.TAP_STATUS_ACTIVE := by
  have hu := s.nb_uFlag_lt
  have ha := s.active_lt
  simp only [State.reportStatus, bits]
  omega

theorem State.bits_reportStatus_svn (s : State) : bits s.reportStatus 8 8 = s.fget F.TAP_FW_STATUS_RUN_SVN := by
  have hu := s.nb_uFlag_lt
  have ha := s.active_lt
  have hv := s.runSvn_lt
  simp only [State.reportStatus, bits]
  omega

/-! ### The words of the report -/

section
variable (s : State) {nonce : List Byte} (hn : nonce.length = 32)
include hn

theorem State.report_format : wordAt (s.report nonce) 0 4 = 1 :=
  wordAt_of_toBytes (s.report_field 0 hn rfl)

theorem State.report_serial : wordAt (s.report nonce) 0x24 8 = (s.reg .TAP_SERIAL 0).toNat :=
  (wordAt_of_toBytes (s.report_field 2 hn rfl)).trans (Nat.mod_eq_of_lt (s.reg .TAP_SERIAL 0).isLt)

theorem State.report_time : wordAt (s.report nonce) 0x2C 8 = s.now :=
  (wordAt_of_toBytes (s.report_field 3 hn rfl)).trans (Nat.mod_mod _ _)

theorem State.report_status : wordAt (s.report nonce) 0x34 8 = s.reportStatus :=
  (wordAt_of_toBytes (s.report_field 4 hn rfl)).trans (Nat.mod_eq_of_lt s.reportStatus_lt)

theorem State.report_hbm : wordAt (s.report nonce) 0x15C 4 = s.capacity.1 % 2 ^ 32 :=
  wordAt_of_toBytes (s.report_field 11 hn rfl)

theorem State.report_outerTier : wordAt (s.report nonce) 0x160 4 = s.capacity.2 % 2 ^ 32 :=
  wordAt_of_toBytes (s.report_field 12 hn rfl)

theorem State.report_clusters : wordAt (s.report nonce) 0x164 4 = s.clustersLeft % 2 ^ 32 :=
  wordAt_of_toBytes (s.report_field 13 hn rfl)

end

/-! ### The request -/

theorem State.spdm_doe_of_served {s : State} (r : State) (h : s.host.served = true) :
    s.spdm .doe r = .next (r.event edge0 519) := congrArg _ (if_pos h)

theorem State.spdm_mctp_of_up {s : State} (r : State) (hm : s.flag F.TAP_READY_MCTP = true)
    (ha : s.tap.i3cAddr.isSome = true) (he : s.pwr.edge0Failed = false) : s.spdm .mctp r = .next r :=
  if_pos ⟨hm, ha, by simp [he]⟩

/-- The request for the report is answered with it, by the path that it came by. -/
theorem exec_vendorDefinedRequest_report (path : SpdmPath) (s : State) {nonce : List Byte} (rest : List Byte)
    (hn : nonce.length = 32) :
    exec (.vendorDefinedRequest path 3 0x1F3B (1 :: nonce ++ rest)) s =
      s.spdm path (s.emit (.spdm path 0x7E (s.report nonce))) := by
  have hlen : 33 ≤ (1 :: nonce ++ rest).length := by
    simp only [List.cons_append, List.length_cons, List.length_append]
    omega
  have hnonce : ((1 :: nonce ++ rest).drop 1).take 32 = nonce := by
    rw [← hn]
    exact List.take_left
  change execVendorDefinedRequest path 3 0x1F3B (1 :: nonce ++ rest) s = _
  rw [execVendorDefinedRequest, if_pos ⟨rfl, rfl, rfl, hlen⟩, hnonce]

/-- Settles O50: the request comes to the report on either path, and each field is read back from the list of fields. -/
theorem measurementReportResults : Obligations.MeasurementReportResults := by
  intro s nonce rest hn l body
  have hbody : measBytes (Config.sha384 body) = s.reportHash nonce := by
    rw [State.reportHash, ← s.take_report hn]
  refine ⟨fun hs => ?doe, fun hm ha he => ?mctp, s.length_report hn, fun m => ⟨rfl, rfl⟩, s.report_format hn,
    s.report_field 1 hn rfl, s.report_serial hn, s.report_time hn, ?u, ?active, ?svn,
    fun i hi => s.report_measurement hn hi, s.report_hbm hn, s.report_outerTier hn, s.report_clusters hn, ?ed25519, ?mlDsa⟩
  case doe => rw [exec_vendorDefinedRequest_report .doe s rest hn, State.spdm_doe_of_served _ hs]
  case mctp => rw [exec_vendorDefinedRequest_report .mctp s rest hn, State.spdm_mctp_of_up _ hm ha he]
  case u => rw [s.report_status hn, s.bit_reportStatus]
  case active => rw [s.report_status hn, s.bits_reportStatus_active]
  case svn => rw [s.report_status hn, s.bits_reportStatus_svn]
  case ed25519 =>
    rw [hbody]
    exact s.report_field 14 hn rfl
  case mlDsa =>
    rw [hbody]
    exact s.drop_report hn

end Sys2Proof.Machine
end
